-- ==== Sys2Proof/Word.lean ====
section
/-! DEFINITION. The word and byte types of the LY2880 and their plainest readings (R4, R5). -/
namespace Sys2Proof

/-- A 32-bit register word (R51). -/
abbrev Word := BitVec 32

/-- A byte of a frame, a command frame or a memory. -/
abbrev Byte := BitVec 8

/-- A word whose value is the natural number `n` mod 2^32. -/
abbrev word (n : Nat) : Word := BitVec.ofNat 32 n

end Sys2Proof
end

