-- ==== Sys2Proof/Config.lean ====
section
/-! DEFINITION. What the spec leaves to each device or leaves open: opaque constants. No proof can see a value of one, so a
claim holds whatever it is (log entry 2). A function of a `Nat` is applied to the fresh-value counter of State, or to the
operands the rule names. -/
namespace Sys2Proof.Config

/-- A random session number (R105); the model replaces 0 by 1, since SESSION is non-zero. -/
opaque freeSession : Nat → BitVec 16
/-- A nonce of the hardware random source (R103). -/
opaque freeNonce : Nat → BitVec 256
/-- A challenge ID (R103). -/
opaque freeChallengeId : Nat → BitVec 16
/-- The fused maker key, unique per device (R107). -/
opaque makerKey : BitVec 256
/-- The fused serial number, high and low word (R120, R514). -/
opaque serialHi : Word
/-- The low word of the serial number (R120, R514). -/
opaque serialLo : Word
/-- The DCR byte: GETDCR returns it, and the spec states no value (R68). -/
opaque dcr : Byte
/-- The two GETSTATUS bytes, whose content the spec does not state (R68). -/
opaque i3cStatus : Nat → BitVec 16
/-- The GETMXDS bytes, whose content the spec does not state (R68). -/
opaque i3cMaxSpeed : BitVec 16
/-- A byte of the persistent store as shipped, in a firmware slot or the calibration region (R514). -/
opaque shippedByte : Nat → Byte
/-- Where in the calibration region the management MAC address lies, which the spec does not state (R97, R115). -/
opaque macPlace : Nat
/-- Where in the calibration region REF_LVDS stands, and what the byte there says, none where the data lacks it; the spec states neither (R509). -/
opaque lvdsPlace : Nat
opaque refLvds : Byte → Option Bool
/-- A byte of the boot ROM (R62). -/
opaque bootRomByte : Nat → Byte
/-- Whether a firmware image carries a valid maker signature (R483): the ECDSA P-384 check. -/
opaque signatureOk : List Byte → Bool

/-- A choice among `n` equal candidates that the spec leaves to the device: fresh number, then `n`. -/
opaque pick : Nat → Nat → Nat
/-- The TW_INDEX of a label that has no slot in the base yet, which the spec does not state (R211, R217). -/
opaque freeIndex : Nat → BitVec 24
/-- A value of the pseudo-random generator of ECN marking, whose sequence the spec does not give (R304). -/
opaque ecnRandom : Nat → BitVec 16
/-- The rate that the servo's loop update chooses (R350), which the spec gives no formula for; the model clamps it. -/
opaque servoRate : Nat → Int
/-- The phase correction per cycle that the loop update chooses (R350), likewise. -/
opaque servoPhase : Nat → Int
/-- Whether a word written while its page's reset is in progress keeps the written value; the spec does not define it (R478). -/
opaque resetKeeps : Nat → Bool
/-- What a read returns where no rule fixes it: the level at a GPIO ball that the device does not drive (R500), and a stage view
that is not stable (R451). -/
opaque openWord : Nat → Word
/-- The time stamps of port 240, which takes none (R338): what stands where a punt header, a report or a sample carries the ingress stamp
of a frame of that port, by frame, and the egress stamp of a copy sent to it, by copy. -/
opaque internalStamp : Bool → Nat → Int

end Sys2Proof.Config
end

