-- ==== Sys2Proof/Machine/Crc.lean ====
section
/-! DEFINITION. The checksums the spec names: CRC-16/CCITT-FALSE (R74), CRC-32 of IEEE 802.3 (R41), a CRC over any
8-bit polynomial, and SHA-256 with HMAC (R104), over lists of bytes. -/
namespace Sys2Proof.Machine

/-- The bytes of a word, most significant first (R6). -/
def wordBytes (w : Word) : List Byte :=
  [w.extractLsb' 24 8, w.extractLsb' 16 8, w.extractLsb' 8 8, w.extractLsb' 0 8]

/-- The number that bytes spell, most significant first (R6). -/
def beNat (l : List Byte) : Nat := l.foldl (fun a b => a * 256 + b.toNat) 0

/-- The `n` bytes of a number, most significant first (R6). -/
def beBytes : Nat → Nat → List Byte
  | 0, _ => []
  | n + 1, v => BitVec.ofNat 8 (v / 256 ^ n) :: beBytes n v

/-- The words that bytes spell, four bytes each, most significant first; a last group of fewer than four is left out. -/
def toWords : List Byte → List Word
  | a :: b :: c :: d :: t => word (beNat [a, b, c, d]) :: toWords t
  | _ => []

/-- One bit step of CRC-16/CCITT-FALSE. -/
def crc16Bit (c : BitVec 16) : BitVec 16 :=
  if c.getMsbD 0 then (c <<< 1) ^^^ 0x1021#16 else c <<< 1

/-- One byte step of CRC-16/CCITT-FALSE. -/
def crc16Byte (c : BitVec 16) (b : Byte) : BitVec 16 :=
  let c := c ^^^ (b.setWidth 16 <<< 8)
  crc16Bit (crc16Bit (crc16Bit (crc16Bit (crc16Bit (crc16Bit (crc16Bit (crc16Bit c)))))))

/-- CRC-16/CCITT-FALSE (R74): polynomial 0x1021, initial value 0xFFFF, no reflection, no final XOR. -/
def crc16 (l : List Byte) : BitVec 16 := l.foldl crc16Byte 0xFFFF#16

/-- One bit step of the reflected CRC-32. -/
def crc32Bit (c : Word) : Word :=
  if c.getLsbD 0 then (c >>> 1) ^^^ 0xEDB88320#32 else c >>> 1

/-- One byte step of the reflected CRC-32. -/
def crc32Byte (c : Word) (b : Byte) : Word :=
  let c := c ^^^ b.setWidth 32
  crc32Bit (crc32Bit (crc32Bit (crc32Bit (crc32Bit (crc32Bit (crc32Bit (crc32Bit c)))))))

/-- CRC-32 of IEEE 802.3 (R41): 0x04C1_1DB7 reflected, initial value and final XOR 0xFFFF_FFFF. -/
def crc32 (l : List Byte) : Word := (l.foldl crc32Byte 0xFFFFFFFF#32) ^^^ 0xFFFFFFFF#32

/-- One bit step of an 8-bit CRC with polynomial `p`. -/
def crc8Bit (p c : Byte) : Byte := if c.getMsbD 0 then (c <<< 1) ^^^ p else c <<< 1

/-- An 8-bit CRC, most significant bit first, with initial value 0. -/
def crc8 (p : Byte) (l : List Byte) : Byte :=
  l.foldl (fun c b =>
    let c := c ^^^ b
    crc8Bit p (crc8Bit p (crc8Bit p (crc8Bit p (crc8Bit p (crc8Bit p (crc8Bit p (crc8Bit p c)))))))) 0

/-- Settle the low `b` bits of the greatest `r` with `r ^ k ≤ m`, the higher ones being set already. -/
def rootBits (k m : Nat) : Nat → Nat → Nat
  | 0, r => r
  | b + 1, r => rootBits k m b (if (r + 2 ^ b) ^ k ≤ m then r + 2 ^ b else r)

/-- The first 32 bits of the fraction of the `k`-th root of `n`, a root below 8: what SHA-256 takes its constants from. -/
def rootFraction (k n : Nat) : Word := word (rootBits k (n * 2 ^ (32 * k)) 35 0)

/-- The primes up to the 64th, 311. -/
def shaPrimes : List Nat := (List.range' 2 310).filter (fun n => (List.range' 2 16).all (fun d => decide (n < d * d) || n % d != 0))

/-- The round constants of SHA-256: the cube roots of the first 64 primes. -/
def shaConstants : List Word := shaPrimes.map (rootFraction 3)

/-- The initial hash value of SHA-256: the square roots of the first eight. -/
def shaInit : List Word := (shaPrimes.take 8).map (rootFraction 2)

/-- Extend a message schedule, held newest word first, by `n` words. -/
def shaExtend : Nat → List Word → List Word
  | 0, w => w
  | n + 1, w =>
    let g := fun i => w.getD i 0
    let s0 := (g 14).rotateRight 7 ^^^ (g 14).rotateRight 18 ^^^ (g 14) >>> 3
    let s1 := (g 1).rotateRight 17 ^^^ (g 1).rotateRight 19 ^^^ (g 1) >>> 10
    shaExtend n ((g 15 + s0 + g 6 + s1) :: w)

/-- One round of SHA-256 on the eight working words. -/
def shaRound (h : List Word) (kw : Word) : List Word :=
  match h with
  | [a, b, c, d, e, f, g, hh] =>
    let s1 := e.rotateRight 6 ^^^ e.rotateRight 11 ^^^ e.rotateRight 25
    let ch := (e &&& f) ^^^ (~~~e &&& g)
    let t1 := hh + s1 + ch + kw
    let s0 := a.rotateRight 2 ^^^ a.rotateRight 13 ^^^ a.rotateRight 22
    let mj := (a &&& b) ^^^ (a &&& c) ^^^ (b &&& c)
    [t1 + (s0 + mj), a, b, c, d + t1, e, f, g]
  | l => l

/-- One block of sixteen words. -/
def shaBlock (h : List Word) (blk : List Word) : List Word :=
  let ws := (shaExtend 48 blk.reverse).reverse
  let r := (List.zipWith (fun k w => k + w) shaConstants ws).foldl shaRound h
  List.zipWith (fun a b => a + b) h r

/-- The blocks of a padded message, sixteen words each. -/
def shaBlocks : Nat → List Word → List Word → List Word
  | 0, _, h => h
  | n + 1, ws, h => shaBlocks n (ws.drop 16) (shaBlock h (ws.take 16))

/-- SHA-256. -/
def sha256 (m : List Byte) : List Byte :=
  let z := (119 - m.length % 64) % 64
  let p := m ++ [0x80#8] ++ List.replicate z 0#8 ++ beBytes 8 (m.length * 8)
  (shaBlocks (p.length / 64) (toWords p) shaInit).flatMap wordBytes

/-- HMAC-SHA-256 under a 256-bit key (R104). -/
def hmac256 (key : BitVec 256) (m : List Byte) : List Byte :=
  let k := beBytes 32 key.toNat ++ List.replicate 32 0#8
  sha256 (k.map (· ^^^ 0x5C#8) ++ sha256 (k.map (· ^^^ 0x36#8) ++ m))

end Sys2Proof.Machine
end

