-- ==== Sys2Proof/Machine/Store.lean ====
section
/-! DEFINITION. Sparse keyed storage in one canonical form: keys strictly rising, no entry equal to what an unlisted
key reads as. Every register file, window, table and memory of the model is held this way. -/
namespace Sys2Proof.Machine

/-- What key `k` holds: its entry, or `d` where it has none. -/
def Store.get {α : Type} (d : α) (k : Nat) : List (Nat × α) → α
  | [] => d
  | (j, v) :: t => if j = k then v else if k < j then d else Store.get d k t

/-- Drop the entry of key `k`. -/
def Store.erase {α : Type} (k : Nat) : List (Nat × α) → List (Nat × α)
  | [] => []
  | (j, v) :: t => if j = k then t else if k < j then (j, v) :: t else (j, v) :: Store.erase k t

/-- Put an entry for key `k` in its place. -/
def Store.insert {α : Type} (k : Nat) (v : α) : List (Nat × α) → List (Nat × α)
  | [] => [(k, v)]
  | (j, u) :: t =>
    if j = k then (k, v) :: t else if k < j then (k, v) :: (j, u) :: t else (j, u) :: Store.insert k v t

/-- Write `v` at key `k` of a store whose unlisted keys read as `d k`. -/
def Store.put {α : Type} [DecidableEq α] (d : Nat → α) (k : Nat) (v : α) (m : List (Nat × α)) : List (Nat × α) :=
  if v = d k then Store.erase k m else Store.insert k v m

/-- Write `v` at key `k` of a store whose unlisted keys all read as `d`. -/
abbrev Store.set {α : Type} [DecidableEq α] (d : α) (k : Nat) (v : α) (m : List (Nat × α)) : List (Nat × α) :=
  Store.put (fun _ => d) k v m

/-- Apply `f` to what key `k` holds. -/
abbrev Store.upd {α : Type} [DecidableEq α] (d : α) (k : Nat) (f : α → α) (m : List (Nat × α)) : List (Nat × α) :=
  Store.set d k (f (Store.get d k m)) m

/-- The canonical form: keys strictly rising and no entry equal to its default. -/
def Store.wf {α : Type} [DecidableEq α] (d : Nat → α) : List (Nat × α) → Bool
  | [] => true
  | [(k, v)] => v != d k
  | (k, v) :: (j, u) :: t => (v != d k) && decide (k < j) && Store.wf d ((j, u) :: t)

/-- The canonical form of a set of numbers: strictly rising. -/
def Store.setWf : List Nat → Bool
  | [] => true
  | [_] => true
  | a :: b :: t => decide (a < b) && Store.setWf (b :: t)

/-- Put a number into a rising list. -/
def Store.addKey (k : Nat) : List Nat → List Nat
  | [] => [k]
  | j :: t => if j = k then j :: t else if k < j then k :: j :: t else j :: Store.addKey k t

end Sys2Proof.Machine
end

