-- ==== Sys2Proof/Machine/RegTab.lean ====
section
/-! DEFINITION. The register tables of the spec as data: every register row of R31, R40, R54, R55, R92, R96, R97, R120, R121,
R143, R144, R146, R172, R198-R201, R231, R232, R253, R282-R286, R310, R313, R330, R360, R362, R383, R384, R416, R437-R439,
R456, R484-R486 and R500, with its reset value and the masks of its writable fields (R10-R13). -/
namespace Sys2Proof.Machine

/-- The kinds of register page (R38); the instances of a kind share one table. -/
inductive Kind where
  | global | bellows | clocks | roles | hostif | cpctl | pstore | locks | launch | time | pmu | skim | stats | debug | pair | mgmt | bank | flexe | sprue | pipe | parse | classify | epoch | tables | learn | reorder | ladle | crucible | ingot | stack | tm | police | voq | credit | gates | mcast
  deriving DecidableEq, Repr

/-- One row of a register table (R10): `count` words from offset `off`, `stride` bytes apart, with reset value `reset`,
the mask `rw` of bits a write sets (LV and CF and WO), the mask `w1c` of bits a 1 clears, the mask `w1s` of bits a 1 sets or
triggers, and whether the word reads as 0 (`wo`). A bit in none of the masks is RO or reserved (R12). -/
structure RegRow where
  off : Nat
  stride : Nat
  count : Nat
  reset : Nat
  rw : Nat
  w1c : Nat
  w1s : Nat
  wo : Bool
  name : String
  deriving DecidableEq, Repr

/-- The rows of the common page header (R40). -/
def headerRows : List RegRow := [
  ⟨0x0, 4, 1, 0x0, 0x0, 0x0, 0x0, false, "PAGE_ID"⟩,
  ⟨0x4, 4, 1, 0x0, 0x0, 0x0, 0x0, false, "PAGE_CAPS"⟩,
  ⟨0x8, 4, 1, 0x3E80000, 0xFFFF0003, 0x0, 0x0, false, "BLK_CTRL"⟩,
  ⟨0xC, 4, 1, 0x0, 0x0, 0x700, 0x0, false, "BLK_STATUS"⟩,
  ⟨0x10, 4, 1, 0x0, 0x0, 0xFFFF0007, 0x0, false, "BLK_FAULT"⟩,
  ⟨0x14, 4, 1, 0x0, 0x0, 0xFFFF0002, 0x0, false, "INT_RAW"⟩,
  ⟨0x18, 4, 1, 0x0, 0xFFFF0003, 0x0, 0x0, false, "INT_MASK"⟩,
  ⟨0x1C, 4, 1, 0x0, 0x0, 0x0, 0x0, false, "INT_PEND"⟩,
  ⟨0x20, 4, 1, 0x0, 0x0, 0x0, 0x0, false, "CFG_SIGNATURE"⟩,
  ⟨0x28, 4, 1, 0x0, 0x0, 0x0, 0x0, false, "RIGHT_W"⟩,
  ⟨0x2C, 4, 1, 0x0, 0x0, 0x0, 0x0, false, "RIGHT_R"⟩,
  ⟨0x30, 4, 1, 0x0, 0x0, 0x0, 0x0, false, "DRAIN_DISCARDS"⟩]

/-- The rows of GLOBAL (R31, R54, R92, R484, R500). -/
def globalRows0 : List RegRow := [
  ⟨0x100, 4, 1, 0x0, 0x3, 0x0, 0x0, false, "TOPOLOGY"⟩,
  ⟨0x104, 4, 1, 0x0, 0x7, 0x0, 0x0, false, "ENGINE_PROFILE"⟩,
  ⟨0x1000, 4, 1, 0x0, 0xFFFFFFFF, 0x0, 0x0, false, "FENCE"⟩,
  ⟨0x1004, 4, 1, 0x0, 0x0, 0x0, 0x0, false, "FENCE_DONE"⟩,
  ⟨0x1008, 4, 1, 0x0, 0x0, 0x0, 0x3, false, "RESET_CTRL"⟩,
  ⟨0x100C, 4, 1, 0x0, 0xFF, 0x0, 0x80000000, false, "BLOCK_RESET"⟩,
  ⟨0x1010, 4, 1, 0x0, 0xFFFF, 0x0, 0x0, false, "GPIO_OUT"⟩,
  ⟨0x1014, 4, 1, 0x0, 0xFFFF, 0x0, 0x0, false, "GPIO_OE"⟩,
  ⟨0x2000, 4, 1, 0x0, 0x0, 0x30000, 0x0, false, "MODE_STATUS"⟩,
  ⟨0x2004, 4, 1, 0x5A4E2880, 0x0, 0x0, 0x0, false, "DEVICE_ID"⟩,
  ⟨0x2008, 4, 1, 0xB0, 0x0, 0x0, 0x0, false, "STEPPING"⟩,
  ⟨0x2010, 4, 1, 0x0, 0x0, 0x1, 0x0, false, "ACCESS_FAULT"⟩,
  ⟨0x2014, 4, 1, 0x0, 0x0, 0x0, 0x0, false, "ACCESS_FAULT_ADDR"⟩,
  ⟨0x2018, 4, 1, 0x0, 0x0, 0x0, 0x0, false, "ACCESS_FAULT_COUNT"⟩,
  ⟨0x2020, 4, 1, 0x0, 0x0, 0x1000000, 0x0, false, "SCRUB_STATUS"⟩,
  ⟨0x2024, 4, 1, 0x0, 0x0, 0x0, 0x0, false, "PARITY_FAULTS"⟩,
  ⟨0x2040, 4, 1, 0x0, 0x0, 0x0, 0x0, false, "INT_SUMMARY0"⟩,
  ⟨0x2044, 4, 1, 0x0, 0x0, 0x0, 0x0, false, "INT_SUMMARY1"⟩,
  ⟨0x2048, 4, 1, 0x0, 0x0, 0x0, 0x0, false, "INT_SUMMARY2"⟩,
  ⟨0x204C, 4, 1, 0x0, 0x0, 0x0, 0x0, false, "INT_SUMMARY3"⟩]
/-- The rows of GLOBAL, continued. -/
def globalRows1 : List RegRow := [
  ⟨0x2050, 4, 1, 0x0, 0x0, 0x0, 0x0, false, "INT_SUMMARY4"⟩,
  ⟨0x2054, 4, 1, 0x0, 0x0, 0x0, 0x0, false, "INT_SUMMARY5"⟩,
  ⟨0x2058, 4, 1, 0x0, 0x0, 0x0, 0x0, false, "INT_SUMMARY6"⟩,
  ⟨0x205C, 4, 1, 0x0, 0x0, 0x0, 0x0, false, "INT_SUMMARY7"⟩,
  ⟨0x2060, 4, 1, 0x0, 0x0, 0x0, 0x0, false, "RESET_CAUSE"⟩,
  ⟨0x2064, 4, 1, 0x0, 0x0, 0x0, 0x0, false, "STRAPS"⟩,
  ⟨0x2068, 4, 1, 0x0, 0x0, 0x300, 0x0, false, "BOOT_STATUS"⟩,
  ⟨0x2070, 4, 1, 0x0, 0x0, 0x0, 0x0, false, "GPIO_IN"⟩]
/-- All rows of GLOBAL. -/
def globalRows : List RegRow := globalRows0 ++ globalRows1

/-- The rows of BELLOWS (R485). -/
def bellowsRows : List RegRow := [
  ⟨0x100, 4, 1, 0x38402D0, 0x3FF03FF, 0x0, 0x0, false, "AVS_LIMITS"⟩,
  ⟨0x104, 4, 1, 0x5F786C64, 0xFFFFFFFF, 0x0, 0x0, false, "THERM_CFG"⟩,
  ⟨0x108, 4, 1, 0x58, 0xFF, 0x0, 0x0, false, "DRAM_WARN"⟩,
  ⟨0x10C, 4, 1, 0x1, 0x1, 0x0, 0x0, false, "PMB_CFG"⟩,
  ⟨0x110, 4, 7, 0x0, 0x1F17F, 0x0, 0x0, false, "RAIL_ADDRr"⟩,
  ⟨0x1000, 4, 1, 0x0, 0x0, 0x0, 0x1, false, "BELLOWS_CTRL"⟩,
  ⟨0x2000, 4, 1, 0x0, 0x0, 0x100, 0x0, false, "BELLOWS_STATUS"⟩,
  ⟨0x2004, 4, 1, 0x0, 0x0, 0x0, 0x0, false, "VCORE_MV"⟩,
  ⟨0x2008, 4, 1, 0x0, 0x0, 0x0, 0x0, false, "TEMP_LOGIC"⟩,
  ⟨0x200C, 4, 1, 0x0, 0x0, 0x0, 0x0, false, "TEMP_DRAM"⟩,
  ⟨0x2010, 4, 7, 0x0, 0x0, 0x0, 0x0, false, "RAIL_VOUTr"⟩,
  ⟨0x2030, 4, 7, 0x0, 0x0, 0x0, 0x0, false, "RAIL_IOUTr"⟩,
  ⟨0x2050, 4, 1, 0x0, 0x0, 0x0, 0x0, false, "POWER_W"⟩,
  ⟨0x2054, 4, 1, 0x0, 0x0, 0x0, 0x0, false, "REG_FAULTS"⟩,
  ⟨0x2058, 4, 1, 0x0, 0x0, 0x0, 0x0, false, "AVS_EMERGENCY"⟩,
  ⟨0x205C, 4, 1, 0x0, 0x0, 0x0, 0x0, false, "THROTTLES"⟩,
  ⟨0x2060, 4, 1, 0x0, 0x0, 0x0, 0x0, false, "RESTARTS"⟩]

/-- The rows of CLOCKS (R486). -/
def clocksRows : List RegRow := [
  ⟨0x100, 4, 1, 0x0, 0x1, 0x0, 0x0, false, "CLK_CFG"⟩,
  ⟨0x2000, 4, 1, 0x8, 0x0, 0x300, 0x0, false, "CLK_STATUS"⟩,
  ⟨0x2004, 4, 1, 0x0, 0x0, 0x0, 0x0, false, "REF_LOSS_COUNT"⟩,
  ⟨0x2008, 4, 1, 0x0, 0x0, 0x0, 0x0, false, "LOCK_LOSS_COUNT"⟩]

/-- The rows of ROLES (R120). -/
def rolesRows : List RegRow := [
  ⟨0x100, 4, 1, 0x258, 0xFFFF, 0x0, 0x0, false, "SESSION_IDLE"⟩,
  ⟨0x1000, 4, 8, 0x0, 0xFFFFFFFF, 0x0, 0x0, true, "KEY_STAGE0-7"⟩,
  ⟨0x1020, 4, 1, 0x0, 0x3, 0x0, 0x100, false, "KEY_CTRL"⟩,
  ⟨0x2000, 4, 1, 0x6, 0x0, 0x100, 0x0, false, "KEY_STATUS"⟩,
  ⟨0x2004, 4, 1, 0x0, 0x0, 0x0, 0x0, false, "SERIAL_HI"⟩,
  ⟨0x2008, 4, 1, 0x0, 0x0, 0x0, 0x0, false, "SERIAL_LO"⟩,
  ⟨0x200C, 4, 1, 0x0, 0x0, 0x0, 0x0, false, "SESSION_I3C"⟩,
  ⟨0x2010, 4, 1, 0x0, 0x0, 0x0, 0x0, false, "SESSION_MGMT"⟩,
  ⟨0x2014, 4, 1, 0x0, 0x0, 0x0, 0x0, false, "LOGIN_FAIL_COUNT"⟩,
  ⟨0x2018, 4, 1, 0x0, 0x0, 0x0, 0x0, false, "DENY_COUNT"⟩,
  ⟨0x201C, 4, 1, 0x0, 0x0, 0x0, 0x0, false, "AUDIT_NEXT"⟩,
  ⟨0x2020, 4, 1, 0x0, 0x0, 0x0, 0x0, false, "AUDIT_OLDEST"⟩,
  ⟨0x2024, 4, 1, 0x0, 0x0, 0x0, 0x0, false, "LOCKOUT"⟩]

/-- The rows of HOSTIF (R97). -/
def hostifRows : List RegRow := [
  ⟨0x100, 4, 1, 0x5, 0x1F, 0x0, 0x0, false, "I3C_CFG"⟩,
  ⟨0x104, 4, 1, 0x0, 0xFFFF, 0x0, 0x0, false, "MGMT_MAC_HI"⟩,
  ⟨0x108, 4, 1, 0x0, 0xFFFFFFFF, 0x0, 0x0, false, "MGMT_MAC_LO"⟩,
  ⟨0x10C, 4, 1, 0x0, 0x1FFF, 0x0, 0x0, false, "MGMT_VLAN"⟩,
  ⟨0x1000, 4, 1, 0x111111, 0x777777, 0x0, 0x0, false, "INT_ROUTE"⟩,
  ⟨0x2000, 4, 1, 0x0, 0x0, 0x0, 0x0, false, "HOST_STATUS"⟩,
  ⟨0x2004, 4, 1, 0x58, 0x0, 0x0, 0x0, false, "STATIC_ADDR"⟩,
  ⟨0x2008, 4, 1, 0x0, 0x0, 0x0, 0x0, false, "CMD_COUNT_I3C"⟩,
  ⟨0x200C, 4, 1, 0x0, 0x0, 0x0, 0x0, false, "CMD_COUNT_MGMT"⟩,
  ⟨0x2010, 4, 1, 0x0, 0x0, 0x0, 0x0, false, "BAD_CRC_COUNT"⟩,
  ⟨0x2014, 4, 1, 0x0, 0x0, 0x0, 0x0, false, "BUSY_COUNT"⟩,
  ⟨0x2018, 4, 1, 0x0, 0x0, 0x0, 0x0, false, "MGMT_DISCARDS"⟩,
  ⟨0x201C, 4, 1, 0x0, 0x0, 0x80000000, 0x0, false, "NR_ERROR"⟩]

/-- The rows of CPCTL (R96). -/
def cpctlRows : List RegRow := [
  ⟨0x100, 4, 1, 0x0, 0xE, 0x0, 0x0, false, "APP_CORES"⟩,
  ⟨0x104, 4, 1, 0x0, 0x3, 0x0, 0x0, false, "APP_RIGHTS"⟩,
  ⟨0x108, 4, 1, 0x10400000, 0xFFFFFFFF, 0x0, 0x0, false, "APP_SRAM_BASE"⟩,
  ⟨0x10C, 4, 1, 0x0, 0xFFFFFFFF, 0x0, 0x0, false, "APP_SRAM_SIZE"⟩,
  ⟨0x110, 4, 1, 0xA0000000, 0xFFFFFFFF, 0x0, 0x0, false, "APP_DRAM_BASE"⟩,
  ⟨0x114, 4, 1, 0x0, 0xFFFFFFFF, 0x0, 0x0, false, "APP_DRAM_SIZE"⟩,
  ⟨0x118, 4, 1, 0x10400000, 0xFFFFFFFF, 0x0, 0x0, false, "APP_ENTRY"⟩,
  ⟨0x11C, 4, 1, 0x0, 0xFFFFFFFF, 0x0, 0x0, false, "APP_IMAGE_CRC"⟩,
  ⟨0x120, 4, 1, 0x0, 0xFFFF, 0x0, 0x0, false, "APP_CPU_LIMIT"⟩,
  ⟨0x140, 4, 1, 0x0, 0xFFFFDF11, 0x0, 0x0, false, "APP_PAGE_R0"⟩,
  ⟨0x144, 4, 7, 0x0, 0xFFFFFFFF, 0x0, 0x0, false, "APP_PAGE_R1-7"⟩,
  ⟨0x160, 4, 1, 0x0, 0xFFFFDF11, 0x0, 0x0, false, "APP_PAGE_W0"⟩,
  ⟨0x164, 4, 7, 0x0, 0xFFFFFFFF, 0x0, 0x0, false, "APP_PAGE_W1-7"⟩,
  ⟨0x1000, 4, 1, 0x0, 0x0, 0x0, 0xF, false, "CORE_RESET"⟩,
  ⟨0x1004, 4, 1, 0x0, 0x0, 0x0, 0x0, true, "WDT_KICK"⟩,
  ⟨0x1008, 4, 1, 0x64, 0x1FFFF, 0x0, 0x0, false, "WDT_CTRL"⟩,
  ⟨0x100C, 4, 1, 0x10400000, 0xFFFFFFFF, 0x0, 0x0, false, "WIN_BASE"⟩,
  ⟨0x2000, 4, 1, 0x0, 0x0, 0x400, 0x0, false, "CP_STATUS"⟩,
  ⟨0x2004, 4, 1, 0x0, 0x0, 0x0, 0x0, false, "FW_VERSION"⟩,
  ⟨0x2008, 4, 1, 0x0, 0x0, 0x0, 0x0, false, "APP_FAULT"⟩,
  ⟨0x200C, 4, 1, 0x0, 0x0, 0x0, 0x0, false, "APP_FAULT_ADDR"⟩,
  ⟨0x2010, 4, 1, 0x0, 0x0, 0x0, 0x0, false, "APP_FAULT_COUNT"⟩]

/-- The rows of PSTORE (R121). -/
def pstoreRows : List RegRow := [
  ⟨0x1000, 4, 1, 0x1080000, 0xFFFFFFFF, 0x0, 0x0, false, "WIN_BASE"⟩,
  ⟨0x2000, 4, 1, 0x11, 0x0, 0x0, 0x0, false, "SLOT_STATUS"⟩,
  ⟨0x2004, 4, 1, 0x0, 0x0, 0x0, 0x0, false, "WEAR_AUDIT"⟩,
  ⟨0x2008, 4, 1, 0x0, 0x0, 0x0, 0x0, false, "WEAR_OTHER"⟩,
  ⟨0x200C, 4, 1, 0x0, 0x0, 0x0, 0x0, false, "WRITE_REFUSED"⟩]

/-- The rows of LOCKS (R55). -/
def locksRows : List RegRow := [
  ⟨0x1000, 4, 64, 0x0, 0xF, 0x0, 0x0, false, "LOCKk"⟩,
  ⟨0x2000, 4, 1, 0x0, 0x0, 0xFFFFFFFF, 0x0, false, "BROKEN_LO"⟩,
  ⟨0x2004, 4, 1, 0x0, 0x0, 0xFFFFFFFF, 0x0, false, "BROKEN_HI"⟩]

/-- The rows of LAUNCH (R362). -/
def launchRows : List RegRow := [
  ⟨0x1000, 4, 1, 0x0, 0xFF, 0x0, 0x0, false, "SLOT_SEL"⟩,
  ⟨0x2000, 4, 1, 0x0, 0x0, 0x30000, 0x0, false, "LAUNCH_STATUS"⟩,
  ⟨0x2004, 4, 1, 0x0, 0x0, 0x0, 0x0, false, "APPLIED_COUNT"⟩,
  ⟨0x2008, 4, 1, 0x0, 0x0, 0x0, 0x0, false, "LATE_COUNT"⟩,
  ⟨0x200C, 4, 1, 0x0, 0x0, 0x0, 0x0, false, "MISSED_COUNT"⟩,
  ⟨0x2010, 4, 1, 0x0, 0x0, 0x0, 0x0, false, "CANCELLED_COUNT"⟩,
  ⟨0x2100, 4, 32, 0x0, 0x0, 0x0, 0x0, false, "SLOT_STATEj"⟩]

/-- The rows of TIME (R360). -/
def timeRows0 : List RegRow := [
  ⟨0x100, 4, 1, 0x7D0000, 0xFFFF00F1, 0x0, 0x0, false, "TIME_CFG"⟩,
  ⟨0x104, 4, 1, 0x3E80064, 0xFFFFFFFF, 0x0, 0x0, false, "SERVO_CFG"⟩,
  ⟨0x108, 4, 1, 0x3E8000, 0xFFFFF00F, 0x0, 0x0, false, "PPS_CFG"⟩,
  ⟨0x10C, 4, 1, 0x0, 0xFFFFFFFF, 0x0, 0x0, false, "PPS_DELAY"⟩,
  ⟨0x1000, 4, 1, 0x0, 0xFF0003, 0x0, 0x100, false, "TB_CTRL"⟩,
  ⟨0x1004, 4, 1, 0x186A0, 0xFFFFF, 0x0, 0x0, false, "SLEW_RATE"⟩,
  ⟨0x1008, 4, 1, 0xF4240, 0xFFFFFFFF, 0x0, 0x0, false, "STEP_LIMIT"⟩,
  ⟨0x1040, 32, 2, 0x0, 0xFFFFFFFF, 0x0, 0x0, false, "FREQd"⟩,
  ⟨0x1044, 32, 2, 0x0, 0xFFFFFFFF, 0x0, 0x0, false, "STEPd_S"⟩,
  ⟨0x1048, 32, 2, 0x0, 0xFFFFFFFF, 0x0, 0x0, false, "STEPd_NS"⟩,
  ⟨0x104C, 32, 2, 0x0, 0xFFFF, 0x0, 0x0, false, "SETd_SH"⟩,
  ⟨0x1050, 32, 2, 0x0, 0xFFFFFFFF, 0x0, 0x0, false, "SETd_SL"⟩,
  ⟨0x1054, 32, 2, 0x0, 0xFFFFFFFF, 0x0, 0x0, false, "SETd_NS"⟩,
  ⟨0x1058, 32, 2, 0x0, 0x0, 0x0, 0x3, false, "DOM_CTRLd"⟩,
  ⟨0x1080, 4, 2, 0xFF, 0x7FF, 0x0, 0x0, false, "RCLK_SELn"⟩,
  ⟨0x10C0, 4, 16, 0x0, 0xFFFFFFFF, 0x0, 0x0, false, "GROUP_ASYMg"⟩,
  ⟨0x2000, 4, 1, 0x0, 0x0, 0x0, 0x0, false, "NOW_LO"⟩,
  ⟨0x2004, 4, 1, 0x0, 0x0, 0x0, 0x0, false, "NOW_HI"⟩,
  ⟨0x2008, 4, 1, 0x0, 0x0, 0x0, 0x0, false, "NOW_X"⟩,
  ⟨0x2010, 4, 1, 0x0, 0x0, 0x1F00, 0x0, false, "TIME_STATUS"⟩]
/-- The rows of TIME, continued. -/
def timeRows1 : List RegRow := [
  ⟨0x2014, 4, 1, 0x0, 0x0, 0x0, 0x0, false, "DELTA"⟩,
  ⟨0x2018, 4, 1, 0x0, 0x0, 0x0, 0x0, false, "STEPS"⟩,
  ⟨0x2020, 4, 3, 0x0, 0x0, 0x0, 0x0, false, "SNAP_TB"⟩,
  ⟨0x2030, 4, 3, 0x0, 0x0, 0x0, 0x0, false, "SNAP_A"⟩,
  ⟨0x2040, 4, 3, 0x0, 0x0, 0x0, 0x0, false, "SNAP_B"⟩,
  ⟨0x2050, 4, 3, 0x0, 0x0, 0x0, 0x0, false, "PPSIN_TB"⟩,
  ⟨0x2060, 4, 3, 0x0, 0x0, 0x0, 0x0, false, "PPSIN_A"⟩,
  ⟨0x2070, 4, 3, 0x0, 0x0, 0x0, 0x0, false, "PPSIN_B"⟩,
  ⟨0x207C, 4, 1, 0x0, 0x0, 0x0, 0x0, false, "PPS_IN_COUNT"⟩,
  ⟨0x2080, 4, 1, 0x0, 0x0, 0x0, 0x0, false, "SERVO_OFFSET"⟩,
  ⟨0x2084, 4, 1, 0x0, 0x0, 0x0, 0x0, false, "LINK_DELAY"⟩,
  ⟨0x2088, 4, 1, 0x0, 0x0, 0x0, 0x0, false, "R_CORR"⟩,
  ⟨0x208C, 4, 1, 0x0, 0x0, 0x0, 0x0, false, "EXCH_OK"⟩,
  ⟨0x2090, 4, 1, 0x0, 0x0, 0x0, 0x0, false, "EXCH_LOST"⟩,
  ⟨0x2094, 4, 1, 0x0, 0x0, 0x0, 0x0, false, "EXCH_ANSWERED"⟩]
/-- All rows of TIME. -/
def timeRows : List RegRow := timeRows0 ++ timeRows1

/-- The rows of PMU (R438). -/
def pmuRows : List RegRow := [
  ⟨0x1000, 4, 1, 0x0, 0x1, 0x0, 0x2, false, "PMU_CTRL"⟩,
  ⟨0x1004, 4, 1, 0x0, 0x1FFF, 0x0, 0x0, false, "RING_RD"⟩,
  ⟨0x1008, 4, 1, 0x800, 0x1FFF, 0x0, 0x0, false, "RING_THRESH"⟩,
  ⟨0x100C, 4, 1, 0x0, 0xF, 0x0, 0x0, false, "RING_PAGE"⟩,
  ⟨0x1010, 4, 8, 0x0, 0xFFFFFFFF, 0x0, 0x0, false, "USER_EN0-7"⟩,
  ⟨0x2000, 4, 1, 0x0, 0x0, 0x0, 0x0, false, "PMU_STATUS"⟩,
  ⟨0x2004, 4, 1, 0x0, 0x0, 0x0, 0x0, false, "SAMPLES_WRITTEN"⟩,
  ⟨0x2008, 4, 1, 0x0, 0x0, 0x0, 0x0, false, "SAMPLES_LOST"⟩,
  ⟨0x2040, 4, 8, 0x0, 0x0, 0x0, 0x0, false, "OVF_SUMMARY0-7"⟩,
  ⟨0x2100, 8, 256, 0x0, 0xFFFFFFFF, 0x0, 0x0, false, "VALUEn_LO"⟩,
  ⟨0x2104, 8, 256, 0x0, 0x8000FFFF, 0x0, 0x0, false, "VALUEn_HI"⟩]

/-- The rows of SKIM (R439). -/
def skimRows : List RegRow := [
  ⟨0x100, 4, 1, 0x2000, 0xFFFFF, 0x0, 0x0, false, "SKIM_CFG"⟩,
  ⟨0x1000, 64, 16, 0x0, 0xFFFF007F, 0x0, 0x0, false, "SESSION_W0"⟩,
  ⟨0x1004, 64, 16, 0x80, 0x3FFF, 0x0, 0x0, false, "SESSION_W1"⟩,
  ⟨0x1008, 64, 16, 0x0, 0xFFFFFF, 0x0, 0x0, false, "SESSION_W2"⟩,
  ⟨0x100C, 64, 16, 0x8100, 0xFFFFFFFF, 0x0, 0x0, false, "SESSION_W3"⟩,
  ⟨0x1010, 64, 16, 0x0, 0xFFFF, 0x0, 0x0, false, "SESSION_W4"⟩,
  ⟨0x1014, 64, 16, 0x0, 0xFFFFFFFF, 0x0, 0x0, false, "SESSION_W5"⟩,
  ⟨0x1018, 64, 16, 0x88B64000, 0xFFFFFFFF, 0x0, 0x0, false, "SESSION_W6"⟩,
  ⟨0x101C, 64, 16, 0x0, 0xFFFFFFFF, 0x0, 0x0, false, "SESSION_W7"⟩,
  ⟨0x1020, 64, 16, 0x0, 0xFFFFFFFF, 0x0, 0x0, false, "SESSION_W8"⟩,
  ⟨0x1024, 64, 16, 0x0, 0xFFFFFFFF, 0x0, 0x0, false, "SESSION_W9"⟩,
  ⟨0x1028, 64, 16, 0x0, 0xFFFFFFFF, 0x0, 0x0, false, "SESSION_W10"⟩,
  ⟨0x102C, 64, 16, 0x0, 0xFFFFFFFF, 0x0, 0x0, false, "SESSION_W11"⟩,
  ⟨0x1030, 64, 16, 0x0, 0xFFFFFFFF, 0x0, 0x0, false, "SESSION_W12"⟩,
  ⟨0x1034, 64, 16, 0x0, 0xFFFFFFFF, 0x0, 0x0, false, "SESSION_W13"⟩,
  ⟨0x1038, 64, 16, 0x0, 0xFFFFFFFF, 0x0, 0x0, false, "SESSION_W14"⟩,
  ⟨0x103C, 64, 16, 0x0, 0x0, 0x0, 0x0, false, "SESSION_W15"⟩,
  ⟨0x1400, 4, 243, 0x0, 0x1F1F, 0x0, 0x0, false, "PORT_SRCp"⟩,
  ⟨0x2100, 8, 16, 0x0, 0x0, 0x0, 0x0, false, "COPIESs"⟩,
  ⟨0x2104, 8, 16, 0x0, 0x0, 0x0, 0x0, false, "DROPSs"⟩]

/-- The rows of STATS (R437). -/
def statsRows : List RegRow := [
  ⟨0x100, 4, 1, 0x3E80001, 0xFFFF0001, 0x0, 0x0, false, "STATS_CFG"⟩,
  ⟨0x1000, 4, 1, 0x0, 0xFFF, 0x0, 0x0, false, "CWIN_SEL"⟩,
  ⟨0x1004, 4, 1, 0x0, 0x3FFFFF, 0x0, 0x0, false, "SET_INDEX"⟩,
  ⟨0x1008, 4, 1, 0x1, 0x7FFFFF, 0x0, 0x0, false, "SET_COUNT"⟩,
  ⟨0x100C, 4, 1, 0x0, 0xFFFFFFFF, 0x0, 0x0, false, "SET_FRAMES_LO"⟩,
  ⟨0x1010, 4, 1, 0x0, 0xFFFFFFFF, 0x0, 0x0, false, "SET_FRAMES_HI"⟩,
  ⟨0x1014, 4, 1, 0x0, 0xFFFFFFFF, 0x0, 0x0, false, "SET_BYTES_LO"⟩,
  ⟨0x1018, 4, 1, 0x0, 0xFFFFFFFF, 0x0, 0x0, false, "SET_BYTES_HI"⟩,
  ⟨0x101C, 4, 1, 0x0, 0x2, 0x0, 0x1, false, "SET_CTRL"⟩,
  ⟨0x2000, 4, 1, 0x0, 0x0, 0xF00, 0x0, false, "STATS_STATUS"⟩,
  ⟨0x2004, 4, 1, 0x0, 0x0, 0x0, 0x0, false, "FLUSHES"⟩,
  ⟨0x2008, 4, 1, 0x0, 0x0, 0x0, 0x0, false, "BACKING_UNCORR"⟩,
  ⟨0x200C, 4, 1, 0x0, 0x0, 0x0, 0x0, false, "FLUSH_QUEUE_MAX"⟩]

/-- The rows of DEBUG (R456). -/
def debugRows : List RegRow := [
  ⟨0x100, 4, 1, 0x0, 0xFFFF0001, 0x0, 0x0, false, "DBG_CFG"⟩,
  ⟨0x1000, 4, 1, 0x0, 0x103, 0x0, 0x0, false, "OPEN"⟩,
  ⟨0x1004, 4, 1, 0x0, 0xF, 0x0, 0x300, false, "PBP_CTRL"⟩,
  ⟨0x1008, 4, 1, 0x0, 0x0, 0x0, 0x1, false, "Q_CTRL"⟩,
  ⟨0x2000, 4, 1, 0x0, 0x0, 0x0, 0x0, false, "DBG_STATUS"⟩,
  ⟨0x2004, 4, 1, 0x0, 0x0, 0x0, 0x0, false, "HELD_PIPES"⟩,
  ⟨0x2008, 4, 1, 0x0, 0x0, 0x0, 0x0, false, "HALT_CAUSE"⟩,
  ⟨0x200C, 4, 1, 0x0, 0x0, 0x0, 0x0, false, "Q_TIME_SH"⟩,
  ⟨0x2010, 4, 1, 0x0, 0x0, 0x0, 0x0, false, "Q_TIME_SL"⟩,
  ⟨0x2014, 4, 1, 0x0, 0x0, 0x0, 0x0, false, "Q_TIME_NS"⟩,
  ⟨0x2018, 4, 1, 0x0, 0x0, 0x0, 0x0, false, "Q_DURATION"⟩,
  ⟨0x201C, 4, 1, 0x0, 0x0, 0x0, 0x0, false, "ATTACHES"⟩,
  ⟨0x2020, 4, 1, 0x0, 0x0, 0x0, 0x0, false, "BAD_PACKETS"⟩,
  ⟨0x2024, 4, 1, 0x0, 0x0, 0x0, 0x0, false, "QUENCHES"⟩,
  ⟨0x2028, 4, 1, 0x0, 0x0, 0x0, 0x0, false, "Q_IGNORED"⟩]

/-- The rows of PAIR (R416). -/
def pairRows0 : List RegRow := [
  ⟨0x100, 4, 1, 0x4, 0xFFF0007, 0x0, 0x0, false, "PAIR_CFG"⟩,
  ⟨0x104, 4, 1, 0x3E8003C, 0xFFFFFFFF, 0x0, 0x0, false, "SYNC_CFG"⟩,
  ⟨0x108, 4, 1, 0x140032, 0xFFFFFFFF, 0x0, 0x0, false, "RETX_CFG"⟩,
  ⟨0x1000, 4, 1, 0x0, 0x0, 0x0, 0x0, true, "HB_KICK"⟩,
  ⟨0x1004, 4, 1, 0x0, 0x0, 0x0, 0x3, false, "FAULT_CTRL"⟩,
  ⟨0x2000, 4, 1, 0x0, 0x0, 0x1F00, 0x0, false, "TWICEL_STATUS"⟩,
  ⟨0x2004, 4, 1, 0x0, 0x0, 0x70000, 0x0, false, "PROT_STATUS"⟩,
  ⟨0x2008, 4, 1, 0x0, 0x0, 0x0, 0x0, false, "FAULT_CAUSE"⟩,
  ⟨0x200C, 4, 1, 0x0, 0x0, 0x0, 0x0, false, "SYNC_GEN"⟩,
  ⟨0x2010, 4, 1, 0x0, 0x0, 0x0, 0x0, false, "JOURNAL_SEQ"⟩,
  ⟨0x2014, 4, 1, 0x0, 0x0, 0x0, 0x0, false, "JOURNAL_ACK"⟩,
  ⟨0x2018, 4, 1, 0x0, 0x0, 0x0, 0x0, false, "JOURNAL_LAG"⟩,
  ⟨0x201C, 4, 1, 0x0, 0x0, 0x0, 0x0, false, "RELAY_ERR_ADDR"⟩,
  ⟨0x2020, 4, 1, 0x0, 0x0, 0x0, 0x0, false, "PROMOTED_GEN"⟩,
  ⟨0x2024, 4, 1, 0x0, 0x0, 0x0, 0x0, false, "SPLITS"⟩,
  ⟨0x2028, 4, 1, 0x0, 0x0, 0x0, 0x0, false, "SPLIT_DROP"⟩,
  ⟨0x202C, 4, 1, 0x0, 0x0, 0x0, 0x0, false, "RELAYS"⟩,
  ⟨0x2030, 4, 1, 0x0, 0x0, 0x0, 0x0, false, "RELAY_RETX"⟩,
  ⟨0x2034, 4, 1, 0x0, 0x0, 0x0, 0x0, false, "LEARN_SENT"⟩,
  ⟨0x2038, 4, 1, 0x0, 0x0, 0x0, 0x0, false, "LEARN_APPLIED"⟩]
/-- The rows of PAIR, continued. -/
def pairRows1 : List RegRow := [
  ⟨0x203C, 4, 1, 0x0, 0x0, 0x0, 0x0, false, "LEARN_GAP"⟩,
  ⟨0x2040, 4, 1, 0x0, 0x0, 0x0, 0x0, false, "JOURNAL_RECORDS"⟩,
  ⟨0x2044, 4, 1, 0x0, 0x0, 0x0, 0x0, false, "JOURNAL_RETX"⟩,
  ⟨0x2048, 4, 1, 0x0, 0x0, 0x0, 0x0, false, "JOURNAL_IGNORED"⟩,
  ⟨0x204C, 4, 1, 0x0, 0x0, 0x0, 0x0, false, "STANDBY_DISCARD"⟩,
  ⟨0x2050, 4, 1, 0x0, 0x0, 0x0, 0x0, false, "SWITCHOVERS"⟩,
  ⟨0x2054, 4, 1, 0x0, 0x0, 0x0, 0x0, false, "TAKEOVERS_SENT"⟩,
  ⟨0x2058, 4, 1, 0x0, 0x0, 0x0, 0x0, false, "REJOINS"⟩]
/-- All rows of PAIR. -/
def pairRows : List RegRow := pairRows0 ++ pairRows1

/-- The rows of MGMT (R146). -/
def mgmtRows : List RegRow := [
  ⟨0x100, 4, 1, 0x0, 0xF, 0x0, 0x0, false, "MGMT_CFG"⟩,
  ⟨0x1000, 4, 1, 0x1, 0x1, 0x0, 0x0, false, "MGMT_CTRL"⟩,
  ⟨0x2000, 4, 1, 0x0, 0x0, 0x0, 0x0, false, "MGMT_STATE"⟩,
  ⟨0x2004, 4, 1, 0x0, 0x0, 0x0, 0x0, false, "RX_FRAMES"⟩,
  ⟨0x2008, 4, 1, 0x0, 0x0, 0x0, 0x0, false, "TX_FRAMES"⟩,
  ⟨0x200C, 4, 1, 0x0, 0x0, 0x0, 0x0, false, "RX_FCS_ERR"⟩,
  ⟨0x2010, 4, 1, 0x0, 0x0, 0x0, 0x0, false, "RX_RUNT"⟩,
  ⟨0x2014, 4, 1, 0x0, 0x0, 0x0, 0x0, false, "RX_OVERSIZE"⟩,
  ⟨0x2018, 4, 1, 0x0, 0x0, 0x0, 0x0, false, "RX_PAUSE_DISCARD"⟩,
  ⟨0x201C, 4, 1, 0x0, 0x0, 0x0, 0x0, false, "ES"⟩,
  ⟨0x2020, 4, 1, 0x0, 0x0, 0x0, 0x0, false, "SES"⟩,
  ⟨0x2024, 4, 1, 0x0, 0x0, 0x0, 0x0, false, "UAS"⟩]

/-- The rows of BANK (R143). -/
def bankRows0 : List RegRow := [
  ⟨0x100, 4, 1, 0x0, 0x3, 0x0, 0x0, false, "BANK_CFG"⟩,
  ⟨0x104, 4, 1, 0x0, 0xFFFF, 0x0, 0x0, false, "MAC_BASE_HI"⟩,
  ⟨0x108, 4, 1, 0x0, 0xFFFFFFFF, 0x0, 0x0, false, "MAC_BASE_LO"⟩,
  ⟨0x110, 4, 8, 0x0, 0x7, 0x0, 0x0, false, "LANE_CFG0-7"⟩,
  ⟨0x140, 4, 8, 0x0, 0x1FF, 0x0, 0x0, false, "PORT_CFG0-7"⟩,
  ⟨0x160, 4, 8, 0x2400, 0x3FFF, 0x0, 0x0, false, "PORT_MAXFRAME0-7"⟩,
  ⟨0x180, 4, 8, 0xFFFF0000, 0xFFFF01FF, 0x0, 0x0, false, "PORT_PFC0-7"⟩,
  ⟨0x1000, 4, 1, 0x0, 0xFF, 0x0, 0x0, false, "PORT_CTRL"⟩,
  ⟨0x1004, 4, 1, 0x0, 0xFFFF, 0x0, 0x0, false, "LOOPBACK"⟩,
  ⟨0x1008, 4, 1, 0x0, 0xFFFF03, 0x0, 0x0, false, "PRBS_CTRL"⟩,
  ⟨0x2000, 4, 1, 0x0, 0x0, 0x10000, 0x0, false, "BANK_STATUS"⟩,
  ⟨0x2004, 4, 1, 0x0, 0x0, 0x0, 0x0, false, "PORT_STATE"⟩,
  ⟨0x2008, 4, 1, 0x0, 0x0, 0x0, 0x0, false, "PORT_CAUSE"⟩,
  ⟨0x200C, 4, 1, 0x0, 0x0, 0xFF0000, 0x0, false, "LANE_STATUS"⟩,
  ⟨0x2100, 64, 8, 0x0, 0x0, 0x0, 0x0, false, "PORT_RX_FCS_ERR"⟩,
  ⟨0x2104, 64, 8, 0x0, 0x0, 0x0, 0x0, false, "PORT_RX_RUNT"⟩,
  ⟨0x2108, 64, 8, 0x0, 0x0, 0x0, 0x0, false, "PORT_RX_OVERSIZE"⟩,
  ⟨0x210C, 64, 8, 0x0, 0x0, 0x0, 0x0, false, "PORT_RX_PAUSE_DISCARD"⟩,
  ⟨0x2110, 64, 8, 0x0, 0x0, 0x0, 0x0, false, "PORT_RX_PFC"⟩,
  ⟨0x2114, 64, 8, 0x0, 0x0, 0x0, 0x0, false, "PORT_TX_PFC"⟩]
/-- The rows of BANK, continued. -/
def bankRows1 : List RegRow := [
  ⟨0x2118, 64, 8, 0x0, 0x0, 0x0, 0x0, false, "PORT_TX_ABORT"⟩,
  ⟨0x211C, 64, 8, 0x0, 0x0, 0x0, 0x0, false, "PORT_TX_DOWN_DROP"⟩,
  ⟨0x2120, 64, 8, 0x0, 0x0, 0x0, 0x0, false, "PORT_FEC_CORR"⟩,
  ⟨0x2124, 64, 8, 0x0, 0x0, 0x0, 0x0, false, "PORT_FEC_UNCORR"⟩,
  ⟨0x2128, 64, 8, 0x0, 0x0, 0x0, 0x0, false, "PORT_ES"⟩,
  ⟨0x212C, 64, 8, 0x0, 0x0, 0x0, 0x0, false, "PORT_SES"⟩,
  ⟨0x2130, 64, 8, 0x0, 0x0, 0x0, 0x0, false, "PORT_UAS"⟩,
  ⟨0x2400, 32, 8, 0x0, 0x0, 0x0, 0x0, false, "LANE_ES"⟩,
  ⟨0x2404, 32, 8, 0x0, 0x0, 0x0, 0x0, false, "LANE_SES"⟩,
  ⟨0x2408, 32, 8, 0x0, 0x0, 0x0, 0x0, false, "LANE_UAS"⟩,
  ⟨0x240C, 32, 8, 0x0, 0x0, 0x0, 0x0, false, "LANE_LOCK_LOSS"⟩,
  ⟨0x2410, 32, 8, 0x0, 0x0, 0x0, 0x0, false, "LANE_PRBS_ERRORS"⟩]
/-- All rows of BANK. -/
def bankRows : List RegRow := bankRows0 ++ bankRows1

/-- The rows of FLEXE (R144). -/
def flexeRows : List RegRow := [
  ⟨0x100, 16, 16, 0x0, 0xFFFFF0F, 0x0, 0x0, false, "GROUP_CFGg"⟩,
  ⟨0x104, 16, 16, 0xFFFFFFFF, 0xFFFFFFFF, 0x0, 0x0, false, "MEMBERS_LOg"⟩,
  ⟨0x108, 16, 16, 0xFFFFFFFF, 0xFFFFFFFF, 0x0, 0x0, false, "MEMBERS_HIg"⟩,
  ⟨0x300, 4, 80, 0x0, 0xFFFF001F, 0x0, 0x0, false, "CLIENT_CFGc"⟩,
  ⟨0x500, 4, 80, 0xFFFF0000, 0xFFFF01FF, 0x0, 0x0, false, "CLIENT_PFCc"⟩,
  ⟨0x700, 4, 80, 0x2400, 0x3FFF, 0x0, 0x0, false, "CLIENT_MAXFRAMEc"⟩,
  ⟨0x900, 4, 1, 0x0, 0xFFFF, 0x0, 0x0, false, "CLIENT_MAC_BASE_HI"⟩,
  ⟨0x904, 4, 1, 0x0, 0xFFFFFFFF, 0x0, 0x0, false, "CLIENT_MAC_BASE_LO"⟩,
  ⟨0x1000, 4, 16, 0x0, 0x0, 0x0, 0x1, false, "GROUP_CTRLg"⟩,
  ⟨0x1040, 4, 1, 0x0, 0xF, 0x0, 0x0, false, "CAL_WIN_SEL"⟩,
  ⟨0x1044, 4, 4, 0x0, 0xFFFFFFFF, 0x0, 0x0, false, "CLIENT_ADMIN0-3"⟩,
  ⟨0x2000, 16, 16, 0x0, 0x0, 0x300, 0x0, false, "GROUP_STATUSg"⟩,
  ⟨0x2004, 16, 16, 0x0, 0x0, 0x0, 0x0, false, "GROUP_SKEWg"⟩,
  ⟨0x2200, 16, 80, 0x0, 0x0, 0x0, 0x0, false, "CLIENT_RX_FCS_ERR"⟩,
  ⟨0x2204, 16, 80, 0x0, 0x0, 0x0, 0x0, false, "CLIENT_RX_RUNT"⟩,
  ⟨0x2208, 16, 80, 0x0, 0x0, 0x0, 0x0, false, "CLIENT_RX_OVERSIZE"⟩,
  ⟨0x220C, 16, 80, 0x0, 0x0, 0x0, 0x0, false, "CLIENT_TX_DOWN_DROP"⟩]

/-- The rows of SPRUE (R172). -/
def sprueRows0 : List RegRow := [
  ⟨0x100, 4, 1, 0x100, 0xFFFF0F03, 0x0, 0x0, false, "GROUP_CFG"⟩,
  ⟨0x104, 4, 4, 0xFFFFFFFF, 0xFFFFFFFF, 0x0, 0x0, false, "MEMBERS0-3"⟩,
  ⟨0x114, 4, 1, 0xC80062, 0xFFFFFF, 0x0, 0x0, false, "MEMBER_LIMITS"⟩,
  ⟨0x118, 4, 1, 0x3E8, 0xFFFF, 0x0, 0x0, false, "HOLDOFF"⟩,
  ⟨0x1000, 4, 1, 0x0, 0xFFFF, 0x0, 0x0, false, "GROUP_CTRL"⟩,
  ⟨0x1004, 4, 1, 0x0, 0xF, 0x0, 0x100, false, "TEST_CTRL"⟩,
  ⟨0x2000, 4, 1, 0x0, 0x0, 0x1000000, 0x0, false, "GROUP_STATUS"⟩,
  ⟨0x2004, 4, 1, 0x0, 0x0, 0x0, 0x0, false, "RX_ROTATION"⟩,
  ⟨0x2008, 4, 1, 0x0, 0x0, 0x0, 0x0, false, "TX_ROTATION"⟩,
  ⟨0x200C, 4, 1, 0x0, 0x0, 0x0, 0x0, false, "MARKER_SEQ"⟩,
  ⟨0x2010, 4, 1, 0x0, 0x0, 0x0, 0x0, false, "RX_SLOT_LOST"⟩,
  ⟨0x2014, 4, 1, 0x0, 0x0, 0x0, 0x0, false, "DST_MISMATCH"⟩,
  ⟨0x2018, 4, 1, 0x0, 0x0, 0x0, 0x0, false, "BAD_HDR"⟩,
  ⟨0x201C, 4, 1, 0x0, 0x0, 0x0, 0x0, false, "CTL_UNKNOWN"⟩,
  ⟨0x2020, 4, 1, 0x0, 0x0, 0x0, 0x0, false, "CTL_CRC_ERR"⟩,
  ⟨0x2024, 4, 1, 0x0, 0x0, 0x0, 0x0, false, "CTL_SEQ_GAP"⟩,
  ⟨0x2028, 4, 1, 0x0, 0x0, 0x0, 0x0, false, "FLOW_RX"⟩,
  ⟨0x202C, 4, 1, 0x0, 0x0, 0x0, 0x0, false, "FLOW_EXPIRED"⟩,
  ⟨0x2100, 32, 16, 0x0, 0x0, 0x0, 0x0, false, "MEMBER_STATUS"⟩,
  ⟨0x2104, 32, 16, 0x0, 0x0, 0x0, 0x0, false, "M_SKEW"⟩]
/-- The rows of SPRUE, continued. -/
def sprueRows1 : List RegRow := [
  ⟨0x2108, 32, 16, 0x0, 0x0, 0x0, 0x0, false, "M_HEC_ERR"⟩,
  ⟨0x210C, 32, 16, 0x0, 0x0, 0x0, 0x0, false, "M_FEC_CELL_DISCARD"⟩,
  ⟨0x2110, 32, 16, 0x0, 0x0, 0x0, 0x0, false, "M_SYNC_LOSS"⟩,
  ⟨0x2114, 32, 16, 0x0, 0x0, 0x0, 0x0, false, "M_REMOVALS"⟩,
  ⟨0x2118, 32, 16, 0x0, 0x0, 0x0, 0x0, false, "M_SLOT_LOST"⟩]
/-- All rows of SPRUE. -/
def sprueRows : List RegRow := sprueRows0 ++ sprueRows1

/-- The rows of PIPE (R198). -/
def pipeRows : List RegRow := [
  ⟨0x1000, 4, 1, 0x0, 0xFFFF, 0x0, 0x0, false, "RESIDENCE_MAX"⟩,
  ⟨0x2000, 4, 1, 0x0, 0x0, 0x0, 0x0, false, "PIPE_STATUS"⟩,
  ⟨0x2004, 4, 1, 0x0, 0x0, 0x0, 0x0, false, "FRAMES_IN"⟩,
  ⟨0x2008, 4, 1, 0x0, 0x0, 0x0, 0x0, false, "RECIRC_IN"⟩,
  ⟨0x200C, 4, 1, 0x0, 0x0, 0x0, 0x0, false, "HOLES_OUT"⟩,
  ⟨0x2010, 4, 1, 0x0, 0x0, 0x0, 0x0, false, "OCCUPANCY"⟩]

/-- The rows of PARSE (R199). -/
def parseRows : List RegRow := [
  ⟨0x100, 4, 1, 0xC, 0xF, 0x0, 0x0, false, "PARSE_CFG"⟩,
  ⟨0x104, 4, 1, 0x17C112B5, 0xFFFFFFFF, 0x0, 0x0, false, "TUNNEL_PORTS"⟩,
  ⟨0x108, 4, 1, 0x0, 0xFFFF, 0x0, 0x0, false, "ECPRI_PORT"⟩,
  ⟨0x110, 4, 8, 0x0, 0x1FFFF, 0x0, 0x0, false, "USER_KEY0-7"⟩,
  ⟨0x200, 16, 16, 0x0, 0xFFFF0003, 0x0, 0x0, false, "UDH_TRIGu"⟩,
  ⟨0x204, 16, 16, 0x0, 0x73FFF, 0x0, 0x0, false, "UDH_LENu"⟩,
  ⟨0x208, 16, 16, 0x0, 0xFFFF, 0x0, 0x0, false, "UDH_LMASKu"⟩,
  ⟨0x20C, 16, 16, 0x0, 0xFFFF033F, 0x0, 0x0, false, "UDH_NEXTu"⟩,
  ⟨0x400, 4, 32, 0x0, 0x77777777, 0x0, 0x0, false, "PORT_PCP0-31"⟩,
  ⟨0x2000, 4, 1, 0x0, 0x0, 0x0, 0x0, false, "PARSE_STATUS"⟩]

/-- The rows of CLASSIFY (R200). -/
def classifyRows : List RegRow := [
  ⟨0x100, 4, 1, 0x0, 0xFFFFFFFF, 0x0, 0x0, false, "DROSS_ACTION"⟩,
  ⟨0x104, 4, 1, 0x0, 0x1F, 0x0, 0x0, false, "DROSS_SKIM"⟩,
  ⟨0x108, 4, 1, 0x0, 0xFFFFFFFF, 0x0, 0x0, false, "PUNT_DEST"⟩,
  ⟨0x10C, 4, 1, 0x0, 0xFFFF, 0x0, 0x0, false, "PUNT_DMAC_HI"⟩,
  ⟨0x110, 4, 1, 0x0, 0xFFFFFFFF, 0x0, 0x0, false, "PUNT_DMAC_LO"⟩,
  ⟨0x140, 4, 16, 0x0, 0xFFFFFFFF, 0x0, 0x0, false, "DEFAULT_ACTION0-15"⟩,
  ⟨0x1000, 8, 32, 0x2710, 0xFFFFFF, 0x0, 0x0, false, "PUNT_RATEr"⟩,
  ⟨0x1004, 8, 32, 0x100, 0xFFFF, 0x0, 0x0, false, "PUNT_BURSTr"⟩,
  ⟨0x1100, 4, 1, 0x1E8480, 0xFFFFFF, 0x0, 0x0, false, "AGG_RATE"⟩,
  ⟨0x1104, 4, 1, 0x400, 0xFFFF, 0x0, 0x0, false, "AGG_BURST"⟩,
  ⟨0x2000, 4, 1, 0x0, 0x0, 0x0, 0x0, false, "AGG_DROP"⟩,
  ⟨0x2004, 4, 1, 0x0, 0x0, 0x0, 0x0, false, "TERMINATING"⟩,
  ⟨0x2100, 8, 32, 0x0, 0x0, 0x0, 0x0, false, "PUNT_SENTr"⟩,
  ⟨0x2104, 8, 32, 0x0, 0x0, 0x0, 0x0, false, "PUNT_DROPr"⟩]

/-- The rows of EPOCH (R253). -/
def epochRows : List RegRow := [
  ⟨0x100, 4, 1, 0x320064, 0xFFFFFFFF, 0x0, 0x0, false, "EPOCH_CFG"⟩,
  ⟨0x1000, 4, 1, 0x0, 0x0, 0x0, 0x1, false, "PENDING_CTRL"⟩,
  ⟨0x2000, 4, 1, 0x20001, 0x0, 0x0, 0x0, false, "EPOCH_NOW"⟩,
  ⟨0x2004, 4, 1, 0x0, 0x0, 0x0, 0x0, false, "EPOCH_RETIRING"⟩,
  ⟨0x2008, 4, 1, 0x0, 0x0, 0x0, 0x0, false, "REF_STANDING"⟩,
  ⟨0x200C, 4, 1, 0x0, 0x0, 0x0, 0x0, false, "REF_RETIRING"⟩,
  ⟨0x2010, 4, 1, 0x0, 0x0, 0x0, 0x0, false, "OVL_PENDING"⟩,
  ⟨0x2014, 4, 1, 0x0, 0x0, 0x0, 0x0, false, "OVL_UNMERGED"⟩,
  ⟨0x2018, 4, 1, 0x0, 0x0, 0x0, 0x0, false, "OVL_SHADOW"⟩,
  ⟨0x201C, 4, 1, 0x10000, 0x0, 0x0, 0x0, false, "OVL_FREE"⟩,
  ⟨0x2020, 4, 1, 0x1, 0x0, 0xF00, 0x0, false, "EPOCH_STATUS"⟩,
  ⟨0x2024, 4, 1, 0x0, 0x0, 0x0, 0x0, false, "LAST_SWITCH_SH"⟩,
  ⟨0x2028, 4, 1, 0x0, 0x0, 0x0, 0x0, false, "LAST_SWITCH_SL"⟩,
  ⟨0x202C, 4, 1, 0x0, 0x0, 0x0, 0x0, false, "LAST_SWITCH_NS"⟩,
  ⟨0x2030, 4, 1, 0x0, 0x0, 0x0, 0x0, false, "COMMITS"⟩,
  ⟨0x2034, 4, 1, 0x0, 0x0, 0x0, 0x0, false, "RETIRE_MAX"⟩,
  ⟨0x2038, 4, 1, 0x0, 0x0, 0x0, 0x0, false, "STALE_DROP"⟩]

/-- The rows of TABLES (R231). -/
def tablesRows0 : List RegRow := [
  ⟨0x100, 4, 1, 0x1, 0x3, 0x0, 0x0, false, "CARVE_PRESET"⟩,
  ⟨0x104, 4, 6, 0x0, 0x7FF07FF, 0x0, 0x0, false, "CARVE_x"⟩,
  ⟨0x120, 4, 1, 0x5A4E0000, 0xFFFFFFFF, 0x0, 0x0, false, "HASH_SEED0"⟩,
  ⟨0x124, 4, 1, 0x5A4E0001, 0xFFFFFFFF, 0x0, 0x0, false, "HASH_SEED1"⟩,
  ⟨0x128, 4, 1, 0x5A4E0002, 0xFFFFFFFF, 0x0, 0x0, false, "HASH_SEED2"⟩,
  ⟨0x12C, 4, 1, 0x5A4E0003, 0xFFFFFFFF, 0x0, 0x0, false, "HASH_SEED3"⟩,
  ⟨0x130, 4, 1, 0x4, 0xF, 0x0, 0x0, false, "EM_CFG"⟩,
  ⟨0x134, 4, 1, 0x0, 0xFFFFFFFF, 0x0, 0x0, false, "ECMP_SEED"⟩,
  ⟨0x140, 8, 4, 0x0, 0x8000FFFF, 0x0, 0x0, false, "ROUTER_MAC_HIi"⟩,
  ⟨0x144, 8, 4, 0x0, 0xFFFFFFFF, 0x0, 0x0, false, "ROUTER_MAC_LOi"⟩,
  ⟨0x160, 4, 1, 0x3, 0x3, 0x0, 0x0, false, "LOOKUP_CFG"⟩,
  ⟨0x180, 4, 1, 0x10C, 0xFF1F1F, 0x0, 0x0, false, "MAINT_ARB0"⟩,
  ⟨0x184, 4, 1, 0x10A, 0xFF1F1F, 0x0, 0x0, false, "MAINT_ARB1"⟩,
  ⟨0x188, 4, 1, 0x102, 0xFF1F1F, 0x0, 0x0, false, "MAINT_ARB2"⟩,
  ⟨0x18C, 4, 1, 0x814, 0xFF1F1F, 0x0, 0x0, false, "MAINT_ARB3"⟩,
  ⟨0x190, 4, 1, 0x416, 0xFF1F1F, 0x0, 0x0, false, "MAINT_ARB4"⟩,
  ⟨0x194, 4, 1, 0x108, 0xFF1F1F, 0x0, 0x0, false, "MAINT_ARB5"⟩,
  ⟨0x198, 4, 1, 0x10A, 0xFF1F1F, 0x0, 0x0, false, "MAINT_ARB6"⟩,
  ⟨0x19C, 4, 1, 0x100, 0xFF1F1F, 0x0, 0x0, false, "MAINT_ARB7"⟩,
  ⟨0x1000, 4, 1, 0x0, 0xFFFFFFFF, 0x0, 0x0, false, "FENCE"⟩]
/-- The rows of TABLES, continued. -/
def tablesRows1 : List RegRow := [
  ⟨0x1004, 4, 1, 0x0, 0x0, 0x0, 0x0, false, "FENCE_DONE"⟩,
  ⟨0x2000, 4, 1, 0x0, 0x0, 0x0, 0x0, false, "CARVE_STATUS"⟩,
  ⟨0x2004, 4, 1, 0x0, 0x0, 0x0, 0x0, false, "MAC_STASH"⟩,
  ⟨0x2008, 4, 1, 0x0, 0x0, 0x0, 0x0, false, "LABEL_STASH"⟩,
  ⟨0x200C, 4, 1, 0x0, 0x0, 0x0, 0x0, false, "MAC_ENTRIES"⟩,
  ⟨0x2010, 4, 1, 0x0, 0x0, 0x0, 0x0, false, "LABEL_ENTRIES"⟩,
  ⟨0x2014, 4, 1, 0x0, 0x0, 0x0, 0x0, false, "LPM4_PREFIXES"⟩,
  ⟨0x2018, 4, 1, 0x0, 0x0, 0x0, 0x0, false, "LPM6_PREFIXES"⟩,
  ⟨0x201C, 4, 1, 0x0, 0x0, 0x0, 0x0, false, "LOOKUP_STALL"⟩,
  ⟨0x2020, 4, 1, 0x0, 0x0, 0x0, 0x0, false, "ECC_CORR"⟩,
  ⟨0x2024, 4, 1, 0x0, 0x0, 0x0, 0x0, false, "ECC_UNCORR"⟩,
  ⟨0x2028, 4, 1, 0x0, 0x0, 0x0, 0x0, false, "ECC_FAULT_ADDR"⟩,
  ⟨0x202C, 4, 1, 0x0, 0x0, 0x0, 0x0, false, "LPM_MISS"⟩,
  ⟨0x2030, 4, 1, 0x0, 0x0, 0x0, 0x0, false, "LABEL_MISS"⟩,
  ⟨0x2034, 4, 1, 0x0, 0x0, 0x0, 0x0, false, "VLAN_DROP"⟩,
  ⟨0x2038, 4, 1, 0x0, 0x0, 0x0, 0x0, false, "HAIRPIN_DROP"⟩,
  ⟨0x2040, 4, 8, 0x0, 0x0, 0x0, 0x0, false, "MAINT_WAIT_MAXr"⟩]
/-- All rows of TABLES. -/
def tablesRows : List RegRow := tablesRows0 ++ tablesRows1

/-- The rows of LEARN (R232). -/
def learnRows : List RegRow := [
  ⟨0x1000, 4, 1, 0x12C, 0xFFFFF, 0x0, 0x0, false, "AGE_PERIOD"⟩,
  ⟨0x1004, 4, 1, 0x1, 0x7, 0x0, 0x0, false, "LEARN_CTRL"⟩,
  ⟨0x1008, 4, 1, 0xA03E8, 0xFFFFFF, 0x0, 0x0, false, "MOVE_CFG"⟩,
  ⟨0x2000, 4, 1, 0x0, 0x0, 0x0, 0x0, false, "LEARN_STATUS"⟩,
  ⟨0x2004, 4, 1, 0x0, 0x0, 0x0, 0x0, false, "LEARNED"⟩,
  ⟨0x2008, 4, 1, 0x0, 0x0, 0x0, 0x0, false, "MOVES"⟩,
  ⟨0x200C, 4, 1, 0x0, 0x0, 0x0, 0x0, false, "QUEUE_DROP"⟩,
  ⟨0x2010, 4, 1, 0x0, 0x0, 0x0, 0x0, false, "AGED"⟩,
  ⟨0x2014, 4, 1, 0x0, 0x0, 0x0, 0x0, false, "STATIC_VIOLATION"⟩,
  ⟨0x2018, 4, 1, 0x0, 0x0, 0x0, 0x0, false, "MOVES_REFUSED"⟩,
  ⟨0x201C, 4, 1, 0x0, 0x0, 0x0, 0x0, false, "DYNAMIC_ENTRIES"⟩]

/-- The rows of REORDER (R201). -/
def reorderRows : List RegRow := [
  ⟨0x100, 4, 1, 0x0, 0xF, 0x0, 0x0, false, "INTERNAL_Q"⟩,
  ⟨0x104, 4, 1, 0xFA0, 0xFFFF, 0x0, 0x0, false, "TIMEOUT"⟩,
  ⟨0x2000, 16, 4, 0x0, 0x0, 0x0, 0x0, false, "REORDER_SKIPq"⟩,
  ⟨0x2004, 16, 4, 0x0, 0x0, 0x0, 0x0, false, "REORDER_LATEq"⟩,
  ⟨0x2008, 16, 4, 0x0, 0x0, 0x0, 0x0, false, "RECIRC_DROPq"⟩,
  ⟨0x200C, 16, 4, 0x0, 0x0, 0x0, 0x0, false, "RECIRC_FRAMESq"⟩]

/-- The rows of LADLE (R282). -/
def ladleRows0 : List RegRow := [
  ⟨0x100, 4, 1, 0x0, 0xFFFFFFFF, 0x0, 0x0, false, "ALPHA_EXP"⟩,
  ⟨0x104, 4, 1, 0x0, 0xFFFFFFFF, 0x0, 0x0, false, "ING_ALPHA_EXP"⟩,
  ⟨0x108, 4, 1, 0xFFFFFFFF, 0xFFFFFFFF, 0x0, 0x0, false, "PFC_ALPHA_EXP"⟩,
  ⟨0x10C, 4, 1, 0xFFFFFFFF, 0xFFFFFFFF, 0x0, 0x0, false, "PFC_ING_ALPHA_EXP"⟩,
  ⟨0x110, 4, 1, 0x40, 0xFFFF, 0x0, 0x0, false, "XON_GAP"⟩,
  ⟨0x114, 4, 1, 0x80, 0xFFFF, 0x0, 0x0, false, "PORT_MIN"⟩,
  ⟨0x118, 4, 1, 0x2000, 0xFFFFF, 0x0, 0x0, false, "CTL_POOL"⟩,
  ⟨0x11C, 4, 1, 0x4000, 0xFFFFF, 0x0, 0x0, false, "MIRROR_POOL"⟩,
  ⟨0x120, 4, 1, 0x10000, 0xFFFFF, 0x0, 0x0, false, "HDRM_POOL"⟩,
  ⟨0x124, 4, 1, 0xE000, 0xFFFFF, 0x0, 0x0, false, "PREFETCH_POOL"⟩,
  ⟨0x128, 4, 1, 0xC000, 0xFFFFF, 0x0, 0x0, false, "STAGE_POOL"⟩,
  ⟨0x12C, 4, 1, 0x1388, 0xFFFF, 0x0, 0x0, false, "PREFETCH_TIME"⟩,
  ⟨0x130, 4, 1, 0x3E8, 0xFFFF, 0x0, 0x0, false, "STAGE_HOLD"⟩,
  ⟨0x134, 4, 1, 0xC80064, 0xFFFFFFFF, 0x0, 0x0, false, "WD_CFG"⟩,
  ⟨0x200, 4, 64, 0x0, 0xFFFFFFFF, 0x0, 0x0, false, "CT_EN0-63"⟩,
  ⟨0x1000, 4, 1, 0x0, 0x3F, 0x0, 0x0, false, "QWIN_SEL"⟩,
  ⟨0x1004, 4, 1, 0x1, 0x1, 0x0, 0x0, false, "WD_CTRL"⟩,
  ⟨0x2000, 4, 1, 0x0, 0x0, 0x0, 0x0, false, "LADLE_STATUS"⟩,
  ⟨0x2004, 4, 1, 0x0, 0x0, 0x0, 0x0, false, "FREE_CELLS"⟩,
  ⟨0x2008, 4, 1, 0x0, 0x0, 0x0, 0x0, false, "FREE_INGOTS"⟩]
/-- The rows of LADLE, continued. -/
def ladleRows1 : List RegRow := [
  ⟨0x200C, 4, 1, 0x0, 0x0, 0x0, 0x0, false, "HDRM_FREE"⟩,
  ⟨0x2010, 4, 1, 0x0, 0x0, 0x0, 0x0, false, "ADM_DROP"⟩,
  ⟨0x2014, 4, 1, 0x0, 0x0, 0x0, 0x0, false, "HDRM_DROP"⟩,
  ⟨0x2018, 4, 1, 0x0, 0x0, 0x0, 0x0, false, "CTL_DROP"⟩,
  ⟨0x201C, 4, 1, 0x0, 0x0, 0x0, 0x0, false, "MIRROR_DROP"⟩,
  ⟨0x2020, 4, 1, 0x0, 0x0, 0x0, 0x0, false, "STAGE_DROP"⟩,
  ⟨0x2024, 4, 1, 0x0, 0x0, 0x0, 0x0, false, "NO_DESC_DROP"⟩,
  ⟨0x2028, 4, 1, 0x0, 0x0, 0x0, 0x0, false, "LATE_ERR_DROP"⟩,
  ⟨0x202C, 4, 1, 0x0, 0x0, 0x0, 0x0, false, "CT_FRAMES"⟩,
  ⟨0x2030, 4, 1, 0x0, 0x0, 0x0, 0x0, false, "CT_STOMP"⟩,
  ⟨0x2034, 4, 1, 0x0, 0x0, 0x0, 0x0, false, "SPILL_ENTRIES"⟩,
  ⟨0x2038, 4, 1, 0x0, 0x0, 0x0, 0x0, false, "INTERNAL_DROP"⟩,
  ⟨0x2100, 4, 243, 0x0, 0x0, 0x0, 0x0, false, "PORT_DROPp"⟩,
  ⟨0x2500, 4, 243, 0x0, 0x0, 0x0, 0x0, false, "PAUSE_STATEp"⟩,
  ⟨0x2900, 4, 243, 0x0, 0x0, 0x0, 0x0, false, "WD_TRIPSp"⟩,
  ⟨0x2D00, 4, 243, 0x0, 0x0, 0x0, 0x0, false, "WD_DROPp"⟩]
/-- All rows of LADLE. -/
def ladleRows : List RegRow := ladleRows0 ++ ladleRows1

/-- The rows of CRUCIBLE (R283). -/
def crucibleRows : List RegRow := [
  ⟨0x2000, 4, 1, 0x0, 0x0, 0x0, 0x0, false, "CELLS_USED"⟩,
  ⟨0x2004, 4, 1, 0x0, 0x0, 0x0, 0x0, false, "CELLS_HWM"⟩,
  ⟨0x2008, 4, 1, 0x0, 0x0, 0x0, 0x0, false, "DESC_USED"⟩,
  ⟨0x200C, 4, 1, 0x0, 0x0, 0x0, 0x0, false, "ECC_CORR"⟩,
  ⟨0x2010, 4, 1, 0x0, 0x0, 0x0, 0x0, false, "ECC_UNCORR"⟩,
  ⟨0x2014, 4, 1, 0x0, 0x0, 0x0, 0x0, false, "ECC_DROP"⟩]

/-- The rows of INGOT (R284). -/
def ingotRows : List RegRow := [
  ⟨0x100, 4, 1, 0x8, 0x3F, 0x0, 0x0, false, "SCRUB_CFG"⟩,
  ⟨0x2000, 4, 1, 0x0, 0x0, 0x0, 0x0, false, "INGOTS_USED"⟩,
  ⟨0x2004, 4, 1, 0x0, 0x0, 0x0, 0x0, false, "INGOTS_RETIRED"⟩,
  ⟨0x2008, 4, 1, 0x0, 0x0, 0x0, 0x0, false, "INGOTS_WRITTEN"⟩,
  ⟨0x200C, 4, 1, 0x0, 0x0, 0x0, 0x0, false, "INGOTS_READ"⟩,
  ⟨0x2010, 4, 1, 0x0, 0x0, 0x0, 0x0, false, "PARTIAL_WRITES"⟩,
  ⟨0x2014, 4, 1, 0x0, 0x0, 0x0, 0x0, false, "SHORTCUTS"⟩,
  ⟨0x2018, 4, 1, 0x0, 0x0, 0x0, 0x0, false, "UNCORR_DROP"⟩,
  ⟨0x201C, 4, 1, 0x0, 0x0, 0x0, 0x0, false, "PREFETCH_WAIT"⟩,
  ⟨0x2020, 4, 1, 0x0, 0x0, 0x0, 0x0, false, "READ_LAT_MAX"⟩]

/-- The rows of STACK (R285). -/
def stackRows : List RegRow := [
  ⟨0x180, 4, 1, 0x101E, 0xFF1F1F, 0x0, 0x0, false, "CH_ARB0"⟩,
  ⟨0x184, 4, 1, 0x101C, 0xFF1F1F, 0x0, 0x0, false, "CH_ARB1"⟩,
  ⟨0x188, 4, 1, 0x10D, 0xFF1F1F, 0x0, 0x0, false, "CH_ARB2"⟩,
  ⟨0x18C, 4, 1, 0x109, 0xFF1F1F, 0x0, 0x0, false, "CH_ARB3"⟩,
  ⟨0x190, 4, 1, 0x816, 0xFF1F1F, 0x0, 0x0, false, "CH_ARB4"⟩,
  ⟨0x194, 4, 1, 0x101, 0xFF1F1F, 0x0, 0x0, false, "CH_ARB5"⟩,
  ⟨0x198, 4, 1, 0x813, 0xFF1F1F, 0x0, 0x0, false, "CH_ARB6"⟩,
  ⟨0x19C, 4, 1, 0x105, 0xFF1F1F, 0x0, 0x0, false, "CH_ARB7"⟩,
  ⟨0x2000, 4, 1, 0x0, 0x0, 0x0, 0x0, false, "STACK_STATUS"⟩,
  ⟨0x2004, 4, 1, 0x0, 0x0, 0x0, 0x0, false, "ECC_CORR"⟩,
  ⟨0x2008, 4, 1, 0x0, 0x0, 0x0, 0x0, false, "ECC_UNCORR"⟩,
  ⟨0x200C, 4, 1, 0x0, 0x0, 0x0, 0x0, false, "ECC_FAULT_ADDR"⟩,
  ⟨0x2010, 4, 1, 0x0, 0x0, 0x0, 0x0, false, "RETIRED"⟩,
  ⟨0x2014, 4, 1, 0x0, 0x0, 0x0, 0x0, false, "OUTSTANDING_MAX"⟩,
  ⟨0x2040, 4, 8, 0x0, 0x0, 0x0, 0x0, false, "WAIT_MAXr"⟩]

/-- The rows of TM (R310). -/
def tmRows : List RegRow := [
  ⟨0x100, 4, 1, 0xACE1, 0xFFFF, 0x0, 0x0, false, "TM_CFG"⟩,
  ⟨0x104, 4, 1, 0x64, 0x1FF, 0x0, 0x0, false, "CP_PORT_RATE"⟩,
  ⟨0x1000, 4, 1, 0x0, 0xFF03, 0x0, 0x0, false, "NWIN_SEL"⟩,
  ⟨0x1004, 4, 1, 0x0, 0x0, 0x0, 0xFFFFFFFF, false, "RATE_APPLY"⟩,
  ⟨0x1040, 4, 4, 0xFAC688, 0xFFFFFF, 0x0, 0x0, false, "PCP_MAP0-3"⟩,
  ⟨0x1050, 4, 4, 0xFAC688, 0xFFFFFF, 0x0, 0x0, false, "EXP_MAP0-3"⟩,
  ⟨0x1080, 32, 4, 0x0, 0xFFFFFF, 0x0, 0x0, false, "DSCP_MAP_W0"⟩,
  ⟨0x1084, 32, 4, 0x249249, 0xFFFFFF, 0x0, 0x0, false, "DSCP_MAP_W1"⟩,
  ⟨0x1088, 32, 4, 0x492492, 0xFFFFFF, 0x0, 0x0, false, "DSCP_MAP_W2"⟩,
  ⟨0x108C, 32, 4, 0x6DB6DB, 0xFFFFFF, 0x0, 0x0, false, "DSCP_MAP_W3"⟩,
  ⟨0x1090, 32, 4, 0x924924, 0xFFFFFF, 0x0, 0x0, false, "DSCP_MAP_W4"⟩,
  ⟨0x1094, 32, 4, 0xB6DB6D, 0xFFFFFF, 0x0, 0x0, false, "DSCP_MAP_W5"⟩,
  ⟨0x1098, 32, 4, 0xDB6DB6, 0xFFFFFF, 0x0, 0x0, false, "DSCP_MAP_W6"⟩,
  ⟨0x109C, 32, 4, 0xFFFFFF, 0xFFFFFF, 0x0, 0x0, false, "DSCP_MAP_W7"⟩,
  ⟨0x2000, 4, 1, 0x0, 0x0, 0x1, 0x0, false, "TM_STATUS"⟩,
  ⟨0x2004, 4, 1, 0x0, 0x0, 0x0, 0x0, false, "MAP_DROP"⟩,
  ⟨0x2008, 4, 1, 0x0, 0x0, 0x0, 0x0, false, "ECN_MARKED"⟩,
  ⟨0x200C, 4, 1, 0x0, 0x0, 0x0, 0x0, false, "ECN_DROP"⟩,
  ⟨0x2010, 4, 1, 0x0, 0x0, 0x0, 0x0, false, "APPLY_COUNT"⟩]

/-- The rows of POLICE (R313). -/
def policeRows : List RegRow := [
  ⟨0x1000, 4, 1, 0x0, 0x3FF, 0x0, 0x0, false, "PWIN_SEL"⟩,
  ⟨0x1004, 4, 1, 0x0, 0x0, 0x0, 0xFFFFFFFF, false, "RATE_APPLY"⟩,
  ⟨0x1400, 4, 242, 0x0, 0xA007FFFF, 0x0, 0x0, false, "PORT_POLp"⟩,
  ⟨0x2000, 4, 1, 0x0, 0x0, 0x0, 0x0, false, "RED_DROP"⟩,
  ⟨0x2004, 4, 1, 0x0, 0x0, 0x0, 0x0, false, "METERED"⟩,
  ⟨0x2008, 4, 1, 0x0, 0x0, 0x0, 0x0, false, "APPLY_COUNT"⟩]

/-- The rows of VOQ (R383). -/
def voqRows : List RegRow := [
  ⟨0x100, 4, 1, 0x0, 0xFF0FFF, 0x0, 0x0, false, "DEVICE_CFG"⟩,
  ⟨0x104, 4, 1, 0xA3264, 0xFFFFFFFF, 0x0, 0x0, false, "VOQ_TIMERS"⟩,
  ⟨0x108, 4, 1, 0x800004, 0xFFFF001F, 0x0, 0x0, false, "CREDIT_CFG"⟩,
  ⟨0x140, 4, 8, 0x1900001, 0x1FF3FF1, 0x0, 0x0, false, "VOQ_ATTRc"⟩,
  ⟨0x2000, 4, 1, 0x0, 0x0, 0x100, 0x0, false, "VOQ_STATUS"⟩,
  ⟨0x2004, 4, 1, 0x0, 0x0, 0x0, 0x0, false, "VOQS_USED"⟩,
  ⟨0x2008, 4, 1, 0x0, 0x0, 0x0, 0x0, false, "RESERVE_TOTAL"⟩,
  ⟨0x200C, 4, 1, 0x0, 0x0, 0x0, 0x0, false, "RESERVE_FREE"⟩,
  ⟨0x2010, 4, 1, 0x0, 0x0, 0x0, 0x0, false, "ALIAS_DROP"⟩,
  ⟨0x2014, 4, 1, 0x0, 0x0, 0x0, 0x0, false, "VOQ_FULL_DROP"⟩,
  ⟨0x2018, 4, 1, 0x0, 0x0, 0x0, 0x0, false, "UNREACH_DROP"⟩,
  ⟨0x201C, 4, 1, 0x0, 0x0, 0x0, 0x0, false, "PROBES"⟩,
  ⟨0x2020, 4, 1, 0x0, 0x0, 0x0, 0x0, false, "GRANTS_RX"⟩,
  ⟨0x2024, 4, 1, 0x0, 0x0, 0x0, 0x0, false, "GRANT_ORPHAN"⟩,
  ⟨0x2028, 4, 1, 0x0, 0x0, 0x0, 0x0, false, "CREDIT_CLIPPED"⟩,
  ⟨0x202C, 4, 1, 0x0, 0x0, 0x0, 0x0, false, "TAKEOVER_APPLIED"⟩,
  ⟨0x2030, 4, 1, 0x0, 0x0, 0x0, 0x0, false, "TAKEOVER_IGNORED"⟩]

/-- The rows of CREDIT (R384). -/
def creditRows : List RegRow := [
  ⟨0x100, 4, 1, 0x80140D, 0xFFFFFFFF, 0x0, 0x0, false, "GEN_CFG"⟩,
  ⟨0x104, 4, 1, 0x1000, 0xFFFFF, 0x0, 0x0, false, "GEN_HOLD"⟩,
  ⟨0x108, 4, 1, 0x640028, 0xFFFF00FF, 0x0, 0x0, false, "RB_CFG"⟩,
  ⟨0x10C, 4, 1, 0x40006000, 0xFFFFFFFF, 0x0, 0x0, false, "RB_FLOW"⟩,
  ⟨0x2000, 4, 1, 0x0, 0x0, 0x0, 0x0, false, "RB_USED"⟩,
  ⟨0x2004, 4, 1, 0x0, 0x0, 0x0, 0x0, false, "CTX_USED"⟩,
  ⟨0x2008, 4, 1, 0x0, 0x0, 0x0, 0x0, false, "GRANT_ENTRIES"⟩,
  ⟨0x200C, 4, 1, 0x0, 0x0, 0x0, 0x0, false, "GRANT_CELLS"⟩,
  ⟨0x2010, 4, 1, 0x0, 0x0, 0x0, 0x0, false, "PROBES_RX"⟩,
  ⟨0x2014, 4, 1, 0x0, 0x0, 0x0, 0x0, false, "RB_SKIP"⟩,
  ⟨0x2018, 4, 1, 0x0, 0x0, 0x0, 0x0, false, "RB_LATE"⟩,
  ⟨0x201C, 4, 1, 0x0, 0x0, 0x0, 0x0, false, "RB_FULL_DROP"⟩,
  ⟨0x2020, 4, 1, 0x0, 0x0, 0x0, 0x0, false, "CTX_FULL_DROP"⟩,
  ⟨0x2024, 4, 1, 0x0, 0x0, 0x0, 0x0, false, "FRAME_ERR"⟩,
  ⟨0x2028, 4, 1, 0x0, 0x0, 0x0, 0x0, false, "FRAMES_OUT"⟩,
  ⟨0x202C, 4, 1, 0x0, 0x0, 0x0, 0x0, false, "XOFF_SENT"⟩]

/-- The rows of GATES (R330). -/
def gatesRows : List RegRow := [
  ⟨0x1000, 4, 1, 0x0, 0xFF, 0x0, 0x0, false, "GWIN_SEL"⟩,
  ⟨0x2000, 4, 1, 0x0, 0x0, 0x0, 0x0, false, "GATED_PORTS"⟩,
  ⟨0x2004, 4, 1, 0x0, 0x0, 0x0, 0x0, false, "SWITCHES"⟩,
  ⟨0x2008, 4, 1, 0x0, 0x0, 0x0, 0x0, false, "OVERSIZE_TOTAL"⟩]

/-- The rows of MCAST (R286). -/
def mcastRows : List RegRow := [
  ⟨0x1000, 4, 1, 0x0, 0xF, 0x0, 0x0, false, "GROUP_PAGE"⟩,
  ⟨0x1004, 4, 1, 0x0, 0xFF, 0x0, 0x0, false, "MEMBER_PAGE"⟩,
  ⟨0x2000, 4, 1, 0x0, 0x0, 0x0, 0x0, false, "COPIES"⟩,
  ⟨0x2004, 4, 1, 0x0, 0x0, 0x0, 0x0, false, "COPY_DROP"⟩,
  ⟨0x2008, 4, 1, 0x0, 0x0, 0x0, 0x0, false, "BAD_GROUP"⟩,
  ⟨0x200C, 4, 1, 0x0, 0x0, 0x0, 0x0, false, "PAYLOAD_HELD"⟩]

/-- The register rows of a page kind, without the common header. -/
def Kind.rows : Kind → List RegRow
  | .global => globalRows
  | .bellows => bellowsRows
  | .clocks => clocksRows
  | .roles => rolesRows
  | .hostif => hostifRows
  | .cpctl => cpctlRows
  | .pstore => pstoreRows
  | .locks => locksRows
  | .launch => launchRows
  | .time => timeRows
  | .pmu => pmuRows
  | .skim => skimRows
  | .stats => statsRows
  | .debug => debugRows
  | .pair => pairRows
  | .mgmt => mgmtRows
  | .bank => bankRows
  | .flexe => flexeRows
  | .sprue => sprueRows
  | .pipe => pipeRows
  | .parse => parseRows
  | .classify => classifyRows
  | .epoch => epochRows
  | .tables => tablesRows
  | .learn => learnRows
  | .reorder => reorderRows
  | .ladle => ladleRows
  | .crucible => crucibleRows
  | .ingot => ingotRows
  | .stack => stackRows
  | .tm => tmRows
  | .police => policeRows
  | .voq => voqRows
  | .credit => creditRows
  | .gates => gatesRows
  | .mcast => mcastRows

/-- Whether a row covers offset `o`. -/
def RegRow.covers (r : RegRow) (o : Nat) : Bool :=
  decide (r.off ≤ o) && decide ((o - r.off) % r.stride = 0) && decide ((o - r.off) / r.stride < r.count)

/-- The row of offset `o` of a page of kind `k`: its header row below 0x100, its own table above; none for a reserved word. -/
def regRow (k : Kind) (o : Nat) : Option RegRow :=
  (if o < 0x100 then headerRows else k.rows).find? (fun r => r.covers o)

end Sys2Proof.Machine
end

