-- ==== Sys2Proof/Syntax.lean ====
section
/-! DEFINITION. The commands and events of the LY2880: one constructor of Instr per row of spec/opcode_table.json, and the
types of their operands. An operand is what the sender or the environment decides; the rule named governs the row. -/
namespace Sys2Proof

/-- An agent that reaches the register pages, by its path (R56); a core acts in machine mode (`core`) or in user mode (`app`). -/
inductive Agent where
  | i3c | mgmt | core (k : Fin 4) | app (k : Fin 4) | debug | bellows
  deriving DecidableEq, Repr

/-- The owner ID of an agent (R56). -/
def Agent.id : Agent → Nat
  | .i3c => 1 | .mgmt => 2 | .core k => 4 + k.val | .app k => 4 + k.val | .debug => 8 | .bellows => 9

/-- The agents that log in (R105, R444). -/
inductive HostAgent where
  | i3c | mgmt | debug
  deriving DecidableEq, Repr

/-- A host agent as an agent. -/
def HostAgent.agent : HostAgent → Agent
  | .i3c => .i3c | .mgmt => .mgmt | .debug => .debug

/-- The width of an access (R51, R52); widths other than `word` exist for a core only. -/
inductive AccSize where
  | byte | half | word | dword
  deriving DecidableEq, Repr

/-- The exception that stops an application (R66). -/
inductive AppCause where
  | accessFault | illegalInstr | misaligned
  deriving DecidableEq, Repr

/-- The direction and the bytes of an I2C transfer (R71). -/
inductive I2cDir where
  | read | write (bytes : List Byte)
  deriving DecidableEq, Repr

/-- A request frame less its OPCODE, which the row that carries it gives (R73): the header fields as received, the payload
bytes between header and CRC as received, and the received CRC. -/
structure Request where
  agent : Agent
  tag : Byte
  flags : Byte
  byte3 : Byte
  length : BitVec 16
  session : BitVec 16
  body : List Byte
  crc : BitVec 16
  deriving DecidableEq, Repr

/-- A load instruction of a core (R51-R53, R63): the core, whether in user mode, the register that takes the value, the address, the width,
whether the value is extended by its sign, and whether data in the STACK0 region has an uncorrectable error (R267). -/
structure CoreLoad where
  core : Fin 4
  user : Bool
  rd : BitVec 5
  addr : BitVec 64
  size : AccSize
  signed : Bool
  uncorr : Bool
  deriving DecidableEq, Repr

/-- A READ: the command of a host or the debug port, or a core's load, by which it reads words without a command. -/
inductive ReadAct where
  | command (rq : Request)
  | load (l : CoreLoad)
  deriving DecidableEq, Repr

/-- A unit whose errored seconds are counted (R142, R169): a line port, a lane, the management lane, a Sprue member, a group. -/
inductive SecUnit where
  | port (p : Fin 160) | lane (l : Fin 160) | mgmt | member (g : Fin 16) (m : Fin 16) | group (g : Fin 16)
  deriving DecidableEq, Repr

/-- What a second that has just ended held (R142, R170): errored blocks, a defect, codewords corrected and uncorrectable, PRBS
bit errors. -/
structure SecTally where
  blocks : Nat
  defect : Bool
  fecCorr : Nat
  fecUncorr : Nat
  prbs : Nat
  deriving DecidableEq, Repr

/-- A received FlexE overhead frame (R139, R141): greatest member skew in ns, group number, the client number of each slot of
calendars A and B, the calendar in use, the calendar request. -/
structure FlexeOverhead where
  skew : BitVec 16
  number : BitVec 20
  calA : List (BitVec 16)
  calB : List (BitVec 16)
  inUseB : Bool
  request : Bool
  deriving DecidableEq, Repr

/-- A core's access as a trigger sees it (R447). -/
inductive TrigAccess where
  | execute | load | store
  deriving DecidableEq, Repr

/-- The conditions under which a receiver keeps a member of a group (R162). -/
inductive MemberCond where
  | sync | markerLock | skew | errLimit | forceOut
  deriving DecidableEq, Repr

/-- The commands and events, in the table's order. -/
inductive Instr where
  /-- An agent writes a register word that has no row of its own; the region's write rule, the access code and the right check decide its effect. (R43) -/
  | registerWrite (a : Agent) (addr : Word) (size : AccSize) (data : BitVec 64)
  /-- A write to a bit alias applies data bit 0 to a single bit of a live word under that bit's access code. (R50) -/
  | bitAliasWrite (a : Agent) (page : Fin 256) (w : Fin 128) (b : Fin 32) (data : Word)
  /-- ENABLE = 1 found on a DISABLED block latches and parity-checks its configuration region and enters ENABLING. (R44) -/
  | blockEnable (page : Fin 256)
  /-- An ENABLING block becomes ready within its bound and enters ENABLED. (R44) -/
  | blockReady (page : Fin 256)
  /-- ENABLE = 0 found on an enabled block starts a drain or discards the work in flight. (R44) -/
  | blockDisable (page : Fin 256)
  /-- All work in flight of a DRAINING block completes and the block enters DISABLED. (R44) -/
  | drainComplete (page : Fin 256)
  /-- The drain timer reaches DRAIN_TIMEOUT, and the remainder is discarded and counted. (R45) -/
  | drainTimeout (page : Fin 256)
  /-- A write of DRAIN_DISCARD = 1 during DRAINING discards the remainder and disables the block. (R44) -/
  | drainDiscard (a : Agent) (page : Fin 256)
  /-- Each 16 µs scrub pass checks the parity of every configuration word and recomputes CFG_SIGNATURE. (R47) -/
  | scrubPass (upsets : List (Word × Fin 32))
  /-- A write to GLOBAL.TOPOLOGY is checked and may force the profile. (R32) -/
  | topologyWrite (a : Agent) (data : Word)
  /-- A write to GLOBAL.ENGINE_PROFILE is checked against the topology and the Twicel state. (R32) -/
  | engineProfileWrite (a : Agent) (data : Word)
  /-- An agent writes a token to GLOBAL.FENCE. (R60) -/
  | fenceWrite (a : Agent) (token : Word)
  /-- Every earlier write of the agent has taken effect, and FENCE_DONE takes the token. (R60) -/
  | fenceDone (a : Agent)
  /-- An agent writes a token to TABLES.FENCE. (R223) -/
  | tablesFenceWrite (a : Agent) (token : Word)
  /-- The agent's table writes and earlier lookups complete, and TABLES.FENCE_DONE takes the token. (R223) -/
  | tablesFenceDone (a : Agent)
  /-- An agent writes its own ID to a lock word and acquires the lock, or is refused. (R56) -/
  | lockAcquire (a : Agent) (k : Fin 64)
  /-- An agent writes 0 to a lock word and releases the lock, or is refused. (R56) -/
  | lockRelease (a : Agent) (k : Fin 64)
  /-- Loss of the management link lasting 1 s is an owner reset of owner 2. (R57) -/
  | mgmtLinkLoss
  /-- A core entering the resident firmware's fatal-fault handler is an owner reset of that core. (R57) -/
  | fatalFaultEntry (k : Fin 4)
  /-- An application exception stops the application and records the fault. (R66) -/
  | appFault (k : Fin 4) (cause : AppCause) (faultAddr : Word)
  /-- An application that exceeds APP_CPU_LIMIT is stopped. (R66) -/
  | appCpuLimit (k : Fin 4)
  /-- A write to WDT_KICK restarts the CPCTL watchdog. (R67) -/
  | wdtKick (a : Agent) (data : Word)
  /-- The CPCTL watchdog expires and resets all four cores. (R67) -/
  | wdtExpired
  /-- CORE_RESET bit 0 resets all four cores, breaks locks and ends long operations. (R67) -/
  | coreResetAll (a : Agent)
  /-- CORE_RESET bit k resets core k alone and breaks its locks. (R67) -/
  | coreResetOne (a : Agent) (k : Fin 3)
  /-- The resident firmware finishes its start-up work and raises FW_READY. (R481) -/
  | fwReady
  /-- The I3C CCC ENTDAA assigns a dynamic address. (R68) -/
  | entdaa (addr : BitVec 7)
  /-- The I3C CCC SETDASA assigns a dynamic address from the static address. (R68) -/
  | setdasa (target : BitVec 7) (addr : BitVec 7)
  /-- The I3C CCC SETNEWDA changes the dynamic address. (R68) -/
  | setnewda (target : BitVec 7) (addr : BitVec 7)
  /-- The I3C CCC RSTDAA resets the dynamic address. (R68) -/
  | rstdaa
  /-- The I3C CCC GETPID returns the provisional ID. (R68) -/
  | getpid (target : BitVec 7)
  /-- The I3C CCC GETBCR returns BCR 0x26. (R68) -/
  | getbcr (target : BitVec 7)
  /-- The I3C CCC GETDCR returns the DCR. (R68) -/
  | getdcr (target : BitVec 7)
  /-- The I3C CCC GETSTATUS returns the target status. (R68) -/
  | getstatus (target : BitVec 7)
  /-- The I3C CCC GETMXDS returns the maximum data speeds. (R68) -/
  | getmxds (target : BitVec 7)
  /-- The I3C CCC ENEC enables in-band interrupts, and events deferred meanwhile are requested. (R93) -/
  | enec (target : Option (BitVec 7))
  /-- The I3C CCC DISEC disables in-band interrupts. (R93) -/
  | disec (target : Option (BitVec 7))
  /-- The I3C CCC ENTHDR0 enters HDR-DDR mode while HDR_EN = 1. (R68) -/
  | enthdr0
  /-- An unsupported directed CCC is NACKed, and an unsupported broadcast CCC is ignored. (R68) -/
  | unsupportedCcc (code : Byte) (target : Option (BitVec 7))
  /-- A target reset pattern, or RSTACT action 0x01, resets the I3C logic as an owner reset of owner 1. (R69) -/
  | i3cTargetReset
  /-- RSTACT action 0x02 resets the I3C logic and causes a warm reset if WHOLE_RST_EN = 1. (R69) -/
  | rstactWholeReset
  /-- An I3C bus reset is an owner reset of owner 1. (R57) -/
  | i3cBusReset
  /-- An I3C private read returns the oldest completed response, or is NACKed if none waits. (R70) -/
  | privateRead
  /-- An I2C transfer at the static address carries a request or a response before a dynamic address is assigned. (R71) -/
  | i2cTransfer (addr : BitVec 7) (dir : I2cDir)
  /-- The device requests an in-band interrupt for an event or a newly pending group, and retries after a NACK. (R93) -/
  | ibiRequest (acked : Bool)
  /-- A frame ends on the management lane and is handled as a command, discarded, or passed to port 241. (R72) -/
  | mgmtFrameRx (frame : List Byte) (fcsOk : Bool) (fifoFull : Bool := false)
  /-- The READ command reads COUNT words. (R78) -/
  | readWords (r : ReadAct)
  /-- The WRITE command writes COUNT words, stopping at the first failure. (R78) -/
  | writeWords (rq : Request)
  /-- The WRITE_MASKED command writes the masked bits of one word atomically. (R79) -/
  | writeMasked (rq : Request)
  /-- The FENCE command's response is ready once every earlier write of the agent has taken effect. (R86) -/
  | fence (rq : Request)
  /-- The ECHO command returns its payload unchanged. (R77) -/
  | echo (rq : Request)
  /-- The LOGIN_CHALLENGE command returns a challenge ID and a nonce for a role. (R103) -/
  | loginChallenge (rq : Request)
  /-- The LOGIN_RESPONSE command checks the HMAC and opens or extends a session. (R104) -/
  | loginResponse (rq : Request)
  /-- The LOGOUT command ends the session. (R105) -/
  | logout (rq : Request)
  /-- An outstanding challenge expires 10 s after its response. (R103) -/
  | challengeExpire (h : HostAgent)
  /-- A session that carries no command for SESSION_IDLE seconds ends. (R105) -/
  | sessionIdleExpire (h : HostAgent)
  /-- The login lockout period of an agent ends. (R106) -/
  | lockoutExpire (h : HostAgent)
  /-- The OP_SUSPEND command suspends an operation at its type's suspend point, or is refused. (R89) -/
  | opSuspend (rq : Request) (units : Nat)
  /-- The OP_RESUME command continues a suspended operation. (R89) -/
  | opResume (rq : Request)
  /-- The OP_CANCEL command cancels an operation under its type's cancel semantics, or is refused. (R89) -/
  | opCancel (rq : Request) (units : Nat)
  /-- The OP_STATUS command returns the 8 status words of an operation, freeing a terminal record read by its starter. (R88) -/
  | opStatus (rq : Request) (units : Nat)
  /-- A QUEUED operation starts when every earlier conflicting operation has ended. (R89) -/
  | opQueuedStart (slot : Fin 16)
  /-- A running operation finishes its work and ends DONE or FAILED. (R89) -/
  | opComplete (slot : Fin 16) (good : Bool) (found : List Word)
  /-- A terminal record is freed 60 s after it became terminal. (R91) -/
  | opRecordExpire (slot : Fin 16)
  /-- The LOG_READ command returns up to COUNT audit records from START_SEQ. (R114) -/
  | logRead (rq : Request)
  /-- A write of KEY_CTRL.COMMIT starts a key change for a role. (R108) -/
  | keyCommit (a : Agent) (role : BitVec 2)
  /-- The key change completes: copy written, KEY_GEN incremented and the role's rights removed from other sessions. (R108) -/
  | keyCommitDone
  /-- A pending audit record is written to the ring in the persistent store. (R113) -/
  | auditRecordWrite
  /-- OP_START of EPOCH_COMMIT starts a commit of the pending epoch. (R244) -/
  | epochCommit (rq : Request)
  /-- OP_START of TABLE_LOAD applies records from control processor memory to a table. (R221) -/
  | tableLoad (rq : Request)
  /-- OP_START of TABLE_FLUSH removes matching MAC entries bank by bank. (R221) -/
  | tableFlush (rq : Request)
  /-- OP_START of SNAPSHOT_SAVE writes the configuration into the snapshot copy that is not current. (R116) -/
  | snapshotSave (rq : Request)
  /-- OP_START of SNAPSHOT_RESTORE writes a snapshot copy back into DISABLED pages. (R117) -/
  | snapshotRestore (rq : Request)
  /-- OP_START of STATE_SYNC copies state from the active to the standby. (R403) -/
  | stateSync (rq : Request)
  /-- OP_START of MEM_TEST tests a range of ingots of a stack. (R271) -/
  | memTest (rq : Request)
  /-- OP_START of FW_UPDATE verifies an image and writes it into the inactive slot. (R483) -/
  | fwUpdate (rq : Request)
  /-- OP_START of TWICEL_REJOIN realigns time, tables and learning of a split pair. (R397) -/
  | twicelRejoin (rq : Request)
  /-- LINK_UP of a port rises after its conditions have held for 10 ms. (R129) -/
  | linkUp (port : Fin 242)
  /-- LINK_UP of a port falls when a condition fails, aborting a frame in transmission. (R129) -/
  | linkDown (port : Fin 242) (localFault : Bool) (remoteFault : Bool) (noSignal noLock : Byte := 0)
  /-- A port receives a frame, or its first 256 bytes, and discards it or offers it to the pipelines with an ingress stamp and sequence number. (R131) -/
  | frameRx (port : Fin 242) (bytes : List Byte) (complete : Bool) (fcsOk : Bool) (fifoFull : Bool)
  /-- The end of a frame already offered arrives; a bad frame has its copies removed and its cut-through copies stomped. (R257) -/
  | frameEndRx (port : Fin 242) (rest : List Byte) (fcsOk : Bool)
  /-- A received PFC frame stops the classes it enables for its quanta. (R133) -/
  | pfcRx (port : Fin 240) (enable : Byte) (quanta : List (BitVec 16))
  /-- The pause quanta of a received PFC frame expire, and the class may transmit again. (R133) -/
  | pfcPauseExpire (port : Fin 240) (cls : Fin 8)
  /-- Every 64 cycles the Ladle sets or clears XOFF per ingress port and lossless class, and a PFC frame is sent on a change. (R278) -/
  | pfcXoffEval
  /-- A PFC frame is refreshed at half the quanta time while pause is needed. (R133) -/
  | pfcRefresh (port : Fin 240)
  /-- A frame completes transmission on a port. (R132) -/
  | frameTxEnd (port : Fin 242) (ecc : Option Bool)
  /-- A second's error classification is committed to ES, SES and UAS 10 s after it ends. (R142) -/
  | secondCommit (u : SecUnit) (t : SecTally)
  /-- A write of SWITCH_REQ starts the FlexE calendar switch handshake. (R141) -/
  | calendarSwitchReq (a : Agent) (g : Fin 16)
  /-- The far end's acknowledgement of a calendar request arrives. (R141) -/
  | calendarSwitchAck (g : Fin 16)
  /-- At the next overhead frame boundary after the acknowledgement, the new calendar becomes active. (R141) -/
  | calendarSwitch (g : Fin 16)
  /-- A switch that has no acknowledgement after 100 ms is abandoned and SWITCH_FAIL is set. (R141) -/
  | calendarSwitchTimeout (g : Fin 16)
  /-- A FlexE overhead frame is received and checked for group number, calendars and calendar requests. (R139) -/
  | flexeOverheadRx (g : Fin 16) (o : FlexeOverhead)
  /-- A cell delivered in SYNC on a member is checked and delivered or discarded. (R153) -/
  | cellRx (g m : Fin 16) (hdr : BitVec 64) (payload : List Byte) (fecBad : Bool) (ctlBlocks : List (Nat × Nat))
  /-- A member that receives no MARKER for 16,384 slots returns to HUNT. (R155) -/
  | markerTimeout (g m : Fin 16)
  /-- An IDLE cell carrying RDI is received. (R158) -/
  | idleRx (g m : Fin 16) (rdi : Bool)
  /-- A MARKER cell updates marker lock, skew and the far end's masks and rotations. (R163) -/
  | markerRx (g m : Fin 16) (rdi : Bool) (gid : BitVec 16) (mem : BitVec 4) (seq : BitVec 32) (active rx : BitVec 16)
  /-- A scheduled MARKER is sent on all members every 8,192 slots. (R163) -/
  | markerTx (g : Fin 16)
  /-- A member's conditions have held for HOLDOFF, and its RX_OK bit is set. (R162) -/
  | memberAccept (g m : Fin 16)
  /-- A failing member condition clears its RX_OK bit. (R162) -/
  | memberRemove (g m : Fin 16) (cond : MemberCond)
  /-- A write of TEST_CTRL.BAD_HEC makes the next cell on a member carry a corrupt HEC. (R172) -/
  | badHecInject (a : Agent) (g : Fin 16) (data : Word)
  /-- A FLOW_STATUS cell stops or releases data classes to a device or on a member. (R160) -/
  | flowStatusRx (g m : Fin 16) (entries : List (BitVec 12 × Byte))
  /-- A FLOW_STATUS entry that has not been refreshed for 50 µs expires. (R160) -/
  | flowStatusExpire (g m : Fin 16) (dev : BitVec 12)
  /-- Each cycle a quadrant takes waiting frames and assigns them to its pipelines in rotation. (R177) -/
  | spray (q : Fin 4) (stall : List (BitVec 11)) (first : Bool)
  /-- A pipeline pass completes parse, classification, lookup, policing and resolve, and emits one result to the reorder stage. (R192) -/
  | passResult (pipe : Fin 16) (residence : BitVec 60) (banks : List (BitVec 11)) (ecc : Option (BitVec 11 × BitVec 11))
  /-- Each cycle the reorder stage releases held results in per-port sequence. (R193) -/
  | reorderRelease (q : Fin 4)
  /-- A missing sequence is given up after TIMEOUT. (R193) -/
  | reorderSkip (stream : Fin 1004)
  /-- The window command INSERT adds a MAC or LABEL entry. (R219) -/
  | insert (a : Agent) (w : Fin 4) (tab : BitVec 4) (view : Bool)
  /-- The window command UPDATE replaces the data of a present key. (R219) -/
  | update (a : Agent) (w : Fin 4) (tab : BitVec 4) (view : Bool)
  /-- The window command DELETE removes an entry by key, prefix or index. (R219) -/
  | delete (a : Agent) (w : Fin 4) (tab : BitVec 4) (view : Bool)
  /-- The window command FIND reads the entry of a key or exact prefix. (R219) -/
  | find (a : Agent) (w : Fin 4) (tab : BitVec 4) (view : Bool)
  /-- The window command MATCH reads the longest prefix containing an address. (R219) -/
  | matchPrefix (a : Agent) (w : Fin 4) (tab : BitVec 4) (view : Bool)
  /-- The window command READ_INDEX reads a slot, entry or prefix rank. (R211) -/
  | readIndex (a : Agent) (w : Fin 4) (tab : BitVec 4) (view : Bool)
  /-- The window command WRITE_INDEX writes a RULES or NEXTHOP entry. (R219) -/
  | writeIndex (a : Agent) (w : Fin 4) (tab : BitVec 4) (view : Bool)
  /-- The window command ADD adds an LPM prefix or replaces its NEXT_HOP. (R219) -/
  | addPrefix (a : Agent) (w : Fin 4) (tab : BitVec 4) (view : Bool)
  /-- The learning engine takes a queued request and inserts or moves a dynamic entry. (R225) -/
  | learnInsert
  /-- The aging sweep visits a MAC row and removes expired dynamic entries. (R227) -/
  | ageSweep (row : BitVec 22)
  /-- Moves to a port exceeding MOVE_THRESHOLD in a second raise MOVE_STORM and may freeze moves. (R228) -/
  | moveStorm (port : Fin 243)
  /-- The FREEZE_TIME of a port ends and FROZEN clears. (R228) -/
  | moveFreezeExpire (port : Fin 243)
  /-- The table-store scrubber visits a row, corrects it or clears uncorrectable MAC and LABEL rows. (R208) -/
  | tableEccScrub (bank : BitVec 11) (row : BitVec 11) (uncorr : Option Bool)
  /-- A maintenance port that is free starts an arbitration round and grants a requester. (R229) -/
  | maintArbRound (bank : BitVec 11) (requests : BitVec 8)
  /-- At the switch instant the epochs advance and the pending slots become unmerged. (R245) -/
  | epochSwitch
  /-- The merge moves one unmerged slot into the base, leaving a shadow or freeing it. (R238) -/
  | epochMergeSlot
  /-- No unmerged slot remains and the commit is DONE. (R245) -/
  | mergeDone
  /-- The retiring epoch's reference count reaches 0, and its shadows are freed. (R239) -/
  | epochRetire
  /-- RETIRE_TIMEOUT passes with a non-zero count, and retirement is forced. (R243) -/
  | retireForced
  /-- A write of PENDING_CTRL.DISCARD frees every pending slot unless a commit exists. (R249) -/
  | pendingDiscard (a : Agent)
  /-- The Ladle admits, spills or refuses a copy leaving the reorder stage. (R259) -/
  | admission
  /-- A staging ingot is written when its 32nd cell is filled. (R263) -/
  | ingotWrite (q : BitVec 21) (ingot : BitVec 24)
  /-- STAGE_HOLD passes after the last cell of a partial ingot, and it is written. (R263) -/
  | stageHoldExpire (q : BitVec 21) (ingot : BitVec 24)
  /-- A spilled queue's head falls below D, and the next ingot is requested. (R264) -/
  | prefetchRequest (q : BitVec 21)
  /-- An ingot read completes into the pre-fetch pool and the ingot is freed. (R265) -/
  | ingotReadComplete (q : BitVec 21) (latency : BitVec 16) (uncorr : Option (BitVec 7))
  /-- A DRAM channel starts an arbitration round among its requesters. (R268) -/
  | channelArbRound (ch : BitVec 7) (requests : BitVec 8) (outstanding : BitVec 11)
  /-- The patrol scrub reads an ingot, corrects it or retires it. (R269) -/
  | ingotPatrolScrub (stack : Fin 4) (j : BitVec 22) (err : Option (Option (BitVec 7)))
  /-- Paused time of a port and class reaches WD_TIME, and its frames are discarded. (R280) -/
  | wdTrip (port : Fin 240) (cls : Fin 8)
  /-- No PFC for the class has arrived for WD_RESTORE, and it is restored. (R280) -/
  | wdRestore (port : Fin 240) (cls : Fin 8)
  /-- Each cycle the traffic manager selects frames through port, group and queue under shapers, pause and gates. (R296) -/
  | tmSelect (port : Fin 242) (ringFull : Bool) (ecc : Option Bool)
  /-- A write to word 0 of a queue or group record changes structure, closes the node, or is refused. (R289) -/
  | tmNodeWrite (a : Agent) (n : BitVec 9) (data : Word)
  /-- A write of TM.RATE_APPLY bit s applies the staged rates of rate set s. (R302) -/
  | tmRateApply (a : Agent) (data : Word)
  /-- A write of POLICE.RATE_APPLY bit s applies the staged rates of the policers of set s. (R309) -/
  | policeRateApply (a : Agent) (data : Word)
  /-- DOWN_HOLD after a port went down passes, and the port flushes. (R303) -/
  | downHoldExpire (port : Fin 242)
  /-- A write of PORT_CTRL.SWITCH_REQ checks the inactive list and fixes the change time. (R319) -/
  | gateSwitchReq (a : Agent) (data : Word)
  /-- A write of PORT_CTRL.SWITCH_CANCEL before CT cancels a pending switch. (R321) -/
  | gateSwitchCancel (a : Agent) (data : Word)
  /-- The time base reaches CT and the pending list becomes active. (R321) -/
  | gateSwitch (port : Fin 242)
  /-- The time base reaches an entry boundary and new gate states take effect. (R316) -/
  | gateTransition (port : Fin 242)
  /-- Each cycle the time base and domain clocks advance by their increments with slew or step. (R335) -/
  | timeBaseTick
  /-- A write of DOM_CTRL.STEP_GO steps a domain clock. (R334) -/
  | stepGo (a : Agent) (d : Fin 2)
  /-- A write of DOM_CTRL.SET_GO sets a domain clock or is rejected. (R334) -/
  | setGo (a : Agent) (d : Fin 2)
  /-- A write of FREQd changes the domain increment, clamped to ±1,000 ppm. (R333) -/
  | freqWrite (a : Agent) (d : Fin 2) (data : Word)
  /-- A write of TB_CTRL.SNAP copies the time base and both domains in one cycle. (R337) -/
  | snap (a : Agent)
  /-- A write to TXTS_POP removes the head time-stamp entry. (R342) -/
  | txtsPop (a : Agent) (port : Fin 242) (data : Word)
  /-- The selected clock reaches a whole second and PPS_OUT rises. (R344) -/
  | ppsOutEdge
  /-- A rising edge of PPS_IN captures the time base and both domains. (R345) -/
  | ppsIn
  /-- SIGNAL or LOCK of the source lane falls and the recovered clock output is squelched. (R346) -/
  | rclkSquelch (n : Fin 2) (signal : Bool)
  /-- A follower sends a TIME REQUEST every EXCH_INTERVAL. (R348) -/
  | timeExchangeStart
  /-- A received TIME REQUEST is answered with a RESPONSE carrying T2 and T3. (R348) -/
  | timeRequestRx (g m : Fin 16) (id : BitVec 16) (t1 : BitVec 96)
  /-- A valid TIME RESPONSE gives offset and delay to the servo. (R349) -/
  | timeResponseRx (g m : Fin 16) (id : BitVec 16) (t1 t2 t3 : BitVec 96)
  /-- An exchange without a valid response within 100 µs is lost. (R348) -/
  | timeExchangeLost
  /-- A LOCKED servo without a valid exchange for 1 ms enters HOLDOVER. (R350) -/
  | servoHoldover
  /-- A write of SLOT_CTRL.ARM checks a slot and places its writes, or rejects it. (R353) -/
  | launchArm (a : Agent) (data : Word)
  /-- A write of SLOT_CTRL.CANCEL cancels an ARMING or ARMED slot. (R354) -/
  | launchCancel (a : Agent) (data : Word)
  /-- A slot's placement completes, and it becomes ARMED, applies late, or is MISSED. (R354) -/
  | launchPlaced (k : BitVec 8)
  /-- The time base reaches T and a slot's writes take effect in one cycle. (R355) -/
  | launchApply (k : BitVec 8)
  /-- T passes while LAUNCH is SAFE, or placement ends late without LATE_OK. (R354) -/
  | launchMissed (k : BitVec 8)
  /-- A ready VOQ sends one frame as sprayed cells, credited or as a probe. (R373) -/
  | voqServe (ecc : Option Bool := none)
  /-- A received CREDIT_GRANT adds credit to the matching VOQs. (R374) -/
  | creditGrantRx (src : BitVec 12) (entries : List (BitVec 16 × Fin 8 × BitVec 16))
  /-- The grant generator earns a grant for an egress port and spends it on an eligible flow. (R375) -/
  | creditEarn (port : Fin 242)
  /-- A CREDIT_GRANT cell is sent when it holds 20 entries or GRANT_HOLD passes. (R375) -/
  | grantCellSend (src : BitVec 12)
  /-- A data cell is placed in its reassembly context or discarded. (R377) -/
  | dataCellRx (src : BitVec 12) (cls : Fin 8) (seq : BitVec 16) (first last : Bool) (payload : List Byte)
  /-- Each cycle cells in sequence pass to frame assembly, and complete frames go to the Ladle. (R377) -/
  | reassemblyRelease
  /-- A context's earliest held cell has waited TIMEOUT, and the gap is given up. (R377) -/
  | rbSkip (src : BitVec 12) (cls : Fin 8)
  /-- An unsynced context sets its next sequence after TIMEOUT. (R376) -/
  | contextSync (src : BitVec 12) (cls : Fin 8)
  /-- Reorder buffer occupancy crosses XOFF or XON, and FLOW_STATUS is sent. (R378) -/
  | rbXoff
  /-- The XOFF FLOW_STATUS cell is repeated every 10 µs. (R378) -/
  | flowStatusRepeat
  /-- A VOQ idle for FREE_HOLD with positive credit is freed. (R369) -/
  | voqFreeHoldExpire (v : BitVec 18)
  /-- A destination unreachable for UNREACH_TIME has its VOQs discarded. (R368) -/
  | unreachExpire (phys : BitVec 12)
  /-- A received TAKEOVER repoints a matching alias entry, or is ignored. (R367) -/
  | takeoverRx (logical new old : BitVec 12)
  /-- A link-local cell with the device's own index puts the device in CONFLICT. (R385) -/
  | conflictDetect (src : BitVec 12)
  /-- The lead sends the join probe when the joint comes UP. (R386) -/
  | joinProbe
  /-- The probe answer makes the pair JOINED or SPLIT, or sets JOIN_MISMATCH. (R386) -/
  | joinProbeAnswer (status : Byte)
  /-- The partner applies a CONFIG_RELAY in sequence and acknowledges it. (R390) -/
  | configRelayRx (flags : Byte) (seq : BitVec 16) (addr mask : Word) (data : List Word)
  /-- The lead receives a relay acknowledgement and completes waiting commands. (R390) -/
  | relayAckRx (seq : BitVec 16) (status : Byte) (words : Byte) (data : List Word)
  /-- RELAY_RETX passes without an ACK, and the lead retransmits or sets RELAY_FAIL. (R390) -/
  | relayRetx
  /-- A LEARN batch is sent when full or 1 µs after its first entry. (R394) -/
  | learnBatchSend
  /-- A received LEARN batch is applied entry by entry. (R394) -/
  | learnRx (seq : BitVec 16) (entries : List (BitVec 128))
  /-- Every SYNC_WALK a device re-sends its own dynamic entries as ADD. (R395) -/
  | syncWalk
  /-- The filtered ACT_IN falls on an ACTIVE device and it winds down. (R408) -/
  | actInFall
  /-- At t0 + 30 µs held frames are discarded and the device gates. (R408) -/
  | windDownEnd
  /-- The filtered ACT_IN rises on a STANDBY device and it applies records and ungates. (R409) -/
  | actInRise
  /-- The new active starts forwarding and sends TAKEOVER cells. (R414) -/
  | takeoverForwardStart
  /-- The TAKEOVER cell is repeated 10 µs later. (R414) -/
  | takeoverRepeat
  /-- A write to HB_KICK restarts the heartbeat window. (R400) -/
  | hbKick (a : Agent) (data : Word)
  /-- HB_OUT toggles every 500 µs while its conditions hold. (R400) -/
  | hbToggle
  /-- A write of FAULT_CTRL.ASSERT asserts FAULT_N. (R400) -/
  | faultAssert (a : Agent)
  /-- A write of FAULT_CTRL.CLEAR deasserts FAULT_N when no cause remains. (R400) -/
  | faultClear (a : Agent)
  /-- The active journals an accepted write as a record. (R402) -/
  | journalRecordSend
  /-- The standby applies the next journal record in sequence, or discards it. (R405) -/
  | journalRx (generation seq : Word) (records : List Word)
  /-- The active receives a journal acknowledgement. (R405) -/
  | journalAckRx (generation ack : Word) (refuse : Bool)
  /-- RETX_TIME passes without progress, and the active retransmits. (R405) -/
  | journalRetx
  /-- A HEARTBEAT record is sent when no record has been sent for 100 µs. (R404) -/
  | journalHeartbeat
  /-- Every SWEEP_PERIOD the active journals all counters and buckets. (R403) -/
  | journalSweep
  /-- A queued flush moves a pair's partial count into its backing value. (R419) -/
  | statsFlush (uncorr : Bool)
  /-- Every FLUSH_PERIOD each pair with a non-zero partial is queued for flush. (R419) -/
  | statsPeriodicFlush
  /-- A read of FRAMES_LO merges a pair and latches its record. (R421) -/
  | statsRead (a : Agent) (pair : Fin 1024) (uncorr : Bool)
  /-- A write of SET_CTRL.GO sets one pair or a range of pairs. (R423) -/
  | statsSet (a : Agent) (data : Word)
  /-- A write of PMU_CTRL.RESET_ALL zeroes every PMU counter. (R424) -/
  | pmuResetAll (a : Agent)
  /-- A write of VALUEn_HI is held, and a following VALUEn_LO write sets both words. (R427) -/
  | pmuValueWrite (a : Agent) (n : Fin 256) (high : Bool) (data : Word)
  /-- A waiting sample record is written to the ring, or lost. (R432) -/
  | sampleRecordWrite
  /-- A write of RING_RD frees ring entries. (R432) -/
  | ringRdWrite (a : Agent) (data : Word)
  /-- DBG_EN_N is asserted and the debug port attaches. (R443) -/
  | debugAttach
  /-- The debug port detaches, as an owner reset of owner 8. (R443) -/
  | debugDetach
  /-- No valid request for DETACH_IDLE seconds detaches the port. (R443) -/
  | detachIdleExpire
  /-- 64 ones in a row discard a partial request. (R442) -/
  | debugLineReset
  /-- The CORE_HALT command halts the named cores. (R446) -/
  | coreHalt (rq : Request)
  /-- The CORE_RESUME command resumes the named cores. (R446) -/
  | coreResume (rq : Request)
  /-- The CORE_STEP command executes one instruction of a halted core. (R446) -/
  | coreStep (rq : Request) (pc : BitVec 64) (effects : List (BitVec 16 × BitVec 64))
  /-- The CORE_REG_READ command reads registers of a halted core. (R447) -/
  | coreRegRead (rq : Request)
  /-- The CORE_REG_WRITE command writes registers of a halted core. (R447) -/
  | coreRegWrite (rq : Request)
  /-- The TRIGGER_SET command sets a core trigger. (R447) -/
  | triggerSet (rq : Request)
  /-- A core access matches a trigger and the core halts. (R447) -/
  | triggerHit (k t : Fin 4) (acc : TrigAccess) (addr : BitVec 64) (user : Bool)
  /-- A marked frame reaches its breakpoint's stage and the pipeline holds. (R449) -/
  | pbpHit (pipe : Fin 16)
  /-- A write of PBP_CTRL.STEP advances a held pipeline one stage. (R449) -/
  | pbpStep (a : Agent) (data : Word) (residence : BitVec 60) (banks : List (BitVec 11)) (ecc : Option (BitVec 11 × BitVec 11))
  /-- A write of PBP_CTRL.RELEASE lets a held pipeline run on. (R449) -/
  | pbpRelease (a : Agent) (data : Word)
  /-- The QUENCH command freezes the device's clocks. (R453) -/
  | quench (rq : Request)
  /-- QUENCH_N asserted with PIN_EN = 1 freezes the device. (R452) -/
  | quenchPin
  /-- The QINFO command returns the Quench information words. (R454) -/
  | qinfo (rq : Request)
  /-- The QREAD command reads a frozen space. (R454) -/
  | qread (rq : Request) (uncorr : Option (BitVec 8) := none)
  /-- The THAW command resumes the clocks of a quenched device. (R455) -/
  | thaw (rq : Request) (us : Word)
  /-- A write of Q_CTRL.THAW resumes the clocks of a quenched device. (R455) -/
  | qCtrlThaw (a : Agent) (data : Word) (us : Word)
  /-- The DETACH command detaches the debug port. (R443) -/
  | detach (rq : Request)
  /-- PWRGOOD and RESET_N are both high, and Bellows samples the straps and starts boot. (R458) -/
  | coldResetRelease (rise : Bool) (straps : BitVec 4) (hot : Bool)
  /-- RESET_N falls for at least 1 µs and the device enters cold reset. (R460) -/
  | resetNFall
  /-- PWRGOOD falls and the device enters cold reset. (R459) -/
  | pwrgoodFall
  /-- VDD_AUX or VDD_IO leaves its range and the device enters cold reset. (R502) -/
  | supplyOutOfRange
  /-- Bellows verifies its firmware slot, or falls back to the other slot or its ROM image. (R479) -/
  | bellowsImageVerify
  /-- A commanded rail reads within ±3 %, and the next rail is commanded 100 µs later. (R458) -/
  | railInRange
  /-- A rail not within ±3 % 2 ms after its command ends the run with RAIL_FAULT. (R458) -/
  | railStartTimeout
  /-- The root PLL locks, SVC_CLK moves to root / 50 and AVS starts. (R462) -/
  | rootPllLock (cold : Bool)
  /-- Every stack reaches −10 °C, or 60 s pass, and the warm-up ends. (R482) -/
  | warmUpEnd (reached : Bool)
  /-- A stack's DRAM training completes. (R481) -/
  | stackTrained (n : Fin 4)
  /-- The boot ROM verifies the control processor slot and starts the firmware or the recovery image. (R479) -/
  | cpBoot
  /-- A write of RESET_CTRL.WARM warm-resets the device. (R477) -/
  | warmReset (a : Agent)
  /-- A write of RESET_CTRL.POWER_OFF starts an orderly power-down. (R459) -/
  | powerOff (a : Agent)
  /-- A write of BLOCK_RESET with GO = 1 starts a reset of a DISABLED page, or is rejected. (R478) -/
  | blockReset (a : Agent) (page : BitVec 8)
  /-- A page reset completes and GO clears. (R478) -/
  | blockResetComplete
  /-- The Bellows watchdog expires and Bellows restarts. (R465) -/
  | bellowsWdtExpire
  /-- A write of BELLOWS_CTRL.RESTART restarts Bellows as an owner reset of owner 9. (R465) -/
  | bellowsRestart (a : Agent)
  /-- Bellows moves VDD_CORE by one step, or to VMAX, from the timing monitors. (R466) -/
  | avsStep (slack : BitVec 16) (held : Bool)
  /-- Every 1 ms the sensors are read and thermal levels are entered or cleared. (R470) -/
  | tempSample (logic t0 t1 t2 t3 : Byte)
  /-- A shutdown threshold held for 10 ms powers the device off. (R470) -/
  | thermalShutdown
  /-- After shutdown, Bellows rechecks the temperatures every 1 s before powering up. (R470) -/
  | thermalRecheck (hot : Bool)
  /-- The hardware comparator asserts THERM_TRIP_N at 125 °C and holds the device in cold reset. (R471) -/
  | thermalTrip
  /-- Every 10 ms Bellows reads READ_VOUT and READ_IOUT of every rail. (R472) -/
  | pmbusPoll (vout iout : List (BitVec 16)) (silent : List (Fin 7))
  /-- PMB_ALERT_N falls and Bellows reads and clears the regulator's faults. (R472) -/
  | pmbAlert (r : Fin 7) (voltage overCurrent : Bool)
  /-- 100 ms after a SerDes rail fault, Bellows turns the rail off and on once. (R474) -/
  | serdesRailCycle
  /-- No REFCLK edge for 2 µs puts the root PLL in holdover. (R463) -/
  | refclkLoss
  /-- REFCLK returns and the root PLL relocks. (R463) -/
  | refclkReturn
  /-- The root PLL loses lock for another cause and the device enters cold reset. (R463) -/
  | rootLockLoss
  /-- In HUNT or PRESYNC a member lane's delineation machine tests a received byte position as a header candidate and moves between HUNT, PRESYNC and SYNC. (R154) -/
  | headerCandidate (g m : Fin 16) (hdr : BitVec 64) (payload : List Byte) (expected : Bool)
  /-- A Sprue member lane loses signal or FEC alignment, its delineation enters HUNT, and the group's UP and a Twicel joint can fall. (R154) -/
  | lossOfSignal (g m : Fin 16)
  /-- A member's MARKER for a given MARKER_SEQ has not arrived 2 µs after the earliest member's, and SKEW_FAIL is set. (R165) -/
  | skewFail (g m : Fin 16)
  /-- A squelched recovered-clock output resumes 10 ms after SIGNAL and LOCK of its source lane have both been 1 without a break. (R346) -/
  | rclkResume (n : Fin 2)
  deriving DecidableEq, Repr

end Sys2Proof
end

