-- ==== Sys2Proof/Machine/State.lean ====
section
/-! DEFINITION. The state of the LY2880 block: every register, window word, table, queue, buffer, counter, mode and pin
that the spec gives it, as plain data, the queue of waiting commands, and the state after cold reset.
Sparse stores list only what differs from the reset value of its key. -/
namespace Sys2Proof.Machine

/-- Why a command could not be given a meaning. A meaning never answers with it: it stands in arms of the dispatch only. -/
inductive Refusal where
  /-- The command has no meaning in the model yet. Raised by the dispatch; safe, since nothing is claimed of the result. -/
  | notModelled (mnemonic : String)
  deriving DecidableEq, Repr

/-- The ways in which the machine stops with a fault. No rule of the spec stops the machine: what it calls a fault is
recorded in registers, and the device goes on. -/
inductive Fault where
  /-- No meaning raises it; it stands here because the outcome type asks for a fault type. Safe. -/
  | noneRaised
  deriving DecidableEq, Repr

/-- The statuses of the command path (R75). -/
inductive Status where
  | ok | busy | badCrc | badOpcode | badLength | accessFault | denied | cfgLocked | writeOnce | lockHeld | noSuchOp
  | opState | tooLate | tableFull | partnerDown | internal
  deriving DecidableEq, Repr

/-- The code of a status (R75). -/
def Status.code : Status → Nat
  | .ok => 0 | .busy => 1 | .badCrc => 2 | .badOpcode => 3 | .badLength => 4 | .accessFault => 5 | .denied => 6
  | .cfgLocked => 7 | .writeOnce => 8 | .lockHeld => 9 | .noSuchOp => 10 | .opState => 11 | .tooLate => 12
  | .tableFull => 13 | .partnerDown => 14 | .internal => 15

/-- What the device did on the I3C or I2C bus in the last transfer addressed to it (R68, R70). -/
inductive BusReply where
  | silent | ack | nack | data (bytes : List Byte)
  deriving DecidableEq, Repr

/-- An outstanding login challenge (R103). -/
structure Challenge where
  id : BitVec 16
  nonce : BitVec 256
  role : BitVec 2
  deriving DecidableEq, Repr

/-- A response frame (R75). -/
structure Response where
  tag : Byte
  status : Status
  payload : List Word
  deriving DecidableEq, Repr

/-- How a response leaves: over I3C, in a management frame to a MAC address with or without the request's tag, or over the
debug port (R70, R72, R445). -/
inductive Route where
  | i3c | mgmt (mac : BitVec 48) (vlan : Option Word) | debug | nowhere
  deriving DecidableEq, Repr

/-- A part of a response in the making (R387, R388, R390): words at hand, the words that a relay reads, the number of words that the
relays wrote, or an aggregate word at an offset of the STATS window, with the lead's counts and the relay that reads the partner's. -/
inductive RespPart where
  | words (l : List Word)
  | remote (seq : Nat)
  | written
  | sum (seq off frames bytes : Nat)
  deriving DecidableEq, Repr

/-- A response that waits for the partner's acknowledgement of relays (R387-R392): the relays of the command, first to last, the lead's
own outcome, the parts of its payload, and the answers so far as STATUS, words that took effect and words read. -/
structure Waiting where
  agent : Agent
  route : Route
  noResponse : Bool
  firstSeq : Nat
  lastSeq : Nat
  resp : Response
  parts : List RespPart
  got : List (Nat × (Nat × Nat × List Word))
  deriving DecidableEq, Repr

/-- An accepted command that has not started (R84, R85, R392): its number in the order of acceptance, its opcode, the request, the route of
its response, the rights it was accepted with (R105), and the relay whose acknowledgement it waits for, none where it waits only for earlier
waiting commands. -/
structure Deferred where
  no : Nat
  op : Nat
  rq : Request
  route : Route
  rights : Nat
  after : Option Nat
  deriving DecidableEq, Repr

/-- Host interface state beside HOSTIF and ROLES registers (R68-R94, R103-R106). -/
structure HostSt where
  hdr : Bool                             -- in HDR-DDR mode (R68)
  ibiOff : Bool                          -- in-band interrupts disabled by DISEC (R93)
  ibis : List (Byte × Byte)              -- events to be requested, oldest first: event code and detail (R93)
  ibiLast : Option (Byte × Byte)         -- the last in-band interrupt the controller accepted (R93)
  groupSeen : BitVec 6                   -- groups whose pending state has been requested (R93)
  resp : List (List Byte)                -- unread responses for I3C, oldest first, at most 8 (R70)
  reply : BusReply                       -- what the device did in the last bus transfer (R68, R70)
  mgmtOut : List (List Byte)             -- frames the management port has sent, oldest first (R72)
  dbgOut : List (List Byte)              -- responses of the debug port, oldest first (R445)
  challenges : List (Nat × Challenge)    -- outstanding challenge by owner ID (R103)
  fails : List (Nat × Nat)               -- consecutive login failures by owner ID (R106)
  lockedOut : List (Nat × Nat)           -- owner IDs within a lockout period, with the core cycle at which it ends (R106)
  dbgSession : BitVec 16                 -- SESSION of the debug port, 0 if none (R444)
  dbgRights : BitVec 3                   -- rights of that session (R444)
  waiting : List Waiting                 -- accepted commands whose response waits for an acknowledgement (R80, R390)
  ordered : List Deferred                -- accepted commands that have not started, oldest first (R84, R85, R392)
  taken : Nat                            -- commands that have had to wait, by which they are numbered
  fenceAt : List (Nat × (Nat × Nat))     -- by fence word, at its write: the relays and the waiting commands that preceded it (R60, R223)
  deriving DecidableEq, Repr

/-- Why a core is halted (R456, HALT_CAUSE). -/
inductive HaltCause where
  | running | coreHalt | step | execTrigger | accessTrigger
  deriving DecidableEq, Repr

/-- A core trigger (R447). -/
structure Trigger where
  kind : BitVec 3                        -- 0 off, 1 execute, 2 load, 3 store, 4 load or store
  userOnly : Bool
  addr : Word
  mask : Word
  deriving DecidableEq, Repr

/-- The control processor (R61-R67, R446, R447): memory of both SRAM parts and the STACK0 region, the registers of each
core that the debug port reads and writes, its triggers. A core register's key is core * 65536 + register number. -/
structure CpSt where
  mem : List Host.Cell                   -- bytes that are not 0, by physical address (R62)
  coreRegs : List (Nat × BitVec 64)      -- registers that are not 0 (R447)
  halted : List (Nat × HaltCause)        -- halted cores (R446)
  triggers : List (Nat × Trigger)        -- triggers that are set, key core * 4 + index (R447)
  deriving DecidableEq, Repr

/-- One audit record, less its CRC, which is computed when it is read (R111). -/
structure AuditRec where
  seq : Word
  sec : BitVec 48
  ns : Word
  kind : Byte
  agent : BitVec 4
  rights : BitVec 3
  timeValid : Bool
  session : BitVec 16
  status : Byte
  page : Byte
  addr : Word
  data : Word
  count : BitVec 16
  deriving DecidableEq, Repr

/-- The two copies of a role key, the CRC-32 of each copy and their generation numbers (R107). -/
structure KeyPair where
  a : BitVec 256
  b : BitVec 256
  crcA : Word
  crcB : Word
  genA : BitVec 16
  genB : BitVec 16
  curB : Bool
  deriving DecidableEq, Repr

/-- The persistent store (R107-R121): bytes of the slots, calibration, snapshots and spare; the role keys; the audit ring. -/
structure NvmSt where
  bytes : List Host.Cell                 -- bytes that differ from the shipped content, by offset (R115, R514)
  opKey : KeyPair
  instKey : KeyPair
  keyJob : Option (Agent × Nat × BitVec 2) -- a key change in progress: committing agent, its session (0 if none) and the role (R108)
  ring : List (Nat × AuditRec)           -- stored audit records by SEQ mod 4096 (R111)
  auditPend : List AuditRec              -- records awaiting the store, oldest first, at most 64 (R113)
  auditLost : Nat                        -- events lost while the queue was full (R113)
  storeRun : Option (Nat × Nat × Nat)    -- where the newest record is of stores: agent, page, core cycle of the last store (R112)
  wear : List (Nat × Nat)                -- writes to the most-written word of each place of the store; 8 counts audit records (R119)
  deriving DecidableEq, Repr

/-- The types of long operation (R87). -/
inductive OpKind where
  | epochCommit | tableLoad | tableFlush | snapshotSave | snapshotRestore | stateSync | memTest | fwUpdate | twicelRejoin
  deriving DecidableEq, Repr

/-- The states of a long operation (R88). -/
inductive OpState where
  | queued | running | suspended | done | cancelled | failed
  deriving DecidableEq, Repr

/-- The record of a long operation (R87-R91): what OP_STATUS shows, who started it with which rights, session, locks and
parameter words, its place in the order of OP_STARTs, and whether
a commit switches at an instant agreed with the partner. -/
structure OpRec where
  kind : OpKind
  serial : BitVec 12
  state : OpState
  result : Status
  phase : Byte
  progress : Word
  total : Word
  detail : List Word
  lockLost : Bool
  broken : Bool
  starter : Nat
  rights : BitVec 3
  session : BitVec 16
  locks : List Nat
  params : List Word
  born : Nat
  paired : Bool
  deriving DecidableEq, Repr

/-- A page that a restore has written and that is not complete yet (R117): the operation's slot, the page, the saved signature, the relay
number after its writes, whether a scrub pass has compared it since. -/
structure RestPage where
  slot : Nat
  page : Nat
  saved : Word
  relays : Nat
  compared : Bool
  deriving DecidableEq, Repr

/-- Long operations: records by slot, the serial count of each slot, the count of creations (R87), and the page that a restore has in hand
(R117). -/
structure OpSt where
  recs : List (Nat × OpRec)
  serials : List (Nat × BitVec 12)
  births : Nat
  rest : Option RestPage
  deriving DecidableEq, Repr


/-! ### Frames and the pipelines -/

/-- A frame inside the device: its identity, ingress port of first entry, quadrant, sequence number in its stream, pass, epoch,
the bytes received so far without FCS, whether its end has been received and proved bad, its ingress stamp, and its marks. -/
structure Frame where
  id : Nat
  port : Nat                             -- ingress port of first entry (R195)
  quad : Nat                             -- quadrant (R176)
  recirc : Bool                          -- in the quadrant's port 242 stream (R195)
  seq : Nat                              -- sequence number in its stream, mod 2^16 (R174)
  pass : Nat                             -- 1 to 4 (R195)
  epoch : Option Nat                     -- the epoch it carries, from stage 0 of pass 1 (R240)
  bytes : List Byte                      -- bytes held, without FCS
  len : Nat                              -- length known so far, without FCS
  gone : Nat                             -- bytes that recirculation has removed (R195)
  ended : Bool                           -- the last byte has been received
  late : Bool                            -- bad at its end (R257)
  stamp : Int                            -- ingress stamp in 2^-16 ns (R338, R339)
  mark : Option Nat                      -- packet breakpoint that marked it (R448)
  deriving DecidableEq, Repr

/-- The rewrites of a copy as it leaves its port (R212, R213, R241, R308). -/
structure Rewrite where
  pops : Nat                             -- labels removed from the top (R213)
  dmac : Option (BitVec 48)              -- REWRITE_MAC
  vid : Option (BitVec 12)               -- SET_VID
  decTtl : Bool                          -- DEC_TTL
  push : Option (BitVec 20)              -- PUSH_LABEL
  dei : Bool                             -- YELLOW_DEI (R308)
  deriving DecidableEq, Repr

/-- Where a result sends its frame: an egress port with the queue chosen at RESOLVE, a multicast group, or a port of another
device with its physical ID. -/
inductive OutTo where
  | port (p : Nat) (queue : Nat)
  | group (g : Nat)
  | remote (dev : Nat) (p : Nat) (phys : Nat)
  deriving DecidableEq, Repr

/-- What a pass result does (R192). -/
inductive ResAct where
  | hole
  | forward (out : OutTo) (tc : Nat) (vid : Nat) (hash : Word) (rw : Rewrite)
  | punt (reason : Nat) (dross : Nat) (flags : Nat) (rule : Nat)
  | recirc (strip : Nat)
  | mirrorOnly
  deriving DecidableEq, Repr

/-- What a sample record and a Skim copy report of a frame (R430, R435). -/
structure RecInfo where
  pass : Nat
  colour : Nat                           -- 0 green, 1 yellow, 2 red
  terminating : Bool
  inPort : Nat                           -- INGRESS_PORT as in the key
  outcome : Nat
  pipe : Nat
  dross : Nat
  cls : Nat                              -- 0-7, or 8 for control
  seq : Nat
  epoch : Nat
  stamp : Int                            -- ingress stamp in 2^-16 ns
  resid : BitVec 60                      -- residence of stages 0-5 in cycles, 10 bits each
  wait : Nat                             -- reorder wait in cycles
  banks : List (BitVec 11)               -- table banks touched, in order
  forme : Nat                            -- FORME rule ID
  rule : Nat                             -- deciding rule ID
  nh : Nat                               -- NEXT_HOP index
  queue : Nat
  isVoq : Bool
  depth : Nat
  egress : Nat
  sess : List Nat                        -- Skim sessions that have made a copy on this pass (R433)
  deriving DecidableEq, Repr

/-- A result of a pass: the frame, what it does, the mirror copies it makes as session and trigger source (R192, R433), the
samples its pass has drawn as counter and event code (R429), and what records report of it. -/
structure Result where
  frame : Frame
  act : ResAct
  mirrors : List (Nat × Nat)
  samples : List (Nat × Nat)
  info : RecInfo
  deriving DecidableEq, Repr

/-- A result held in the reorder memory with the cycle it arrived (R193). -/
structure Held where
  stream : Nat                           -- port, or 1000 + quadrant for a recirculation stream
  quad : Nat
  seq : Nat
  since : Nat
  result : Result
  deriving DecidableEq, Repr

/-- A parsed header: code (R180), first byte and length. -/
structure Hdr where
  code : Nat
  start : Nat
  len : Nat
  deriving DecidableEq, Repr

/-- What parsing a frame gives: headers in order, DEPTH_EXCEEDED, FRAGMENT, the Dross reason or 0 (R179-R183). -/
structure Parsed where
  hdrs : List Hdr
  depth : Bool
  frag : Bool
  dross : Nat
  deriving DecidableEq, Repr

/-- The views of a versioned table (R234, R237). -/
inductive View where
  | pending | standing | retiring
  deriving DecidableEq, Repr

/-- What the LOOKUP stage or a rule resolves a frame to: a drop, a punt, a next-hop index with the labels that go, a port as tables name it,
a multicast group (R212-R216). -/
inductive Fwd where
  | drop
  | punt (reason : Nat)
  | nh (idx : Nat) (pops : Nat)
  | port (n : Nat)
  | group (g : Nat)
  deriving DecidableEq, Repr

/-- The result of a lookup that a frame carries from LOOKUP on (R222), with the counters of TABLES that it advances. -/
structure Looked where
  fwd : Fwd
  counts : List Nat
  deriving DecidableEq, Repr

/-- What the stages before RESOLVE decide for a frame: a forwarding result, delivery to port 240 or 241, recirculation (R186, R187). -/
inductive Decide where
  | fwd (r : Fwd)
  | deliver (p : Nat)
  | recirc (strip : Nat)
  deriving DecidableEq, Repr

/-- What a pass has found so far (R186, R197): the parse, whether the frame is terminating, its FORME rule's RULE_ID, the deciding rule, the class
that SET_TC gives, mirror triggers as session and source; the lookup's result; what is decided, whether the frame is policed and whether by
the rule's policer too; its colour, whether YELLOW_DEI applies and whether it is dropped red. -/
structure Pass where
  frame : Frame
  pipe : Nat
  view : View
  parsed : Parsed
  term : Bool
  forme : Nat
  rule : Option (List Word)
  tc : Option Nat
  mirrors : List (Nat × Nat)
  looked : Looked
  todo : Decide
  police : Bool
  byRule : Bool
  colour : Nat
  dei : Bool
  red : Bool
  deriving DecidableEq, Repr

/-- A frame inside a pipeline with the cycle it entered (R178), whether a breakpoint holds it, and where one has held it, what its pass has
found, with the stages done (R449). -/
structure InPipe where
  pipe : Nat
  frame : Frame
  since : Nat
  stage : Option Nat                     -- the stage at which a breakpoint holds it
  heldSince : Nat                        -- the cycle from which it is held
  pass : Option (Nat × Pass)
  deriving DecidableEq, Repr

/-- A token bucket, refilled lazily: its level in its unit and the cycle up to which it is refilled. -/
structure Bucket where
  level : Int
  cyc : Nat
  deriving DecidableEq, Repr

/-- A second of a unit that has ended (R142, R170): severely errored, errored, whether it counts, whether it makes its interval suspect. -/
structure SecRec where
  ses : Bool
  es : Bool
  counts : Bool
  suspect : Bool
  deriving DecidableEq, Repr

/-- The error-second history of a unit (R142, R169): seconds ended but not yet committed, newest last; and whether unavailable time is in
force. -/
structure SecHist where
  ended : List SecRec
  unavail : Bool
  deriving DecidableEq, Repr

/-- Ports: sequence numbers, ingress FIFOs, frames still arriving, egress FIFOs, the last frame each port sent, error-second
history, FlexE handshakes (R131-R142, R174). -/
structure PortSt where
  nextId : Nat                           -- identity of the next frame received
  seqs : List (Nat × Nat)                -- next sequence number by stream (R174)
  fifos : List (Nat × List Frame)        -- ingress FIFOs by port, oldest first (R22)
  arriving : List (Nat × Nat)            -- port to identity of the frame still arriving
  wire : List (Nat × (List Byte × Bool)) -- the last frame each port transmitted, without FCS, and whether its FCS was good
  txPfc : List (Nat × List Byte)         -- the last PFC frame each port transmitted (R133)
  secs : List (Nat × SecHist)            -- error-second history by unit (R142, R169)
  calAcked : List Nat                    -- FlexE groups whose request the far end has acknowledged (R141)
  calDiff : List Nat                     -- received slots that differ from the configuration, group * 1280 + slot (R139)
  calAckSent : List Nat                  -- FlexE groups whose far-end request this device has acknowledged (R141)
  ctlRx : List (Nat × List Byte)         -- by port: the first bytes of a MAC control frame whose end has not arrived (R131)
  deriving DecidableEq, Repr

/-- The pipelines and the reorder stage (R174-R196). -/
structure PipeSt where
  inside : List InPipe                   -- frames in the pipelines, in order of entry (R178)
  lastPipe : List (Nat × Nat)            -- the pipeline each quadrant assigned last (R177)
  streams : List (Nat × List Frame)      -- recirculation stream of each quadrant (R195)
  held : List Held                       -- the reorder memory (R193)
  nextSeq : List (Nat × Nat)             -- next[p] by stream (R193)
  turn : List (Nat × (Nat × Nat))        -- the port whose turn it is in each quadrant, with the frames taken in it (R177)
  recPath : List (Nat × Bucket)          -- what the recirculation path may carry, in bytes, by quadrant; 4 is the device (R196)
  puntBuckets : List (Nat × Bucket)      -- buckets of the punt reasons; 32 is the aggregate (R190)
  deriving DecidableEq, Repr

/-! ### Tables -/

/-- A MAC entry (R218). -/
structure MacEnt where
  mac : BitVec 48
  vid : BitVec 12
  static : Bool
  isNh : Bool
  dest : BitVec 20
  seen : Word                            -- LAST_SEEN in ticks (R227)
  deriving DecidableEq, Repr

/-- The kinds of overlay slot (R236). -/
inductive SlotKind where
  | pending | unmerged | shadow
  deriving DecidableEq, Repr

/-- An overlay slot (R236): table code, key, value words; no words mark the key absent. -/
structure Slot where
  kind : SlotKind
  tab : Nat
  key : Nat
  val : List Word
  deriving DecidableEq, Repr

/-- A learn or move request (R225). -/
structure LearnReq where
  mac : BitVec 48
  vid : BitVec 12
  port : Nat
  deriving DecidableEq, Repr

/-- An arbiter (R229): ages and wins by requester, and rounds since the wins were cleared. -/
structure Arb where
  age : List (Nat × Nat)
  wins : List (Nat × Nat)
  rounds : Nat
  deriving DecidableEq, Repr

/-- The table store, its windows, learning and the epochs' overlay (R202-R250). Values of the versioned tables are their data
words; a LABEL slot map gives the place of each label. Keys: LABEL the key word; LPM4 and LPM6 length * 2^width + address;
RULES and NEXTHOP the index. -/
structure TabSt where
  mac : List (Nat × MacEnt)              -- by slot index, the stash above n * 8192 (R211)
  labelAt : List (Nat × Nat)             -- LABEL slot index to key (R211)
  base : List (Nat × List (Nat × List Word))  -- base contents by table code
  slots : List Slot                      -- overlay slots, oldest first (R236)
  carve : List (Nat × (Nat × Nat))       -- range each table last ran with: FIRST and COUNT (R205)
  moveBase : List (Nat × (Nat × Nat))    -- by port: tick second and MOVES_IN at its start (R228)
  learnQ : List LearnReq                 -- learning queue (R225)
  learnOut : List (Nat × (Nat × LearnReq)) -- learn entries waiting for a batch with the time of the change in ns: 1 ADD, 2 MOVE, 4 AGE (R394)
  arbs : List (Nat × Arb)                -- maintenance arbiter of each bank (R229)
  grants : List (Nat × (Nat × Nat))      -- by bank: the requester that holds the port and the transfers it may still make (R229)
  busyWin : List (Nat × Agent)           -- windows with a command in progress (R217)
  refs : List (Nat × Nat)                -- reference counts by epoch number (R242)
  commit : Option Nat                    -- operation slot of the commit in progress (R244)
  retireCyc : Nat                        -- core cycle of the last switch (R243)
  switchAt : Option Nat                  -- switch instant that waits on the time base, in ns (R244)
  switchNo : Option Nat                  -- number that becomes standing at a switch the other device drives (R251, R407)
  mirror : Nat                           -- what the partner has told of its mirror commit: 1 in WAIT without a retiring epoch, 2 merged (R245, R251)
  deriving DecidableEq, Repr


/-! ### Time -/

/-- A transmit time stamp (R342): sequenceId, messageType, domain, the stamp in 2^-16 ns. -/
structure TxStamp where
  tag : Nat
  msg : Nat
  dom : Nat
  stamp : Nat
  deriving DecidableEq, Repr

/-- A write of a domain control that waits for its time (R334): the domain, 0 FREQ, 1 STEP, 2 SET, the value in force or in
2^-64 ns, and the nanosecond of the time base at which it takes effect. -/
structure DomOp where
  dom : Nat
  kind : Nat
  value : Int
  at_ : Nat
  deriving DecidableEq, Repr

/-- Time keeping (R332-R350). Clocks are in units of 2^-64 ns and wrap at 2^48 s. -/
structure TimeSt where
  tb : Nat                               -- time base (R333, R335)
  cyc : Nat                              -- CORE_CLK cycles since reset (R25)
  dA : Nat                               -- domain clock A
  dB : Nat                               -- domain clock B
  fA : Int                               -- frequency of A in force, 2^-40 (R333, R334)
  fB : Int                               -- frequency of B in force
  phase : Int                            -- the servo's phase correction per cycle, 2^-64 ns (R350)
  domPend : List DomOp                   -- relayed domain controls that wait for their instant (R334)
  txts : List (Nat × List TxStamp)       -- transmit time-stamp queue of each port, 16 entries (R342)
  ppsEnd : Option Nat                    -- PPS_OUT is high until this core cycle (R344)
  ppsSec : Nat                           -- the second of the clock that PPS_OUT follows, at the last cycle (R344)
  ppsDue : Bool                          -- that clock has reached a whole second in this cycle (R344)
  ppsIn : Option Nat                     -- core cycle of the last captured PPS_IN edge (R345)
  squelched : List Nat                   -- recovered-clock outputs held low by squelch: 256 * output + source (R346)
  exchId : Nat                           -- EXCHANGE_ID of the last REQUEST (R348)
  exch : Option (Nat × Nat × Nat)        -- the outstanding exchange: ID, T1 in 2^-16 ns, member (R348)
  good : Nat                             -- consecutive exchanges within 2 ns (R350)
  bad : Nat                              -- consecutive exchanges beyond 10 ns (R350)
  deriving DecidableEq, Repr


/-! ### Counters and samples -/

/-- A range set in progress (R423): first pair, pairs in all, pairs done, the value, the cycle it began. -/
structure SetJob where
  first : Nat
  count : Nat
  done : Nat
  frames : Nat
  bytes : Nat
  since : Nat
  deriving DecidableEq, Repr

/-- Statistics counters, the performance monitor and Skim (R417-R436). -/
structure StatSt where
  part : List (Nat × (Nat × Nat))        -- partial counts P by pair: frames, bytes (R419)
  back : List (Nat × (Nat × Nat))        -- backing values Bk by pair (R419)
  flags : List (Nat × Nat)               -- word 5 of a pair: 1 FRAMES_WRAP, 2 BYTES_WRAP, 4 CORRUPT (R421)
  flushQ : List Nat                      -- flush queue, oldest first (R419)
  job : Option SetJob                    -- range set in progress (R423)
  latch : List (Nat × (Nat × List Word)) -- by owner ID: the pair and words 1-5 latched by a read of FRAMES_LO (R421)
  hold : List (Nat × (Nat × Word))       -- by owner ID: the counter and held VALUE_HI (R427)
  waiting : List (List Byte)             -- sample records waiting to be written, less their last two bytes (R432)
  lost : Bool                            -- a record was lost since the last one written (R432)
  ring : List (Nat × List Byte)          -- the sample ring by entry (R432)
  skim : List (Nat × Nat)                -- triggers of a session since its last copy (R433)
  skimSeq : List (Nat × Nat)             -- copies made by a session (R435)
  deriving DecidableEq, Repr


/-! ### Buffer, queues, policers -/

/-- What surrounds the frame in a copy (R191, R434): nothing; a punt header toward port 240 or 241 with reason, Dross reason,
flags and rule; a Skim encapsulation with session, its words, source, sequence number, copy class, colour and whether the
original was not forwarded. -/
inductive Wrap where
  | bare
  | punt (mgmt : Bool) (reason dross flags rule : Nat)
  | skim (session : Nat) (words : List Word) (source seq : Nat) (dropped : Bool) (stamp : Int)
  deriving DecidableEq, Repr

/-- The kinds of copy (R256, R259): of a data class, of the control class, made by Skim. -/
inductive CopyKind where
  | data | control | mirror
  deriving DecidableEq, Repr

/-- The pools that charges are taken from (R256, R259). -/
inductive Pool where
  | reserve | shared | headroom | control | mirror | staging | prefetch
  deriving DecidableEq, Repr

/-- A copy that awaits admission (R258): frame, where it goes, class, outer VID, flow hash, rewrites, kind, what surrounds it, what
records report of it and its samples. -/
structure Adm where
  frame : Frame
  out : OutTo
  tc : Nat
  vid : Nat
  hash : Word
  rw : Rewrite
  kind : CopyKind
  wrap : Wrap
  info : RecInfo
  samples : List (Nat × Nat)
  mcast : Bool                           -- a copy of a multicast frame that another device made (R371)
  deriving DecidableEq, Repr

/-- A copy held by the buffer (R255-R265). Its queue is an egress queue, 131,072 + p for the control queue of port p, or
1,048,576 + v for VOQ v. -/
structure Copy where
  id : Nat
  frame : Frame
  rw : Rewrite
  wrap : Wrap
  kind : CopyKind
  dev : Nat
  port : Nat
  queue : Nat
  cls : Nat
  lossless : Bool
  mcast : Bool
  ct : Bool                              -- forwarded cut-through (R276)
  charge : Nat                           -- cells still charged to `pool`
  pool : Pool
  need : Nat                             -- cells in staging or in ingots that the head still lacks (R262)
  pre : Nat                              -- cells held in the pre-fetch pool (R264)
  own : Bool                             -- its payload cells are its own: staged, or of a frame with what surrounds it (R255, R263)
  spoilt : Bool                          -- a cell with an uncorrectable error (R265)
  estimate : Nat                         -- length charged to shapers for a cut-through copy (R299)
  offset : Nat                           -- cells already sent as fabric cells, for a VOQ (R373)
  ce : Bool                              -- to be sent with CE (R304)
  cut : Bool                             -- to be ended with an inverted FCS (R132, R254, R277)
  began : Nat                            -- the time at the port's plane in ns as it started on the wire (R316)
  exit : Int                             -- egress stamp in 2^-16 ns, once on the wire (R338)
  sync : Option Nat                      -- the stamp that a one-step Sync takes (R341)
  info : RecInfo
  deriving DecidableEq, Repr

/-- An ingot of a spilled queue in queue order (R263, R264): its number, the cells it holds as runs of copy and count, whether its read is requested. -/
structure Ingot where
  num : Nat
  runs : List (Nat × Nat)
  asked : Bool
  deriving DecidableEq, Repr

/-- Staging cells of one copy (R263): the copy, the pool they are charged to, how many. -/
structure Run where
  copy : Nat
  pool : Pool
  cells : Nat
  deriving DecidableEq, Repr

/-- The spilled part of a SPILLED queue (R262, R263): ingots in the Ingot store; staging cells. -/
structure SpillQ where
  ingots : List Ingot
  stage : List Run
  deriving DecidableEq, Repr

/-- The buffer (R254-R286). -/
structure BufSt where
  nextCopy : Nat                         -- identity of the next copy
  waiting : List Adm                       -- copies awaiting admission, in order (R261)
  queues : List (Nat × List Copy)        -- admitted copies by queue, oldest first
  spill : List (Nat × SpillQ)            -- SPILLED queues (R262)
  used : List (Nat × Nat)                -- cells used: pool code, or 1000 + p for the reserve of port p (R256)
  fifo : List (Nat × List Copy)          -- egress FIFO of each port; its first copy is on the wire (R18)
  retired : List Nat                     -- retired ingots, stack * 2^22 + stack-local number (R269)
  retireDue : List Nat                   -- ingots that are retired once their data has been freed, likewise (R269)
  testing : List Nat                     -- the range that MEM_TEST takes out of service, likewise (R271)
  testSince : Nat                        -- the core cycle from which MEM_TEST waits for it (R271)
  pfWait : List Nat                      -- queues whose request waits for the pre-fetch pool (R264)
  full : List Nat                        -- ports whose ingress FIFO is full (R22)
  gapPort : List (Nat × Nat)             -- queues in a pre-fetch shortage with their port (R328)
  arbs : List (Nat × Arb)                -- arbiter of each DRAM channel, 32 * stack + channel (R268)
  grants : List (Nat × (Nat × Nat))      -- by channel: the requester that holds it and the transfers it may still make (R229)
  deriving DecidableEq, Repr

/-- The traffic manager and the policers (R287-R309). Child keys: queue q; group 0x100000 + g. Node keys for buckets add port
0x200000 + p. -/
structure SchedSt where
  vt : List (Nat × Nat)                  -- V by parent node * 8 + band (R297)
  lag : List (Nat × Nat)                 -- LAG by child (R297)
  inR : List Nat                         -- children that are ready (R297)
  offer : List (Nat × Nat)               -- the queue that a group offers (R294)
  tokC : List (Nat × Bucket)             -- bucket C of a node; unlisted: full (R300)
  tokP : List (Nat × Bucket)             -- bucket P of a node; unlisted: full (R300)
  hold : List Nat                        -- down ports within DOWN_HOLD (R303)
  polC : List (Nat × Bucket)             -- bucket C of a policer (R306)
  polE : List (Nat × Bucket)             -- bucket P or E of a policer (R306, R307)
  deriving DecidableEq, Repr


/-! ### Trunked operation -/

/-- A VOQ (R369, R374): logical destination, its local port, class; credit balance in bytes; the physical destination the balance
is for; the cycles of the last probe or grant. -/
structure Voq where
  dest : Nat
  port : Nat
  cls : Nat
  credit : Int
  phys : Nat
  lastProbe : Option Nat
  deriving DecidableEq, Repr

/-- A data cell as received (R149). -/
structure DataCell where
  seq : Nat
  first : Bool
  last : Bool
  payload : List Byte
  deriving DecidableEq, Repr

/-- A reassembly context (R376, R377): next expected SEQ where synced, held cells with the cycle of their arrival, the cells of the
frame being assembled, whether that frame is spoilt, the cycle of the last cell. -/
structure RxCtx where
  next : Option Nat
  held : List (Nat × DataCell × Nat)
  parts : List DataCell
  bad : Bool
  last : Nat
  deriving DecidableEq, Repr

/-- A flow record of the grant generator (R375). -/
structure Flow where
  out : Int
  backlog : Nat
  deriving DecidableEq, Repr

/-- VOQs, credits and reassembly (R364-R382). -/
structure VoqSt where
  voqs : List (Nat × Voq)                -- mapped VOQs by number (R369)
  unreach : List Nat                     -- physical destinations under UNREACH_DROP (R368)
  served : List (Nat × Nat)              -- VOQ served last in each class (R373)
  streams : List (Nat × Nat)             -- next SEQ of a stream: physical destination * 8 + class (R150, R372)
  ctlSeq : List (Nat × Nat)              -- next SEQ of addressed control cells by destination (R150)
  sprayed : List (Nat × Nat)             -- group * 16 + member used last toward a destination, plus 1 (R373)
  flows : List (Nat × Flow)              -- flow records: (source * 256 + port) * 8 + class (R375)
  grantLast : List (Nat × Nat)           -- source granted last, by port * 8 + class (R375)
  grants : List (Nat × List (Nat × Nat)) -- entries of the CREDIT_GRANT cell being gathered: source to (port * 8 + class, units)
  ctxs : List (Nat × RxCtx)              -- contexts by source * 8 + class (R376)
  xoff : Bool                            -- FLOW_STATUS XOFF is being sent (R378)
  deriving DecidableEq, Repr

/-! ### Sprue links -/

/-- The header of a cell less its HEC (R149). -/
structure CellHdr where
  dst : Nat
  cls : Nat
  ctl : Bool
  src : Nat
  first : Bool
  last : Bool
  rsvd : Nat
  seq : Nat
  len : Nat
  deriving DecidableEq, Repr

/-- A cell with its payload in clear: it waits for its slot on a member (R159), or to be read in its slot of the group (R164). The slot and the
cycle of its arrival are those of a received one. -/
structure WaitCell where
  hdr : CellHdr
  payload : List Byte
  slot : Nat
  cyc : Nat
  deriving DecidableEq, Repr

/-- The latest MARKER_SEQ of a group (R165): the slot and the cycle in which its earliest member's MARKER came. -/
structure MarkAt where
  seq : Nat
  slot : Nat
  cyc : Nat
  deriving DecidableEq, Repr

/-- Sprue links beside the SPRUE registers (R147-R173). A lane key is group * 16 + member, or 256 + lane for a lane that no group names. -/
structure SprueSt where
  good : List (Nat × Nat)                -- correct headers in PRESYNC, or wrong ones in SYNC, by lane key (R154)
  seqOut : List (Nat × Nat)              -- next SEQ of link-local control cells by lane key (R150)
  seqIn : List (Nat × Nat)               -- next SEQ expected: by lane key, or 1000 + source (R153)
  scr : List (Nat × BitVec 43)           -- last 43 payload bits sent on each lane (R152)
  descr : List (Nat × BitVec 43)         -- last 43 payload bits received on each lane (R152)
  out : List (Nat × List Byte)           -- the last cell sent, by lane key, before scrambling
  wire : List (Nat × List Byte)          -- the same cell as on the lane, scrambled
  ctlQ : List (Nat × List WaitCell)      -- control cells that await their slot, by lane key (R159)
  dataQ : List (Nat × List WaitCell)     -- data cells that await their slot, by lane key (R159)
  due : List (Nat × Bool)                -- groups that owe a MARKER in the next slot, true for one out of turn (R163, R166)
  flow : List (Nat × Nat)                -- FLOW_STATUS XOFF in force: group * 2^16 + device, or + 0x1000 + member (R160)
  flowNew : List (Nat × Nat)             -- entries received in the present slot, oldest first (R166)
  badHec : List Nat                      -- lanes whose next cell carries a wrong HEC (R172)
  mask : List (Nat × Nat)                -- by group: the ACTIVE_MASK by which slots are read (R164)
  rot : List (Nat × (Nat × Nat))         -- by group: cycle of the last change of that mask, members x cycles of the second so far (R169)
  lost : List Nat                        -- lanes whose present slot has been counted as lost (R164)
  errs : List (Nat × List Nat)           -- by lane key: cycles of the errored and discarded cells of the last 1 ms (R162)
  rxSlot : List (Nat × Nat)              -- by lane key: the slot of its next cell (R164, R165)
  rxMark : List (Nat × Nat)              -- by lane key: MARKER_SEQ of its last correct MARKER (R165)
  marks : List (Nat × MarkAt)            -- by group: its latest MARKER (R165)
  held : List (Nat × List WaitCell)      -- by lane key: cells held for deskew, oldest first (R164, R165)
  susp : List Nat                        -- units of the error-second history whose present second makes its interval suspect (R170)
  deriving DecidableEq, Repr

/-! ### Joined and protected devices -/

/-- A relay of the lead (R390): its number, the agent it serves, whether it mirrors a write (R389), READ, PROBE and FIXED, ADDRESS, MASK
where MASKED, COUNT, the data words, and how often it has been sent. -/
structure Relay where
  seq : Nat
  agent : Nat
  mirror : Bool
  read : Bool
  probe : Bool
  fixed : Bool
  addr : Word
  mask : Option Word
  count : Nat
  data : List Word
  tries : Nat
  deriving DecidableEq, Repr

/-- Twicel joining and protection (R385-R416). Sequence numbers count without wrap and are cut to their field as they are sent. -/
structure PairSt where
  windAt : Nat                           -- core cycle of the fall of ACT_IN at the ball (R408)
  relayNext : Nat                        -- RELAY_SEQ of the lead's next relay (R390)
  relays : List Relay                    -- relays not acknowledged, oldest first; the first 64 have been sent (R390)
  relayWant : Nat                        -- RELAY_SEQ that the partner applies next (R390)
  acks : List (Nat × (Nat × Nat × List Word)) -- answers of applied relays by RELAY_SEQ: STATUS, words, words read (R390)
  batchOut : Nat                         -- next BATCH_SEQ (R394)
  batchIn : Option Nat                   -- BATCH_SEQ expected (R394)
  jNext : Nat                            -- next JOURNAL_SEQ: to be sent by the active, or applied by the standby (R404, R405)
  jSent : List (Nat × List Word)         -- records not acknowledged, oldest first (R405)
  jUnsent : Nat                          -- how many of these, the newest, have not been sent yet
  jResync : Bool                         -- RESYNC_NEEDED is to be sent (R405)
  jOn : Bool                             -- a generation has been started: changes are journalled (R403)
  jCreated : Nat                         -- CREATED of the last record applied (R405)
  remember : Nat                         -- the SYNC state that STALE remembers (R406)
  kick : Option Nat                      -- core cycle of the last HB_KICK (R400)
  hbOut : Bool                           -- level of HB_OUT (R400)
  wdtHit : Bool                          -- the watchdog has expired since FW_READY last rose (R400)
  promoting : Bool                       -- between the rise of ACT_IN and the start of forwarding (R409)
  takeSeq : Nat                          -- TAKEOVER_SEQ (R414)
  takeLeft : Nat                         -- sendings of TAKEOVER that remain (R414)
  jBulk : Bool                           -- BULK_END of the generation has been sent (R403)
  jBroken : Bool                         -- the generation has been broken (R405)
  sweep : Option Nat                     -- next item of the sweep of counters and buckets (R403)
  rejoinKeys : List (Nat × Nat)          -- partner: table and key of the entries that a rejoin has brought (R397)
  rejoinDiff : Nat                       -- partner: how many of them differ from its standing view (R397)
  told : List (Nat × (Nat × List Word))  -- lead: STATUS and words of the last answer to each question of a rejoin (R397)
  probed : Bool                          -- the probe of this rise of UP has drawn CFG_LOCKED (R386)
  deriving DecidableEq, Repr

/-! ### The launch engine -/

/-- The launch engine beside its slots (R352-R358): ARMED slots whose T a step of the time base has passed, and who
armed each slot. -/
structure LaunchSt where
  stepped : List Nat
  armers : List (Nat × Agent)            -- the agent that armed each slot, for words held per agent (R355)
  deriving DecidableEq, Repr


/-! ### Power, clocks, reset -/

/-- Bellows, boot and the power rails beside their registers (R457-R486). -/
structure PowSt where
  warn : Bool                            -- WARN is in force (R470)
  throttle : Bool                        -- THROTTLE is in force (R470)
  dramHold : List Nat                    -- stacks in DRAM_HOLD (R470)
  phase : Nat                            -- 0 held in cold reset; 1 image check, 2 rails, 3 lock, 4 warm-up, 5 STACK0, 6 CP boot, 7 firmware start, 8 running (R458)
  rails : List Nat                       -- rails that are on, in the order of their commands (R458)
  railWait : Option Nat                  -- the rail commanded that has not come into range yet (R458)
  ended : Nat                            -- cause of the end of the run, 0 while none has ended (R476)
  off : Bool                             -- stays off until the next rise of RESET_N or PWRGOOD (R459, R470)
  hotOff : Bool                          -- rails kept off until every reading is 15 °C below its shutdown threshold (R470)
  trip : Bool                            -- THERM_TRIP_N is asserted (R471)
  hot : Bool                             -- the last readings stood at a shutdown threshold (R470)
  cool : List (Nat × Nat)                -- by level, the number of 1 ms samples that stood 5 °C below it (R470)
  vcore : Nat                            -- VDD_CORE set point in tenths of a millivolt (R466)
  serdes : List Nat                      -- SerDes rails that fell to a fault and await their cycle (R474)
  avsWait : Bool                         -- the AVS point has changed with the profile and its target has not been met since (R467)
  deriving DecidableEq, Repr

/-- The state of the block. Each field is described in INVENTORY.md under State. -/
structure State where
  pending : List Instr  -- commands waiting, first in, first out
  freeCtr : Nat  -- the model's own count of free values taken (log entry 2)
  regs : List (Nat × Word)  -- register words that differ from regReset
  latched : List (Nat × Word)  -- latched configuration words that differ from regReset (R43)
  win : List (Nat × Word)  -- block-window words that differ from their reset
  upset : List Nat  -- configuration words whose parity mismatches (R47)
  reported : List Nat  -- mismatched words already reported (R48)
  fences : List (Nat × Word)  -- FENCE and FENCE_DONE words held per agent (R60, R223)
  readLatch : List (Nat × Word)  -- high-word latch per agent and page (R52)
  lastLow : List (Nat × Nat)  -- offset + 1 of the low word an agent read last in a page (R52)
  sigWords : Option (List (Nat × Word))  -- the words as the last scrub pass left them, from which CFG_SIGNATURE shows, none before the first since cold reset (R41)
  resetPage : Option Nat  -- the page whose reset is in progress (R478)
  host : HostSt  -- host interface
  cp : CpSt  -- control processor
  nvm : NvmSt  -- persistent store
  ops : OpSt  -- long operations
  port : PortSt  -- ports
  pipe : PipeSt  -- pipelines and reorder stage
  tab : TabSt  -- tables, learning, epochs
  time : TimeSt  -- time keeping
  stat : StatSt  -- counters and samples
  buf : BufSt  -- buffer
  sched : SchedSt  -- traffic manager and policers
  voq : VoqSt  -- VOQs, credits and reassembly
  sprue : SprueSt  -- Sprue links
  pair : PairSt  -- joined and protected devices
  launch : LaunchSt  -- launch engine
  pow : PowSt  -- power, clocks and reset
  deriving DecidableEq, Repr

/-- The machine right after cold reset (R10, R475, R476): every register at its reset value, nothing queued. -/
def State.reset : State where
  pending := []
  freeCtr := 0
  regs := [(0x2060, 1#32)]
  latched := []
  win := []
  upset := []
  reported := []
  fences := []
  readLatch := []
  lastLow := []
  sigWords := none
  resetPage := none
  host := ⟨false, false, [], none, 0, [], .silent, [], [], [], [], [], 0, 0, [], [], 0, []⟩
  cp := ⟨[], [], [], []⟩
  nvm := ⟨[], ⟨0, 0, 0x190A55AD#32, 0x190A55AD#32, 0, 0, false⟩, ⟨0, 0, 0x190A55AD#32, 0x190A55AD#32, 0, 0, false⟩, none, [], [], 0, none, []⟩
  ops := ⟨[], [], 0, none⟩
  port := ⟨0, [], [], [], [], [], [], [], [], [], []⟩
  pipe := ⟨[], [], [], [], [], [], [], []⟩
  tab := ⟨[], [], [], [], [], [], [], [], [], [], [], [], none, 0, none, none, 0⟩
  time := ⟨0, 0, 0, 0, 0, 0, 0, [], [], none, 0, false, none, [], 0, none, 0, 0⟩
  stat := ⟨[], [], [], [], none, [], [], [], false, [], [], []⟩
  buf := ⟨0, [], [], [], [], [], [], [], [], 0, [], [], [], [], []⟩
  sched := ⟨[], [], [], [], [], [], [], [], []⟩
  voq := ⟨[], [], [], [], [], [], [], [], [], [], false⟩
  sprue := ⟨[], [], [], [], [], [], [], [], [], [], [], [], [], [], [], [], [], [], [], [], [], []⟩
  pair := ⟨0, 0, [], 0, [], 0, none, 0, [], 0, false, false, 0, 0, none, false, false, false, 0, 0, false, false, none, [], 0, [], false⟩
  launch := ⟨[], []⟩
  pow := ⟨false, false, [], 1, [], none, 0, false, false, false, false, [], 0, [], false⟩

end Sys2Proof.Machine
end

