-- ==== Sys2Proof/Machine/Operands.lean ====
section
/-! DEFINITION. The operand forms of accesses and command frames: byte lanes of an access (R51), a word write under a bit
mask, and the fields of a request frame (R73). -/
namespace Sys2Proof.Machine

/-- Bits [hi:lo] of a word, as a number (R4, R5). -/
def fld (w : Word) (hi lo : Nat) : Nat := (w.toNat / 2 ^ lo) % 2 ^ (hi + 1 - lo)

/-- A number placed in bits [hi:lo] of a word. -/
def setFld (w : Word) (hi lo v : Nat) : Word :=
  let m := word ((2 ^ (hi + 1 - lo) - 1) * 2 ^ lo)
  (w &&& ~~~m) ||| (word (v * 2 ^ lo) &&& m)

/-- Bit `b` of a word. -/
abbrev bit (w : Word) (b : Nat) : Bool := w.getLsbD b

/-- The word with bit `b` alone set. -/
def oneBit (b : Nat) : Word := 1#32 <<< b

/-- A word with bit `b` given. -/
def putBit (w : Word) (b : Nat) (v : Bool) : Word := if v then w ||| oneBit b else w &&& ~~~(oneBit b)

/-- A two's complement reading of the low `n` bits of a number (R7). -/
def sext (n v : Nat) : Int := if v % 2 ^ n < 2 ^ (n - 1) then ((v % 2 ^ n : Nat) : Int) else ((v % 2 ^ n : Nat) : Int) - 2 ^ n

/-- A value where 0 acts as `z`. -/
def orIfZero (v z : Nat) : Nat := if v = 0 then z else v

/-- The bits of `old` outside `mask` and of `data` inside. -/
def blend (mask data old : Word) : Word := (old &&& ~~~mask) ||| (data &&& mask)

/-- Bytes of an access width. -/
def accBytes : AccSize → Nat
  | .byte => 1 | .half => 2 | .word => 4 | .dword => 8

/-- Whether an address is a multiple of the access width (R53). -/
def accAligned (z : AccSize) (addr : Nat) : Bool := decide (addr % accBytes z = 0)

/-- The mask of the byte lanes a narrow access selects in its word (R5, R51). -/
def laneMask (z : AccSize) (addr : Nat) : Word :=
  match z with
  | .byte => 0xFF#32 <<< (8 * (addr % 4))
  | .half => 0xFFFF#32 <<< (8 * (addr % 4))
  | _ => 0xFFFFFFFF#32

/-- The data of a narrow access moved to its byte lanes. -/
def laneData (z : AccSize) (addr : Nat) (d : BitVec 64) : Word :=
  match z with
  | .byte | .half => (d.setWidth 32) <<< (8 * (addr % 4))
  | _ => d.setWidth 32

/-- The eight header bytes of a request frame with opcode `op` (R73). -/
def reqHeader (op : Nat) (r : Request) : List Byte :=
  [BitVec.ofNat 8 op, r.tag, r.flags, r.byte3] ++ beBytes 2 r.length.toNat ++ beBytes 2 r.session.toNat

/-- The received byte count of a request frame: header, payload and CRC (R73, R76). -/
def reqByteCount (r : Request) : Nat := 8 + r.body.length + 2

/-- The payload words of a request frame (R73). -/
def reqWords (r : Request) : List Word := toWords r.body

/-- The opcode and the request that a received frame spells; none where it is shorter than header and CRC (R73). -/
def parseRequest (a : Agent) (f : List Byte) : Option (Nat × Request) :=
  match f with
  | op :: tag :: fl :: b3 :: l1 :: l0 :: s1 :: s0 :: rest =>
    if rest.length < 2 then none
    else some (op.toNat,
      { agent := a, tag := tag, flags := fl, byte3 := b3, length := BitVec.ofNat 16 (beNat [l1, l0]),
        session := BitVec.ofNat 16 (beNat [s1, s0]), body := rest.take (rest.length - 2),
        crc := BitVec.ofNat 16 (beNat (rest.drop (rest.length - 2))) })
  | _ => none

/-- The bytes of a response frame (R75). -/
def Response.bytes (r : Response) : List Byte :=
  let b := [r.tag, BitVec.ofNat 8 r.status.code] ++ beBytes 2 r.payload.length ++ r.payload.flatMap wordBytes
  b ++ beBytes 2 (crc16 b).toNat

end Sys2Proof.Machine
end

