-- ==== Sys2Proof/Machine/Pages.lean ====
section
/-! DEFINITION. The page map (R36-R38, R515): which pages exist, of which kind and instance, their identity words, and the
reset value of every register word. -/
namespace Sys2Proof.Machine

/-- A range of pages of one kind (R38, R515): first and last page, block type, RIGHT_W, PAGE_CAPS units and window size
(2^size KiB; none without a window). -/
structure PageRow where
  first : Nat
  last : Nat
  kind : Kind
  type : Nat
  rightW : Nat
  units : Nat
  window : Option Nat
  deriving DecidableEq, Repr

/-- The table of R38 with the units and windows of R515 and of each page's chapter. -/
def pageRows : List PageRow := [
  ⟨0x00, 0x00, .global, 0x01, 2, 0, none⟩, ⟨0x01, 0x01, .bellows, 0x02, 4, 7, none⟩,
  ⟨0x02, 0x02, .clocks, 0x03, 4, 4, none⟩, ⟨0x03, 0x03, .roles, 0x04, 2, 0, none⟩,
  ⟨0x04, 0x04, .hostif, 0x05, 2, 0, none⟩, ⟨0x05, 0x05, .cpctl, 0x06, 2, 4, some 5⟩,
  ⟨0x06, 0x06, .pstore, 0x07, 2, 0, some 5⟩, ⟨0x07, 0x07, .locks, 0x08, 2, 64, none⟩,
  ⟨0x08, 0x08, .launch, 0x09, 1, 256, some 1⟩, ⟨0x09, 0x09, .time, 0x0A, 2, 242, some 4⟩,
  ⟨0x0A, 0x0A, .pmu, 0x0B, 1, 256, some 5⟩, ⟨0x0B, 0x0B, .skim, 0x0C, 1, 16, none⟩,
  ⟨0x0C, 0x0C, .stats, 0x0D, 1, 4096, some 5⟩, ⟨0x0D, 0x0D, .debug, 0x0E, 2, 4, some 5⟩,
  ⟨0x0E, 0x0E, .pair, 0x0F, 2, 2, none⟩, ⟨0x0F, 0x0F, .mgmt, 0x10, 2, 1, none⟩,
  ⟨0x10, 0x23, .bank, 0x11, 2, 8, none⟩, ⟨0x24, 0x24, .flexe, 0x12, 2, 80, some 4⟩,
  ⟨0x30, 0x3F, .sprue, 0x13, 2, 16, some 5⟩, ⟨0x40, 0x4F, .pipe, 0x14, 2, 6, none⟩] ++ [
  ⟨0x50, 0x50, .parse, 0x15, 2, 256, some 4⟩, ⟨0x51, 0x51, .classify, 0x16, 1, 32, none⟩,
  ⟨0x52, 0x52, .epoch, 0x17, 1, 3, none⟩, ⟨0x53, 0x53, .tables, 0x18, 2, 1280, some 5⟩,
  ⟨0x54, 0x54, .learn, 0x19, 1, 256, some 2⟩, ⟨0x55, 0x55, .reorder, 0x1A, 2, 4, none⟩,
  ⟨0x60, 0x60, .ladle, 0x20, 1, 131072, some 5⟩, ⟨0x61, 0x61, .crucible, 0x21, 2, 96, none⟩,
  ⟨0x62, 0x62, .ingot, 0x22, 2, 4, none⟩, ⟨0x63, 0x66, .stack, 0x23, 2, 32, none⟩,
  ⟨0x70, 0x70, .tm, 0x30, 1, 16384, some 5⟩, ⟨0x71, 0x71, .police, 0x31, 1, 1024, some 5⟩,
  ⟨0x72, 0x72, .voq, 0x32, 2, 256, some 5⟩, ⟨0x73, 0x73, .credit, 0x33, 2, 4096, none⟩,
  ⟨0x74, 0x74, .gates, 0x34, 1, 242, some 5⟩, ⟨0x75, 0x75, .mcast, 0x35, 1, 65535, some 5⟩]

/-- The row of an implemented page; none for a page of R37. -/
def pageRow (p : Nat) : Option PageRow :=
  pageRows.find? fun r => decide (r.first ≤ p) && decide (p ≤ r.last)

/-- The kind of a page. -/
def pageKind (p : Nat) : Option Kind := (pageRow p).map PageRow.kind

/-- The key of the word at offset `o` of page `p`. -/
abbrev regKey (p o : Nat) : Nat := p * 0x10000 + o

/-- PAGE_ID: type, instance, layout version 1 (R40). -/
def pageId (r : PageRow) (p : Nat) : Nat := r.type * 0x10000 + (p - r.first) * 0x100 + 1

/-- PAGE_CAPS: units, HAS_LIVE, HAS_WINDOW, WINDOW_SIZE (R40, R515). -/
def pageCaps (r : PageRow) : Nat :=
  r.units
    + (if r.kind.rows.any (fun w => decide (0x1000 ≤ w.off) && decide (w.off < 0x2000)) then 0x1000000 else 0)
    + (match r.window with | some n => 0x2000000 + n * 0x10000000 | none => 0)

/-- The reset value of a register word (R10): the row's value, the identity words computed from the page map, and
PIPE_STATUS.QUADRANT = k div 4 (R198). A reserved word reads 0. -/
def regReset (key : Nat) : Word :=
  match pageRow (key / 0x10000) with
  | none => 0
  | some r =>
    let p := key / 0x10000
    let o := key % 0x10000
    if o = 0 then word (pageId r p)
    else if o = 4 then word (pageCaps r)
    else if o = 0x28 then word r.rightW
    else if r.kind = .pipe ∧ o = 0x2000 then word ((p - r.first) / 4 * 2)
    else match regRow r.kind o with
      | some w => word w.reset
      | none => 0

/-- Page numbers of the single pages. -/
abbrev pgGlobal : Nat := 0x00
abbrev pgBellows : Nat := 0x01
abbrev pgClocks : Nat := 0x02
abbrev pgRoles : Nat := 0x03
abbrev pgHostif : Nat := 0x04
abbrev pgCpctl : Nat := 0x05
abbrev pgPstore : Nat := 0x06
abbrev pgLocks : Nat := 0x07
abbrev pgLaunch : Nat := 0x08
abbrev pgTime : Nat := 0x09
abbrev pgPmu : Nat := 0x0A
abbrev pgSkim : Nat := 0x0B
abbrev pgStats : Nat := 0x0C
abbrev pgDebug : Nat := 0x0D
abbrev pgPair : Nat := 0x0E
abbrev pgMgmt : Nat := 0x0F
abbrev pgBank : Nat := 0x10
abbrev pgFlexe : Nat := 0x24
abbrev pgSprue : Nat := 0x30
abbrev pgPipe : Nat := 0x40
abbrev pgParse : Nat := 0x50
abbrev pgClassify : Nat := 0x51
abbrev pgEpoch : Nat := 0x52
abbrev pgTables : Nat := 0x53
abbrev pgLearn : Nat := 0x54
abbrev pgReorder : Nat := 0x55
abbrev pgLadle : Nat := 0x60
abbrev pgCrucible : Nat := 0x61
abbrev pgIngot : Nat := 0x62
abbrev pgStack : Nat := 0x63
abbrev pgTm : Nat := 0x70
abbrev pgPolice : Nat := 0x71
abbrev pgVoq : Nat := 0x72
abbrev pgCredit : Nat := 0x73
abbrev pgGates : Nat := 0x74
abbrev pgMcast : Nat := 0x75

end Sys2Proof.Machine
end

