-- ==== Sys2Proof/Machine/Ops.lean ====
section
/-! DEFINITION. The named operations over registers, windows and the state: reading and writing a register word, block states,
counters, interrupt events, fresh values, access faults and refusals, the audit log's record of an event. -/
namespace Sys2Proof.Machine

/-- The outcome of every meaning. -/
abbrev Out := Host.Outcome State Fault Refusal

/-- What the register word at offset `o` of page `p` holds. -/
def State.reg (s : State) (p o : Nat) : Word := Store.get (regReset (regKey p o)) (regKey p o) s.regs

/-- Hold `v` in the register word at offset `o` of page `p`. -/
def State.setReg (s : State) (p o : Nat) (v : Word) : State := { s with regs := Store.put regReset (regKey p o) v s.regs }

/-- Change a register word by `f`. -/
def State.updReg (s : State) (p o : Nat) (f : Word → Word) : State := s.setReg p o (f (s.reg p o))

/-- Add `n` to a counter, which wraps at 2^32. -/
def State.addReg (s : State) (p o n : Nat) : State := s.updReg p o (· + word n)

/-- Increment a counter, which wraps at 2^32. -/
def State.incReg (s : State) (p o : Nat) : State := s.addReg p o 1

/-- Set bits of a register word. -/
def State.orReg (s : State) (p o : Nat) (m : Word) : State := s.updReg p o (· ||| m)

/-- Clear bits of a register word. -/
def State.clrReg (s : State) (p o : Nat) (m : Word) : State := s.updReg p o (· &&& ~~~m)

/-- Hold a number in bits [hi:lo] of a register word. -/
def State.setRegFld (s : State) (p o hi lo v : Nat) : State := s.updReg p o (fun w => setFld w hi lo v)

/-- Bits [hi:lo] of a register word. -/
def State.regFld (s : State) (p o hi lo : Nat) : Nat := fld (s.reg p o) hi lo

/-- A configuration word as the block runs it: the latched copy of the last ENABLING (R43). -/
def State.cfg (s : State) (p o : Nat) : Word := Store.get (regReset (regKey p o)) (regKey p o) s.latched

/-- Bits [hi:lo] of a configuration word as the block runs it. -/
def State.cfgFld (s : State) (p o hi lo : Nat) : Nat := fld (s.cfg p o) hi lo

/-- Keep the greater of a maximum register's low `n` bits and a new value, saturating. -/
def State.maxReg (s : State) (p o n v : Nat) : State :=
  let w := min v (2 ^ n - 1)
  if s.regFld p o (n - 1) 0 < w then s.setRegFld p o (n - 1) 0 w else s

/-- Take a fresh number for a free value. -/
def State.fresh (s : State) : Nat × State := (s.freeCtr, { s with freeCtr := s.freeCtr + 1 })

/-- Held in cold reset (R459, R460): nothing of the device runs. -/
def State.inReset (s : State) : Bool := s.pow.phase == 0

/-- The clocks stand: held in cold reset, or quenched (R453). -/
def State.stands (s : State) : Bool := bit (s.reg pgDebug 0x2000) 8 || s.inReset

/-! ### Block states (R40, R44) -/

/-- BLK_STATUS.STATE of a page: 0 DISABLED, 1 ENABLING, 2 ENABLED, 3 DRAINING, 4 SAFE. -/
def State.blk (s : State) (p : Nat) : Nat := s.regFld p 0x0C 2 0

/-- Whether a block is ENABLED. -/
abbrev State.enabled (s : State) (p : Nat) : Bool := s.blk p == 2

/-- Whether a block works: ENABLED, or DRAINING, in which it completes what it accepted. -/
abbrev State.working (s : State) (p : Nat) : Bool := s.blk p == 2 || s.blk p == 3

/-- Whether a block is SAFE. -/
abbrev State.safe (s : State) (p : Nat) : Bool := s.blk p == 4

/-- Raise interrupt event bit `b` of a page's INT_RAW (R40). -/
def State.raise (s : State) (p b : Nat) : State := s.orReg p 0x14 (oneBit b)

/-- Enter a block state: STATE, and the event STATE_CHANGE if it differs (R40, R44). -/
def State.setBlk (s : State) (p v : Nat) : State :=
  if s.blk p = v then s else (s.setRegFld p 0x0C 2 0 v).raise p 1

/-- Set a cause bit of BLK_FAULT (R40). -/
def State.blkFault (s : State) (p b : Nat) : State := s.orReg p 0x10 (oneBit b)

/-! ### Windows -/

/-- The key of word `i` of unit `u` of a page's banked window. -/
abbrev winKey (p u i : Nat) : Nat := (p * 0x1000000 + u) * 64 + i

/-- Reset values of banked window words: those of the field tables of R232, R282, R311-R313, R361, R384 and R438 that are
not 0, and the structure of R288 for traffic manager records, which `tmReset` adds. Unit ranges: TM level 0 queues from unit 0,
level 1 groups from unit 0x100000, level 2 ports from unit 0x200000. -/
def winReset (key : Nat) : Word :=
  let i := key % 64
  let u := key / 64 % 0x1000000
  let p := key / 64 / 0x1000000
  if p = 0x54 ∧ i = 0 then 0x7FFFFF#32
  else if p = 0x70 then
    let lvl := u / 0x100000
    let n := u % 0x100000
    if lvl ≤ 1 then
      if i = 0 then
        (if lvl = 0 then (if n < 1936 then word (n / 8 + 0x80000000 + n % 8 * 0x110000) else 0)
         else (if n < 242 then word (n + 0x80000000) else 0))
      else if i = 1 then 1
      else if i = 3 ∨ i = 7 then 0xFFFFFFFF#32
      else if i = 4 ∨ i = 5 ∨ i = 9 ∨ i = 10 then 0x8000#32
      else if i = 15 then 0x1000000#32
      else 0
    else
      if i = 0 then word (8 * n + 0x800C0000)
      else if i = 1 then 1
      else if i = 3 ∨ i = 7 then 0xFFFFFFFF#32
      else if i = 4 ∨ i = 5 ∨ i = 9 ∨ i = 10 then 0x8000#32
      else if i = 11 then 0xFAC688#32
      else if i = 13 then 0x640014#32
      else 0
  else if p = 0x24 then 0xFF#32
  else if p = 0x53 then
    let n := key % 0x40000000
    if n < 0x4000 then 0
    else if n < 0x40F0 then 0x1001#32 else if n < 0x4100 then 1#32
    else if n = 0x8001 then 3#32 else 0
  else if p = 0x0A then
    (if i = 1 then 0x1F else if i = 2 then 0x3F else if i = 4 then 0xFFFF0000#32 else if i = 5 then 0x1FF else 0)
  else 0

/-- Word `i` of unit `u` of the banked window of page `p`. -/
def State.winW (s : State) (p u i : Nat) : Word := Store.get (winReset (winKey p u i)) (winKey p u i) s.win

/-- Hold a banked window word. -/
def State.setWin (s : State) (p u i : Nat) (v : Word) : State := { s with win := Store.put winReset (winKey p u i) v s.win }

/-- Word `n` of a page's window read as one array. -/
abbrev State.winA (s : State) (p n : Nat) : Word := s.winW p (n / 64) (n % 64)

/-- Hold word `n` of a page's window array. -/
abbrev State.setWinA (s : State) (p n : Nat) (v : Word) : State := s.setWin p (n / 64) (n % 64) v

/-- Change a banked window word. -/
def State.updWin (s : State) (p u i : Nat) (f : Word → Word) : State := s.setWin p u i (f (s.winW p u i))

/-! ### Access faults, refusals, rights -/

/-- Record an access fault of an agent (R53, R54, R78): the page's BLK_FAULT.ACCESS where a page is addressed, the first
fault captured, OVERRUN for another, and the count. `kind`: 0 misaligned, 1 outside the window, 2 outside every range. -/
def State.accessFault (s : State) (a : Agent) (addr : Nat) (wr : Bool) (kind : Nat) (page : Option Nat) : State :=
  let s := match page with | some p => s.blkFault p 2 | none => s
  let s := if bit (s.reg 0 0x2010) 0 then s.orReg 0 0x2010 2#32
    else (s.setReg 0 0x2010 (word (1 + a.id * 16 + (if wr then 0x100 else 0) + kind * 0x200))).setReg 0 0x2014 (word addr)
  s.incReg 0 0x2018

/-- Count a refusal for a missing right (R100). -/
def State.deny (s : State) : State := s.incReg pgRoles 0x2018

/-- Whether a right set may make an access of required value `q` (R98). -/
def rightOk (set q : Nat) : Bool := q == 0 || (set &&& q) != 0

/-- The rights of the session that an agent holds (R101, R120). -/
def State.sessionRights (s : State) : Agent → Nat
  | .i3c => s.regFld pgRoles 0x200C 18 16
  | .mgmt => s.regFld pgRoles 0x2010 18 16
  | .debug => s.host.dbgRights.toNat
  | _ => 0

/-- The session number of an agent, 0 if none (R120). -/
def State.sessionOf (s : State) : Agent → Nat
  | .i3c => s.regFld pgRoles 0x200C 15 0
  | .mgmt => s.regFld pgRoles 0x2010 15 0
  | .debug => s.host.dbgSession.toNat
  | _ => 0

/-- The rights of an agent acting by itself on a page (R101): a host's are its session's, firmware in machine mode has
OPERATOR and INSTALLER, an application APP_RIGHTS, the debug port its session's and OPEN's (R444), Bellows all three on four pages. -/
def State.agentRights (s : State) (a : Agent) (p : Nat) : Nat :=
  match a with
  | .i3c | .mgmt => s.sessionRights a
  | .core _ => 3
  | .app _ => s.cfgFld pgCpctl 0x104 1 0
  | .debug => s.sessionRights a ||| s.regFld pgDebug 0x1000 1 0
  | .bellows => if p = pgGlobal ∨ p = pgBellows ∨ p = pgClocks ∨ p = pgLocks then 7 else 0

/-! ### Port numbers -/

/-- Topology in force (R31): 0 STANDALONE, 1 TWICEL, 2 TRUNKED. -/
abbrev State.topo (s : State) : Nat := s.regFld 0 0x2000 1 0

/-- Profile in force (R31): 0 FULL, 1 SWIFT, 2 DEEP, 3 LEAN, 4 BALANCED. -/
abbrev State.profile (s : State) : Nat := s.regFld 0 0x2000 10 8

/-- The device's own number in port numbers: 0 for the Twicel lead, 1 for the partner (R27), the logical ID in TRUNKED (R365). -/
def State.ownDev (s : State) : Nat :=
  if s.topo = 1 then (if bit (s.reg 0 0x2064) 0 then 0 else 1)
  else if s.topo = 2 then s.cfgFld pgVoq 0x100 23 16 else 0

/-- The number of a local port as tables and keys name it (R185, R212, R365). -/
def State.sysPort (s : State) (p : Nat) : Nat := if s.topo = 0 then p else s.ownDev * 256 + p

/-- The device and local port that such a number names. -/
def State.splitPort (s : State) (n : Nat) : Nat × Nat := if s.topo = 0 then (s.ownDev, n) else (n / 256, n % 256)

/-! ### Time stamps and the audit log -/

/-- Whole nanoseconds of the time base (R331). -/
def State.nowNs (s : State) : Nat := s.time.tb / 2 ^ 64

/-- Whether a time in whole nanoseconds lies before the current time (R247). -/
def State.past (s : State) (t : Nat) : Bool := decide (t * 2 ^ 64 < s.time.tb)

/-- The TOD80 seconds of the time base. -/
def State.nowSec (s : State) : Nat := s.nowNs / 1000000000

/-- The TOD80 nanoseconds of the time base. -/
def State.nowSub (s : State) : Nat := s.nowNs % 1000000000

/-- TIME_STATUS.VALID: the time base has been set (R336). -/
def State.timeValid (s : State) : Bool := bit (s.reg pgTime 0x2010) 0

/-- An audit record of now, with its SEQ left to the write (R111). -/
def State.auditRec (s : State) (a : Nat) (rights session kind status page : Nat) (addr data : Word) (count : Nat) : AuditRec :=
  { seq := 0, sec := BitVec.ofNat 48 s.nowSec, ns := word s.nowSub, kind := BitVec.ofNat 8 kind, agent := BitVec.ofNat 4 a,
    rights := BitVec.ofNat 3 rights, timeValid := s.timeValid, session := BitVec.ofNat 16 session,
    status := BitVec.ofNat 8 status, page := BitVec.ofNat 8 page, addr := addr, data := data, count := BitVec.ofNat 16 count }

/-- Record an event (R113): pending while fewer than 64 are, else counted as lost. A later store begins a record of its own (R112). -/
def State.audit (s : State) (r : AuditRec) : State :=
  if s.nvm.auditPend.length < 64 then { s with nvm := { s.nvm with auditPend := s.nvm.auditPend ++ [r], storeRun := none } }
  else { s with nvm := { s.nvm with auditLost := s.nvm.auditLost + 1, storeRun := none } }

/-- Record an event of an agent with its session and rights. -/
def State.auditBy (s : State) (a : Agent) (kind status page : Nat) (addr data : Word) (count : Nat) : State :=
  s.audit (s.auditRec a.id (s.agentRights a page) (s.sessionOf a) kind status page addr data count)

/-- Queue an in-band interrupt event (R93). -/
def State.ibi (s : State) (code detail : Nat) : State :=
  { s with host := { s.host with ibis := s.host.ibis ++ [(BitVec.ofNat 8 code, BitVec.ofNat 8 detail)] } }

end Sys2Proof.Machine
end

