-- ==== Sys2Proof/Machine/Stats.lean ====
section
/-! DEFINITION. Statistics counter pairs (R417-R423), the performance monitor (R424-R428) and its samples (R429-R432). -/
namespace Sys2Proof.Machine

/-! ### Counter pairs -/

/-- The partial count P of a pair (R419). -/
def State.partOf (s : State) (i : Nat) : Nat × Nat := Store.get (0, 0) i s.stat.part

/-- The backing value Bk of a pair (R419). -/
def State.backOf (s : State) (i : Nat) : Nat × Nat := Store.get (0, 0) i s.stat.back

/-- Word 5 of a pair: FRAMES_WRAP, BYTES_WRAP, CORRUPT (R421). -/
def State.pairFlags (s : State) (i : Nat) : Nat := Store.get 0 i s.stat.flags

/-- Hold the partial count of a pair. -/
def State.setPart (s : State) (i : Nat) (v : Nat × Nat) : State := { s with stat := { s.stat with part := Store.set (0, 0) i v s.stat.part } }

/-- Hold the backing value of a pair. -/
def State.setBack (s : State) (i : Nat) (v : Nat × Nat) : State := { s with stat := { s.stat with back := Store.set (0, 0) i v s.stat.back } }

/-- Hold word 5 of a pair. -/
def State.setFlags (s : State) (i v : Nat) : State := { s with stat := { s.stat with flags := Store.set 0 i v s.stat.flags } }

/-- Queue a flush of a pair unless it is queued (R419); the queue holds 4,096 pairs, and FLUSH_QUEUE_MAX keeps its depth. -/
def State.queueFlush (s : State) (i : Nat) : State :=
  if s.stat.flushQ.contains i || decide (4096 ≤ s.stat.flushQ.length) then s
  else
    let s := { s with stat := { s.stat with flushQ := s.stat.flushQ ++ [i] } }
    s.maxReg pgStats 0x200C 13 s.stat.flushQ.length

/-- Add an increment to a pair's partial count (R419), saturating at 20 and 28 bits with PARTIAL_SAT. -/
def State.addPart (s : State) (i f b : Nat) : State :=
  let (pf, pb) := s.partOf i
  let s := if 2 ^ 20 ≤ pf + f ∨ 2 ^ 28 ≤ pb + b then s.orReg pgStats 0x2000 0x400#32 else s
  let v := (min (pf + f) (2 ^ 20 - 1), min (pb + b) (2 ^ 28 - 1))
  let s := s.setPart i v
  if 2 ^ 19 ≤ v.1 ∨ 2 ^ 27 ≤ v.2 then s.queueFlush i else s

/-- An increment of a pair, counted only while STATS is ENABLED (R417, R418). -/
def State.count (s : State) (i f b : Nat) : State := if s.enabled pgStats then s.addPart i f b else s

/-- An increment by a fixed source (R417), while FIXED_EN = 1. -/
def State.countFixed (s : State) (i f b : Nat) : State := if bit (s.cfg pgStats 0x100) 0 then s.count i f b else s

/-- An uncorrectable error in a backing value (R420): CORRUPT, BACKING_UNCORR, CORRUPT_SEEN and the event CORRUPT. -/
def State.backBad (s : State) (i : Nat) : State :=
  let s := s.setFlags i (s.pairFlags i ||| 4)
  ((s.incReg pgStats 0x2008).orReg pgStats 0x2000 0x200#32).raise pgStats 18

/-- Flush a pair (R419): Bk = X + Y modulo 2^64, a carry setting the count's WRAP bit, and P = 0. -/
def State.flushPair (s : State) (i : Nat) (uncorr : Bool) : State :=
  let s := if uncorr then s.backBad i else s
  let (xf, xb) := if uncorr then (0, 0) else s.backOf i
  let (pf, pb) := s.partOf i
  let wf := decide (2 ^ 64 ≤ xf + pf)
  let wb := decide (2 ^ 64 ≤ xb + pb)
  let s := (s.setPart i (0, 0)).setBack i ((xf + pf) % 2 ^ 64, (xb + pb) % 2 ^ 64)
  let s := if wf || wb then
      ((s.setFlags i (s.pairFlags i ||| (if wf then 1 else 0) ||| (if wb then 2 else 0))).orReg pgStats 0x2000 0x100#32).raise pgStats 17
    else s
  s.incReg pgStats 0x2004

/-- A queued flush completes (R419, R420); `uncorr` tells an uncorrectable error in Bk. -/
def execStatsFlush (uncorr : Bool) (s : State) : Out :=
  if s.stands then .next s else
  match s.stat.flushQ with
  | [] => .next s
  | i :: rest => .next ({ s with stat := { s.stat with flushQ := rest } }.flushPair i uncorr)

/-- FLUSH_PERIOD passes (R419): every pair whose P is not zero is queued, as far as the queue holds it. -/
def execStatsPeriodicFlush (s : State) : Out := if s.stands then .next s else .next (s.stat.part.foldl (fun s e => s.queueFlush e.1) s)

/-- The words of a pair's record with the time of its read (R421): FRAMES_LO to word 5. -/
def pairWords (f b takenAt flags : Nat) : List Word :=
  [word f, word (f / 2 ^ 32), word b, word (b / 2 ^ 32), word takenAt, word flags]

/-- read(i) of R419: the merged value with its time, and the state after it. -/
def State.readPair (s : State) (i : Nat) (uncorr : Bool) : List Word × State :=
  let s := if uncorr then s.backBad i else s
  let (xf, xb) := if uncorr then (0, 0) else s.backOf i
  let (pf, pb) := s.partOf i
  (pairWords ((xf + pf) % 2 ^ 64) ((xb + pb) % 2 ^ 64) s.nowSub (s.pairFlags i), s)

/-- A read of FRAMES_LO (R421): words 1-5 are latched for the agent. -/
def State.readFramesLo (s : State) (a : Agent) (i : Nat) (uncorr : Bool) : Word × State :=
  let (w, s) := s.readPair i uncorr
  (w.getD 0 0, { s with stat := { s.stat with latch := Store.insert a.id (i, w.drop 1) s.stat.latch } })

/-- A read of word `k`, 1 to 5, of a pair's record (R421): the agent's latch of that record, else the live value, whose
TAKEN_AT is 0. -/
def State.readPairWord (s : State) (a : Agent) (i k : Nat) : Word × State :=
  match s.stat.latch.find? (fun e => e.1 == a.id && e.2.1 == i) with
  | some (_, _, w) => (w.getD (k - 1) 0, s)
  | none =>
    let (w, s) := s.readPair i false
    (if k = 4 then 0 else w.getD k 0, s)

/-- Any other access of an agent to STATS ends its latch (R421). -/
def State.dropPairLatch (s : State) (a : Agent) : State := { s with stat := { s.stat with latch := Store.erase a.id s.stat.latch } }

/-- set(i, W) of R419: P takes nothing, Bk takes W, WRAP and CORRUPT clear; pairs beyond the last are skipped (R423). -/
def State.setPair (s : State) (i f b : Nat) : State :=
  if 4194304 ≤ i then s else ((s.setPart i (0, 0)).setBack i (f, b)).setFlags i 0

/-- A range set ends: SET_BUSY clears and SET_DONE is raised (R423). -/
def State.setDone (s : State) : State :=
  ({ s with stat := { s.stat with job := none } }.clrReg pgStats 0x2000 1#32).raise pgStats 16

/-- A write of 1 to SET_CTRL.GO (R423): ignored with SET_REJECT while SET_BUSY; one pair is set at once; a range is set at 64
pairs per µs as the core clock advances. -/
def State.setGo (s : State) : State :=
  if bit (s.reg pgStats 0x2000) 0 then s.orReg pgStats 0x2000 0x800#32
  else
    let first := s.regFld pgStats 0x1004 21 0
    let f := (s.reg pgStats 0x1010).toNat * 2 ^ 32 + (s.reg pgStats 0x100C).toNat
    let b := (s.reg pgStats 0x1018).toNat * 2 ^ 32 + (s.reg pgStats 0x1014).toNat
    if bit (s.reg pgStats 0x101C) 1 then
      let j : SetJob := ⟨first, orIfZero (s.regFld pgStats 0x1008 22 0) 1, 0, f, b, s.time.cyc⟩
      { s with stat := { s.stat with job := some j } }.orReg pgStats 0x2000 1#32
    else (s.setPair first f b).raise pgStats 16

/-- The range set's progress up to the current core cycle: 4,096 pairs per 100,000 cycles of 0.64 ns (R423). -/
def State.setTick (s : State) : State :=
  match s.stat.job with
  | none => s
  | some j =>
    let want := min j.count ((s.time.cyc - j.since) * 4096 / 100000)
    let s := (List.range' j.done (want - j.done)).foldl (fun s k => s.setPair (j.first + k) j.frames j.bytes) s
    if want = j.count then s.setDone else { s with stat := { s.stat with job := some { j with done := want } } }

/-- Stop the range set (R423): its unit of work is itself. -/
def State.setStop (s : State) : State :=
  match s.stat.job with
  | none => s
  | some _ => { s with stat := { s.stat with job := none } }.clrReg pgStats 0x2000 1#32

/-! ### The performance monitor -/

/-- An event as its filters see it (R425, R426): code; the bit of PRIV_MASK, if the privilege filter applies; its masters as
bit of KIND_MASK and instance, none if the master filter does not apply; address space and address; class. -/
structure PmuEvent where
  code : Nat
  priv : Option Nat
  masters : List (Nat × Nat)
  space : Option (Nat × Nat)
  cls : Option Nat
  deriving DecidableEq, Repr

/-- An agent as a master (R426): bit of KIND_MASK and instance; the debug port and Bellows show their owner IDs (log entry 22). -/
def agentMaster : Agent → Nat × Nat
  | .core k | .app k => (2, k.val)
  | .i3c => (3, 1)
  | .mgmt => (3, 2)
  | .debug => (4, 8)
  | .bellows => (5, 9)

/-- Whether counter `n` counts an event (R424, R426), given that the block runs. -/
def State.pmuPasses (s : State) (n : Nat) (e : PmuEvent) : Bool :=
  let w := s.winW pgPmu n
  bit (w 0) 8 && fld (w 0) 7 0 == e.code
    && (match e.priv with | none => true | some b => bit (w 1) b)
    && (e.masters.isEmpty || e.masters.any (fun m => bit (w 2) m.1 && (!(bit (w 2) 16) || fld (w 2) 15 8 == m.2)))
    && (match e.space with
        | none => true
        | some (sp, a) => fld (w 3) 2 0 != sp || (decide (fld (w 4) 15 0 ≤ a) && decide (a ≤ fld (w 4) 31 16)))
    && (match e.cls with | none => true | some c => bit (w 5) c)

/-- The offset of VALUEn_LO. -/
abbrev pmuVal (n : Nat) : Nat := 0x2100 + 8 * n

/-- Add 1 to counter `n` (R424): it wraps at 2^48 with OVERFLOW, in a latched high word too (R427), and OVF if OVF_INT. -/
def State.pmuInc (s : State) (n : Nat) : State :=
  let lo := (s.reg pgPmu (pmuVal n)).toNat
  let hi := s.reg pgPmu (pmuVal n + 4)
  let v := fld hi 15 0 * 2 ^ 32 + lo + 1
  let s := s.setReg pgPmu (pmuVal n) (word v)
  let s := s.setReg pgPmu (pmuVal n + 4) (setFld hi 15 0 (v / 2 ^ 32 % 65536))
  if v < 2 ^ 48 then s
  else
    let s := s.orReg pgPmu (pmuVal n + 4) 0x80000000#32
    let keys := (s.lastLow.filter (fun e => e.1 % 256 == pgPmu && e.2 == pmuVal n + 1)).map Prod.fst
    let s := { s with readLatch := s.readLatch.map (fun e => if keys.contains e.1 then (e.1, e.2 ||| 0x80000000#32) else e) }
    if bit (s.winW pgPmu n 0) 9 then s.raise pgPmu 16 else s

/-- Counter `n` counts an event; true where the event is its Nth and is sampled (R424, R429). -/
def State.pmuTake (s : State) (n : Nat) : Bool × State :=
  let s := s.pmuInc n
  let per := s.winW pgPmu n 6
  if per = 0 then (false, s)
  else
    let c := s.winW pgPmu n 7
    if c.toNat ≤ 1 then (true, s.setWin pgPmu n 7 per) else (false, s.setWin pgPmu n 7 (c - 1))

/-- Whether the performance monitor counts (R424). -/
def State.pmuRuns (s : State) : Bool := s.enabled pgPmu && bit (s.reg pgPmu 0x1000) 0

/-- Every counter takes an event; the counters that sample it are listed in ascending order (R424, R429). -/
def State.pmuEvent (s : State) (e : PmuEvent) : List Nat × State :=
  if !s.pmuRuns then ([], s)
  else ((List.range 256).filter (fun n => s.pmuPasses n e)).foldl (fun r n =>
    let (hit, s) := r.2.pmuTake n
    (if hit then r.1 ++ [n] else r.1, s)) ([], s)

/-- Count an event that no frame and no instruction causes: it writes no record (R429, log entry 12). -/
def State.pmuCount (s : State) (e : PmuEvent) : State := (s.pmuEvent e).2

/-- RESET_ALL (R424): every value and OVERFLOW bit is 0. -/
def State.pmuResetAll (s : State) : State :=
  (List.range 256).foldl (fun s n => (s.setReg pgPmu (pmuVal n) 0).setReg pgPmu (pmuVal n + 4) 0) s

/-- A write to VALUEn_HI is held for the agent (R427). -/
def State.pmuWriteHi (s : State) (a : Agent) (n : Nat) (v : Word) : State :=
  { s with stat := { s.stat with hold := Store.insert a.id (n, v) s.stat.hold } }

/-- A write to VALUEn_LO writes both words, the high one as held for the agent or 0 (R427). -/
def State.pmuWriteLo (s : State) (a : Agent) (n : Nat) (v : Word) : State :=
  let hi := match s.stat.hold.find? (fun e => e.1 == a.id && e.2.1 == n) with | some (_, _, h) => h | none => 0
  (s.setReg pgPmu (pmuVal n) v).setReg pgPmu (pmuVal n + 4) (hi &&& 0x8000FFFF#32)

/-- A held high word is discarded (R427). -/
def State.pmuDropHold (s : State) (a : Agent) : State := { s with stat := { s.stat with hold := Store.erase a.id s.stat.hold } }

/-! ### Sample records -/

/-- A record is lost (R432). -/
def State.sampleLost (s : State) : State :=
  (({ s with stat := { s.stat with lost := true } }).incReg pgPmu 0x2008).raise pgPmu 18

/-- A record of 62 bytes waits to be written, unless 64 wait (R432). -/
def State.sample (s : State) (r : List Byte) : State :=
  if s.safe pgPmu then s
  else if 64 ≤ s.stat.waiting.length then s.sampleLost
  else { s with stat := { s.stat with waiting := s.stat.waiting ++ [r] } }

/-- Distinct bank numbers in the order first touched (R430). -/
def firstTouched (l : List (BitVec 11)) : List (BitVec 11) :=
  l.foldl (fun acc b => if acc.contains b then acc else acc ++ [b]) []

/-- A frame record without its CRC (R430): counter, event code, what the frame reports, and EXIT in nanoseconds. -/
def frameRecord (n code exit : Nat) (i : RecInfo) : List Byte :=
  let banks := firstTouched i.banks
  let b4 := (List.range 4).foldl (fun v k => v * 2048 + (banks.getD k 0).toNat) 0
  let ns := (i.stamp / 65536).toNat
  [1, BitVec.ofNat 8 n, BitVec.ofNat 8 code,
   BitVec.ofNat 8 (i.pass * 16 + i.colour * 4 + (if i.terminating then 2 else 0))]
    ++ beBytes 2 i.inPort ++ [BitVec.ofNat 8 (i.outcome * 16 + i.pipe), BitVec.ofNat 8 (i.dross * 16 + i.cls)]
    ++ beBytes 2 i.seq ++ beBytes 2 i.epoch ++ beBytes 4 (ns % 1000000000) ++ beBytes 4 exit
    ++ beBytes 2 (ns / 1000000000) ++ beBytes 8 (i.resid.toNat * 16) ++ beBytes 2 (min 65535 i.wait)
    ++ beBytes 6 (b4 * 16 + min 7 banks.length) ++ [0, 0]
    ++ beBytes 5 (i.forme * 2 ^ 20 + i.rule) ++ beBytes 3 i.nh
    ++ beBytes 4 (i.queue + (if i.isVoq then 2 ^ 18 else 0)) ++ beBytes 4 i.depth ++ beBytes 2 i.egress ++ beBytes 4 0

/-- Write the records of the samples that a frame carries. -/
def State.sampleFrame (s : State) (ns : List (Nat × Nat)) (exit : Nat) (i : RecInfo) : State :=
  ns.foldl (fun s x => s.sample (frameRecord x.1 x.2 exit i)) s

/-- An event of a frame that is recorded at the event itself (R430). -/
def State.pmuFrame (s : State) (e : PmuEvent) (exit : Nat) (i : RecInfo) : State :=
  let (ns, s) := s.pmuEvent e
  s.sampleFrame (ns.map (fun n => (n, e.code))) exit i

/-- An instruction record without its CRC (R431). -/
def instrRecord (n code core mode : Nat) (pc : BitVec 64) (t lat : Nat) (addr : BitVec 64) : List Byte :=
  [2, BitVec.ofNat 8 n, BitVec.ofNat 8 code, 0, BitVec.ofNat 8 core, BitVec.ofNat 8 mode, 0, 0]
    ++ beBytes 8 pc.toNat ++ beBytes 4 t ++ beBytes 4 lat ++ beBytes 8 addr.toNat ++ beBytes 30 0

/-- Occupancy of the ring (R432). -/
def State.ringFill (s : State) : Nat :=
  (s.regFld pgPmu 0x2000 12 0 + 8192 - s.regFld pgPmu 0x1004 12 0) % 8192

/-- Put a record with LOST_BEFORE and its CRC in the ring at RING_WR (R430, R432). -/
def State.ringPut (s : State) (r : List Byte) : State :=
  let r := if s.stat.lost then r.set 3 (r.getD 3 0 ||| 1) else r
  let ring := Store.insert (s.regFld pgPmu 0x2000 12 0 % 4096) (r ++ beBytes 2 (crc16 r).toNat) s.stat.ring
  { s with stat := { s.stat with lost := false, ring := ring } }

/-- RING_WR and SAMPLES_WRITTEN advance, and RING is raised when the occupancy reaches RING_THRESH (R432). -/
def State.ringAdvance (s : State) : State :=
  let s := (s.setRegFld pgPmu 0x2000 12 0 (s.regFld pgPmu 0x2000 12 0 + 1)).incReg pgPmu 0x2004
  if s.ringFill == s.regFld pgPmu 0x1008 12 0 then s.raise pgPmu 17 else s

/-- A waiting record is written to the ring, or lost where the ring is full (R432). -/
def execSampleRecordWrite (s : State) : Out :=
  if s.stands then .next s else
  match s.stat.waiting with
  | [] => .next s
  | r :: rest =>
    if !s.working pgPmu then .next s
    else
      let s := { s with stat := { s.stat with waiting := rest } }
      if 4096 ≤ s.ringFill then .next s.sampleLost else .next (s.ringPut r).ringAdvance

/-- A write of RING_RD (R432): ignored where the occupancy would exceed 4,096. -/
def State.ringRead (s : State) (v : Nat) : State :=
  if 4096 < (s.regFld pgPmu 0x2000 12 0 + 8192 - v % 8192) % 8192 then s else s.setRegFld pgPmu 0x1004 12 0 v

end Sys2Proof.Machine
end

