-- ==== Sys2Proof/Machine/TimeBase.lean ====
section
/-! DEFINITION. Time keeping (R332-R346): increments, the domain clocks, slews and steps of the time base, time stamps, pulses
and recovered clocks. -/
namespace Sys2Proof.Machine

/-! ### Increments and clocks -/

/-- The span after which a clock of 48-bit seconds wraps, in 2^-64 ns (R332). -/
def timeSpan : Nat := 2 ^ 48 * 1000000000 * 2 ^ 64

/-- A clock advanced by a signed amount. -/
def clkAdd (x : Nat) (d : Int) : Nat := (((x : Int) + d) % (timeSpan : Int)).toNat

/-- Division rounded to nearest, a tie to the even quotient (R333); `d` is positive. -/
def roundEven (n d : Int) : Int :=
  let q := n / d
  let r := n % d
  if 2 * r < d then q else if d < 2 * r then q + 1 else if q % 2 = 0 then q else q + 1

/-- FREQd as it acts: clamped to 1,000 ppm (R333). -/
def freqClamp (f : Int) : Int := max (-1099511628) (min 1099511628 f)

/-- 0.64 ns x (1 + r x 2^-40) x (1 + f x 2^-40) in units of 2^-64 ns (R333). -/
def incOf (r f : Int) : Int := roundEven (16 * (2 ^ 40 + r) * (2 ^ 40 + f)) (25 * 2 ^ 16)

/-- Whether the time role is FOLLOW (R347): the partner of a pair, or a device of a trunked system so configured. -/
def State.roleFollows (s : State) : Bool :=
  if s.topo = 1 then !(bit (s.reg 0 0x2064) 0) else s.topo = 2 && bit (s.cfg pgTime 0x100) 0

/-- Whether the device follows another's time (R347, R415): a STANDBY whose role is LOCAL follows its active. -/
def State.follows (s : State) : Bool := s.roleFollows || s.regFld pgPair 0x2004 1 0 == 2

/-- R_CORR in force, 2^-40 (R333). -/
def State.rCorr (s : State) : Int := if s.follows then (s.reg pgTime 0x2088).toInt else 0

/-- The increment of domain `d`, 0 A or 1 B (R333). -/
def State.incD (s : State) (d : Nat) : Int := incOf s.rCorr (if d = 0 then s.time.fA else s.time.fB)

/-- TB_CTRL.SELECT (R335). -/
abbrev State.tbSel (s : State) : Nat := s.regFld pgTime 0x1000 0 0

/-- A domain clock. -/
def State.domClk (s : State) (d : Nat) : Nat := if d = 0 then s.time.dA else s.time.dB

/-- Hold a domain clock. -/
def State.setDom (s : State) (d v : Nat) : State :=
  if d = 0 then { s with time := { s.time with dA := v } } else { s with time := { s.time with dB := v } }

/-- Delta of R335: the selected domain clock less the time base. -/
def State.tbDelta (s : State) : Int := (s.domClk s.tbSel : Int) - s.time.tb

/-- The slew share of a cycle (R335): inc x SLEW_RATE x 10^-9, rounded down; 0 acts as 1, above 1,000,000 as 1,000,000. -/
def State.slewShare (s : State) : Int :=
  s.incD s.tbSel * (min 1000000 (orIfZero (s.regFld pgTime 0x1004 19 0) 1) : Nat) / 1000000000

/-- Whether this cycle steps the time base in role LOCAL (R335). -/
def State.tbSteps (s : State) : Bool :=
  let d := s.tbDelta
  let lim := (s.reg pgTime 0x1008).toNat
  d != 0 && (bit (s.reg pgTime 0x1000) 1 || !s.timeValid || (lim != 0 && decide ((lim * 2 ^ 64 : Int) < d.natAbs)))

/-- Record a step of the time base (R336): STEPS, STEPPED, the event, VALID. -/
def State.noteStep (s : State) : State :=
  ((s.incReg pgTime 0x2018).orReg pgTime 0x2010 0x101#32).raise pgTime 16

/-- The clocks' next values in one cycle (R333, R335): the time base with whether it stepped, then the domains. -/
def State.clockNext (s : State) : Nat × Bool × Nat × Nat :=
  let a := clkAdd s.time.dA (s.incD 0)
  let b := clkAdd s.time.dB (s.incD 1)
  let base := incOf s.rCorr 0
  if s.follows then
    (clkAdd s.time.tb (if s.safe pgTime then base else base + s.time.phase), false, a, b)
  else
    let inc := s.incD s.tbSel
    if s.safe pgTime then (clkAdd s.time.tb inc, false, a, b)
    else if s.tbSteps then (clkAdd (s.domClk s.tbSel) inc, true, a, b)
    else
      let d := s.tbDelta
      (clkAdd s.time.tb (inc + d.sign * min (d.natAbs : Int) s.slewShare), false, a, b)

/-- The clock that PPS_OUT follows (R344). -/
def State.ppsClk (s : State) : Nat :=
  let src := s.cfgFld pgTime 0x108 2 1
  if src = 1 then s.time.dA else if src = 2 then s.time.dB else s.time.tb

/-- Whether the clock that PPS_OUT follows, moved earlier by OUT_DELAY, has reached a whole second since the cycle before, by its increment or a
step across one or more (R344); a clock carried back reaches the second again later. -/
def State.ppsTick (s : State) : State :=
  let sec := (((s.ppsClk : Int) + sext 16 (s.cfgFld pgTime 0x10C 15 0) * 2 ^ 64) / 2 ^ 64 / 1000000000).toNat
  { s with time := { s.time with ppsDue := decide (s.time.ppsSec < sec), ppsSec := sec } }

/-- Advance the clocks by one CORE_CLK cycle; PREFETCH_WAIT counts it while a request waits for the pre-fetch pool (R264); SLEWING follows Delta, and SLEW_DONE is raised where Delta comes to 0 (R335). -/
def State.clockTick (s : State) : State :=
  let (tb, stepped, a, b) := s.clockNext
  let was : Bool := decide (s.tbDelta ≠ (0 : Int)) || bit (s.reg pgTime 0x2010) 1
  let s := { s with time := { s.time with tb := tb, dA := a, dB := b, cyc := s.time.cyc + 1 } }
  let s := s.ppsTick
  let s := if s.buf.pfWait.isEmpty then s else s.incReg pgIngot 0x201C
  let s := if stepped then s.noteStep else s
  let slew : Bool := decide (s.tbDelta ≠ (0 : Int))
  let s := s.updReg pgTime 0x2010 (fun w => putBit w 1 slew)
  if was && !slew then s.raise pgTime 19 else s

/-- Step the time base by a signed amount in 2^-64 ns (R336, R350). -/
def State.stepTb (s : State) (d : Int) : State :=
  { s with time := { s.time with tb := clkAdd s.time.tb d } }.noteStep

/-! ### Domain controls (R333, R334) -/

/-- The FREQ value that a domain's register holds. -/
def State.freqReg (s : State) (d : Nat) : Int := (s.reg pgTime (0x1040 + 0x20 * d)).toInt

/-- Put a frequency in force, clamped, with FREQ_CLAMPED (R333). -/
def State.applyFreq (s : State) (d : Nat) (f : Int) : State :=
  let c := freqClamp f
  let s := if d = 0 then { s with time := { s.time with fA := c } } else { s with time := { s.time with fB := c } }
  if c = f then s else (s.orReg pgTime 0x2010 0x800#32).raise pgTime 22

/-- STEPd_S x 10^9 + STEPd_NS in 2^-64 ns (R334). -/
def State.stepValue (s : State) (d : Nat) : Int :=
  ((s.reg pgTime (0x1044 + 0x20 * d)).toInt * 1000000000 + (s.reg pgTime (0x1048 + 0x20 * d)).toInt) * 2 ^ 64

/-- SETd in 2^-64 ns; none where SETd_NS is 10^9 or more (R334). -/
def State.setValue (s : State) (d : Nat) : Option Nat :=
  let ns := (s.reg pgTime (0x1054 + 0x20 * d)).toNat
  if 1000000000 ≤ ns then none
  else some (((s.regFld pgTime (0x104C + 0x20 * d) 15 0 * 2 ^ 32 + (s.reg pgTime (0x1050 + 0x20 * d)).toNat) * 1000000000 + ns) * 2 ^ 64)

/-- The working Sprue group of a use: 0 FABRIC, 1 JOINT, 2 PAIR (R161, R172), the lowest where several have it. -/
def State.groupOfUse (s : State) (use : Nat) : Option Nat :=
  (List.range 16).find? fun g => s.cfgFld (pgSprue + g) 0x100 1 0 == use && s.blk (pgSprue + g) != 0
    && !bit (s.reg (pgSprue + g) 0x2000) 1

/-- GROUP_STATUS.UP of a Sprue group (R167). -/
abbrev State.groupUp (s : State) (g : Nat) : Bool := bit (s.reg (pgSprue + g) 0x2000) 0

/-- Whether the Twicel joint is UP (R167, R386). -/
def State.jointUp (s : State) : Bool := match s.groupOfUse 1 with | some g => s.groupUp g | none => false

/-- Whether a write of a domain control on this device is relayed (R334): the lead in TWICEL while the joint is UP. -/
def State.domRelayed (s : State) : Bool := s.topo = 1 && bit (s.reg 0 0x2064) 0 && s.jointUp

/-- Carry out a domain control (R334). -/
def State.domRun (s : State) (o : DomOp) : State :=
  if o.kind = 0 then s.applyFreq o.dom o.value
  else if o.kind = 1 then s.setDom o.dom (clkAdd (s.domClk o.dom) o.value)
  else s.setDom o.dom o.value.toNat

/-- A domain control takes effect at once, or 100 µs after the write while it is relayed (R334); `due` is the instant that the relay of
such a write names on the partner. -/
def State.domDo (s : State) (d kind : Nat) (v : Int) (due : Option Nat) : State :=
  let o : DomOp := ⟨d, kind, v, due.getD (s.nowNs + 100000)⟩
  if s.domRelayed || due.isSome then { s with time := { s.time with domPend := s.time.domPend ++ [o] } } else s.domRun o

/-- Relayed domain controls whose instant has come take effect (R334). -/
def State.domTick (s : State) : State :=
  let due := s.time.domPend.filter (fun o => decide (o.at_ ≤ s.nowNs))
  if due.isEmpty then s
  else
    let rest := s.time.domPend.filter (fun o => !decide (o.at_ ≤ s.nowNs))
    due.foldl (fun s o => s.domRun o) { s with time := { s.time with domPend := rest } }

/-- A write to FREQd applies while TIME is ENABLED (R334). -/
def State.freqWritten (s : State) (d : Nat) (due : Option Nat) : State := if s.enabled pgTime then s.domDo d 0 (s.freqReg d) due else s

/-- A write of STEP_GO or SET_GO (R334): ignored unless TIME is ENABLED; the set comes first; SETd_NS of 10^9 or more is refused. -/
def State.domGo (s : State) (d : Nat) (step set : Bool) (due : Option Nat) : State :=
  if !s.enabled pgTime then s
  else
    let s := if !set then s else match s.setValue d with
      | none => s.orReg pgTime 0x2010 0x1000#32
      | some v => s.domDo d 2 v due
    if step then s.domDo d 1 (s.stepValue d) due else s

/-- The servo's state with SERVO_CHANGE (R350, R360). -/
def State.setServo (s : State) (v : Nat) : State :=
  if s.regFld pgTime 0x2010 4 3 = v then s else (s.setRegFld pgTime 0x2010 4 3 v).raise pgTime 18

/-- TIME enters ENABLED (R334, R350): stored frequencies apply, and a follower acquires. -/
def State.timeEnabled (s : State) : State :=
  let s := (s.applyFreq 0 (s.freqReg 0)).applyFreq 1 (s.freqReg 1)
  let s := { s with time := { s.time with good := 0, bad := 0, ppsEnd := none } }.updReg pgTime 0x2010 (fun w => putBit w 2 s.follows)
  s.setServo (if s.follows then 1 else 0)

/-! ### Reading clocks (R337) -/

/-- NOW_LO, NOW_HI and NOW_X of a clock in 2^-64 ns. -/
def clkWords (x : Nat) : Word × Word × Word :=
  let ns := x / 2 ^ 64
  let sec := ns / 1000000000
  (word (ns % 1000000000), word sec, word (sec / 2 ^ 32 % 65536 + x / 2 ^ 48 % 65536 * 65536))

/-- Hold a clock in three words of TIME. -/
def State.putClk (s : State) (off x : Nat) : State :=
  let (lo, hi, ex) := clkWords x
  ((s.setReg pgTime off lo).setReg pgTime (off + 4) hi).setReg pgTime (off + 8) ex

/-- A write of 1 to TB_CTRL.SNAP (R337). -/
def State.snap (s : State) : State :=
  ((s.putClk 0x2020 s.time.tb).putClk 0x2030 s.time.dA).putClk 0x2040 s.time.dB

/-- DELTA (R360): D_sel - TB in signed ns, truncated toward zero, saturating. -/
def State.deltaReg (s : State) : Word :=
  BitVec.ofInt 32 (max (-2147483648) (min 2147483647 (Int.tdiv s.tbDelta (2 ^ 64))))

/-! ### Time stamps (R338-R343) -/

/-- Word `i` of a port's TIME block. -/
abbrev State.portTime (s : State) (p i : Nat) : Word := s.winW pgTime p i

/-- A clock in units of 2^-16 ns. -/
def stamp16 (x : Nat) : Int := ((x / 2 ^ 48 : Nat) : Int)

/-- The ingress stamp of a frame at a port in a given clock (R338). -/
def State.ingressStamp (s : State) (p clk : Nat) : Int :=
  stamp16 clk - (s.portTime p 1).toInt - (s.portTime p 3).toInt

/-- The egress stamp of a frame at a port in a given clock (R338). -/
def State.egressStamp (s : State) (p clk : Nat) : Int :=
  stamp16 clk + (s.portTime p 2).toInt - (s.portTime p 3).toInt

/-- The domain of a PTP event message with a domainNumber at a port (R339). -/
def State.ptpDomain (s : State) (p num : Nat) : Nat :=
  let sel := fld (s.portTime p 0) 3 2
  if sel = 1 then 0 else if sel = 2 then 1 else if num = s.regFld pgTime 0x1000 23 16 then 1 else 0

/-- Queue a transmit time stamp (R342, R343): discarded with TS_DROPPED, OVERFLOW and the event where 16 are queued. -/
def State.queueStamp (s : State) (p : Nat) (t : TxStamp) : State :=
  let q := Store.get [] p s.time.txts
  if 16 ≤ q.length then
    ((s.updWin pgTime p 11 (· + 1)).updWin pgTime p 4 (· ||| 0x100#32)).raise pgTime 21
  else
    let s := { s with time := { s.time with txts := Store.insert p (q ++ [t]) s.time.txts } }.updWin pgTime p 10 (· + 1)
    if q.isEmpty then s.raise pgTime 20 else s

/-- A write to TXTS_POP removes the head entry (R342). -/
def State.popStamp (s : State) (p : Nat) : State :=
  { s with time := { s.time with txts := Store.upd [] p List.tail s.time.txts } }

/-- Words 4 to 8 of a port's TIME block as read (R361). -/
def State.stampWord (s : State) (p i : Nat) : Word :=
  let q := Store.get [] p s.time.txts
  if i = 4 then word q.length ||| (s.portTime p 4 &&& 0x100#32)
  else match q with
  | [] => 0
  | t :: _ =>
    let ns := t.stamp / 65536
    let sec := ns / 1000000000
    if i = 5 then word (t.tag % 65536 + t.msg % 16 * 65536 + t.dom * 2 ^ 20 + 2 ^ 31)
    else if i = 6 then word sec
    else if i = 7 then word (ns % 1000000000)
    else word (sec / 2 ^ 32 % 65536 + t.stamp % 65536 * 65536)

/-! ### Pulses and recovered clocks (R344-R346) -/

/-- PPS_OUT is high (R344). -/
def State.ppsOut (s : State) : Bool :=
  s.enabled pgTime && (match s.time.ppsEnd with | some e => decide (s.time.cyc < e) | none => false)

/-- The selected clock reaches a whole second and PPS_OUT rises for WIDTH µs (R344); a µs is 1,562.5 cycles. -/
def execPpsOutEdge (s : State) : Out :=
  if s.stands then .next s else
  if s.enabled pgTime && bit (s.cfg pgTime 0x108) 0 && s.time.ppsDue then
    let w := min 500000 (orIfZero (s.cfgFld pgTime 0x108 31 12) 1)
    .next { s with time := { s.time with ppsEnd := some (s.time.cyc + w * 3125 / 2), ppsDue := false } }
  else .next s

/-- IN_DELAY in 2^-64 ns (R345). -/
def State.ppsInDelay (s : State) : Int := sext 16 (s.cfgFld pgTime 0x10C 31 16) * 2 ^ 64

/-- A rising edge of PPS_IN (R345): ignored while IN_EN = 0 or less than 1 ms after the last captured edge. -/
def execPpsIn (s : State) : Out :=
  if s.stands then .next s else
  let soon := match s.time.ppsIn with | some c => decide (s.time.cyc < c + 1562500) | none => false
  if !bit (s.cfg pgTime 0x108) 3 || soon then .next s
  else
    let d := -s.ppsInDelay
    let s := ((s.putClk 0x2050 (clkAdd s.time.tb d)).putClk 0x2060 (clkAdd s.time.dA d)).putClk 0x2070 (clkAdd s.time.dB d)
    let s := { s with time := { s.time with ppsIn := some s.time.cyc } }
    .next (((s.incReg pgTime 0x207C).orReg pgTime 0x2010 0x200#32).raise pgTime 17)

/-- LANE_STATUS bit `k` of a source lane: SIGNAL of a line lane at offset 0, LOCK at 8. -/
def State.laneBit (s : State) (lane base : Nat) : Bool := bit (s.reg (pgBank + lane / 8) 0x200C) (base + lane % 8)

/-- Whether SIGNAL and LOCK of a recovered-clock source are both 1 (R346): 160 is the management lane, whose link stands for
both (log entry 13). -/
def State.srcLocked (s : State) (src : Nat) : Bool :=
  if src < 160 then s.laneBit src 0 && s.laneBit src 8 else src == 160 && bit (s.reg pgMgmt 0x2000) 0

/-- Whether output RCLKn carries a clock (R346): enabled, naming a lane, not squelched. -/
def State.rclkRuns (s : State) (n : Nat) : Bool :=
  let w := s.reg pgTime (0x1080 + 4 * n)
  bit w 8 && decide (fld w 7 0 ≤ 160) && !(bit w 10 && s.time.squelched.contains (256 * n + fld w 7 0))

/-- The outputs with SQUELCH = 1 that present a source are held low (R346). -/
def State.squelch (s : State) (src : Nat) : State :=
  [0, 1].foldl (fun (s : State) n =>
    let w := s.reg pgTime (0x1080 + 4 * n)
    if fld w 7 0 = src ∧ bit w 10 then { s with time := { s.time with squelched := Store.addKey (256 * n + src) s.time.squelched } } else s) s

/-- SIGNAL or LOCK of a lane falls (R143, R346): LOCK with LOCK_LOSS; with SIGNAL, LOCK goes too. -/
def State.laneFall (s : State) (lane : Nat) (signal : Bool) : State :=
  let pg := pgBank + lane / 8
  let k := lane % 8
  if !s.laneBit lane 8 && !(signal && s.laneBit lane 0) then s
  else
    let s' := if s.laneBit lane 8 then s.incReg pg (0x2400 + 0x20 * k + 0xC) else s
    (s'.updReg pg 0x200C (fun w => putBit (if signal then putBit w k false else w) (8 + k) false)).squelch lane

/-- SIGNAL and LOCK of a lane rise (R143). -/
def State.laneRise (s : State) (lane : Nat) : State :=
  s.updReg (pgBank + lane / 8) 0x200C (fun w => putBit (putBit w (lane % 8) true) (8 + lane % 8) true)

/-- SIGNAL or LOCK of output n's source lane falls (R346): with SQUELCH = 1 the output is held low. -/
def execRclkSquelch (n : Fin 2) (signal : Bool) (s : State) : Out :=
  if s.stands then .next s else
  let w := s.reg pgTime (0x1080 + 4 * n.val)
  let src := fld w 7 0
  let s := if src < 160 then s.laneFall src signal else s
  .next (if bit w 10 then { s with time := { s.time with squelched := Store.addKey (256 * n.val + src) s.time.squelched } } else s)

/-- SIGNAL and LOCK of the source have been 1 for 10 ms (R346): the output resumes. -/
def execRclkResume (n : Fin 2) (s : State) : Out :=
  if s.stands then .next s else
  let src := fld (s.reg pgTime (0x1080 + 4 * n.val)) 7 0
  if s.srcLocked src then
    .next { s with time := { s.time with squelched := s.time.squelched.filter (· != 256 * n.val + src) } }
  else .next s

end Sys2Proof.Machine
end

