-- ==== Sys2Proof/Machine/Ports.lean ====
section
/-! DEFINITION. Lane banks, line ports, FlexE groups and clients, the management lane (R122-R146): what a port is, its checks on
ENABLING, its rate, limits and addresses, FlexE overhead and calendar switches. -/
namespace Sys2Proof.Machine

/-- A configuration word as a block runs it, or as configured while the block is DISABLED. -/
def State.effCfg (s : State) (p o : Nat) : Word := if s.blk p = 0 then s.reg p o else s.cfg p o

/-! ### Line ports -/

/-- The page of a line port's or lane's bank (R122). -/
abbrev bankPage (p : Nat) : Nat := pgBank + p / 8

/-- PORT_CFG of a line port as latched (R143). -/
abbrev State.portCfg (s : State) (p : Nat) : Word := s.cfg (bankPage p) (0x140 + 4 * (p % 8))

/-- SPEED of a PORT_CFG in Gb/s, 0 for none or a reserved code (R143). -/
def speedOf (w : Word) : Nat := [0, 10, 25, 50, 100, 200, 400, 800, 1600].getD (fld w 3 0) 0

/-- Lanes of a PORT_CFG (R143). -/
def widthOf (w : Word) : Nat := 2 ^ fld w 5 4

/-- Whether speed, lanes and FEC are a row of R127; FEC 0 NONE, 1 RS(528,514), 2 RS(544,514). -/
def portRow (g l fec : Nat) : Bool :=
  (g == 10 && l == 1 && fec == 0) || (g == 25 && l == 1 && decide (fec ≤ 1)) || (g == 50 && l == 1 && fec == 2)
    || (g == 100 && l == 4 && decide (fec ≤ 1)) || (g == 100 && decide (l ≤ 2) && fec == 2)
    || (g == 200 && decide (l ≤ 4) && fec == 2) || (g == 400 && decide (2 ≤ l) && fec == 2)
    || (g == 800 && decide (4 ≤ l) && fec == 2) || (g == 1600 && l == 8 && fec == 2)

/-- The cause of R128 for the port at offset `k`, 0 for none, given the lanes that lower ports hold. -/
def portCause (w : Word) (k : Nat) (held : List Nat) : Nat :=
  if fld w 3 0 = 0 then 0
  else if !portRow (speedOf w) (widthOf w) (fld w 7 6) then 1
  else if k % widthOf w ≠ 0 then 2
  else if (List.range' k (widthOf w)).any held.contains then 3 else 0

/-- PORT_CAUSE of a bank (R128): ports in ascending offset, each accepted port holding its lanes. -/
def State.portCauses (s : State) (pg : Nat) : Nat :=
  ((List.range 8).foldl (fun (acc : Nat × List Nat) k =>
    let w := s.cfg pg (0x140 + 4 * k)
    let c := portCause w k acc.2
    (acc.1 + c * 16 ^ k, if c = 0 ∧ fld w 3 0 ≠ 0 then acc.2 ++ List.range' k (widthOf w) else acc.2)) (0, [])).1

/-- Whether the bank's latched configuration holds an accepted port at a line port's number (R126, R128, R303); a bank held under R124 has
none. -/
def State.portAccepted (s : State) (p : Nat) : Bool :=
  s.cfgFld (bankPage p) 0x100 1 0 == 1 && !bit (s.reg (bankPage p) 0x2000) 8 && fld (s.portCfg p) 3 0 != 0
    && s.regFld (bankPage p) 0x2008 (4 * (p % 8) + 3) (4 * (p % 8)) == 0

/-- The accepted port that a lane belongs to (R126). -/
def State.portOfLane (s : State) (l : Nat) : Option Nat :=
  (List.range' (8 * (l / 8)) 8).find? (fun p => s.portAccepted p && decide (p ≤ l) && decide (l < p + widthOf (s.portCfg p)))

/-- Whether a lane is powered (R123-R126): its bank is not DISABLED and not held under R124, and it is a lane of a TRUNK bank or of an accepted
port. -/
def State.lanePowered (s : State) (l : Nat) : Bool :=
  decide (1 ≤ s.blk (bankPage l)) && !bit (s.reg (bankPage l) 0x2000) 8
    && (s.cfgFld (bankPage l) 0x100 1 0 == 2 || (s.portOfLane l).isSome)

/-- The nominal rate of a lane in Gb/s, 0 where it has none (R123, R127, R146): a Sprue lane runs at 212.5; 160 is the management lane. -/
def State.laneSpeed (s : State) (l : Nat) : Nat :=
  if l = 160 then (if s.cfgFld pgMgmt 0x100 0 0 = 1 then 10 else 25)
  else if s.cfgFld (bankPage l) 0x100 1 0 = 2 then 200
  else match s.portOfLane l with | some p => speedOf (s.portCfg p) / widthOf (s.portCfg p) | none => 0

/-- The divider of a recovered receive clock to 156.25 MHz (R346). -/
def rclkDivider (speed : Nat) : Nat :=
  if speed = 200 then 1360 else if speed = 100 then 680 else if speed = 50 then 340 else if speed = 25 then 165 else if speed = 10 then 66 else 0

/-- What output RCLKn divides its source's clock by, five times as much with DIV5; 0 while it is held low (R346). -/
def State.rclkDiv (s : State) (n : Nat) : Nat :=
  let w := s.reg pgTime (0x1080 + 4 * n)
  if s.rclkRuns n then rclkDivider (s.laneSpeed (fld w 7 0)) * (if bit w 9 then 5 else 1) else 0

/-- The lanes of a line port (R126). -/
def State.portLanes (s : State) (p : Nat) : List Nat := List.range' p (widthOf (s.portCfg p))

/-- Whether any lane of a line port has a bit of LOOPBACK or PRBS_CTRL set, the bits of lane 0 starting at `base` (R143). -/
def State.anyLane (s : State) (p off base : Nat) : Bool := (s.portLanes p).any (fun l => bit (s.reg (bankPage p) off) (base + l % 8))

/-- Whether every lane of a line port is looped back inside its PMA (R143): the port receives what it transmits. -/
def State.looped (s : State) (p : Nat) : Bool :=
  decide (p < 160) && (s.portLanes p).all (fun l => bit (s.reg (bankPage p) 0x1004) (l % 8))

/-- Whether every lane of a line port retransmits what it receives (R143). -/
def State.farLooped (s : State) (p : Nat) : Bool :=
  decide (p < 160) && (s.portLanes p).all (fun l => bit (s.reg (bankPage p) 0x1004) (8 + l % 8))

/-- Whether the lanes of a port carry its own data (R143): no PRBS generator replaces it, and no lane retransmits what it receives. -/
def State.carriesData (s : State) (p : Nat) : Bool := decide (160 ≤ p) || (!s.anyLane p 0x1008 8 && !s.anyLane p 0x1004 8)

/-- Lane of member `m` of a Sprue group, none for values above 159 (R172). -/
def State.memberLane (s : State) (g m : Nat) : Option Nat :=
  let l := fld (s.effCfg (pgSprue + g) (0x104 + 4 * (m / 4))) (8 * (m % 4) + 7) (8 * (m % 4))
  if l < 160 then some l else none

/-- Enabled Sprue groups that name a lane of a bank (R124). DESIGN CHOICE, unsafe: a group held in ENABLING under R161 is not counted, any other
group that is not DISABLED is (log entry 128). -/
def State.groupsOnBank (s : State) (n : Nat) : List Nat :=
  (List.range 16).filter fun g => s.blk (pgSprue + g) != 0 && !bit (s.reg (pgSprue + g) 0x2000) 1
    && (List.range 16).any (fun m => match s.memberLane g m with | some l => l / 8 == n | none => false)

/-- LINE banks in use other than bank `n` (R124): ENABLED, DRAINING or SAFE, or ENABLING and not held. -/
def State.lineBanks (s : State) (n : Nat) : Nat :=
  ((List.range 20).filter fun m => m != n && s.cfgFld (pgBank + m) 0x100 1 0 == 1 &&
    (decide (2 ≤ s.blk (pgBank + m)) || (s.blk (pgBank + m) == 1 && !bit (s.reg (pgBank + m) 0x2000) 8))).length

/-- ROLE_CAUSE of a bank on entering ENABLING, 0 for none (R124). -/
def State.roleCause (s : State) (n : Nat) : Nat :=
  let role := s.cfgFld (pgBank + n) 0x100 1 0
  let gs := (s.groupsOnBank n).length
  if role = 1 ∧ 18 ≤ s.lineBanks n then 1
  else if role = 1 ∧ 1 ≤ gs then 2
  else if role = 2 ∧ 2 ≤ gs then 3
  else if role = 3 then 4 else 0

/-- A bank that has latched its configuration checks its role and its ports (R124, R128). -/
def State.bankEnabling (s : State) (n : Nat) : State :=
  let pg := pgBank + n
  let role := s.cfgFld pg 0x100 1 0
  let c := s.roleCause n
  let s := s.updReg pg 0x2000 (fun w => setFld (setFld (setFld w 1 0 role) 8 8 (if c = 0 then 0 else 1)) 11 9 c)
  if c ≠ 0 then s.raise pg 17
  else
    let pc := if role = 1 then s.portCauses pg else 0
    let s := s.setReg pg 0x2008 (word pc)
    if pc = 0 then s else (s.orReg pg 0x2000 0x10000#32).raise pg 18

/-! ### FlexE groups and clients (R134-R140) -/

/-- GROUP_CFGg as latched. -/
abbrev State.flexCfg (s : State) (g : Nat) : Word := s.cfg pgFlexe (0x100 + 16 * g)

/-- The eight member numbers of a group, 0xFF for none (R144). -/
def State.flexList (s : State) (g : Nat) : List Nat :=
  (List.range 8).map fun i => fld (s.cfg pgFlexe (0x104 + 16 * g + 4 * (i / 4))) (8 * (i % 4) + 7) (8 * (i % 4))

/-- MEMBER_COUNT of a group. -/
abbrev State.flexCount (s : State) (g : Nat) : Nat := fld (s.flexCfg g) 3 1 + 1

/-- The members a group uses. DESIGN CHOICE, unsafe: 0xFF leaves a place empty, and the members used are the first others of the list, in its order;
numbers listed beyond MEMBER_COUNT are checked like the rest (log entry 129). -/
def State.flexMembers (s : State) (g : Nat) : List Nat := ((s.flexList g).filter (· != 0xFF)).take (s.flexCount g)

/-- Speed of a member port in Gb/s. -/
def State.memberSpeed (s : State) (p : Nat) : Nat := speedOf (s.effCfg (bankPage p) (0x140 + 4 * (p % 8)))

/-- Whether a number names a FlexE member port of a LINE bank (R134, R135, R138). DEDUCED: a port of another speed than the four of R134 is no
member port, cause 1 (log entry 129). -/
def State.flexPhy (s : State) (p : Nat) : Bool :=
  decide (p < 160) && fld (s.effCfg (bankPage p) 0x100) 1 0 == 1
    && [100, 200, 400, 800].contains (s.memberSpeed p) && bit (s.effCfg (bankPage p) (0x140 + 4 * (p % 8))) 8

/-- REJECT_CAUSE of a group, 0 for none (R138). DESIGN CHOICE, unsafe: a port listed twice in one group has cause 3 too (log entry 129). -/
def State.flexCause (s : State) (g : Nat) : Nat :=
  let ms := (s.flexList g).filter (· != 0xFF)
  let others := (List.range 16).filter (fun h => h != g && bit (s.flexCfg h) 0)
  if ms.any (fun p => !s.flexPhy p) then 1
  else if ms.any (fun p => s.memberSpeed p != s.memberSpeed (ms.headD 0) || p / 40 != ms.headD 0 / 40) then 2
  else if ms.any (fun p => decide (2 ≤ (ms.filter (· == p)).length) || others.any (fun h => (s.flexList h).contains p)) then 3
  else if ms.length < s.flexCount g then 4 else 0

/-- Instances of a group (R136). -/
def State.flexInst (s : State) (g : Nat) : Nat := ((s.flexMembers g).map (fun p => s.memberSpeed p / 100)).foldl (· + ·) 0

/-- The place of calendar slot `t` of a group (R136): the index of its member, the instance within that member, the slot of the instance.
Instances are numbered by member index, then ascending within a member. -/
def State.calPlace (s : State) (g t : Nat) : Option (Nat × Nat × Nat) :=
  let ms := s.flexMembers g
  let per := s.memberSpeed (ms.headD 0) / 100
  if t < 20 * s.flexInst g then some (t / 20 / per, t / 20 % per, t % 20) else none

/-- The calendar slots that lie in an instance of a member, in the order of the instance's slots (R136). -/
def State.slotsOf (s : State) (g m i : Nat) : List Nat :=
  (List.range (20 * s.flexInst g)).filter (fun t => match s.calPlace g t with | some (a, b, _) => a == m && b == i | none => false)

/-- GROUP_STATUSg. -/
abbrev State.flexStatus (s : State) (g : Nat) : Word := s.reg pgFlexe (0x2000 + 16 * g)

/-- LINK_UP of a line port. -/
def State.lineUp (s : State) (p : Nat) : Bool := bit (s.reg (bankPage p) 0x2004) (p % 8)

/-- Whether a group carries clients (R138, R139): FLEXE running, enabled, accepted, member banks ENABLED and members LINK_UP,
no deskew failure, no group number mismatch. -/
def State.flexUp (s : State) (g : Nat) : Bool :=
  let st := s.flexStatus g
  decide (2 ≤ s.blk pgFlexe) && bit (s.flexCfg g) 0 && fld st 14 12 == 0 && !bit st 4 && !bit st 6
    && (s.flexMembers g).all (fun p => s.enabled (bankPage p) && s.lineUp p)

/-- Recompute UP of every group, with GROUP_CHANGE where one changes (R138, R139). -/
def State.flexEval (s : State) : State :=
  (List.range 16).foldl (fun s g =>
    let up := s.flexUp g
    if bit (s.flexStatus g) 0 == up then s
    else (s.updReg pgFlexe (0x2000 + 16 * g) (fun w => putBit w 0 up)).raise pgFlexe 16) s

/-- FLEXE that has latched its configuration checks each enabled group (R138). -/
def State.flexEnabling (s : State) : State :=
  (List.range 16).foldl (fun s g =>
    s.updReg pgFlexe (0x2000 + 16 * g) (fun w => setFld w 14 12 (if bit (s.flexCfg g) 0 then s.flexCause g else 0))) s

/-- Calendar entry of slot `t` of calendar `c`, 0 A or 1 B, of a group (R145): the client, none where unused. -/
def State.calEntry (s : State) (g c t : Nat) : Option Nat :=
  let v := fld (s.winA pgFlexe ((g * 2 + c) * 1280 + t)) 7 0
  if v < 80 then some v else none

/-- CLIENT_CFGc as latched. -/
abbrev State.clientCfg (s : State) (c : Nat) : Word := s.cfg pgFlexe (0x300 + 4 * c)

/-- The group of a client (R144). -/
abbrev State.clientGroup (s : State) (c : Nat) : Nat := fld (s.clientCfg c) 4 1

/-- Slots a client holds in the active transmit calendar (R137). -/
def State.clientSlots (s : State) (c : Nat) : Nat :=
  let g := s.clientGroup c
  let cal := if bit (s.flexStatus g) 1 then 1 else 0
  ((List.range (20 * s.flexInst g)).filter (fun t => s.calEntry g cal t == some c)).length

/-- Whether a client is up (R137). -/
def State.clientUp (s : State) (c : Nat) : Bool :=
  bit (s.clientCfg c) 0 && bit (s.flexStatus (s.clientGroup c)) 0 && bit (s.reg pgFlexe (0x1044 + 4 * (c / 32))) (c % 32)
    && decide (1 ≤ s.clientSlots c)

/-! ### Ports in general -/

/-- Whether no port exists under a number (R303). -/
def State.portAbsent (s : State) (p : Nat) : Bool :=
  if p < 160 then !s.portAccepted p || bit (s.portCfg p) 8
  else if p < 240 then !bit (s.clientCfg (p - 160)) 0
  else decide (242 ≤ p)

/-- Whether a port is up (R129, R137, R146, R303). -/
def State.portUp (s : State) (p : Nat) : Bool :=
  if p < 160 then s.lineUp p else if p < 240 then s.clientUp (p - 160)
  else if p = 240 then true else p = 241 && bit (s.reg pgMgmt 0x2000) 0

/-- The page of the block that owns a port's MAC. -/
def portPage (p : Nat) : Nat := if p < 160 then bankPage p else if p < 240 then pgFlexe else if p = 241 then pgMgmt else pgCpctl

/-- Rate of a port in Gb/s, 0 where it has none (R137, R303, R310). -/
def State.portRate (s : State) (p : Nat) : Nat :=
  if s.portAbsent p then 0
  else if p < 160 then speedOf (s.portCfg p)
  else if p < 240 then 5 * s.clientSlots (p - 160)
  else if p = 240 then min 400 (orIfZero (s.cfgFld pgTm 0x104 8 0) 1)
  else if s.cfgFld pgMgmt 0x100 0 0 = 1 then 10 else 25

/-- Whether a port uses FEC (R322): a client that of its members. -/
def State.portFec (s : State) (p : Nat) : Bool :=
  if p < 160 then fld (s.portCfg p) 7 6 != 0
  else if p < 240 then (s.flexMembers (s.clientGroup (p - 160))).any (fun m => fld (s.portCfg m) 7 6 != 0)
  else p == 241 && bit (s.cfg pgMgmt 0x100) 1 && !bit (s.cfg pgMgmt 0x100) 0

/-- MAX_FRAME of a port (R131, R143, R146, R257). -/
def State.maxFrame (s : State) (p : Nat) : Nat :=
  let fix := fun v => if 1518 ≤ v ∧ v ≤ 16000 then v else 16000
  if p < 160 then fix (s.cfgFld (bankPage p) (0x160 + 4 * (p % 8)) 13 0)
  else if p < 240 then fix (s.cfgFld pgFlexe (0x700 + 4 * (p - 160)) 13 0)
  else if p = 241 then 9216 else 16000

/-- PORT_PFC or CLIENT_PFC of a port, 0 for an internal port (R143, R144). -/
def State.pfcCfg (s : State) (p : Nat) : Word :=
  if p < 160 then s.cfg (bankPage p) (0x180 + 4 * (p % 8)) else if p < 240 then s.cfg pgFlexe (0x500 + 4 * (p - 160)) else 0

/-- Whether a port runs PFC (R133). -/
abbrev State.pfcOn (s : State) (p : Nat) : Bool := bit (s.pfcCfg p) 8

/-- Whether class `c` is lossless at a port (R133). -/
def State.lossless (s : State) (p c : Nat) : Bool := s.pfcOn p && decide (c < 8) && bit (s.pfcCfg p) c

/-- The quadrant in which a port is sprayed (R176). -/
def State.portQuad (s : State) (p : Nat) : Nat :=
  if p < 160 then p / 40
  else if p < 240 then (s.flexMembers (s.clientGroup (p - 160))).headD 0 / 40
  else if p = 240 then s.cfgFld pgReorder 0x100 1 0 else s.cfgFld pgReorder 0x100 3 2

/-- The 48-bit address in a HI and LO configuration word of a page. -/
def State.macAt (s : State) (pg off : Nat) : Nat := s.cfgFld pg off 15 0 * 2 ^ 32 + (s.cfg pg (off + 4)).toNat

/-- The port's own MAC address (R133, R137, R212). -/
def State.portMac (s : State) (p : Nat) : BitVec 48 :=
  BitVec.ofNat 48 (if p < 160 then s.macAt (bankPage p) 0x104 + p % 8
    else if p < 240 then s.macAt pgFlexe 0x900 + (p - 160) else s.macAt pgHostif 0x104)

/-- ADMIN_UP of a port (R129, R137, R146). -/
def State.adminUp (s : State) (p : Nat) : Bool :=
  if p < 160 then bit (s.reg (bankPage p) 0x1000) (p % 8)
  else if p < 240 then bit (s.reg pgFlexe (0x1044 + 4 * ((p - 160) / 32))) ((p - 160) % 32)
  else if p = 241 then bit (s.reg pgMgmt 0x1000) 0 else true

/-- Count a MAC event of a port (R131, R132, R143, R144, R146): 0 RX_FCS_ERR, 1 RX_RUNT, 2 RX_OVERSIZE, 3 RX_PAUSE_DISCARD,
4 RX_PFC, 5 TX_PFC, 6 TX_ABORT, 7 TX_DOWN_DROP, where the port has the counter. -/
def State.macCount (s : State) (p i : Nat) : State :=
  if p < 160 then s.incReg (bankPage p) (0x2100 + 0x40 * (p % 8) + 4 * i)
  else if p < 240 then
    (if i ≤ 2 then s.incReg pgFlexe (0x2200 + 16 * (p - 160) + 4 * i)
     else if i = 7 then s.incReg pgFlexe (0x220C + 16 * (p - 160)) else s)
  else if p = 241 ∧ i ≤ 3 then s.incReg pgMgmt (0x200C + 4 * i) else s

/-! ### What a port transmits (R125, R129, R130, R135, R143, R146) -/

/-- What a port's transmitter carries: nothing, idle, remote fault, a PRBS, what its lanes receive, FlexE overhead and clients, frames. -/
inductive PortTx where
  | silent | idle | remoteFault | prbs | far | flexe | frames
  deriving DecidableEq, Repr

/-- Whether a port's block lets its MAC transmit frames: ENABLED or DRAINING (R38, R125). -/
def State.macRuns (s : State) (p : Nat) : Bool := p == 240 || s.working (portPage p)

/-- What link fault signalling makes a port send (R130), else `up` where its link is up and idle where it is not (R129). -/
def faultTx (admin localFault remoteFault linkUp : Bool) (up : PortTx) : PortTx :=
  if !admin then .idle else if localFault then .remoteFault else if remoteFault || !linkUp then .idle else up

/-- What a port transmits now. -/
def State.portTx (s : State) (p : Nat) : PortTx :=
  if p < 160 then
    if !s.portAccepted p || decide (s.blk (bankPage p) < 2) then .silent
    else if s.anyLane p 0x1008 8 then .prbs
    else if s.anyLane p 0x1004 8 then .far
    else
      let w := s.reg (bankPage p) 0x2004
      let inGroup := (List.range 16).any (fun g => decide (2 ≤ s.blk pgFlexe) && bit (s.flexCfg g) 0 && (s.flexMembers g).contains p)
      faultTx (s.adminUp p) (bit w (8 + p % 8)) (bit w (16 + p % 8)) (s.lineUp p)
        (if !s.macRuns p then .idle else if bit (s.portCfg p) 8 then (if inGroup then .flexe else .idle) else .frames)
  else if p < 240 then (if s.portAbsent p then .silent else if s.portUp p && s.macRuns p then .frames else .idle)
  else if p = 240 then .frames
  else if p = 241 then
    if s.blk pgMgmt < 2 then .silent
    else
      let w := s.reg pgMgmt 0x2000
      faultTx (s.adminUp 241) (bit w 1) (bit w 2) (bit w 0) (if s.macRuns 241 then .frames else .idle)
  else .silent

/-- Whether a port's MAC sends frames now (R38, R129, R130): a PRBS or a far loop replaces what it sends, it does not stop it. -/
def State.macSends (s : State) (p : Nat) : Bool :=
  match s.portTx p with
  | .frames => true
  | .prbs | .far => s.adminUp p && s.lineUp p && s.macRuns p && !bit (s.portCfg p) 8
  | _ => false

/-! ### FlexE overhead and calendar switches (R139-R141) -/

/-- The client number that a calendar slot carries (R139): a configured client shows its WIRE_ID, an unused slot the client number 0 of the
implementation agreement (log entry 14). -/
def State.wireClient (s : State) (g c t : Nat) : Nat := match s.calEntry g c t with | some k => fld (s.clientCfg k) 31 16 | none => 0

/-- The slots whose received client differs from the configuration (R139): a configured client shows its WIRE_ID, an unused slot
the client number 0 of the implementation agreement (log entry 14). -/
def State.calDiffs (s : State) (g c : Nat) (rx : List (BitVec 16)) : List Nat :=
  (List.range (20 * s.flexInst g)).filter fun t =>
    (rx.getD t 0).toNat != s.wireClient g c t

/-- Whether received data of a client lies in a differing slot (R139). -/
def State.clientBad (s : State) (c : Nat) : Bool :=
  let g := s.clientGroup c
  let cal := if bit (s.flexStatus g) 2 then 1 else 0
  (List.range (20 * s.flexInst g)).any fun t => s.calEntry g cal t == some c && s.port.calDiff.contains (g * 1280 + t)

/-- The overhead that a member sends on one of its instances (R134, R136, R141): group number, PHY number, the instance's calendars A and B, the
calendar in use, the calendar request and acknowledgement, and the management channels' bytes, all zero. -/
structure FlexeTx where
  number : Nat
  phy : Nat
  calA : List Nat
  calB : List Nat
  inUseB : Bool
  request : Bool
  ack : Bool
  mgmt : List Byte
  deriving DecidableEq, Repr

/-- The overhead that a group sends on instance `i` of member `m`. -/
def State.flexeTx (s : State) (g m i : Nat) : FlexeTx :=
  let cal := fun c => (s.slotsOf g m i).map (s.wireClient g c)
  ⟨fld (s.flexCfg g) 27 8, m + 1, cal 0, cal 1, bit (s.flexStatus g) 1, bit (s.flexStatus g) 3, s.port.calAckSent.contains g,
    List.replicate 32 0⟩

/-- A write of 1 to SWITCH_REQ (R141): ignored while one is pending or while the group is down. -/
def State.calSwitchReq (s : State) (g : Nat) : State :=
  if bit (s.flexStatus g) 3 || !bit (s.flexStatus g) 0 then s
  else { s with port := { s.port with calAcked := s.port.calAcked.filter (· != g) } }.orReg pgFlexe (0x2000 + 16 * g) 8#32

/-- The far end acknowledges a calendar request (R141). -/
def execCalendarSwitchAck (g : Fin 16) (s : State) : Out :=
  if s.stands then .next s else
  if bit (s.flexStatus g.val) 3 then .next { s with port := { s.port with calAcked := Store.addKey g.val s.port.calAcked } }
  else .next s

/-- 100 ms pass without an acknowledgement (R141): the switch is abandoned with SWITCH_FAIL. -/
def execCalendarSwitchTimeout (g : Fin 16) (s : State) : Out :=
  if s.stands then .next s else
  if bit (s.flexStatus g.val) 3 && !s.port.calAcked.contains g.val then
    .next ((s.updReg pgFlexe (0x2000 + 16 * g.val) (fun w => putBit (putBit w 3 false) 9 true)).raise pgFlexe 18)
  else .next s

end Sys2Proof.Machine
end

