-- ==== Sys2Proof/Machine/Gates.lean ====
section
/-! DEFINITION. Time gates (R314-R331): lists, gate states, the guard band, open runs, switch requests. -/
namespace Sys2Proof.Machine

/-- Word `i` of a port's GATES window, counted from 0x8000. -/
abbrev State.gw (s : State) (p i : Nat) : Word := s.winA pgGates (p * 0x2000 + i)

/-- Hold a word of a port's GATES window. -/
abbrev State.setGw (s : State) (p i : Nat) (v : Word) : State := s.setWinA pgGates (p * 0x2000 + i) v

/-- Places of words in the GATES window (R331). -/
abbrev gwCtrl : Nat := 0x1010
abbrev gwStatus : Nat := 0x1011
abbrev gwGuard : Nat := 0x1012
abbrev gwCt : Nat := 0x1013
abbrev gwOversize : Nat := 0x1020
abbrev gwOverrun : Nat := 0x1021
abbrev gwMiss : Nat := 0x1022
abbrev gwCount : Nat := 0x1023
abbrev gwLate : Nat := 0x1024
abbrev gwResyncs : Nat := 0x1025

/-- Count an event of a port's gates. -/
def State.gwInc (s : State) (p i : Nat) : State := s.setGw p i (s.gw p i + 1)

/-- A gate control list (R315): BASE in ns, CYCLE_TIME, the used entries as states and interval. -/
structure GateList where
  base : Nat
  cycle : Nat
  entries : List (Nat × Nat)
  deriving DecidableEq, Repr

/-- LENGTH of a port's list, 0 A or 1 B. -/
abbrev State.gateLen (s : State) (p l : Nat) : Nat := fld (s.gw p (0x1004 + 8 * l)) 10 0

/-- A port's list. -/
def State.gateList (s : State) (p l : Nat) : GateList :=
  let h := 0x1000 + 8 * l
  ⟨(fld (s.gw p h) 15 0 * 2 ^ 32 + (s.gw p (h + 1)).toNat) * 1000000000 + (s.gw p (h + 2)).toNat, (s.gw p (h + 3)).toNat,
    (List.range (min 1024 (s.gateLen p l))).map (fun e => (fld (s.gw p (l * 0x800 + 2 * e)) 7 0, (s.gw p (l * 0x800 + 2 * e + 1)).toNat))⟩

/-- ACTIVE_B of a port, as a list number (R314). -/
abbrev State.gateActive (s : State) (p : Nat) : Nat := fld (s.gw p gwStatus) 0 0

/-- SWITCH_PENDING of a port (R320). -/
abbrev State.gatePending (s : State) (p : Nat) : Bool := bit (s.gw p gwStatus) 1

/-- Whether a port is gated (R314). -/
abbrev State.gated (s : State) (p : Nat) : Bool := s.gateLen p (s.gateActive p) != 0

/-- The segments of a cycle as start, end and states (R316): cut at CYCLE_TIME, the last holding to the cycle's end. -/
def GateList.segs (l : GateList) : List (Nat × Nat × Nat) :=
  let n := l.entries.length
  let f := fun (acc : Nat × Nat × List (Nat × Nat × Nat)) (e : Nat × Nat) =>
    let (i, at_, out) := acc
    let fin := if i + 1 = n then l.cycle else min l.cycle (at_ + e.2)
    (i + 1, fin, if at_ < fin then out ++ [(at_, fin, e.1)] else out)
  (l.entries.foldl f (0, 0, [])).2.2

/-- The offset of a time in ns in its cycle (R316). -/
def GateList.offset (l : GateList) (t : Nat) : Nat := (((t : Int) - l.base) % (l.cycle : Int)).toNat

/-- The gate states at a time in ns (R316). -/
def GateList.statesAt (l : GateList) (t : Nat) : Nat :=
  match l.segs.find? (fun g => decide (l.offset t < g.2.1)) with | some g => g.2.2 | none => 0

/-- How long after a time gate `c`, open then, closes; none if never (R323). -/
def GateList.closesIn (l : GateList) (c t : Nat) : Option Nat :=
  let o := l.offset t
  let later := l.segs.map (fun g => (g.1 + l.cycle, g.2.1 + l.cycle, g.2.2))
  match ((l.segs.dropWhile (fun g => decide (g.2.1 ≤ o))) ++ later).find? (fun g => !g.2.2.testBit c) with
  | some g => some (g.1 - o)
  | none => none

/-- MAXOPEN of gate `c` (R326): the longest open run, taken cyclically. -/
def GateList.maxOpen (l : GateList) (c : Nat) : Nat :=
  if l.segs.all (fun g => g.2.2.testBit c) then 0xFFFFFFFF
  else ((l.segs ++ l.segs).foldl (fun (a : Nat × Nat) g =>
    let run := if g.2.2.testBit c then a.1 + (g.2.1 - g.1) else 0
    (run, max a.2 run)) (0, 0)).2

/-- MAXOPENc of a port for the list that runs (R326, R331). -/
def State.maxOpen (s : State) (p c : Nat) : Nat :=
  if s.gated p then (s.gateList p (s.gateActive p)).maxOpen c else 0xFFFFFFFF

/-- The time base in 2^-64 ns as a frame that starts now crosses a port's egress reference plane (R316): the plane of its egress stamps (R338);
port 240 takes none. -/
def State.planeTb (s : State) (p : Nat) : Nat :=
  if p = 240 then s.time.tb else ((s.time.tb : Int) + ((s.portTime p 2).toInt - (s.portTime p 3).toInt) * 2 ^ 48).toNat

/-- That time in ns. -/
def State.planeNs (s : State) (p : Nat) : Nat := s.planeTb p / 2 ^ 64

/-- That time in ns, rounded up. -/
def State.planeCeil (s : State) (p : Nat) : Nat := (s.planeTb p + 2 ^ 64 - 1) / 2 ^ 64

/-- The gate states in force at a port (R314, R316, R329): closed while GATES is SAFE. -/
def State.gateNow (s : State) (p : Nat) : Nat :=
  if !s.gated p then 0xFF else if s.safe pgGates then 0 else (s.gateList p (s.gateActive p)).statesAt (s.planeNs p)

/-- The time base in ns, rounded up. -/
def State.nowCeil (s : State) : Nat := (s.time.tb + 2 ^ 64 - 1) / 2 ^ 64

/-- CT of the pending or last switch in ns (R320). -/
def State.gateCt (s : State) (p : Nat) : Nat :=
  (fld (s.gw p gwCt) 15 0 * 2 ^ 32 + (s.gw p (gwCt + 1)).toNat) * 1000000000 + (s.gw p (gwCt + 2)).toNat

/-- Division rounded up. -/
def ceilDiv (a b : Nat) : Nat := (a + b - 1) / b

/-- T_tx of a frame of `len` bytes at a port, in ns (R322); without bound at a port without a rate. -/
def State.txTime (s : State) (p len : Nat) : Nat :=
  let r := s.portRate p
  if r = 0 then 0xFFFFFFFF
  else ceilDiv ((len + 20) * 8) r + (if s.portFec p then ceilDiv 5140 r else 0) + 1 + fld (s.gw p gwGuard) 15 0

/-- The close that the pending list gives, counted from `d` before CT (R323). -/
def State.pendClose (s : State) (p c d : Nat) : Option Nat :=
  let l := s.gateList p (1 - s.gateActive p)
  let ct := s.gateCt p
  if l.entries.isEmpty then none
  else if !(l.statesAt ct).testBit c then some d
  else (l.closesIn c ct).map (· + d)

/-- How long from a time on gate `c` of a port stays open, following the active list and, from CT on, a pending one; none if it
never closes (R323). -/
def State.gateClosesIn (s : State) (p c t : Nat) : Option Nat :=
  let act := (s.gateList p (s.gateActive p)).closesIn c t
  if !s.gatePending p then act
  else
    let d := s.gateCt p - t
    match act with
    | some x => if x < d then some x else s.pendClose p c d
    | none => s.pendClose p c d

/-- The guard-band check of a frame of egress class `c` (R323): true is GO. -/
def State.guardGo (s : State) (p c len : Nat) : Bool :=
  !s.gated p || ((s.gateNow p).testBit c &&
    match s.gateClosesIn p c (s.planeNs p) with
    | none => true
    | some d => decide (s.planeCeil p + s.txTime p len ≤ s.planeNs p + d))

/-- Whether a frame of a class that began at a time in ns has run past a close of its gate by now (R317, R325): the gate is closed, or closed on the
way. -/
def State.gateRanPast (s : State) (p c began : Nat) : Bool :=
  s.gated p && (!(s.gateNow p).testBit c ||
    match s.gateClosesIn p c began with
    | some d => decide (began + d < s.planeNs p)
    | none => false)

/-- Whether a frame of a class can never fit its gate at a port (R326). -/
def State.gateTooLong (s : State) (p c len : Nat) : Bool :=
  let pend := s.gateList p (1 - s.gateActive p)
  s.gated p && decide (s.maxOpen p c < s.txTime p len)
    && (!s.gatePending p || (!pend.entries.isEmpty && decide (pend.maxOpen c < s.txTime p len)))

/-- The cause that refuses a switch request, 0 for none (R319). -/
def State.gateCause (s : State) (p l : Nat) : Nat :=
  let g := s.gateList p l
  let n := s.nowCeil + 10000
  if 1024 < s.gateLen p l then 1
  else if s.gateLen p l ≠ 0 ∧ g.cycle < 32 then 2
  else if g.entries.any (fun e => decide (e.2 < 32)) then 3
  else if 1000000000 ≤ (s.gw p (0x1002 + 8 * l)).toNat then 4
  else if g.base < n ∧ bit (s.gw p gwCtrl) 8 ∧ s.gateLen p l ≠ 0 then 5
  else if !s.enabled pgGates then 6 else 0

/-- Hold CT (R320). -/
def State.setCt (s : State) (p ct : Nat) : State :=
  let sec := ct / 1000000000
  ((s.setGw p gwCt (word (sec / 2 ^ 32))).setGw p (gwCt + 1) (word sec)).setGw p (gwCt + 2) (word (ct % 1000000000))

/-- A write of 1 to SWITCH_REQ of a port (R319, R320). -/
def State.gateRequest (s : State) (p : Nat) : State :=
  if s.gatePending p then s
  else
    let l := 1 - s.gateActive p
    let c := s.gateCause p l
    if c ≠ 0 then
      (s.setGw p gwStatus (setFld (s.gw p gwStatus ||| 0x40000#32) 26 24 c)).raise pgGates 17
    else
      let g := s.gateList p l
      let n := s.nowCeil + 10000
      let s := s.setGw p gwStatus (s.gw p gwStatus ||| 2#32)
      if s.gateLen p l = 0 then s.setCt p (max g.base n)
      else if n ≤ g.base then s.setCt p g.base
      else
        let s := s.setCt p (g.base + ceilDiv (n - g.base) g.cycle * g.cycle)
        (s.setGw p gwStatus (s.gw p gwStatus ||| 0x20000#32)).gwInc p gwLate

/-- A write of 1 to SWITCH_CANCEL of a port (R321): SWITCH_CANCELLED where a switch was pending and its time has not come. -/
def State.gateCancel (s : State) (p : Nat) : State :=
  if s.gatePending p && decide (s.planeNs p < s.gateCt p) then s.setGw p gwStatus ((s.gw p gwStatus &&& ~~~2#32) ||| 0x80000#32) else s

/-- Cancel a pending switch without regard to its time (R329). -/
def State.gateDrop (s : State) (p : Nat) : State := s.setGw p gwStatus ((s.gw p gwStatus &&& ~~~2#32) ||| 0x80000#32)

/-- The pending list of a port becomes active (R321). -/
def State.gateApply (s : State) (p : Nat) : State :=
  let w := s.gw p gwStatus
  let s := s.setGw p gwStatus (putBit (w &&& ~~~2#32) 0 (!bit w 0))
  (((s.gwInc p gwCount).incReg pgGates 0x2004).raise pgGates 16)

/-- PORT_STATUS as read (R331): GATED and GATE_NOW, the states in force, beside what it holds. -/
def State.gateStatus (s : State) (p : Nat) : Word :=
  setFld (putBit (s.gw p gwStatus) 2 (s.gated p)) 15 8 (s.gateNow p)

/-- Ports that are gated (GATED_PORTS, R330). -/
def State.gatedPorts (s : State) : List Nat := (List.range 242).filter (fun p => s.gated p)

/-- A step of the time base moves every gated port to the entry of the new time (R317). -/
def State.gatesStepped (s : State) : State := s.gatedPorts.foldl (fun s p => s.gwInc p gwResyncs) s

end Sys2Proof.Machine
end

