-- ==== Sys2Proof/Machine/Parser.lean ====
section
/-! DEFINITION. Parsing (R179-R183): the built-in and user-defined header types, the limits, the Dross conditions, the
classification keys (R184, R185), and rule matching. -/
namespace Sys2Proof.Machine

/-- The byte at position `i` of a frame, 0 beyond it. -/
def byteAt (f : List Byte) (i : Nat) : Nat := (f.getD i 0).toNat

/-- The 16-bit field at position `i`, most significant byte first (R6). -/
def half (f : List Byte) (i : Nat) : Nat := byteAt f i * 256 + byteAt f (i + 1)

/-- `n` bytes from position `i`, with 0 beyond the frame. -/
def bytesAt (f : List Byte) (i n : Nat) : List Byte := (List.range n).map (fun k => f.getD (i + k) 0)

/-- The number in `n` bytes from position `i`. -/
def numAt (f : List Byte) (i n : Nat) : Nat := beNat (bytesAt f i n)

/-- What names the next header: nothing, a header code, an EtherType, a protocol (with whether IPv6 names it) or a UDP
destination port. -/
inductive Nxt where
  | stop | hdr (code : Nat) | ether (v : Nat) | ip (v : Nat) (v6 : Bool) | udp (v : Nat)
  deriving DecidableEq, Repr

/-- Position of the lowest set bit of a mask, 0 for 0. -/
def lowBit (m : Nat) : Nat := ((List.range 16).find? (fun i => m.testBit i)).getD 0

/-- The field of 16 bits at `pos` under `mask`, shifted down to the mask's lowest bit (R182). -/
def maskedField (f : List Byte) (pos mask : Nat) : Nat := (half f pos &&& mask) >>> lowBit mask

/-- A word of `PARSE.UDH_CFGu` (R182, R199): 0 TRIG, 1 LEN, 2 LMASK, 3 NEXT. -/
def State.udh (s : State) (u i : Nat) : Word := s.cfg pgParse (0x200 + 16 * u + 4 * i)

/-- The user type whose TRIGGER and MATCH name a value, if any (R182); the types rejected on ENABLING are left out. -/
def State.udhFind (s : State) (trig v : Nat) : Option Nat :=
  (List.range 16).find? fun u =>
    fld (s.udh u 0) 1 0 == trig && fld (s.udh u 0) 31 16 == v && !(bit (s.reg pgParse 0x2000) u)

/-- The header code that a next value selects (R180, R182): user types take precedence. -/
def State.selectHdr (s : State) (f : List Byte) (pos : Nat) : Nxt → Option Nat
  | .stop => none
  | .hdr c => some c
  | .ether v =>
    match s.udhFind 1 v with
    | some u => some (0x20 + u)
    | none =>
      if v = 0x8100 then some 2 else if v = 0x88A8 then some 3
      else if v = 0x8847 ∨ v = 0x8848 then some 4
      else if v = 0x0800 then some 6 else if v = 0x86DD then some 7
      else if v = 0x88F7 then some 0x0F else if v = 0xAEFE then some 0x10 else none
  | .ip v v6 =>
    match s.udhFind 2 v with
    | some u => some (0x20 + u)
    | none =>
      if v = 4 then some 6 else if v = 41 then some 7 else if v = 17 then some 0x0A else if v = 6 then some 0x0B
      else if v = 47 then some 0x0C
      else if v6 ∧ (v = 0 ∨ v = 44 ∨ v = 60) then some 8
      else if v6 ∧ v = 43 then some (if byteAt f (pos + 2) = 4 then 9 else 8)
      else none
  | .udp v =>
    match s.udhFind 3 v with
    | some u => some (0x20 + u)
    | none =>
      if v = s.cfgFld pgParse 0x104 15 0 then some 0x0D
      else if v = s.cfgFld pgParse 0x104 31 16 then some 0x0E
      else if v = 319 ∨ v = 320 then some 0x0F
      else if v ≠ 0 ∧ v = s.cfgFld pgParse 0x108 15 0 then some 0x10
      else if v = 3784 ∨ v = 4784 then some 0x11 else none

/-- The length of a header of a code at a position; `via44` tells a fragment header (R180, R182). -/
def State.hdrLen (s : State) (f : List Byte) (code pos : Nat) (via44 : Bool) : Nat :=
  if code = 1 then 14
  else if code = 6 then (byteAt f pos % 16) * 4
  else if code = 7 then 40
  else if code = 8 then (if via44 then 8 else (byteAt f (pos + 1) + 1) * 8)
  else if code = 9 then (byteAt f (pos + 1) + 1) * 8
  else if code = 0x0A ∨ code = 0x0D then 8
  else if code = 0x0B then (byteAt f (pos + 12) / 16) * 4
  else if code = 0x0C then (if byteAt f pos ≥ 128 then 8 else 4)
  else if code = 0x0E then 8 + (byteAt f pos % 64) * 4
  else if code = 0x0F then 34
  else if code = 0x11 then 24
  else if code ≥ 0x20 then
    let u := code - 0x20
    let lw := s.udh u 1
    let mask := fld (s.udh u 2) 15 0
    if mask = 0 then fld lw 7 0 else fld lw 7 0 + maskedField f (pos + fld lw 13 8) mask * 2 ^ fld lw 18 16
  else 4

/-- How many bytes of a header must be there to know its length (R180, R182). -/
def State.lenNeeds (s : State) (code : Nat) (via44 : Bool) : Nat :=
  if code = 6 ∨ code = 0x0C ∨ code = 0x0E then 1
  else if code = 8 then (if via44 then 0 else 2)
  else if code = 9 then 2
  else if code = 0x0B then 13
  else if 0x20 ≤ code ∧ fld (s.udh (code - 0x20) 2) 15 0 ≠ 0 then fld (s.udh (code - 0x20) 1) 13 8 + 2
  else 0

/-- The one's complement sum of the 16-bit words of a header, folded. -/
def ipSum (f : List Byte) (pos words : Nat) : Nat :=
  let t := (List.range words).foldl (fun a i => a + half f (pos + 2 * i)) 0
  let t := t % 65536 + t / 65536
  t % 65536 + t / 65536

/-- The Dross reason of a header, 0 for none (R183): `short` and `flen` give the frame length where it is at most 256;
`ipEnd` is where the enclosing IP packet ends, `v6End` where the enclosing IPv6 packet ends. -/
def State.drossOf (s : State) (f : List Byte) (code pos len : Nat) (short : Bool) (flen ipEnd v6End : Nat) : Nat :=
  let srcCheck := bit (s.cfg pgParse 0x100) 3
  if code = 1 then (if srcCheck && byteAt f (pos + 6) % 2 == 1 then 2 else 0)
  else if code = 6 then
    let tot := half f (pos + 2)
    if byteAt f pos / 16 ≠ 4 then 3
    else if byteAt f pos % 16 < 5 ∨ tot < len then 4
    else if bit (s.cfg pgParse 0x100) 2 && ipSum f pos (len / 2) != 0xFFFF then 5
    else if short ∧ pos + tot > flen then 6
    else if srcCheck && (byteAt f (pos + 12) / 16 == 14 || numAt f (pos + 12) 4 == 0xFFFFFFFF) then 7 else 0
  else if code = 7 then
    if byteAt f pos / 16 ≠ 6 then 3
    else if short ∧ pos + 40 + half f (pos + 4) > flen then 6
    else if srcCheck && byteAt f (pos + 8) == 255 then 7 else 0
  else if code = 8 then (if pos + len > v6End then 8 else 0)
  else if code = 9 then
    if pos + len > v6End then 8
    else if byteAt f (pos + 3) > byteAt f (pos + 4) ∨ byteAt f (pos + 1) < 2 * (byteAt f (pos + 4) + 1) then 9 else 0
  else if code = 0x0A then
    (if half f (pos + 4) < 8 ∨ (ipEnd ≠ 0 ∧ pos + half f (pos + 4) > ipEnd) then 0x0A else 0)
  else if code = 0x0B then
    if len < 20 ∨ (ipEnd ≠ 0 ∧ pos + len > ipEnd) then 0x0A
    else
      let fl := byteAt f (pos + 13) % 64
      if fl % 4 = 3 ∨ fl = 0 then 0x0C else 0
  else if code = 0x0C then
    (if byteAt f (pos + 1) % 8 ≠ 0 ∨ byteAt f pos &&& 0x7C ≠ 0 then 0x0B else 0)
  else 0

/-- What follows a header (R180, R182), and whether it sets FRAGMENT. -/
def State.nextOf (s : State) (f : List Byte) (avail : Nat) (h : Hdr) (via44 : Bool) : Nxt × Bool :=
  let p := h.start
  let e := h.start + h.len
  if h.code = 1 then (if half f (p + 12) < 0x600 then .stop else .ether (half f (p + 12)), false)
  else if h.code = 2 ∨ h.code = 3 then (.ether (half f (p + 2)), false)
  else if h.code = 4 then
    if byteAt f (p + 2) % 2 = 0 then (.hdr 4, false)
    else if e ≥ avail then (.stop, false)
    else
      let n := byteAt f e / 16
      (if n = 4 then .hdr 6 else if n = 6 then .hdr 7 else if n = 0 then .hdr 5 else .stop, false)
  else if h.code = 5 then (if bit (s.cfg pgParse 0x100) 0 then .hdr 1 else .stop, false)
  else if h.code = 6 then
    if half f (p + 6) % 0x2000 ≠ 0 then (.stop, true) else (.ip (byteAt f (p + 9)) false, false)
  else if h.code = 7 then (.ip (byteAt f (p + 6)) true, false)
  else if h.code = 8 then
    if via44 ∧ half f (p + 2) / 8 ≠ 0 then (.stop, true) else (.ip (byteAt f p) true, false)
  else if h.code = 9 then (.ip (byteAt f p) true, false)
  else if h.code = 0x0A then (.udp (half f (p + 2)), false)
  else if h.code = 0x0C ∨ h.code = 0x0E then (if half f (p + 2) = 0x6558 then .hdr 1 else .stop, false)
  else if h.code = 0x0D then (.hdr 1, false)
  else if h.code ≥ 0x20 then
    let u := h.code - 0x20
    let nw := s.udh u 3
    let v := maskedField f (p + fld nw 5 0) (fld nw 31 16)
    (if fld nw 9 8 = 1 then .ether v else if fld nw 9 8 = 2 then .ip v false else .stop, false)
  else (.stop, false)

/-- Whether the frame would break a limit of R181 by adding a header of a code that ends at `e`. -/
def depthBroken (hs : List Hdr) (code e : Nat) (short : Bool) : Bool :=
  decide (hs.length ≥ 16) || (code == 4 && decide ((hs.filter (fun h => h.code == 4)).length ≥ 10))
    || ((code == 2 || code == 3) && decide ((hs.filter (fun h => h.code == 2 || h.code == 3)).length ≥ 3))
    || ((code == 8 || code == 9) && decide ((hs.filter (fun h => h.code == 8 || h.code == 9)).length ≥ 4))
    || (!short && decide (e > 256))

/-- Parse from a selector on, with fuel for the 17 headers that R181 can meet. A header whose length is not there to be read, beyond the window or
the end of a short frame, does not end within them. -/
def State.parseFrom (s : State) (f : List Byte) (short : Bool) (flen : Nat) :
    Nat → Nxt → Nat → List Hdr → Nat → Nat → Parsed
  | 0, _, _, hs, _, _ => ⟨hs, false, false, 0⟩
  | n + 1, nx, pos, hs, ipEnd, v6End =>
    match s.selectHdr f pos nx with
    | none => ⟨hs, false, false, 0⟩
    | some code =>
      let via44 := match nx with | .ip v _ => v == 44 | _ => false
      let len := s.hdrLen f code pos via44
      let avail := if short then flen else 256
      let e := if avail < pos + s.lenNeeds code via44 then avail + 1 else pos + len
      if depthBroken hs code e short then ⟨hs, true, false, 0⟩
      else if short ∧ e > flen then ⟨hs, false, false, 1⟩
      else
        let h : Hdr := ⟨code, pos, len⟩
        let d := s.drossOf f code pos len short flen ipEnd v6End
        if d ≠ 0 then ⟨hs ++ [h], false, false, d⟩
        else
          let ipEnd' := if code = 6 then pos + half f (pos + 2)
            else if code = 7 then pos + 40 + half f (pos + 4) else ipEnd
          let v6End' := if code = 7 then ipEnd' else v6End
          let (nx', frag) := s.nextOf f avail h via44
          if frag then ⟨hs ++ [h], false, true, 0⟩
          else s.parseFrom f short flen n nx' (pos + len) (hs ++ [h]) ipEnd' v6End'

/-- Parse a frame from byte 0 (R179): the window is its first 256 bytes; a frame whose end is not known is a long one. -/
def State.parse (s : State) (fr : Frame) : Parsed :=
  s.parseFrom (fr.bytes.take 256) (fr.ended && decide (fr.len ≤ 256)) fr.len 17 (.hdr 1) 0 [] 0 0

/-! ### Classification (R184, R185) -/

/-- The outer tag stack: the run of tags directly after the first header (R185). -/
def outerTags (p : Parsed) : List Hdr := (p.hdrs.drop 1).takeWhile (fun h => h.code == 2 || h.code == 3)

/-- The TCI of a tag of the outer stack, 0 if absent. -/
def tagTci (f : List Byte) (p : Parsed) (i : Nat) : Nat :=
  match (outerTags p)[i]? with | some h => half f h.start | none => 0

/-- The headers from the classification IP header on: outermost, or innermost under INNER_KEY (R185). -/
def State.fromIp (s : State) (p : Parsed) : List Hdr :=
  let isIp := fun (h : Hdr) => h.code == 6 || h.code == 7
  if bit (s.cfg pgParse 0x100) 1 then
    let tail := p.hdrs.reverse.takeWhile (fun h => !isIp h)
    p.hdrs.drop (p.hdrs.length - tail.length - 1) |>.dropWhile (fun h => !isIp h)
  else p.hdrs.dropWhile (fun h => !isIp h)

/-- The L4 header that follows the classification IP header: UDP or TCP, directly or after an IPv6 chain (R185). -/
def l4Of (ip : List Hdr) : Option Hdr :=
  match ip with
  | [] => none
  | h :: t =>
    let rest := if h.code == 7 then t.dropWhile (fun x => x.code == 8 || x.code == 9) else t
    match rest with
    | x :: _ => if x.code == 0x0A || x.code == 0x0B then some x else none
    | [] => none

/-- The protocol of key byte 8 (R185). -/
def keyProto (f : List Byte) (ip : List Hdr) : Nat :=
  match ip with
  | [] => 0
  | h :: t =>
    if h.code = 6 then byteAt f (h.start + 9)
    else
      match (t.takeWhile (fun x => x.code == 8 || x.code == 9)).getLast? with
      | some x => byteAt f x.start
      | none => byteAt f (h.start + 6)

/-- DSCP and ECN of an IP header. -/
def dscpEcn (f : List Byte) (h : Hdr) : Nat :=
  if h.code = 6 then byteAt f (h.start + 1) else (half f h.start / 16) % 256

/-- User byte `i` of the key, from extractor i div 4 (R185). -/
def State.userByte (s : State) (f : List Byte) (p : Parsed) (i : Nat) : Byte :=
  let w := s.cfg pgParse (0x110 + 4 * (i / 4))
  if !(bit w 16) then 0
  else if fld w 7 0 = 0 then f.getD (fld w 15 8 + i % 4) 0
  else match p.hdrs.find? (fun h => h.code == fld w 7 0) with
    | some h => f.getD (h.start + fld w 15 8 + i % 4) 0
    | none => 0

/-- FLAGS of the key (R185). -/
def keyFlags (f : List Byte) (p : Parsed) (ip : List Hdr) : Nat :=
  (if p.depth then 1 else 0) + (if p.dross ≠ 0 then 2 else 0) + (if p.frag then 4 else 0)
    + (if (outerTags p).isEmpty then 0 else 8) + (if p.hdrs.any (fun h => h.code == 4) then 16 else 0)
    + (if p.hdrs.any (fun h => h.code == 0x0C || h.code == 0x0D || h.code == 0x0E) then 32 else 0)
    + (match ip with
       | h :: t => if (h.code == 6 && decide (byteAt f h.start % 16 > 5)) || (h.code == 7 && byteAt f (h.start + 6) == 0
           && (match t with | x :: _ => x.code == 8 | [] => false)) then 64 else 0
       | [] => 0)

/-- The 48-byte key of a layout (R185); `port` is the INGRESS_PORT. -/
def State.keyOf (s : State) (fr : Frame) (port : Nat) (p : Parsed) (layout : Nat) : List Byte :=
  let f := fr.bytes.take 256
  let ip := s.fromIp p
  let tags := outerTags p
  let etype := match tags.getLast? with | some h => half f (h.start + 2) | none => half f 12
  let l4 := l4Of ip
  let n8 := fun v => BitVec.ofNat 8 v
  let common := beBytes 2 port ++ [n8 (keyFlags f p ip), n8 (fr.pass * 16)] ++ beBytes 2 (tagTci f p 0)
    ++ beBytes 2 (if p.hdrs.isEmpty then 0 else etype)
    ++ [n8 (keyProto f ip), n8 (match ip with | h :: _ => dscpEcn f h | [] => 0)]
    ++ (match l4 with | some h => bytesAt f h.start 4 | none => beBytes 4 0)
    ++ [n8 (match l4 with | some h => if h.code = 0x0B then byteAt f (h.start + 13) else 0 | none => 0),
        n8 (match p.hdrs.getLast? with | some h => h.code | none => 0)]
  let labels := p.hdrs.filter (fun h => h.code == 4)
  let label := fun i => match labels[i]? with | some h => bytesAt f h.start 4 | none => beBytes 4 0
  let user := fun n => (List.range n).map (s.userByte f p)
  let addr := fun code off n => match ip with
    | h :: _ => if h.code = code then bytesAt f (h.start + off) n else beBytes n 0
    | [] => beBytes n 0
  let mac := fun off => if p.hdrs.isEmpty then beBytes 6 0 else bytesAt f off 6
  let vni := match p.hdrs.find? (fun h => h.code == 0x0D || h.code == 0x0E) with
    | some h => numAt f (h.start + 4) 3
    | none => 0
  common ++
    (if layout = 0 then mac 0 ++ mac 6 ++ beBytes 2 (tagTci f p 1) ++ label 0 ++ label 1 ++ user 10
     else if layout = 1 then addr 6 12 4 ++ addr 6 16 4 ++ mac 0 ++ label 0 ++ beBytes 4 vni ++ user 10
     else if layout = 2 then addr 7 8 16 ++ addr 7 24 16
     else user 32)

/-- Whether a rule's key and mask match (R185): words 8-19 KEY, 20-31 MASK, over the key of the rule's layout. -/
def ruleMatches (rule : List Word) (keys : Nat → List Byte) (ipCode : Nat) : Bool :=
  let layout := fld (rule.getD 0 0) 28 27
  let k := toWords (keys layout)
  (layout != 1 || ipCode == 6) && (layout != 2 || ipCode == 7)
    && (List.range 12).all (fun i =>
      (k.getD i 0 &&& rule.getD (20 + i) 0) == (rule.getD (8 + i) 0 &&& rule.getD (20 + i) 0))

/-- The VALID rule of a set that matches with the highest PRIORITY, lowest index first (R185); rules are index and words, in
rising index. -/
def bestRule (set : Nat) (rules : List (Nat × List Word)) (keys : Nat → List Byte) (ipCode : Nat) : Option (Nat × List Word) :=
  rules.foldl (fun best r =>
    let w0 := r.2.getD 0 0
    if bit w0 31 && fld w0 30 29 == set && ruleMatches r.2 keys ipCode then
      match best with
      | some b => if (b.2.getD 1 0).toNat < (r.2.getD 1 0).toNat then some r else best
      | none => some r
    else best) none

/-- A PTP event message (R340): its start, or none; the frame must carry PTP over Ethernet or UDP port 319, version 2 and
message type 0 to 3. -/
def ptpEvent (f : List Byte) (p : Parsed) : Option Nat :=
  match p.hdrs.reverse with
  | h :: prev :: _ =>
    if h.code = 0x0F ∧ byteAt f (h.start + 1) % 16 = 2 ∧ byteAt f h.start % 16 ≤ 3
        ∧ (prev.code ≠ 0x0A ∨ half f (prev.start + 2) = 319) then some h.start else none
  | _ => none

end Sys2Proof.Machine
end

