-- ==== Sys2Proof/Machine/Police.lean ====
section
/-! DEFINITION. Token buckets, policers (R305-R309), shapers and rate sets (R300-R302), traffic classes and the mapping of queues
(R290-R293), structural writes of the traffic manager (R289). -/
namespace Sys2Proof.Machine

/-- Units of a byte bucket per byte: 1 kb/s adds one unit per cycle of 0.64 ns. -/
abbrev byteUnit : Nat := 12500000

/-- Units of a frame bucket per token: 1 frame/s adds one unit per cycle. -/
abbrev frameUnit : Nat := 1562500000

/-- A bucket refilled up to a cycle at a rate in units per cycle, capped at `cap` units. -/
def Bucket.fill (b : Bucket) (rate cap cyc : Nat) : Bucket := ⟨min (cap : Int) (b.level + (rate * (cyc - b.cyc) : Nat)), cyc⟩

/-- Whole bytes in a bucket, rounded down. -/
def Bucket.bytes (b : Bucket) : Int := b.level / (byteUnit : Int)

/-! ### Policers -/

/-- Word `w` of policer `i` (R313). -/
abbrev State.polW (s : State) (i w : Nat) : Word := s.winW pgPolice i w

/-- CBS of a policer in units; 0 acts as 1 byte. -/
def State.polCap (s : State) (i w : Nat) : Nat := orIfZero (fld (s.polW i w) 23 0) 1 * byteUnit

/-- Both buckets of a policer refilled to now (R306, R307): not while POLICE is SAFE; COUPLING passes what C cannot hold to E. -/
def State.polBuckets (s : State) (i : Nat) : Bucket × Bucket :=
  let now := s.time.cyc
  let c := Store.get ⟨0, 0⟩ i s.sched.polC
  let e := Store.get ⟨0, 0⟩ i s.sched.polE
  if s.safe pgPolice then (⟨c.level, now⟩, ⟨e.level, now⟩)
  else
    let refill : Int := ((s.polW i 0).toNat * (now - c.cyc) : Nat)
    let above := max 0 (min refill (c.level + refill - s.polCap i 2))
    let c' := c.fill (s.polW i 0).toNat (s.polCap i 2) now
    let e' := e.fill (s.polW i 1).toNat (s.polCap i 3) now
    let w := s.polW i 4
    (c', if bit w 1 && bit w 3 then ⟨min (s.polCap i 3 : Int) (e'.level + above), now⟩ else e')

/-- Hold both buckets of a policer. -/
def State.setPol (s : State) (i : Nat) (b : Bucket × Bucket) : State :=
  { s with sched := { s.sched with polC := Store.insert i b.1 s.sched.polC, polE := Store.insert i b.2 s.sched.polE } }

/-- Bring a policer's buckets up to now, before a write of its rates or bursts (R301, R309). -/
def State.polTouch (s : State) (i : Nat) : State := s.setPol i (s.polBuckets i)

/-- Fill both buckets of a policer (R309). -/
def State.polFill (s : State) (i : Nat) : State :=
  s.setPol i (⟨s.polCap i 2, s.time.cyc⟩, ⟨s.polCap i 3, s.time.cyc⟩)

/-- Bring every policer's buckets up to now: POLICE is about to enter or leave SAFE. -/
def State.polTouchAll (s : State) : State := (s.sched.polC.map Prod.fst).foldl (fun s i => s.polTouch i) s

/-- A write to TOKENS_C or TOKENS_E, capped at the burst (R309); `e` tells the second bucket. -/
def State.polSetTokens (s : State) (i : Nat) (e : Bool) (v : Nat) : State :=
  let (bc, be) := s.polBuckets i
  if e then s.setPol i (bc, ⟨min (v * byteUnit) (s.polCap i 3), s.time.cyc⟩)
  else s.setPol i (⟨min (v * byteUnit) (s.polCap i 2), s.time.cyc⟩, be)

/-- Colours as numbers (R430). -/
abbrev green : Nat := 0
abbrev yellow : Nat := 1
abbrev red : Nat := 2

/-- Meter `len` bytes with an input colour (R306, R307): the result and the state after it. -/
def State.meter (s : State) (i len col : Nat) : Nat × State :=
  let w := s.polW i 4
  let n := (max 1 ((len : Int) + sext 8 (fld w 15 8))) * (byteUnit : Int)
  let (c, e) := s.polBuckets i
  let aware := bit w 2
  let takeC : Bucket := ⟨c.level - n, c.cyc⟩
  let takeE : Bucket := ⟨e.level - n, e.cyc⟩
  let (out, c', e') :=
    if !bit w 1 then
      if aware && col == red then (red, c, e)
      else if e.level < n then (red, c, e)
      else if aware && col == yellow then (yellow, c, takeE)
      else if c.level < n then (yellow, c, takeE)
      else (green, takeC, takeE)
    else
      if col = red then (red, c, e)
      else if (!aware || col == green) && decide (n ≤ c.level) then (green, takeC, e)
      else if n ≤ e.level then (yellow, c, takeE) else (red, c, e)
  (out, (s.setPol i (c', e')).incReg pgPolice 0x2004)

/-- One metering of a frame by a policer (R305, R308): a policer with EN = 0 passes the colour; COUNT_EN counts by colour. -/
def State.policer (s : State) (i len col : Nat) : Nat × State :=
  if !bit (s.polW i 4) 0 then (col, s)
  else
    let (out, s) := s.meter i len col
    (out, if bit (s.polW i 10) 31 then s.count (fld (s.polW i 10) 21 0 + out) 1 len else s)

/-! ### Shapers -/

/-- Word `w` of a traffic manager record: queue q; group 0x100000 + g; port 0x200000 + p (R311, R312). -/
abbrev State.tmW (s : State) (k w : Nat) : Word := s.winW pgTm k w

/-- The record keys of a group and of a port. -/
abbrev tmGroup (g : Nat) : Nat := 0x100000 + g
abbrev tmPort (p : Nat) : Nat := 0x200000 + p

/-- Whether a node's peak is limited (R300). -/
def State.peakLimited (s : State) (k : Nat) : Bool := s.tmW k 3 != 0xFFFFFFFF#32

/-- CIR as it acts: at most a limited PIR (R300). -/
def State.cirOf (s : State) (k : Nat) : Nat :=
  let c := (s.tmW k 2).toNat
  if s.peakLimited k then min c (s.tmW k 3).toNat else c

/-- CBS or PBS of a node in units; 0 acts as 1 byte. -/
def State.burstOf (s : State) (k w : Nat) : Nat := orIfZero (fld (s.tmW k w) 23 0) 1 * byteUnit

/-- Bucket C of a node now; full where nothing is recorded (R300). -/
def State.bucketC (s : State) (k : Nat) : Bucket :=
  (Store.get ⟨s.burstOf k 4, s.time.cyc⟩ k s.sched.tokC).fill (s.cirOf k) (s.burstOf k 4) s.time.cyc

/-- Bucket P of a node now. -/
def State.bucketP (s : State) (k : Nat) : Bucket :=
  (Store.get ⟨s.burstOf k 5, s.time.cyc⟩ k s.sched.tokP).fill (s.tmW k 3).toNat (s.burstOf k 5) s.time.cyc

/-- Hold a node's buckets. -/
def State.setBuckets (s : State) (k : Nat) (c p : Bucket) : State :=
  { s with sched := { s.sched with tokC := Store.insert k c s.sched.tokC, tokP := Store.insert k p s.sched.tokP } }

/-- Bring a node's buckets up to now, before a write of its rates or bursts (R301). -/
def State.tmTouch (s : State) (k : Nat) : State := s.setBuckets k (s.bucketC k) (s.bucketP k)

/-- Fill a node's buckets (R300). -/
def State.tmFill (s : State) (k : Nat) : State :=
  { s with sched := { s.sched with tokC := Store.erase k s.sched.tokC, tokP := Store.erase k s.sched.tokP } }

/-- The phase of a node (R300): 0 COMMITTED, 1 EXCESS, 2 RED. -/
def State.phase (s : State) (k : Nat) : Nat :=
  if s.peakLimited k && decide ((s.bucketP k).level ≤ 0) then 2
  else if s.cirOf k ≠ 0 ∧ 0 < (s.bucketC k).level then 0 else 1

/-- Charge bytes to the buckets in use of a node (R300); a negative number returns them. -/
def State.chargeNode (s : State) (k : Nat) (len : Int) : State :=
  let c := s.bucketC k
  let p := s.bucketP k
  let n := len * (byteUnit : Int)
  s.setBuckets k (if s.cirOf k ≠ 0 then ⟨c.level - n, c.cyc⟩ else c) (if s.peakLimited k then ⟨p.level - n, p.cyc⟩ else p)

/-! ### Rate sets (R302, R309) -/

/-- The units of a page whose word `i` names a pending rate set of `mask`. -/
def State.ratePending (s : State) (pg i : Nat) (mask : Word) : List Nat :=
  (s.win.filter (fun e => e.1 / 64 / 0x1000000 == pg && e.1 % 64 == i && bit e.2 8 && bit mask (fld e.2 4 0))).map
    (fun e => e.1 / 64 % 0x1000000)

/-- A write of RATE_APPLY of the traffic manager (R302): every node pending in a set of the mask takes NEXT_CIR and NEXT_PIR,
keeping its tokens; each set written counts an apply. -/
def State.tmRateApply (s : State) (mask : Word) : State :=
  if mask = 0 then s
  else
    let s := (s.ratePending pgTm 8 mask).foldl (fun s k =>
      let s := s.tmTouch k
      let s := (s.setWin pgTm k 2 (s.tmW k 6)).setWin pgTm k 3 (s.tmW k 7)
      s.updWin pgTm k 8 (· &&& ~~~0x100#32)) s
    (s.addReg pgTm 0x2010 ((List.range 32).filter (fun b => bit mask b)).length).raise pgTm 18

/-- A write of RATE_APPLY of the policers (R309). -/
def State.polRateApply (s : State) (mask : Word) : State :=
  if mask = 0 then s
  else
    let s := (s.ratePending pgPolice 7 mask).foldl (fun s i =>
      let s := s.polTouch i
      let s := (s.setWin pgPolice i 0 (s.polW i 5)).setWin pgPolice i 1 (s.polW i 6)
      s.updWin pgPolice i 7 (· &&& ~~~0x100#32)) s
    (s.addReg pgPolice 0x2008 ((List.range 32).filter (fun b => bit mask b)).length).raise pgPolice 17

/-! ### Traffic class and queue (R290-R293) -/

/-- The PCP a port gives an untagged frame (R175). -/
def State.defaultPcp (s : State) (p : Nat) : Nat :=
  fld (s.cfg pgParse (0x400 + 4 * (p / 8))) (4 * (p % 8) + 2) (4 * (p % 8))

/-- The PCP of a frame's outermost tag, or its port's (R175, R290). -/
def State.framePcp (s : State) (f : List Byte) (p : Nat) : Nat :=
  let t := half f 12
  if t = 0x8100 ∨ t = 0x88A8 then half f 14 / 8192 else s.defaultPcp p

/-- A 3-bit entry of a map word. -/
abbrev map3 (w : Word) (v : Nat) : Nat := fld w (3 * v + 2) (3 * v)

/-- The class that the ingress port's record gives a frame (R290). -/
def State.classOf (s : State) (f : List Byte) (p : Nat) (pr : Parsed) : Nat :=
  let w := s.tmW (tmPort p) 12
  let m := fld w 3 2
  let src := fld w 1 0
  let byPcp := map3 (s.reg pgTm (0x1040 + 4 * m)) (s.framePcp f p)
  if src = 1 then
    match s.fromIp pr with
    | h :: _ =>
      let d := dscpEcn f h / 4
      map3 (s.reg pgTm (0x1080 + 0x20 * m + 4 * (d / 8))) (d % 8)
    | [] => byPcp
  else if src = 2 then
    match pr.hdrs.find? (fun h => h.code == 4) with
    | some h => map3 (s.reg pgTm (0x1050 + 4 * m)) (byteAt f (h.start + 2) / 2 % 8)
    | none => byPcp
  else if src = 3 then fld w 6 4 else byPcp

/-- The queue of a copy at an egress port (R291). -/
def State.queueFor (s : State) (p c vid : Nat) (h : Word) : Nat :=
  let w := s.tmW (tmPort p) 0
  let sets := max (fld (s.tmW (tmPort p) 1) 15 0) 1
  let size := 2 ^ fld w 19 18
  let sel := fld w 21 20
  let k := if sel = 1 then vid % sets else if sel = 2 then h.toNat % sets else 0
  fld w 16 0 + k * size + min (map3 (s.tmW (tmPort p) 11) c) (size - 1)

/-- Whether a queue's mapping at a port holds (R292): VALID, not CLOSING, its group VALID and under the port. -/
def State.mapOk (s : State) (p q : Nat) : Bool :=
  let w := s.tmW q 0
  let g := tmGroup (fld w 13 0)
  !s.portAbsent p && decide (q < 131072) && bit w 31 && !bit (s.tmW q 15) 28 && bit (s.tmW g 0) 31 && fld (s.tmW g 0) 7 0 == p

/-- Count a failed mapping (R292). -/
def State.mapDrop (s : State) : State := (s.incReg pgTm 0x2004).raise pgTm 17

/-- The control queue of a port. -/
abbrev ctlQueue (p : Nat) : Nat := 131072 + p

/-- The egress class of a queue (R293): QTC, or 8 for a control queue. -/
def State.egressClass (s : State) (q : Nat) : Nat := if q < 131072 then fld (s.tmW q 0) 22 20 else 8

/-! ### Structural writes (R289) -/

/-- The copies that a queue holds. -/
abbrev State.queue (s : State) (q : Nat) : List Copy := Store.get [] q s.buf.queues

/-- The queues that hold a frame under a group. -/
def State.busyQueues (s : State) (g : Nat) : List Nat :=
  (s.buf.queues.map Prod.fst).filter (fun q => decide (q < 131072) && fld (s.tmW q 0) 13 0 == g)

/-- Whether a queue or group record holds no frame. -/
def State.nodeEmpty (s : State) (k : Nat) : Bool :=
  if k < 0x100000 then (s.queue k).isEmpty else (s.busyQueues (k - 0x100000)).isEmpty

/-- A write of word 0 of a queue or group record (R289): true where it is refused. -/
def State.tmNodeWrite (s : State) (k : Nat) (v : Word) : Bool × State :=
  let old := s.tmW k 0
  let v := v &&& (if k < 0x100000 then 0x80773FFF#32 else 0x800700FF#32)
  let put := fun (s : State) => s.setWin pgTm k 0 v
  let fill := fun (s : State) => if bit v 31 && !bit old 31 then s.tmFill k else s
  if !bit old 31 && !bit (s.tmW k 15) 28 then (false, fill (put s))
  else if s.nodeEmpty k then (false, fill ((put s).updWin pgTm k 15 (fun w => putBit w 28 false)))
  else if v = old &&& 0x7FFFFFFF#32 then (false, (put s).updWin pgTm k 15 (fun w => putBit w 28 true))
  else if v = old then (false, s)
  else (true, (s.orReg pgTm 0x2000 1#32).raise pgTm 16)

/-- A CLOSING node that is empty stops closing (R289). -/
def State.closeIfEmpty (s : State) (k : Nat) : State :=
  if bit (s.tmW k 15) 28 && s.nodeEmpty k then s.updWin pgTm k 15 (fun w => putBit w 28 false) else s

end Sys2Proof.Machine
end

