-- ==== Sys2Proof/Machine/Egress.lean ====
section
/-! DEFINITION. The bytes of a copy as it leaves: rewrites (R212, R213, R308), ECN (R304), punt and Skim headers (R191, R434,
R435), one-step Sync (R341). All frames are without their FCS. -/
namespace Sys2Proof.Machine

/-- A checksum after one of its 16-bit words changes from `old` to `new`. -/
def csumUpdate (c old new : Nat) : Nat :=
  let t := (65535 - c) + (65535 - old) + new
  let t := t % 65536 + t / 65536
  65535 - (t % 65536 + t / 65536)

/-- Put bytes at a position of a frame; those beyond its end are dropped. -/
def putAt (f : List Byte) (i : Nat) (v : List Byte) : List Byte :=
  if f.length ≤ i then f else (f.take i ++ v ++ f.drop (i + v.length)).take f.length

/-- Change one byte at `i` of an IPv4 header at `pos`, and its checksum. -/
def ipv4Byte (f : List Byte) (pos i : Nat) (v : Byte) : List Byte :=
  let w := i / 2 * 2
  let g := putAt f (pos + i) [v]
  putAt g (pos + 10) (beBytes 2 (csumUpdate (half f (pos + 10)) (half f (pos + w)) (half g (pos + w))))

/-- The sum of a checksum over a header whose checksum field is 0. -/
def ipv4Csum (h : List Byte) : Nat :=
  let t := (List.range (h.length / 2)).foldl (fun a i => a + half h (2 * i)) 0
  let t := t % 65536 + t / 65536
  65535 - (t % 65536 + t / 65536)

/-- The first IP header of a parsed frame. -/
def firstIp (p : Parsed) : Option Hdr := p.hdrs.find? (fun h => h.code == 6 || h.code == 7)

/-- TTL or hop limit of an IP header. -/
def ttlOf (f : List Byte) (h : Hdr) : Nat := byteAt f (h.start + (if h.code = 6 then 8 else 7))

/-- Decrement the TTL or hop limit of an IP header (R212). -/
def decTtl (f : List Byte) (h : Hdr) : List Byte :=
  let v := BitVec.ofNat 8 (ttlOf f h - 1)
  if h.code = 6 then ipv4Byte f h.start 8 v else putAt f (h.start + 7) [v]

/-- The rewrites of R212, R213 and R308 on a frame that a port of address `smac` transmits in class `tc`. -/
def rewriteFrame (f : List Byte) (p : Parsed) (rw : Rewrite) (smac : BitVec 48) (tc : Nat) : List Byte :=
  let f := match rw.decTtl, firstIp p with | true, some h => decTtl f h | _, _ => f
  let tags := outerTags p
  let l2 := 12 + 4 * tags.length
  let tagBytes := bytesAt f 12 (4 * tags.length)
  let pay := f.drop (l2 + 2)
  let labels := ((p.hdrs.drop (1 + tags.length)).takeWhile (fun h => h.code == 4)).length
  let left := labels - rw.pops
  let popped := pay.drop (4 * rw.pops)
  let nib := byteAt popped 0 / 16
  let etype := if rw.pops = 0 ∨ left ≠ 0 then half f l2
    else if nib = 4 then 0x0800 else if nib = 6 then 0x86DD else half f l2
  let ttl := match firstIp p with | some h => ttlOf f h | none => 255
  let (etype, pay) := match rw.push with
    | some l => (0x8847, beBytes 4 (l.toNat * 4096 + tc % 8 * 512 + (if left = 0 then 256 else 0) + ttl) ++ popped)
    | none => (etype, popped)
  let tagBytes := match rw.vid with
    | none => tagBytes
    | some v =>
      if tags.isEmpty then beBytes 2 0x8100 ++ beBytes 2 (tc % 8 * 8192 + v.toNat)
      else putAt tagBytes 2 (beBytes 2 (half tagBytes 2 / 4096 * 4096 + v.toNat))
  let tagBytes := if rw.dei ∧ tagBytes ≠ [] then putAt tagBytes 2 (beBytes 2 (half tagBytes 2 ||| 0x1000)) else tagBytes
  let macs := match rw.dmac with | some d => beBytes 6 d.toNat ++ beBytes 6 smac.toNat | none => f.take 12
  if f.length ≤ l2 + 2 then f else macs ++ tagBytes ++ beBytes 2 etype ++ pay

/-- Bytes that the rewrites add to a frame, which may be negative (R325). -/
def rewriteGrowth (p : Parsed) (rw : Rewrite) : Int :=
  (if rw.push.isSome then 4 else 0) - 4 * rw.pops + (if rw.vid.isSome && (outerTags p).isEmpty then 4 else 0)

/-- The length of a frame estimated before its end, FCS included and rewrites not (R299, R325): from the classification IP header,
else MAX_FRAME of its ingress port. -/
def State.lenEstimate (s : State) (fr : Frame) : Nat :=
  if fr.ended then fr.len + 4
  else
    match s.fromIp (s.parse fr) with
    | h :: _ => h.start + (if h.code = 6 then half fr.bytes (h.start + 2) else 40 + half fr.bytes (h.start + 4)) + 4
    | [] => s.maxFrame fr.port

/-- Seconds and nanoseconds of a stamp in 2^-16 ns, as TOD80 (R191, R332). -/
def tod80 (t : Int) : List Byte :=
  let ns := (t / 65536).toNat
  beBytes 6 (ns / 1000000000) ++ beBytes 4 (ns % 1000000000)

/-- The punt header (R191). -/
def State.puntHeader (s : State) (c : Frame) (reason dross flags rule : Nat) (cut : Bool) : List Byte :=
  [1, BitVec.ofNat 8 reason] ++ beBytes 2 (s.sysPort c.port)
    ++ [BitVec.ofNat 8 dross, BitVec.ofNat 8 (c.pass * 16 + flags + (if cut then 2 else 0))]
    ++ beBytes 2 (c.epoch.getD 0) ++ beBytes 4 rule ++ beBytes 2 (c.len + c.gone + 4) ++ [0, 0] ++ tod80 c.stamp ++ [0, 0]

/-- The management tag of HOSTIF.MGMT_VLAN, where TAGGED = 1 (R72, R191). -/
def State.mgmtTag (s : State) : List Byte :=
  let w := s.cfg pgHostif 0x10C
  if bit w 12 then beBytes 2 0x8100 ++ beBytes 2 (fld w 11 0) else []

/-- Skim's words: bits of word `i` of a session (R439). -/
def skimFld (ws : List Word) (i hi lo : Nat) : Nat := fld (ws.getD i 0) hi lo

/-- The Skim metadata header (R435). -/
def skimMeta (session source seq : Nat) (dropped trunc : Bool) (i : RecInfo) (len : Nat) (port : Nat) (stamp : Int) :
    List Byte :=
  [1, BitVec.ofNat 8 (source * 32 + (if trunc then 16 else 0) + session)] ++ beBytes 2 port ++ beBytes 2 (len + 4)
    ++ [BitVec.ofNat 8 (i.dross * 16 + i.cls), BitVec.ofNat 8 (i.colour + (if dropped then 4 else 0))]
    ++ beBytes 4 seq ++ beBytes 4 ((stamp / 65536).toNat % 1000000000)

/-- A Skim copy as built (R434): truncated, encapsulated; `smac` is the source address for its port. -/
def skimBytes (f : List Byte) (ws : List Word) (session source seq : Nat) (dropped : Bool) (i : RecInfo) (port : Nat) (stamp : Int)
    (smac : BitVec 48) : List Byte :=
  let enc := skimFld ws 0 2 1
  let lim := if skimFld ws 0 3 3 = 1 then max 64 (min 9216 (skimFld ws 1 13 0)) else 16000
  let above := if enc = 0 then 0 else if enc = 1 then 4 else if enc = 2 then 54 else 74
  let n := min lim (16000 - above)
  let g := f.take n
  let md := skimMeta session source seq dropped (decide (n < f.length)) i f.length port stamp
  if enc = 0 then g
  else if enc = 1 then g.take 12 ++ beBytes 2 (skimFld ws 3 15 0) ++ beBytes 2 (skimFld ws 3 31 16) ++ g.drop 12
  else
    let macs := beBytes 6 (skimFld ws 4 15 0 * 2 ^ 32 + (ws.getD 5 0).toNat) ++ beBytes 6 smac.toNat
    let gre := beBytes 2 0 ++ beBytes 2 (skimFld ws 6 31 16)
    let inner := gre ++ md ++ g
    let ttl := BitVec.ofNat 8 (skimFld ws 6 15 8)
    let addr := fun k n => (List.range n).flatMap (fun j => wordBytes (ws.getD (k + j) 0))
    if enc = 2 then
      let h := fun (c : Nat) => [0x45, BitVec.ofNat 8 (skimFld ws 6 7 0)] ++ beBytes 2 (20 + inner.length) ++ beBytes 2 seq
        ++ beBytes 2 0x4000 ++ [ttl, 47] ++ beBytes 2 c ++ addr 7 1 ++ addr 11 1
      macs ++ beBytes 2 0x0800 ++ h (ipv4Csum (h 0)) ++ inner
    else
      macs ++ beBytes 2 0x86DD ++ beBytes 4 (6 * 2 ^ 28 + skimFld ws 6 7 0 * 2 ^ 20) ++ beBytes 2 inner.length
        ++ [47, ttl] ++ addr 7 4 ++ addr 11 4 ++ inner

/-- The source address of a Skim copy for its port (R434). -/
def State.skimMac (s : State) (p : Nat) : BitVec 48 := if p = 240 then 0 else s.portMac p

/-- What the buffer stores for a copy (R254): the frame with what surrounds it, before the rewrites. -/
def State.storedBytes (s : State) (fr : Frame) (w : Wrap) (i : RecInfo) (port : Nat) : List Byte :=
  match w with
  | .bare => fr.bytes
  | .punt false r d f u => s.puntHeader fr r d f u false ++ fr.bytes
  | .punt true r d f u =>
    beBytes 6 (s.macAt pgClassify 0x10C) ++ beBytes 6 (s.macAt pgHostif 0x104) ++ s.mgmtTag ++ beBytes 2 0x88B5 ++ beBytes 2 3
      ++ s.puntHeader fr r d f u (decide (9164 < fr.len)) ++ fr.bytes.take 9164
  | .skim n ws src q dr st => skimBytes fr.bytes ws n src q dr i (if src = 1 then i.egress else i.inPort) st (s.skimMac port)

/-- The bytes a copy carries on transmission from port `p`, before ECN and one-step Sync. -/
def State.sentBytes (s : State) (c : Copy) : List Byte :=
  match c.wrap with
  | .bare => rewriteFrame c.frame.bytes (s.parse c.frame) c.rw (s.portMac c.port) c.cls
  | w => s.storedBytes c.frame w c.info c.port

/-- The length a copy has on the wire, FCS included (R299, R322): estimated before the frame's end. -/
def State.sentLen (s : State) (c : Copy) : Nat :=
  if c.frame.ended then (s.sentBytes c).length + 4
  else ((s.lenEstimate c.frame : Int) + rewriteGrowth (s.parse c.frame) c.rw).toNat

/-- ECN of the outermost parsed IP header, none without one (R304). -/
def ecnOf (f : List Byte) (p : Parsed) : Option Nat := (firstIp p).map (fun h => dscpEcn f h % 4)

/-- Set CE in an IP header (R304). -/
def setCe (f : List Byte) (h : Hdr) : List Byte :=
  if h.code = 6 then ipv4Byte f h.start 1 (f.getD (h.start + 1) 0 ||| 3)
  else putAt f (h.start + 1) [f.getD (h.start + 1) 0 ||| 0x30]

/-- One-step Sync (R341): originTimestamp takes the stamp, its fraction is added to correctionField, and a UDP checksum is updated
except an IPv4 one of 0. `h` is the PTP header's position, `udp` the UDP header with whether IPv4 carries it. -/
def oneStep (f : List Byte) (h : Nat) (udp : Option (Nat × Bool)) (stamp : Nat) : List Byte :=
  let ns := stamp / 65536
  let g := putAt f (h + 34) (beBytes 6 (ns / 1000000000) ++ beBytes 4 (ns % 1000000000))
  let g := putAt g (h + 8) (beBytes 8 ((numAt f (h + 8) 8 + stamp % 65536) % 2 ^ 64))
  match udp with
  | none => g
  | some (u, v4) =>
    if v4 ∧ half f (u + 6) = 0 then g
    else
      let sum := ((List.range 4).map (fun i => h + 8 + 2 * i) ++ (List.range 5).map (fun i => h + 34 + 2 * i)).foldl
        (fun c i => csumUpdate c (half f i) (half g i)) (half f (u + 6))
      putAt g (u + 6) (beBytes 2 (if sum = 0 then 65535 else sum))

end Sys2Proof.Machine
end

