-- ==== Sys2Proof/Machine/Journal.lean ====
section
/-! DEFINITION. The protection journal's records (R402-R405): the active appends a record for every change while a generation runs;
what sends, receives and acknowledges them is in Pair. -/
namespace Sys2Proof.Machine

/-- PROT_STATUS.ROLE: 0 unprotected, 1 ACTIVE, 2 STANDBY (R416). -/
abbrev State.role (s : State) : Nat := s.regFld pgPair 0x2004 1 0

/-- TWICEL_STATUS.STATE: 0 ALONE, 1 FORMING, 2 JOINED, 3 SPLIT, 4 REJOINING, 5 CONFLICT (R416). -/
abbrev State.twicel (s : State) : Nat := s.regFld pgPair 0x2000 2 0

/-- Words 0 and 1 of a record (R404): KIND, ITEMS, CREATED. -/
def State.recHead (s : State) (kind items : Nat) : List Word := [word (kind * 2 ^ 24 + items), word s.nowSub]

/-- Append a record to the journal (R403, R405): the 65,537th unacknowledged record breaks it, and until RESYNC_NEEDED stands in it no
other record follows. -/
def State.journalPut (s : State) (kind items : Nat) (body : List Word) : State :=
  if s.pair.jResync then s
  else if 65536 ≤ s.pair.jSent.length then
    { s with pair := { s.pair with jResync := true, jBroken := true } }.orReg pgPair 0x2004 0x20000#32
  else
    let r := (s.pair.jNext, s.recHead kind items ++ body)
    { s with pair := { s.pair with jSent := s.pair.jSent ++ [r], jNext := s.pair.jNext + 1, jUnsent := s.pair.jUnsent + 1 } }

/-- A change is journalled while the active has a generation running (R403); only its transmission needs PAIR (R38, R399). -/
def State.journal (s : State) (kind items : Nat) (body : List Word) : State :=
  if s.role == 1 && s.pair.jOn then s.journalPut kind items body else s

/-- The four words of a LEARN entry (R158): OP 1 ADD, 2 MOVE, 3 DELETE, 4 AGE; the learn time in ns. -/
def learnWords (op : Nat) (r : LearnReq) (port t : Nat) : List Word :=
  [word (r.mac.toNat / 65536), word (r.mac.toNat % 65536 * 65536 + op * 4096 + r.vid.toNat),
   word (port * 65536 + t / 1000000000 % 65536), word (t % 1000000000)]

end Sys2Proof.Machine
end

