-- ==== Sys2Proof/Machine/Skim.lean ====
section
/-! DEFINITION. Paths to other devices (R364-R368, R396) and Skim (R433-R436): sessions, triggers and the copies they make. -/
namespace Sys2Proof.Machine

/-! ### Paths to other devices -/

/-- The physical ID of a logical destination (R364, R366): the device index in TWICEL, else the alias entry's if VALID. -/
def State.physOf (s : State) (dev : Nat) : Option Nat :=
  if s.topo = 1 then (if dev ≤ 1 then some dev else none)
  else
    let w := s.winA pgVoq dev
    if bit w 31 then some (fld w 11 0) else none

/-- The groups that are a path to a physical destination (R364, R368). -/
def State.routeGroups (s : State) (phys : Nat) : List Nat :=
  (List.range 16).filter fun g => s.groupUp g && decide (2 ≤ s.blk (pgSprue + g)) &&
    (if s.topo = 1 then s.cfgFld (pgSprue + g) 0x100 1 0 == 1
     else s.cfgFld (pgSprue + g) 0x100 1 0 == 0 && bit (s.winA pgVoq (0x400 + phys)) g)

/-- Whether a physical destination is reachable (R368). -/
def State.reachable (s : State) (phys : Nat) : Bool := !(s.routeGroups phys).isEmpty

/-- An alias that is not valid (R366): ALIAS_DROP. -/
def State.aliasDrop (s : State) : State := s.incReg pgVoq 0x2010

/-- The physical ID of another device for a frame resolved to it (R366, R396): none where the pair is split, with SPLIT_DROP, or the
alias is not valid. -/
def State.pathTo (s : State) (dev : Nat) : Option Nat × State :=
  if s.topo = 1 ∧ 3 ≤ s.twicel then (none, s.incReg pgPair 0x2028)
  else match s.physOf dev with
    | none => (none, s.aliasDrop)
    | some ph => (some ph, s)

/-! ### Sessions -/

/-- Word `i` of session `k` (R439). -/
abbrev State.skimW (s : State) (k i : Nat) : Word := s.reg pgSkim (0x1000 + 0x40 * k + 4 * i)

/-- PORT_SRC of a port (R439). -/
abbrev State.skimSrc (s : State) (p : Nat) : Word := s.reg pgSkim (0x1400 + 4 * p)

/-- PROT_STATUS.WINDING_DOWN (R408). -/
abbrev State.winding (s : State) : Bool := bit (s.reg pgPair 0x2004) 2

/-- Whether the data path stands still as on a STANDBY (R401): not while the device winds down (R408), and still until a promoted device
starts to forward (R409). -/
def State.standby (s : State) : Bool := (s.role == 2 && !s.winding) || s.pair.promoting

/-- Whether a session makes copies (R401, R433). -/
def State.skimRuns (s : State) (k : Nat) : Bool := s.enabled pgSkim && bit (s.skimW k 0) 0 && !s.standby

/-- Count a Skim copy refused or not made (R436). -/
def State.skimDrop (s : State) (k : Nat) : State := (s.incReg pgSkim (0x2104 + 8 * k)).raise pgSkim 16

/-- Take a trigger of a session: true where it makes a copy (R433). -/
def State.skimTrigger (s : State) (k : Nat) : Bool × State :=
  if !s.skimRuns k then (false, s)
  else
    let n := Store.get 0 k s.stat.skim + 1
    let fire := decide (fld (s.skimW k 2) 23 0 ≤ n)
    (fire, { s with stat := { s.stat with skim := Store.set 0 k (if fire then 0 else n) s.stat.skim } })

/-- Outer VID of a frame as it stands, 0 if untagged. -/
def outerVid (f : List Byte) : Nat :=
  let t := half f 12
  if t = 0x8100 ∨ t = 0x88A8 then half f 14 % 4096 else 0

/-- The copy of a trigger (R434-R436): numbered, built from the session's words as they stand, and sent to admission; or not
made and counted. `stamp` is the ingress stamp, or the egress stamp for EGRESS. -/
def State.skimMake (s : State) (k source : Nat) (fr : Frame) (h : Word) (dropped : Bool) (i : RecInfo) (stamp : Int) : State :=
  let ws := (List.range 16).map (fun j => s.skimW k j)
  let seq := Store.get 0 k s.stat.skimSeq
  let (dev, p) := s.splitPort (fld (ws.getD 0 0) 31 16)
  let c := fld (ws.getD 0 0) 6 4
  let w : Wrap := .skim k ws source seq dropped stamp
  let put := fun (s : State) (out : OutTo) =>
    let a : Adm := { frame := fr, out := out, tc := c, vid := outerVid (s.storedBytes fr w i p), hash := h, rw := ⟨0, none, none, false, none, false⟩, kind := .mirror, wrap := w, info := i, samples := [], mcast := false }
    { s with buf := { s.buf with waiting := s.buf.waiting ++ [a] }, stat := { s.stat with skimSeq := Store.set 0 k ((seq + 1) % 2 ^ 32) s.stat.skimSeq } }
  if 242 ≤ p then s.skimDrop k
  else if dev = s.ownDev then
    let q := s.queueFor p c (outerVid (s.storedBytes fr w i p)) h
    if !s.portUp p then s.skimDrop k
    else if !s.mapOk p q then s.mapDrop.skimDrop k
    else put s (.port p q)
  else match s.pathTo dev with
    | (none, s) => s.skimDrop k
    | (some ph, s) => put s (.remote dev p ph)

/-- A trigger of a session, and its copy where one is due. -/
def State.skimFire (s : State) (k source : Nat) (fr : Frame) (h : Word) (dropped : Bool) (i : RecInfo) (stamp : Int) : State :=
  let (fire, s) := s.skimTrigger k
  if fire then s.skimMake k source fr h dropped i stamp else s

/-- Sessions that the samples of some counters name (R433). -/
def State.sampleSessions (s : State) (ns : List Nat) : List Nat :=
  ns.filterMap (fun n => let w := s.winW pgPmu n 0; if bit w 16 then some (fld w 15 12) else none)

/-- An event of a frame's copy (R429, R430, R433): records at the event, and SAMPLE copies of the counters with SKIM_EN,
for a copy that Skim did not make itself, one a session: what records then report of it, and the state. -/
def State.pmuCopy (s : State) (e : PmuEvent) (exit : Nat) (i : RecInfo) (fr : Frame) (h : Word) (mirror : Bool) : RecInfo × State :=
  let (ns, s) := s.pmuEvent e
  let s := s.sampleFrame (ns.map (fun n => (n, e.code))) exit i
  if mirror then (i, s)
  else (s.sampleSessions ns).foldl (fun r k =>
    if r.1.sess.contains k then r else ({ r.1 with sess := k :: r.1.sess }, r.2.skimFire k 4 fr h false i fr.stamp)) (i, s)

/-- One source per session, the lowest (R433): sessions and sources in rising session. -/
def mirrorList (l : List (Nat × Nat)) : List (Nat × Nat) :=
  (List.range 16).filterMap fun k =>
    match (l.filter (fun x => x.1 == k)).map Prod.snd with
    | [] => none
    | a :: t => some (k, t.foldl min a)

end Sys2Proof.Machine
end

