-- ==== Sys2Proof/Machine/Tables.lean ====
section
/-! DEFINITION. The table store (R202-R221, R229): carving, versioned contents and their views, the exact-match tables with
their cuckoo placement, window commands and load records, the maintenance arbiter, the ECC scrubber. -/
namespace Sys2Proof.Machine

/-- FIRST and COUNT of a table under the carving in force (R203). -/
def State.range (s : State) (tab : Nat) : Nat × Nat :=
  let pre := s.cfgFld pgTables 0x100 1 0
  let pick := fun (l : List (Nat × Nat)) => l.getD tab (0, 0)
  if pre = 1 then pick [(0, 768), (768, 128), (0, 0), (0, 0), (896, 128), (1024, 128)]
  else if pre = 2 then pick [(960, 64), (704, 256), (0, 320), (320, 384), (1152, 64), (1024, 128)]
  else if tab < 6 then (s.cfgFld pgTables (0x104 + 4 * tab) 10 0, s.cfgFld pgTables (0x104 + 4 * tab) 26 16) else (0, 0)

/-- A hash table as the cuckoo search sees it: bank count, the four seeds. -/
structure EmTab where
  banks : Nat
  seeds : List Word
  deriving DecidableEq, Repr

/-- The exact-match table of a code (R209). -/
def State.em (s : State) (tab : Nat) : EmTab :=
  ⟨(s.range tab).2, (List.range 4).map (fun w => s.cfg pgTables (0x120 + 4 * w))⟩

/-- The first slot index of the bucket of key bytes in way `w` (R209, R211). -/
def EmTab.bucket (t : EmTab) (key : List Byte) (w : Nat) : Nat :=
  let g := t.banks / 4
  let h := (crc32 (wordBytes (t.seeds.getD w 0) ++ key)).toNat
  ((w * g + h % g) * 2048 + h / g % 2048) * 4

/-- The sixteen slots a key may take, outside the stash (R209). -/
def EmTab.slots (t : EmTab) (key : List Byte) : List Nat :=
  if t.banks < 4 then [] else (List.range 4).flatMap (fun w => (List.range 4).map (fun i => t.bucket key w + i))

/-- Where an insert puts its entry: moves of residents to make first, as from and to, and the slot; none is FULL. -/
structure Place where
  moves : List (Nat × Nat)
  at_ : Nat
  deriving DecidableEq, Repr

/-- Pick one of a list's elements, by a choice the spec leaves open. -/
def choose {α : Type} (k : Nat) (l : List α) : Option α := l[Config.pick k l.length % l.length]?

/-- Place a key (R210): a free slot of its buckets; else a chain of one move, then of two, as MAX_KICKS allows; else a free
stash entry. `keyAt` gives the key bytes of the resident of a slot. Longer chains are not searched (log entry 11). -/
def EmTab.place (t : EmTab) (k : Nat) (kicks : Nat) (keyAt : Nat → Option (List Byte)) (key : List Byte) : Option Place :=
  let free := fun l => l.filter (fun i => (keyAt i).isNone)
  let own := t.slots key
  let stash := t.banks * 8192
  let toStash : Unit → Option Place := fun _ =>
    ((List.range 4096).find? (fun i => (keyAt (stash + i)).isNone)).map (fun i => ⟨[], stash + i⟩)
  match choose k (free own) with
  | some i => some ⟨[], i⟩
  | none =>
    let ones := own.flatMap fun i => match keyAt i with
      | some r => (free (t.slots r)).map (fun j => (⟨[(i, j)], i⟩ : Place))
      | none => []
    match choose k ones with
    | some p => some p
    | none =>
      if kicks < 2 then toStash () else
      let twos := own.flatMap fun i => match keyAt i with
        | some r => (t.slots r).flatMap fun j => match keyAt j with
          | some r2 => if i = j then [] else (free (t.slots r2)).map (fun l => (⟨[(j, l), (i, j)], i⟩ : Place))
          | none => []
        | none => []
      match choose k twos with
      | some p => some p
      | none => toStash ()

/-- MAX_KICKS as it acts (R231). -/
def State.maxKicks (s : State) : Nat := min 8 (orIfZero (s.cfgFld pgTables 0x130 3 0) 1)

/-- Move the entry of one slot to another. -/
def moveSlot {α : Type} (m : List (Nat × α)) (mv : Nat × Nat) : List (Nat × α) :=
  match m.find? (fun e => e.1 == mv.1) with
  | some (_, v) => Store.insert mv.2 v (Store.erase mv.1 m)
  | none => m

/-- STASH_HIGH where a stash holds 3,584 entries or more (R231). -/
def State.stashHigh (s : State) (idx banks : Nat) (m : List Nat) : State :=
  if banks * 8192 ≤ idx ∧ 3584 ≤ (m.filter (fun i => decide (banks * 8192 ≤ i))).length then s.raise pgTables 18 else s

/-! ### MAC -/

/-- The key bytes of a MAC entry (R209). -/
def macKey (mac : BitVec 48) (vid : BitVec 12) : List Byte := beBytes 6 mac.toNat ++ beBytes 2 vid.toNat

/-- Whether a lookup of a key reads slot `i` (R202, R209): one of its four buckets or the stash, in a table that is there. -/
def EmTab.reads (t : EmTab) (key : List Byte) (i : Nat) : Bool :=
  t.banks != 0 && (decide (t.banks * 8192 ≤ i) || (t.slots key).contains i)

/-- The MAC entry of a key with its slot index (R209). -/
def State.macFind (s : State) (mac : BitVec 48) (vid : BitVec 12) : Option (Nat × MacEnt) :=
  s.tab.mac.find? (fun e => e.2.mac == mac && e.2.vid == vid && (s.em 0).reads (macKey mac vid) e.1)

/-- Hold the MAC entries. -/
def State.setMac (s : State) (m : List (Nat × MacEnt)) : State := { s with tab := { s.tab with mac := m } }

/-- Insert an absent MAC entry (R210); none where the stash is full or the table absent (R202). A copy of the key that no lookup reads, left where
former hash seeds put it, goes: a key is held at most once (R209). -/
def State.macInsert (s : State) (e : MacEnt) : Option (Nat × State) :=
  let (k, s) := s.fresh
  let t := s.em 0
  let s := s.setMac (s.tab.mac.filter (fun x => !(x.2.mac == e.mac && x.2.vid == e.vid)))
  if t.banks = 0 then none else
  let keyAt := fun i => (s.tab.mac.find? (fun x => x.1 == i)).map (fun x => macKey x.2.mac x.2.vid)
  match t.place k s.maxKicks keyAt (macKey e.mac e.vid) with
  | none => none
  | some p =>
    let m := Store.insert p.at_ e (p.moves.foldl moveSlot s.tab.mac)
    some (p.at_, (s.setMac m).stashHigh p.at_ t.banks (m.map Prod.fst))

/-- Dynamic entries whose DEST is a port of this device, as LEARN's COUNT shows (R226). -/
def State.learnCount (s : State) (p : Nat) : Nat :=
  (s.tab.mac.filter (fun e => !e.2.static && !e.2.isNh && e.2.dest.toNat == s.sysPort p)).length

/-- LIMIT of a port, none where it is the reset value (R226, R232). -/
def State.learnLimit (s : State) (p : Nat) : Option Nat :=
  let l := fld (s.winW pgLearn p 0) 22 0
  if l = 0x7FFFFF then none else some l

/-- Whether a learn or move to a port is refused by its limit (R226). -/
def State.atLimit (s : State) (p : Nat) : Bool :=
  match s.learnLimit p with | some l => s.learnCount p == l | none => false

/-- LIMIT_REACHED where a port's COUNT has come to its LIMIT (R232). -/
def State.limitReached (s : State) (p : Nat) : State := if s.atLimit p then s.raise pgLearn 18 else s

/-- A dynamic entry has come to a port as tables name it (R226, R232). -/
def State.entryCame (s : State) (e : MacEnt) : State :=
  let (dev, p) := s.splitPort e.dest.toNat
  if e.static || e.isNh || dev != s.ownDev then s else s.limitReached p

/-- The current aging tick of 1/16 s, counted from CORE_CLK (R227). -/
def State.tick (s : State) : Nat := s.time.cyc / 97656250

/-- A change of a dynamic entry by the learning engine or the sweep (R394, R403): 1 ADD, 2 MOVE, 4 AGE; sent to a joined partner and
journalled to a standby. The port is a system port. -/
def State.noteLearn (s : State) (op : Nat) (r : LearnReq) : State :=
  let s := if s.twicel = 2 then { s with tab := { s.tab with learnOut := s.tab.learnOut ++ [(op, s.nowNs, r)] } } else s
  s.journal 0x03 1 (learnWords op r r.port s.nowNs)

/-! ### Versioned tables -/

/-- The base contents of a table. -/
def State.baseOf (s : State) (tab : Nat) : List (Nat × List Word) := Store.get [] tab s.tab.base

/-- Hold the base contents of a table. -/
def State.setBase (s : State) (tab : Nat) (m : List (Nat × List Word)) : State :=
  { s with tab := { s.tab with base := Store.set [] tab m s.tab.base } }

/-- The overlay slot of a kind that holds a key (R236). -/
def State.slotOf (s : State) (k : SlotKind) (tab key : Nat) : Option Slot :=
  s.tab.slots.find? (fun x => x.kind == k && x.tab == tab && x.key == key)

/-- The kinds of slot a view searches before the base, in order (R237). -/
def View.kinds : View → List SlotKind
  | .pending => [.pending, .unmerged] | .standing => [.unmerged] | .retiring => [.shadow]

/-- Whether a label in the base lies where a lookup reads it (R209). -/
def State.labelRead (s : State) (key : Nat) : Bool :=
  s.tab.labelAt.any (fun e => e.2 == key && (s.em 1).reads (beBytes 4 key) e.1)

/-- The value of a key that a view has before it reads `base` (R237). -/
def State.verOr (s : State) (v : View) (tab key : Nat) (base : List Word) : List Word :=
  match v.kinds.findSome? (fun k => s.slotOf k tab key) with | some x => x.val | none => base

/-- The value of a key in a view, no words where absent (R234, R237). -/
def State.ver (s : State) (v : View) (tab key : Nat) : List Word :=
  s.verOr v tab key (if tab = 1 ∧ !s.labelRead key then [] else Store.get [] key (s.baseOf tab))

/-- Every present key of a view with its value, in rising key (R211, R237). -/
def State.verAll (s : State) (v : View) (tab : Nat) : List (Nat × List Word) :=
  let ov := s.tab.slots.filter (fun x => x.tab == tab && v.kinds.contains x.kind)
  let keys := (ov.map Slot.key).foldl (fun l k => Store.addKey k l) ((s.baseOf tab).map Prod.fst)
  keys.filterMap (fun k => match s.ver v tab k with | [] => none | w => some (k, w))

/-- Free overlay slots (R236, OVL_FREE). -/
def State.ovlFree (s : State) : Nat := 65536 - s.tab.slots.length

/-- Slots of a kind (OVL_PENDING, OVL_UNMERGED, OVL_SHADOW). -/
def State.ovlCount (s : State) (k : SlotKind) : Nat := (s.tab.slots.filter (fun x => x.kind == k)).length

/-- Whether the versioned tables are unversioned (R250): EPOCH is DISABLED. -/
def State.unversioned (s : State) : Bool := s.blk pgEpoch == 0

/-- Whether the versioned tables take no write (R44, R250): until the merge ends while unversioned, and while EPOCH is ENABLING or DRAINING,
when it takes no new work. -/
def State.verBlocked (s : State) : Bool :=
  match s.blk pgEpoch with
  | 0 => s.ovlCount .unmerged != 0
  | 1 | 3 => true
  | _ => false

/-- Place or remove a label in the base's slots, as its entry comes or goes (R209, R210); a copy that no lookup reads goes as a label comes. -/
def State.labelSlot (s : State) (key : Nat) (present : Bool) : Option State :=
  let held := s.tab.labelAt.find? (fun e => e.2 == key)
  match present, (if present ∧ !s.labelRead key then none else held) with
  | true, some _ => some s
  | false, some (i, _) => some { s with tab := { s.tab with labelAt := Store.erase i s.tab.labelAt } }
  | false, none => some s
  | true, none =>
    let (k, s) := s.fresh
    let t := s.em 1
    let s := { s with tab := { s.tab with labelAt := s.tab.labelAt.filter (fun e => e.2 != key) } }
    let keyAt := fun i => (s.tab.labelAt.find? (fun x => x.1 == i)).map (fun x => beBytes 4 x.2)
    match t.place k s.maxKicks keyAt (beBytes 4 key) with
    | none => none
    | some p =>
      let m := Store.insert p.at_ key (p.moves.foldl moveSlot s.tab.labelAt)
      some ({ s with tab := { s.tab with labelAt := m } }.stashHigh p.at_ t.banks (m.map Prod.fst))

/-- Whether LABEL's banks and stash hold the labels of the pending view together with a new one (R219): those that go make room first. -/
def State.labelFits (s : State) (key : Nat) : Bool :=
  let ov := s.tab.slots.filter (fun x => x.tab == 1 && x.kind != .shadow)
  let l := (ov.filter (fun x => x.val.isEmpty)) ++ ov.filter (fun x => !x.val.isEmpty && !(s.ver .pending 1 x.key).isEmpty)
  let placed := l.foldl (fun (o : Option State) x => o.bind (fun s => s.labelSlot x.key (!x.val.isEmpty))) (some s)
  (placed.bind (fun s => s.labelSlot key true)).isSome

/-- Write a key of the base, no words for absent; none where LABEL has no room. -/
def State.writeBase (s : State) (tab key : Nat) (val : List Word) : Option State :=
  let s' := s.setBase tab (Store.set [] key val (s.baseOf tab))
  if tab = 1 then s'.labelSlot key (!val.isEmpty) else some s'

/-- Write a key of a versioned table (R219, R236, R250): the base while unversioned; else the pending slot of the key, a new one
where none holds it. The result is a window RESULT: 0 OK, 3 FULL, 6 OVERLAY_FULL, 7 NOT_READY. -/
def State.verWrite (s : State) (tab key : Nat) (val : List Word) : Nat × State :=
  if s.verBlocked then (7, s)
  else if s.unversioned then
    match s.writeBase tab key val with | some s' => (0, s') | none => (3, s)
  else if (s.slotOf .pending tab key).isSome then
    let ss := s.tab.slots.map (fun x => if x.kind == .pending && x.tab == tab && x.key == key then { x with val := val } else x)
    (0, { s with tab := { s.tab with slots := ss } })
  else if s.ovlFree = 0 then (6, s)
  else
    let s' := { s with tab := { s.tab with slots := s.tab.slots ++ [⟨.pending, tab, key, val⟩] } }
    (0, if s'.ovlFree < 4096 ∧ 4096 ≤ s.ovlFree then s'.raise pgEpoch 19 else s')

/-- Address bits of an LPM table. -/
def lpmWidth (tab : Nat) : Nat := if tab = 2 then 32 else 128

/-- The key of a prefix: length above address (R211). -/
def lpmKey (tab len addr : Nat) : Nat := len * 2 ^ lpmWidth tab + addr

/-- The longest prefix of a view that contains an address, with its key (R214, R237). -/
def State.lpm (s : State) (v : View) (tab addr : Nat) : Option (Nat × List Word) :=
  let w := lpmWidth tab
  if (s.range tab).2 = 0 then none
  else (List.range (w + 1)).findSome? fun i =>
    let len := w - i
    let key := lpmKey tab len (addr / 2 ^ i * 2 ^ i)
    match s.ver v tab key with | [] => none | d => some (key, d)

/-! ### Window commands and load records (R217-R219) -/

/-- The inputs of a table command. -/
structure TwIn where
  op : Nat
  tab : Nat
  standing : Bool
  index : Nat
  key : List Word
  data : List Word
  deriving DecidableEq, Repr

/-- The outputs of a table command: RESULT, and what it places in the index, key and data words. -/
structure TwOut where
  result : Nat
  index : Option Nat
  key : List Word
  data : List Word
  deriving DecidableEq, Repr

/-- A result without outputs. -/
def twFail (r : Nat) : TwOut := ⟨r, none, [], []⟩

/-- Which operations a table has (R219). -/
def twAllowed (op tab : Nat) : Bool :=
  if tab ≤ 1 then [1, 2, 3, 4, 6].contains op
  else if tab ≤ 3 then [3, 4, 5, 6, 8].contains op
  else if tab ≤ 5 then [3, 6, 7].contains op else false

/-- The 12-bit VID, the address and the DATA words of a MAC command (R218). -/
def twMac (k : List Word) : BitVec 48 × BitVec 12 :=
  (BitVec.ofNat 48 (fld (k.getD 0 0) 15 0 * 2 ^ 32 + (k.getD 1 0).toNat), BitVec.ofNat 12 (fld (k.getD 2 0) 11 0))

/-- The data words of a MAC entry as read (R218). -/
def macData (e : MacEnt) : List Word :=
  [word (0x80000000 + (if e.static then 0x40000000 else 0) + (if e.isNh then 0x100000 else 0) + e.dest.toNat), e.seen]

/-- The key words of a MAC entry (R218). -/
def macKeyWords (e : MacEnt) : List Word :=
  [word (e.mac.toNat / 2 ^ 32), word e.mac.toNat, word e.vid.toNat]

/-- A MAC command (R218, R219). -/
def State.twMacRun (s : State) (i : TwIn) : TwOut × State :=
  let (mac, vid) := twMac i.key
  let d0 := i.data.getD 0 0
  let ent : MacEnt := ⟨mac, vid, bit d0 30, bit d0 20, BitVec.ofNat 20 (fld d0 19 0), word s.tick⟩
  if i.op = 6 then
    if (s.range 0).2 * 8192 + 4096 ≤ i.index then (twFail 4, s)
    else match s.tab.mac.find? (fun e => e.1 == i.index) with
      | some (_, e) => (⟨0, none, macKeyWords e, macData e⟩, s)
      | none => (⟨0, none, [], [0, 0]⟩, s)
  else match s.macFind mac vid with
    | some (ix, e) =>
      if i.op = 1 then (twFail 2, s)
      else if i.op = 2 then (twFail 0, (s.setMac (Store.insert ix ent s.tab.mac)).entryCame ent)
      else if i.op = 3 then
        let s := s.setMac (Store.erase ix s.tab.mac)
        (twFail 0, s)
      else (⟨0, some ix, [], macData e⟩, s)
    | none =>
      if i.op = 1 then
        match s.macInsert ent with
        | some (ix, s) => (⟨0, some ix, [], []⟩, s.entryCame ent)
        | none => (twFail 3, s)
      else (twFail 1, s)

/-- The index FIND, MATCH and INSERT show for a label: its base slot, or a free value where it has none (R211, R217). -/
def State.labelIndex (s : State) (key : Nat) : Nat :=
  match s.tab.labelAt.find? (fun e => e.2 == key) with
  | some (i, _) => i
  | none => (Config.freeIndex s.freeCtr).toNat

/-- A LABEL command (R218, R219, R236, R237). -/
def State.twLabelRun (s : State) (i : TwIn) (v : View) : TwOut × State :=
  let key := (i.key.getD 0 0).toNat
  let val := [word (fld (i.data.getD 0 0) 1 0), word (fld (i.data.getD 1 0) 19 0)]
  let shown := fun (d : List Word) => [word (0x80000000 + (d.getD 0 0).toNat), d.getD 1 0]
  let cap := (s.range 1).2 * 8192 + 4096
  if i.op = 6 then
    if cap ≤ i.index then (twFail 4, s)
    else match s.tab.labelAt.find? (fun e => e.1 == i.index) with
      | some (_, k) => match s.verOr v 1 k (Store.get [] k (s.baseOf 1)) with
        | [] => (⟨0, none, [], [0, 0]⟩, s)
        | d => (⟨0, none, [word k], shown d⟩, s)
      | none => (⟨0, none, [], [0, 0]⟩, s)
  else if i.op = 4 then
    match s.ver v 1 key with
    | [] => (twFail 1, s)
    | d => (⟨0, some (s.labelIndex key), [], shown d⟩, s.fresh.2)
  else
    match s.ver .pending 1 key, i.op with
    | [], 1 =>
      if !s.labelFits key then (twFail 3, s)
      else
        let (r, s) := s.verWrite 1 key val
        if r = 0 then (⟨0, some (s.labelIndex key), [], []⟩, s.fresh.2) else (twFail r, s)
    | [], _ => (twFail 1, s)
    | _, 1 => (twFail 2, s)
    | _, 2 => let (r, s) := s.verWrite 1 key val; (twFail r, s)
    | _, _ => let (r, s) := s.verWrite 1 key []; (twFail r, s)

/-- Rank of a key among a view's prefixes (R211). -/
def State.rank (s : State) (v : View) (tab key : Nat) : Nat := ((s.verAll v tab).filter (fun e => decide (e.1 < key))).length

/-- The key words of a prefix (R218). -/
def lpmKeyWords (tab key : Nat) : List Word :=
  let a := key % 2 ^ lpmWidth tab
  let l := key / 2 ^ lpmWidth tab
  if tab = 2 then [word a, word l] else toWords (beBytes 16 a) ++ [word l]

/-- An LPM command (R214, R218, R219). -/
def State.twLpmRun (s : State) (i : TwIn) (v : View) : TwOut × State :=
  let w := lpmWidth i.tab
  let addr := if i.tab = 2 then (i.key.getD 0 0).toNat
    else (List.range 4).foldl (fun n j => n * 2 ^ 32 + (i.key.getD j 0).toNat) 0
  let len := fld (i.key.getD (w / 32) 0) 7 0
  let key := lpmKey i.tab len addr
  let cap := if i.tab = 2 then (s.range 2).2 / 40 * 524288 else (s.range 3).2 / 48 * 262144
  if i.op = 6 then
    match (s.verAll v i.tab)[i.index]? with
    | none => (twFail 4, s)
    | some (k, d) => (⟨0, none, lpmKeyWords i.tab k, d⟩, s)
  else if i.op = 5 then
    match s.lpm v i.tab addr with
    | none => (twFail 1, s)
    | some (k, d) => (⟨0, some (s.rank v i.tab k), lpmKeyWords i.tab (k / 2 ^ w * 2 ^ w + addr), d⟩, s)
  else if w < len ∨ addr % 2 ^ (w - len) ≠ 0 then (twFail 4, s)
  else if i.op = 4 then
    match s.ver v i.tab key with
    | [] => (twFail 1, s)
    | d => (⟨0, some (s.rank v i.tab key), [], d⟩, s)
  else
    match s.ver .pending i.tab key, i.op with
    | [], 3 => (twFail 1, s)
    | _, 3 => let (r, s) := s.verWrite i.tab key []; (twFail r, s)
    | old, _ =>
      if old.isEmpty ∧ cap ≤ (s.verAll .pending i.tab).length then (twFail 3, s)
      else let (r, s) := s.verWrite i.tab key [word (fld (i.data.getD 0 0) 19 0)]; (twFail r, s)

/-- A RULES or NEXTHOP command (R212, R218, R219). -/
def State.twIndexRun (s : State) (i : TwIn) (v : View) : TwOut × State :=
  let n := if i.tab = 4 then 32 else 4
  let cap := (s.range i.tab).2 * (if i.tab = 4 then 1024 else 8192)
  let words := fun (d : List Word) => (List.range n).map (fun j => d.getD j 0)
  if cap ≤ i.index then (twFail 4, s)
  else if i.op = 6 then (⟨0, none, [], words (s.ver v i.tab i.index)⟩, s)
  else if i.op = 7 then
    let d := words i.data
    let (r, s) := s.verWrite i.tab i.index (if d.all (· == 0) then [] else d)
    (twFail r, s)
  else if !(bit ((s.ver .pending i.tab i.index).getD 0 0) 31) then (twFail 1, s)
  else let (r, s) := s.verWrite i.tab i.index []; (twFail r, s)

/-- Whether a table command writes a versioned table (R219). -/
def verWrites (op tab : Nat) : Bool := tab != 0 && [1, 2, 3, 7, 8].contains op

/-- A table command with the order of results of R219. VIEW selects what reads see, and is ignored while unversioned. -/
def State.twRun (s : State) (i : TwIn) : TwOut × State :=
  let v : View := if i.standing then .standing else .pending
  if !s.working pgTables then (twFail 7, s)
  else if !twAllowed i.op i.tab then (twFail 4, s)
  else if verWrites i.op i.tab && s.verBlocked then (twFail 7, s)
  else if (s.range i.tab).2 = 0 then (twFail 5, s)
  else if i.tab = 0 then s.twMacRun i
  else if i.tab = 1 then s.twLabelRun i v
  else if i.tab ≤ 3 then s.twLpmRun i v
  else s.twIndexRun i v

/-- Word `i` of window TWw. -/
abbrev State.tw (s : State) (w i : Nat) : Word := s.winW pgTables w i

/-- A write of TW_CMD (R217): ignored with CMD_OVERRUN while BUSY; NOT_READY at once unless TABLES is ENABLED (R219); else the command
waits for the maintenance port. -/
def State.twStart (s : State) (a : Agent) (w : Nat) (cmd : Word) : State :=
  if bit (s.tw w 1) 0 then s.updWin pgTables w 1 (· ||| 0x100#32)
  else if !s.enabled pgTables then
    (s.setWin pgTables w 0 (cmd &&& 0x1FF#32)).updWin pgTables w 1 (fun x => setFld x 7 4 7)
  else
    let s := (s.setWin pgTables w 0 (cmd &&& 0x1FF#32)).updWin pgTables w 1 (· ||| 1#32)
    { s with tab := { s.tab with busyWin := s.tab.busyWin ++ [(w, a)] } }

/-- A waiting window command completes: RESULT, BUSY cleared, the index, key and data words it sets. -/
def State.twFinish (s : State) (w : Nat) : State :=
  let cmd := s.tw w 0
  let i : TwIn := ⟨fld cmd 3 0, fld cmd 7 4, bit cmd 8, fld (s.tw w 2) 23 0,
    (List.range 12).map (fun j => s.tw w (16 + j)), (List.range 32).map (fun j => s.tw w (32 + j))⟩
  let (o, s) := s.twRun i
  let s := s.updWin pgTables w 1 (fun x => setFld (x &&& ~~~1#32) 7 4 o.result)
  let s := match o.index with | some ix => s.setWin pgTables w 2 (word ix) | none => s
  let s := (List.range o.key.length).foldl (fun s j => s.setWin pgTables w (16 + j) (o.key.getD j 0)) s
  let s := (List.range o.data.length).foldl (fun s j => s.setWin pgTables w (32 + j) (o.data.getD j 0)) s
  { s with tab := { s.tab with busyWin := s.tab.busyWin.filter (fun e => e.1 != w) } }

/-- Discard the waiting window commands (R205): BUSY 0, RESULT NOT_READY, no effect. -/
def State.twDiscard (s : State) : State :=
  let s' := s.tab.busyWin.foldl (fun s e => s.updWin pgTables e.1 1 (fun x => setFld (x &&& ~~~1#32) 7 4 7)) s
  { s' with tab := { s'.tab with busyWin := [] } }

/-- One load record at the head of a list of words (R221): OP, INDEX, key words, data words. -/
def loadWords (tab : Nat) : Nat × Nat :=
  match tab with | 0 => (3, 2) | 1 => (1, 2) | 2 => (2, 1) | 3 => (5, 1) | 4 => (0, 32) | _ => (0, 4)

/-- Run one load record. -/
def State.loadRecord (s : State) (tab : Nat) (r : List Word) : Nat × State :=
  let (k, d) := loadWords tab
  let (o, s) := s.twRun ⟨fld (r.getD 0 0) 3 0, tab, false, fld (r.getD 1 0) 23 0, (r.drop 2).take k, (r.drop (2 + k)).take d⟩
  (o.result, s)

/-- Remove the MAC entries that a TABLE_FLUSH names (R221): dynamic only, by port, by VID. -/
def State.flushMac (s : State) (flags : Word) (sel : Word) : State :=
  let hit := fun (e : Nat × MacEnt) =>
    !(bit flags 0 && e.2.static) && !(bit flags 1 && (e.2.isNh || e.2.dest.toNat != fld sel 15 0))
      && !(bit flags 2 && e.2.vid.toNat != fld sel 27 16)
  s.setMac (s.tab.mac.filter (fun e => !hit e))

/-! ### The maintenance arbiter (R229, R230) -/

/-- The settings of a requester (R231): BASE_PRIO, HOLD, MAX_HOLD, QUOTA. -/
structure ArbCfg where
  prio : Nat
  hold : Bool
  maxHold : Nat
  quota : Nat
  deriving DecidableEq, Repr

/-- The settings that an arbitration word holds. -/
def arbCfg (w : Word) : ArbCfg := ⟨fld w 3 0, bit w 4, orIfZero (fld w 12 8) 1, fld w 23 16⟩

/-- The winner among candidates: greatest BASE_PRIO + AGE, then greater AGE, then lower index (R229). -/
def arbWinner (cfg : Nat → ArbCfg) (age : Nat → Nat) (c : List Nat) : Option Nat :=
  c.foldl (fun b x => match b with
    | none => some x
    | some y =>
      let ex := (cfg x).prio + age x
      let ey := (cfg y).prio + age y
      if ey < ex ∨ (ey = ex ∧ age y < age x) then some x else some y) none

/-- One round of an arbiter (R229): the winner and the arbiter after it. -/
def Arb.round (a : Arb) (cfg : Nat → ArbCfg) (req : BitVec 8) : Option Nat × Arb :=
  let ask := (List.range 8).filter (fun x => req.getLsbD x)
  let age := fun x => Store.get 0 x a.age
  let fit := ask.filter (fun x => (cfg x).quota == 0 || decide (Store.get 0 x a.wins < (cfg x).quota))
  let c := if fit.isEmpty then ask else fit
  match arbWinner cfg age c with
  | none => (none, { a with age := [] })
  | some w =>
    let age' := ask.foldl (fun m x =>
      if x = w then m else Store.set 0 x (if c.contains x then min (age x + 1) 63 else age x) m) []
    let n := a.rounds + 1
    (some w, { age := age', wins := if n % 256 = 0 then [] else Store.upd 0 w (· + 1) a.wins, rounds := n % 256 })

/-- The settings of a maintenance requester (R231). -/
abbrev State.maintCfg (s : State) (x : Nat) : ArbCfg := arbCfg (s.cfg pgTables (0x180 + 4 * x))

/-- How many transfers a grant gives a requester (R229). -/
def ArbCfg.transfers (c : ArbCfg) : Nat := if c.hold then c.maxHold else 1

/-- The transfers left to the holder of a bank's maintenance port. -/
def State.setGrant (s : State) (bank r n : Nat) : State :=
  { s with tab := { s.tab with grants := if n = 0 then Store.erase bank s.tab.grants else Store.insert bank (r, n) s.tab.grants } }

/-- MAINT_XFER counts a transfer (R425). -/
def State.countXfer (s : State) (bank : Nat) (m : List (Nat × Nat)) : State := s.pmuCount ⟨0x06, none, m, some (1, bank), none⟩

/-- The transfer of a requester that holds a bank's port (R229): for the window commands the waiting command of the lowest window completes; the merge's
are the slots it moves (R238). -/
def State.maintXfer (s : State) (bank r n : Nat) : State :=
  if r = 4 then s.setGrant bank r n
  else if r = 0 then
    match (List.range 4).findSome? (fun i => s.tab.busyWin.find? (fun e => e.1 == i)) with
    | some (i, a) => ((s.countXfer bank [agentMaster a]).twFinish i).setGrant bank r (n - 1)
    | none => s.setGrant bank r 0
  else (s.countXfer bank []).setGrant bank r (n - 1)

/-- An arbitration round of a bank's maintenance port (R229): the round's ages show in MAINT_WAIT_MAX, and the winner has its grant. -/
def State.maintRound (s : State) (bank : Nat) (requests : BitVec 8) : State :=
  let a := Store.get ⟨[], [], 0⟩ bank s.tab.arbs
  let (w, a') := a.round s.maintCfg requests
  let s := { s with tab := { s.tab with arbs := Store.set ⟨[], [], 0⟩ bank a' s.tab.arbs } }
  let s := a'.age.foldl (fun s e => s.maxReg pgTables (0x2040 + 4 * e.1) 6 e.2) s
  match w with | some r => s.maintXfer bank r (s.maintCfg r).transfers | none => s

/-- A maintenance port goes on (R229): a held grant is used by its holder while it requests, else it is released and a round grants a requester. -/
def execMaintArbRound (bank : BitVec 11) (requests : BitVec 8) (s : State) : Out :=
  if s.stands then .next s else
  if !s.working pgTables then .next s
  else match s.tab.grants.find? (fun e => e.1 == bank.toNat) with
  | some (_, r, n) =>
    if requests.getLsbD r && (r != 4 || s.ovlCount .unmerged != 0) then .next (if r = 4 then s else s.maintXfer bank.toNat r n)
    else .next ((s.setGrant bank.toNat r 0).maintRound bank.toNat requests)
  | none => .next (s.maintRound bank.toNat requests)

/-- The scrubber visits a row (R208): a correctable error is rewritten; an uncorrectable row of MAC or LABEL is cleared, and
in another table left to software. `uncorr` is none where the row is good. -/
def execTableEccScrub (bank row : BitVec 11) (uncorr : Option Bool) (s : State) : Out :=
  if s.stands then .next s else
  if !s.working pgTables then .next s
  else match uncorr with
  | none => .next s
  | some false => .next (s.incReg pgTables 0x2020)
  | some true =>
    let s := ((s.incReg pgTables 0x2024).setReg pgTables 0x2028 (word (bank.toNat + row.toNat * 0x10000))).raise pgTables 17
    let inRow := fun tab (i : Nat) =>
      let (f, n) := s.range tab
      decide (f ≤ bank.toNat) && decide (bank.toNat < f + n) && decide (i / 4 = (bank.toNat - f) * 2048 + row.toNat)
    let gone := (s.tab.labelAt.filter (fun e => inRow 1 e.1)).map Prod.snd
    let s := s.setMac (s.tab.mac.filter (fun e => !inRow 0 e.1))
    let s := { s with tab := { s.tab with labelAt := s.tab.labelAt.filter (fun e => !inRow 1 e.1) } }
    .next (s.setBase 1 ((s.baseOf 1).filter (fun e => !gone.contains e.1)))

end Sys2Proof.Machine
end

