-- ==== Sys2Proof/Machine/Buffer.lean ====
section
/-! DEFINITION. The buffer (R254-R281): pools, admission, multicast, spill and pre-fetch, pause thresholds, and the mapping of
VOQs (R365-R370, R381). -/
namespace Sys2Proof.Machine

/-! ### Pools (R256) -/

/-- The place of a pool's use in `used`. -/
def Pool.code (p : Pool) (port : Nat) : Nat :=
  match p with
  | .reserve => 1000 + port | .shared => 1 | .headroom => 2 | .control => 3 | .mirror => 4 | .staging => 5 | .prefetch => 6

/-- PORT_MIN as it acts (R256). -/
def State.portMin (s : State) : Nat := max 63 (s.cfgFld pgLadle 0x114 15 0)

/-- Size of a pool in cells (R256). -/
def State.poolSize (s : State) (p : Pool) : Nat :=
  match p with
  | .reserve => s.portMin
  | .control => s.cfgFld pgLadle 0x118 19 0
  | .mirror => s.cfgFld pgLadle 0x11C 19 0
  | .headroom => s.cfgFld pgLadle 0x120 19 0
  | .prefetch => s.cfgFld pgLadle 0x124 19 0
  | .staging => s.cfgFld pgLadle 0x128 19 0
  | .shared => 786432 - (s.cfgFld pgLadle 0x118 19 0 + s.cfgFld pgLadle 0x11C 19 0 + s.cfgFld pgLadle 0x120 19 0
      + s.cfgFld pgLadle 0x124 19 0 + s.cfgFld pgLadle 0x128 19 0 + s.portMin * 243)

/-- Free cells of a pool; `port` names the reserve. -/
def State.poolFree (s : State) (p : Pool) (port : Nat) : Nat := s.poolSize p - Store.get 0 (p.code port) s.buf.used

/-- F_C (R258). -/
abbrev State.freeCells (s : State) : Nat := s.poolFree .shared 0

/-- Take cells from a pool, with HDRM_LOW where the headroom falls below an eighth (R282). -/
def State.takeCells (s : State) (p : Pool) (port n : Nat) : State :=
  let before := s.poolFree .headroom 0
  let s := { s with buf := { s.buf with used := Store.upd 0 (p.code port) (· + n) s.buf.used } }
  let eighth := s.poolSize .headroom / 8
  if p = .headroom ∧ eighth ≤ before ∧ s.poolFree .headroom 0 < eighth then s.raise pgLadle 18 else s

/-- Return cells to a pool. -/
def State.giveCells (s : State) (p : Pool) (port n : Nat) : State :=
  { s with buf := { s.buf with used := Store.upd 0 (p.code port) (· - n) s.buf.used } }

/-- Whether LADLE's pools leave the shared pool too small (R256): POOL_REJECT. -/
def State.poolsBad (s : State) : Bool := decide (s.poolSize .shared < 65536)

/-! ### Queues and ingots -/

/-- Every queue's copies. -/
def State.allCopies (s : State) : List Copy := s.buf.queues.flatMap (fun e => e.2)

/-- Every copy that holds cells and a descriptor: in a queue, or in an egress FIFO until it has been transmitted (R255, R274). -/
def State.heldCopies (s : State) : List Copy := s.allCopies ++ s.buf.fifo.flatMap (fun e => e.2)

/-- Hold the copies of a queue. -/
def State.setQueue (s : State) (q : Nat) (l : List Copy) : State :=
  { s with buf := { s.buf with queues := Store.set [] q l s.buf.queues } }

/-- Q_C of a queue (R258): its charges in the port reserve and the shared pool. -/
def State.queueCells (s : State) (q : Nat) : Nat :=
  (s.queue q).foldl (fun n c => if c.pool == .reserve || c.pool == .shared then n + c.charge else n) 0

/-- The spilled part of a queue, where it is SPILLED (R262). -/
def State.spillOf (s : State) (q : Nat) : Option SpillQ := (s.buf.spill.find? (fun e => e.1 == q)).map Prod.snd

/-- Hold the spilled part of a queue. -/
def State.setSpill (s : State) (q : Nat) (x : SpillQ) : State := { s with buf := { s.buf with spill := Store.insert q x s.buf.spill } }

/-- G of a queue (R258). -/
def State.queueIngots (s : State) (q : Nat) : Nat := match s.spillOf q with | some x => x.ingots.length | none => 0

/-- Stacks that hold packet ingots under the profile (R266): 4, or 2 under LEAN, none under SWIFT. -/
def State.packetStacks (s : State) : Nat := if s.profile = 1 then 0 else if s.profile = 3 then 2 else 4

/-- Whether a stack's ingots are in service (R258): powered, trained, its page ENABLED. -/
def State.stackServes (s : State) (n : Nat) : Bool :=
  s.enabled (pgStack + n) && s.regFld (pgStack + n) 0x2000 1 0 == 3

/-- Packet ingots of a stack (R266, R267). -/
def stackIngots (n : Nat) : Nat := if n = 0 then 3145728 - 139264 else 3145728

/-- Cells that some runs name (R263). -/
def Ingot.cells (i : Ingot) : Nat := i.runs.foldl (fun n r => n + r.2) 0

/-- Ingots in use by number. -/
def State.usedIngots (s : State) : List Nat := s.buf.spill.flatMap (fun e => e.2.ingots.map Ingot.num)

/-- Stack and stack-local number of an ingot number (R266), as they stand in `retired` and `testing`. -/
def State.ingotPlace (s : State) (n : Nat) : Nat := n % s.packetStacks * 2 ^ 22 + n / s.packetStacks

/-- Ingots in use by place. -/
abbrev State.usedPlaces (s : State) : List Nat := s.usedIngots.map s.ingotPlace

/-- The stacks whose packet ingots are in service (R258). -/
def State.servingStacks (s : State) : List Nat := (List.range s.packetStacks).filter s.stackServes

/-- Ingots in use that lie in a stack in service. -/
def State.usedServing (s : State) : List Nat := s.usedPlaces.filter (fun k => s.servingStacks.contains (k / 2 ^ 22))

/-- Ingots that are out of use in the stacks in service, each once: retired, or free and held by MEM_TEST (R258, R271). -/
def State.ingotsOut (s : State) : Nat :=
  let has := fun (k : Nat) => s.servingStacks.contains (k / 2 ^ 22) && !s.usedPlaces.contains k
  (s.buf.retired.filter has).length + (s.buf.testing.filter (fun k => has k && !s.buf.retired.contains k)).length

/-- Free packet ingots before the BALANCED reserve (R258, R381). -/
def State.freeIngotsRaw (s : State) : Nat :=
  (s.servingStacks.map stackIngots).foldl (· + ·) 0 - s.usedServing.length - s.ingotsOut

/-- Whether MEM_TEST waits for an ingot of its range to become free (R271): up to 10 ms, 15,625,000 cycles. -/
def State.testWaits (s : State) : Bool :=
  s.buf.testing.any (fun k => s.usedPlaces.contains k) && decide (s.time.cyc < s.buf.testSince + 15625000)

/-- Whether an ingot number may be written now: in service, unreserved, free. -/
def State.ingotFree (s : State) (n : Nat) : Bool :=
  let k := s.ingotPlace n
  decide (1 ≤ s.packetStacks) && s.stackServes (k / 2 ^ 22) && !s.pow.dramHold.contains (k / 2 ^ 22) && decide (k % 2 ^ 22 < 3145728)
    && !(k / 2 ^ 22 == 0 && decide (k % 2 ^ 22 < 139264)) && !s.buf.retired.contains k && !s.buf.testing.contains k
    && !s.usedIngots.contains n

/-! ### The BALANCED reserve (R381) -/

/-- The owner of a copy's spilled charge: the egress port of an egress queue, the ingress port of a VOQ. -/
def Copy.owner (c : Copy) : Nat := if c.queue < 1048576 then c.port else c.frame.port

/-- H of a port: the spilled charge it owns, in cells. -/
def State.spilledCells (s : State) (p : Nat) : Nat := s.allCopies.foldl (fun n c => if c.owner = p then n + c.need else n) 0

/-- B of a port in ingots: a line port, or a client that is up. -/
def State.reserveOf (s : State) (p : Nat) : Nat :=
  if s.profile ≠ 4 ∨ 240 ≤ p ∨ (160 ≤ p ∧ !s.portUp p) ∨ s.portAbsent p then 0
  else ceilDiv (s.portRate p * 20000000) 65536

/-- The reserve not used, which F_G leaves out. -/
def State.reserveFree (s : State) : Nat :=
  if s.profile ≠ 4 then 0
  else (List.range 240).foldl (fun n p => n + (s.reserveOf p - ceilDiv (s.spilledCells p) 32)) 0

/-- F_G (R258, R381). -/
def State.freeIngots (s : State) : Nat := s.freeIngotsRaw - s.reserveFree

/-- The sum of every port's reserve (RESERVE_TOTAL). -/
def State.reserveTotal (s : State) : Nat := if s.profile ≠ 4 then 0 else (List.range 240).foldl (fun n p => n + s.reserveOf p) 0

/-- Packet ingots in service. -/
def State.ingotsInService (s : State) : Nat := s.freeIngotsRaw + s.usedServing.length

/-- Recompute RESERVE_SHORT with its event (R382). -/
def State.reserveEval (s : State) : State :=
  let short := s.profile == 4 && decide (s.ingotsInService < s.reserveTotal)
  if bit (s.reg pgVoq 0x2000) 1 == short then s
  else
    let s := s.updReg pgVoq 0x2000 (fun w => putBit w 1 short)
    if short then s.raise pgVoq 18 else s

/-- Take a MEM_TEST's next range out of service, or none (R271, R382); it waits for the range from now. -/
def State.setTesting (s : State) (l : List Nat) : State :=
  { s with buf := { s.buf with testing := l, testSince := s.time.cyc } }.reserveEval

/-! ### VOQs (R364-R370) -/

/-- The VOQ of a key (R369). -/
def State.findVoq (s : State) (dest port cls : Nat) : Option (Nat × Voq) :=
  s.voq.voqs.find? (fun e => e.2.dest == dest && e.2.port == port && e.2.cls == cls)

/-- The lowest VOQ number that is free (R369). -/
def State.freeVoq (s : State) : Option Nat :=
  if 262144 ≤ s.voq.voqs.length then none
  else some (s.voq.voqs.foldl (fun n e => if e.1 = n then n + 1 else n) 0)

/-- The queue key of a VOQ. -/
abbrev voqKey (v : Nat) : Nat := 1048576 + v

/-- Free the VOQs that hold no frame, are RESIDENT and have no credit (R369). -/
def State.freeVoqs (s : State) : State :=
  let keep := s.voq.voqs.filter (fun e => !((s.queue (voqKey e.1)).isEmpty && (s.spillOf (voqKey e.1)).isNone && decide (e.2.credit ≤ 0)))
  { s with voq := { s.voq with voqs := keep } }

/-- Hold a VOQ. -/
def State.setVoq (s : State) (v : Nat) (x : Voq) : State := { s with voq := { s.voq with voqs := Store.insert v x s.voq.voqs } }

/-! ### Admission (R257-R261) -/

/-- The attribute word of a queue: SPILL_EN in bit 0, LAT_BUDGET in [13:4] (R282, R370). -/
def State.attrOf (s : State) (q cls : Nat) : Word :=
  if q < 1048576 then s.winA pgLadle q else s.cfg pgVoq (0x140 + 4 * min cls 7)

/-- The rate in Gb/s that a queue's budget and pre-fetch are measured against (R259, R264, R370). -/
def State.queueRate (s : State) (q port cls : Nat) : Nat :=
  if q < 1048576 then s.portRate port else orIfZero (fld (s.cfg pgVoq (0x140 + 4 * min cls 7)) 24 16) 1

/-- Whether spill is permitted for a queue (R260), new spill being off while INGOT does not run (R38). -/
def State.spillAllowed (s : State) (q cls : Nat) : Bool :=
  s.enabled pgIngot && (s.profile == 2 || (s.profile != 1 && bit (s.attrOf q cls) 0))

/-- A 4-bit exponent of class `c`, from -6 to +4 (R258). -/
def State.alphaExp (s : State) (off c : Nat) : Int := max (-6) (min 4 (sext 4 (s.cfgFld pgLadle off (4 * c + 3) (4 * c))))

/-- Whether `a < 2^k x b`. -/
def ltScaled (a : Int) (k : Int) (b : Int) : Bool := if 0 ≤ k then decide (a < b * 2 ^ k.toNat) else decide (a * 2 ^ (-k).toNat < b)

/-- shared_ok of R259. -/
def State.sharedOk (s : State) (q c n : Nat) : Bool :=
  ltScaled (s.queueCells q) (s.alphaExp 0x100 c) s.freeCells && decide (n ≤ s.freeCells)

/-- spill_ok of R259 and R381. -/
def State.spillOk (s : State) (q c n owner : Nat) : Bool :=
  s.spillAllowed q c &&
    (if s.profile = 4 then
      decide (ceilDiv n 32 ≤ s.freeIngotsRaw) &&
        (decide (s.spilledCells owner + n ≤ 32 * (if owner < 240 then s.reserveOf owner else 0))
          || ltScaled (s.queueIngots q) (s.alphaExp 0x104 c) s.freeIngots)
     else ltScaled (s.queueIngots q) (s.alphaExp 0x104 c) s.freeIngots && decide (ceilDiv n 32 ≤ s.freeIngots))

/-- over_budget of R259: LAT_BUDGET in 10 µs, the rate in Gb/s. -/
def State.overBudget (s : State) (q port c : Nat) : Bool :=
  let lat := fld (s.attrOf q c) 13 4
  lat != 0 && decide (lat * s.queueRate q port c * 10000 < s.queueCells q * 2048)

/-- Why a copy is refused (R255, R259, R368, R369, R38). -/
inductive Refuse where
  | adm | hdrm | ctl | mirror | stage | noDesc | voqFull | unreach
  deriving DecidableEq, Repr

/-- The counter of a refusal in LADLE (R282); one under UNREACH_DROP has none there (R368). -/
def Refuse.off : Refuse → Nat
  | .unreach => 0 | .adm | .voqFull => 0x2010 | .hdrm => 0x2014 | .ctl => 0x2018 | .mirror => 0x201C | .stage => 0x2020 | .noDesc => 0x2024

/-- Where a copy's charge is taken (R259); `staged` tells that it goes to the queue's staging ingot. -/
structure Take where
  pool : Pool
  staged : Bool
  deriving DecidableEq, Repr

/-- The admission rule of R259 for a copy of `n` cells in class `c`, queue `q`, at `port`; `owner` as in R381. -/
def State.admitRule (s : State) (kind : CopyKind) (q port resPort owner c n : Nat) (lossless : Bool) : Take ⊕ Refuse :=
  let stage : Unit → Take ⊕ Refuse := fun _ =>
    if n ≤ s.poolFree .staging 0 then .inl ⟨.staging, true⟩
    else if lossless && decide (n ≤ s.poolFree .headroom 0) then .inl ⟨.headroom, true⟩
    else .inr .stage
  if !s.working pgLadle then .inr .adm
  else if 1572864 ≤ s.heldCopies.length then .inr .noDesc
  else if kind = .mirror then
    (if s.freeCells < s.cfgFld pgSkim 0x100 19 0 ∨ s.poolFree .mirror 0 < n then .inr .mirror else .inl ⟨.mirror, false⟩)
  else if kind = .control then (if n ≤ s.poolFree .control 0 then .inl ⟨.control, false⟩ else .inr .ctl)
  else if (s.spillOf q).isSome then stage ()
  else if n ≤ s.poolFree .reserve resPort then .inl ⟨.reserve, false⟩
  else if s.spillOk q c n owner && (s.overBudget q port c || !s.sharedOk q c n) then stage ()
  else if s.sharedOk q c n then .inl ⟨.shared, false⟩
  else if lossless && decide (n ≤ s.poolFree .headroom 0) then .inl ⟨.headroom, false⟩
  else if lossless then .inr .hdrm else .inr .adm

/-- The stored length of a copy in bytes where its frame has ended, else as MAX_FRAME allows (R257). -/
def State.copyCells (s : State) (a : Adm) (port : Nat) : Nat :=
  if a.frame.ended then max 1 (ceilDiv (s.storedBytes a.frame a.wrap a.info port).length 256)
  else ceilDiv (s.maxFrame a.frame.port) 256

/-- Append a copy's cells to the staging ingots of a queue (R263). -/
def SpillQ.addStage (x : SpillQ) (r : Run) : SpillQ := { x with stage := x.stage ++ [r] }

/-- Staging cells of a queue, or of one of its copies. -/
def SpillQ.stagedBy (x : SpillQ) (sel : Nat → Bool) : Nat := x.stage.foldl (fun n r => if sel r.copy then n + r.cells else n) 0

/-- Cells in staging. -/
abbrev SpillQ.staged (x : SpillQ) : Nat := x.stagedBy (fun _ => true)

/-- Staging cells that a copy has in its queue. -/
def State.stagedOf (s : State) (c : Copy) : Nat :=
  match s.spillOf c.queue with | some x => x.stagedBy (fun i => i == c.id) | none => 0

/-- Cells that a copy's bytes occupy so far (R254). -/
def State.storedCells (s : State) (c : Copy) : Nat := max 1 (ceilDiv (s.storedBytes c.frame c.wrap c.info c.port).length 256)

/-- CELLS_USED (R283), physical cells: the payload that copies share counts once (R255); a copy with cells of its own, as a staged one (R263),
counts those that lie in the Crucible. -/
def State.cellsUsed (s : State) : Nat :=
  (s.heldCopies.foldl (fun (acc : List Nat × Nat) c =>
    if c.own then (acc.1, acc.2 + min (c.charge + c.pre + s.stagedOf c) (s.storedCells c))
    else if acc.1.contains c.frame.id then acc
    else (c.frame.id :: acc.1, acc.2 + max 1 (ceilDiv c.frame.bytes.length 256))) ([], 0)).2

/-- CELLS_HWM follows CELLS_USED (R283). -/
def State.noteCells (s : State) : State := s.maxReg pgCrucible 0x2004 20 s.cellsUsed

/-- Count a refusal (R259, R274, R436): its cause, PORT_DROP, COPY_DROP for a multicast copy, DROPS for a Skim copy. -/
def State.refuse (s : State) (r : Refuse) (port : Nat) (mcast : Bool) (session : Option Nat) : State :=
  let s := (if r = .unreach then s else s.incReg pgLadle r.off).incReg pgLadle (0x2100 + 4 * port)
  let s := if r.off = 0x2010 then s.raise pgLadle 16 else s
  let s := if r = .voqFull then s.incReg pgVoq 0x2014 else if r = .unreach then s.incReg pgVoq 0x2018 else s
  let s := if mcast then s.incReg pgMcast 0x2004 else s
  match session with
  | some k => (s.incReg pgSkim (0x2104 + 8 * k)).raise pgSkim 16
  | none => s

/-- The Skim session of what surrounds a copy. -/
def Wrap.session : Wrap → Option Nat
  | .skim n _ _ _ _ _ => some n
  | _ => none

/-- The PMU event of an admitted or refused copy (R425). -/
def admEvent (code port cls : Nat) (i : RecInfo) : PmuEvent :=
  ⟨code, some (if i.terminating then 4 else 3), [(1, port)], none, some cls⟩

/-- The conditions of cut-through on a copy (R276), before the guard band. -/
def State.cutThroughOk (s : State) (a : Adm) (q port c : Nat) : Bool :=
  let rIn := s.portRate a.frame.port
  (s.profile == 0 || s.profile == 1 || s.profile == 3) && decide (c < 8)
    && fld (s.cfg pgLadle (0x200 + 4 * (port / 4))) (8 * (port % 4) + 7) (8 * (port % 4)) / 2 ^ c % 2 == 1
    && a.kind == .data && decide (q < 131072) && (s.queue q).isEmpty && (s.spillOf q).isNone
    && (Store.get [] port s.buf.fifo).isEmpty && decide (s.portRate port ≤ rIn)
    && !bit (s.reg pgLadle (0x2500 + 4 * port)) (8 + s.egressClass q)

/-- Record what is found of a copy on admission (R425, R430): what later records report of it, and the state. -/
def State.noteAdmit (s : State) (code outcome q port c : Nat) (isVoq : Bool) (i : RecInfo) (fr : Frame) (h : Word) (mirror : Bool) : RecInfo × State :=
  let depth := s.queueCells q + 32 * s.queueIngots q
  let info := { i with outcome := outcome, queue := if isVoq then q - 1048576 else q, isVoq := isVoq, depth := depth, egress := port }
  s.pmuCopy (admEvent code port c i) s.nowSub info fr h mirror

/-- The Ladle decides one copy (R258-R262): charged, placed at the tail of its queue, or refused. -/
def State.admitCopy (s : State) (a : Adm) (dev port q : Nat) (mcast : Bool) : State :=
  let isVoq := decide (1048576 ≤ q)
  let c := if a.kind = .control then 8 else a.tc
  let n := s.copyCells a port
  let loss := a.kind == .data && s.lossless a.frame.port a.tc
  let resPort := if isVoq then a.frame.port else port
  let owner := if isVoq then a.frame.port else port
  match s.admitRule a.kind q port resPort owner c n loss with
  | .inr r => ((s.refuse r port mcast a.wrap.session).noteAdmit 0x08 4 q port c isVoq a.info a.frame a.hash (a.kind == .mirror)).2
  | .inl t =>
    let ct := !t.staged && !isVoq && s.cutThroughOk a q port a.tc && !a.frame.ended
    let (info, s) := s.noteAdmit 0x07 0 q port c isVoq a.info a.frame a.hash (a.kind == .mirror)
    let s := s.takeCells t.pool resPort n
    let k : Copy := { id := s.buf.nextCopy, frame := a.frame, rw := a.rw, wrap := a.wrap, kind := a.kind, dev := dev, port := port, queue := q, cls := a.tc, lossless := loss, mcast := mcast, ct := ct, charge := if t.staged then 0 else n, pool := t.pool, need := if t.staged then n else 0, pre := 0, own := t.staged || a.wrap != .bare, spoilt := false, estimate := s.lenEstimate a.frame, offset := 0, ce := false, cut := false, began := 0, exit := 0, sync := none, info := info }
    let ct := ct && s.guardGo port (s.egressClass q) (s.sentLen k)
    let k := { k with ct := ct }
    let s := { s with buf := { s.buf with nextCopy := s.buf.nextCopy + 1 } }.setQueue q (s.queue q ++ [k])
    let s := if !t.staged then s else
      match s.spillOf q with
      | some x => s.setSpill q (x.addStage ⟨k.id, t.pool, n⟩)
      | none => (s.incReg pgLadle 0x2034).setSpill q ⟨[], [⟨k.id, t.pool, n⟩]⟩
    match a.wrap.session with | some j => s.incReg pgSkim (0x2100 + 8 * j) | none => s

/-- A copy to a port of another device (R366-R370): its VOQ is mapped, or the copy is refused. -/
def State.admitRemote (s : State) (a : Adm) (dev port ph : Nat) (mcast : Bool) : State :=
  if s.voq.unreach.contains ph then s.refuse .unreach port mcast a.wrap.session
  else match s.findVoq dev port a.tc with
  | some (v, _) => s.admitCopy a dev port (voqKey v) mcast
  | none =>
    match (if s.enabled pgVoq then s.freeVoq else none) with
    | none => s.refuse .voqFull port mcast a.wrap.session
    | some v => ((s.setVoq v ⟨dev, port, a.tc, 0, ph, none⟩).admitCopy a dev port (voqKey v) mcast).freeVoqs

/-- The queue that a local copy takes, none where the mapping fails (R291, R292). -/
def State.localQueue (s : State) (a : Adm) (port : Nat) : Option Nat :=
  if a.kind = .control then some (ctlQueue port)
  else
    let q := s.queueFor port a.tc a.vid a.hash
    if s.mapOk port q then some q else none

/-- One member copy of a multicast frame (R273, R274, R292). -/
def State.admitMember (s : State) (a : Adm) (m : Word) : State :=
  let dev := if s.topo = 2 then fld m 27 16 else if s.topo = 1 then fld m 15 0 / 256 else s.ownDev
  let port := if s.topo = 1 then fld m 15 0 % 256 else fld m 15 0
  let local_ := dev == s.ownDev
  let ingress := if local_ then port == a.info.inPort % 256 && a.info.inPort / 256 == (if s.topo = 0 then 0 else s.ownDev)
    else a.info.inPort == dev * 256 + port
  if !bit m 31 || (ingress && !bit m 30) then s
  else if !local_ then
    match s.pathTo dev with
    | (none, s) => s.incReg pgMcast 0x2004
    | (some ph, s) => (s.incReg pgMcast 0x2000).admitRemote a dev port ph true
  else if !s.portAbsent port && !s.portUp port then (s.macCount port 7).incReg pgMcast 0x2004
  else match s.localQueue a port with
    | none => s.mapDrop.incReg pgMcast 0x2004
    | some q => (s.incReg pgMcast 0x2000).admitCopy a dev port q true

/-- The word of a multicast group (R272, R286). -/
def State.mcGroup (s : State) (g : Nat) : Word := if g = 0 then 0 else s.winA pgMcast (0x200000 + g)

/-- A frame resolved to a multicast group (R272, R273): one copy per valid member, in member order. -/
def State.admitGroup (s : State) (a : Adm) (g : Nat) : State :=
  let w := s.mcGroup g
  if !s.working pgMcast then s.incReg pgMcast 0x2004
  else if !bit w 31 then (s.incReg pgMcast 0x2008).raise pgMcast 16
  else
    let first := fld w 19 0
    let n := min 288 (fld w 28 20)
    (List.range n).foldl (fun s i => if first + i < 1048576 then s.admitMember a (s.winA pgMcast (first + i)) else s) s

/-- The physical bank of a cell (R254, R426), which the spec does not tell: free (log entry 2). -/
def State.cellBank (s : State) : Nat × State :=
  if s.pmuRuns then (let (k, s) := s.fresh; ((Config.openWord k).toNat % 96, s)) else (0, s)

/-- What writing a frame's payload into the Crucible shows: CELLS_HWM and CELL_WRITE events, where a copy was admitted (R283, R425);
`t` is the state after the decision. -/
def State.noteWrite (s : State) (a : Adm) (t : State) : State :=
  if t.buf.nextCopy = s.buf.nextCopy then t
  else
    let n := t.copyCells a a.info.egress
    let t := (List.range n).foldl (fun t _ =>
      let (b, t) := t.cellBank
      (t.pmuCopy ⟨0x09, some (if a.info.terminating then 4 else 3), [], some (2, b), some (if a.kind == .control then 8 else a.tc)⟩ t.nowSub a.info
        a.frame 0 (a.kind == .mirror)).2) t
    t.noteCells

/-- The Ladle takes the next copy, in the order in which copies left the reorder stage (R261); a frame whose end proved bad is
not admitted (R257). -/
def execAdmission (s : State) : Out :=
  if s.stands then .next s else
  match s.buf.waiting with
  | [] => .next s
  | a :: rest =>
    let s := { s with buf := { s.buf with waiting := rest } }
    if a.frame.late then .next s
    else match a.out with
    | .port p q => .next (s.noteWrite a (s.admitCopy a s.ownDev p q a.mcast))
    | .group g => .next (s.noteWrite a (s.admitGroup a g))
    | .remote d p ph => .next (s.noteWrite a (s.admitRemote a d p ph false))

/-! ### Retiring ingots (R269) -/

/-- Retire an ingot that is free (R269): RETIRED of its stack, INGOTS_RETIRED and the events. -/
def State.retireNow (s : State) (place : Nat) : State :=
  if s.buf.retired.contains place then s
  else
    let pg := pgStack + place / 2 ^ 22
    let s := { s with buf := { s.buf with retired := Store.addKey place s.buf.retired } }
    ((((s.incReg pg 0x2010).raise pg 18).incReg pgIngot 0x2004).raise pgIngot 16).reserveEval

/-- Retire an ingot (R269): at once if it is free, once its data has been freed if it holds data. -/
def State.retireIngot (s : State) (place : Nat) : State :=
  if s.usedPlaces.contains place then { s with buf := { s.buf with retireDue := Store.addKey place s.buf.retireDue } } else s.retireNow place

/-- Ingots that were to be retired and whose data has been freed are retired (R269). -/
def State.retireFreed (s : State) : State :=
  (s.buf.retireDue.filter (fun k => !s.usedPlaces.contains k)).foldl (fun s k =>
    { s with buf := { s.buf with retireDue := s.buf.retireDue.filter (· != k) } }.retireNow k) s

/-- An uncorrectable error in a stack (R269, R285). -/
def State.stackUncorr (s : State) (place offset : Nat) : State :=
  let pg := pgStack + place / 2 ^ 22
  let j := place % 2 ^ 22
  ((s.incReg pg 0x2008).setReg pg 0x200C (word (j % 32 + j / 32 % 131072 * 32 + offset * 2 ^ 22))).raise pg 16

/-! ### Pre-fetch requests (R264) -/

/-- D of a queue in bytes (R264). -/
def State.prefetchBytes (s : State) (q port c : Nat) : Nat := s.cfgFld pgLadle 0x12C 15 0 * s.queueRate q port c / 8

/-- Bytes of a queue that are resident, pre-fetched or on their way (R264). -/
def State.headBytes (s : State) (q : Nat) : Nat :=
  let asked := match s.spillOf q with | some x => (x.ingots.filter (·.asked)).foldl (fun n i => n + i.cells) 0 | none => 0
  (s.queue q).foldl (fun n c => n + 256 * (c.charge + c.pre)) 0 + 256 * asked

/-- Whether a queue's head lies below D (R264). -/
def State.headShort (s : State) (q : Nat) : Bool :=
  match s.queue q with
  | h :: _ => decide (s.headBytes q < s.prefetchBytes q h.port h.cls)
  | [] => false

/-- Whether a queue's request waits for the pre-fetch pool (R264). -/
def State.setPfWait (s : State) (q : Nat) (on : Bool) : State :=
  { s with buf := { s.buf with pfWait := if on then Store.addKey q s.buf.pfWait else s.buf.pfWait.filter (· != q) } }

/-- Request the next ingot of a queue in queue order (R264): its cells are taken from the pre-fetch pool, or the request waits for it. -/
def State.askIngot (s : State) (q : Nat) : State :=
  match s.spillOf q with
  | none => s.setPfWait q false
  | some x => match x.ingots.find? (fun i => !i.asked) with
    | none => s.setPfWait q false
    | some i =>
      if !s.headShort q then s.setPfWait q false
      else if s.poolFree .prefetch 0 < i.cells then s.setPfWait q true
      else
        let s := (s.setPfWait q false).takeCells .prefetch 0 i.cells
        s.setSpill q { x with ingots := x.ingots.map (fun j => if j.num == i.num then { j with asked := true } else j) }

/-- Return pre-fetch cells; the requests that wait for them are made (R264). -/
def State.givePre (s : State) (n : Nat) : State :=
  if n = 0 then s else s.buf.pfWait.foldl (fun s q => s.askIngot q) (s.giveCells .prefetch 0 n)

/-! ### Releasing copies -/

/-- The port whose reserve a copy's charge may lie in. -/
def Copy.resPort (c : Copy) : Nat := if c.queue < 1048576 then c.port else c.frame.port

/-- Return the cells that a copy holds: its charge to its pool, its pre-fetched cells (R264, R274). -/
def State.releaseCopy (s : State) (c : Copy) : State :=
  (if c.charge = 0 then s else s.giveCells c.pool c.resPort c.charge).givePre c.pre

/-- Take `n` cells from the front of staging runs: what is left, and the runs taken. -/
def takeRuns : Nat → List Run → List Run × List Run
  | _, [] => ([], [])
  | n, r :: t =>
    if n = 0 then (r :: t, [])
    else if r.cells ≤ n then let (l, u) := takeRuns (n - r.cells) t; (l, r :: u)
    else ({ r with cells := r.cells - n } :: t, [{ r with cells := n }])

/-- Return runs of staging cells to their pools. -/
def State.giveRuns (s : State) (l : List Run) : State := l.foldl (fun s r => s.giveCells r.pool 0 r.cells) s

/-- A SPILLED queue whose ingots and staging are empty is RESIDENT again (R262). -/
def State.unspill (s : State) (q : Nat) : State :=
  match s.spillOf q with
  | some x =>
    if x.ingots.isEmpty && x.staged == 0 then { s with buf := { s.buf with spill := Store.erase q s.buf.spill } }.setPfWait q false else s
  | none => s

/-- Free the ingots of a queue whose every cell belongs to a copy that is gone (R257, R265); one on its way is freed as it arrives. -/
def State.freeDead (s : State) (q : Nat) : State :=
  match s.spillOf q with
  | none => s
  | some x =>
    let live := fun (i : Ingot) => i.asked || i.runs.any (fun r => (s.queue q).any (fun c => c.id == r.1))
    if x.ingots.all live then s else (s.setSpill q { x with ingots := x.ingots.filter live }).retireFreed

/-- Take a copy out of its queue, which is RESIDENT again where nothing spilled is left; the copy keeps the cells it holds. -/
def State.dequeue (s : State) (c : Copy) : State :=
  (s.setQueue c.queue ((s.queue c.queue).filter (fun x => x.id != c.id))).unspill c.queue

/-- Take a copy out of its queue and return all it holds, with its cells in staging and in ingots (R257, R274). -/
def State.removeCopy (s : State) (c : Copy) : State :=
  let s := s.setQueue c.queue ((s.queue c.queue).filter (fun x => x.id != c.id))
  let s := match s.spillOf c.queue with
    | none => s
    | some x =>
      let s := s.giveRuns (x.stage.filter (fun r => r.copy == c.id))
      (s.setSpill c.queue { x with stage := x.stage.filter (fun r => r.copy != c.id) }).freeDead c.queue
  (s.unspill c.queue).releaseCopy c

/-- A copy whose frame has ended returns the excess of its charge over the cells its bytes need (R257): first from staging, then from its pool.
The copy as it is then. -/
def State.trimCopy (s : State) (c : Copy) : Copy × State :=
  let over_ := c.charge + c.pre + c.need - s.storedCells c
  let d := min over_ (s.stagedOf c)
  let e := min (over_ - d) c.charge
  let s := if d = 0 then s else match s.spillOf c.queue with
    | none => s
    | some x =>
      let cut := x.stage.map (fun r => if r.copy == c.id then { r with cells := r.cells - d } else r)
      let s := (x.stage.find? (fun r => r.copy == c.id)).elim s (fun r => s.giveCells r.pool 0 d)
      s.setSpill c.queue { x with stage := cut.filter (fun r => r.cells != 0) }
  ({ c with need := c.need - d, charge := c.charge - e }, if e = 0 then s else s.giveCells c.pool c.resPort e)

/-! ### Spill and pre-fetch (R262-R265) -/

/-- Cells of a copy's staging run that its received bytes fill (R263): all where the frame has ended. -/
def State.filledRun (s : State) (q : Nat) (x : SpillQ) (r : Run) : Nat :=
  match (s.queue q).find? (fun c => c.id == r.copy) with
  | none => 0
  | some c =>
    if c.frame.ended then r.cells
    else
      let gone := x.ingots.foldl (fun n i => i.runs.foldl (fun n k => if k.1 = c.id then n + k.2 else n) n) (c.charge + c.pre)
      min r.cells (c.frame.bytes.length / 256 - gone)

/-- Filled cells at the front of a queue's staging, in queue order (R263). -/
def State.filledCells (s : State) (q : Nat) (x : SpillQ) : List Run → Nat
  | [] => 0
  | r :: t => let k := s.filledRun q x r; if k = r.cells then k + s.filledCells q x t else k

/-- An ingot is written or read (R425, R430): counted with its channel and class, for the frame of the last copy with cells in it. -/
def State.ingotEvent (s : State) (code q num : Nat) (runs : List (Nat × Nat)) : State :=
  let ch := some (4, 32 * (num % s.packetStacks) + num / s.packetStacks % 32)
  match (s.queue q).find? (fun c => some c.id == (runs.getLast?).map Prod.fst) with
  | some c => (s.pmuCopy ⟨code, none, [], ch, some (if c.kind == .control then 8 else c.cls)⟩ s.nowSub c.info c.frame 0 (c.kind == .mirror)).2
  | none => s.pmuCount ⟨code, none, [], ch, some (s.egressClass q)⟩

/-- An ingot's write takes `n` cells from staging (R263). -/
def State.writeIngot (s : State) (q ingot n : Nat) (x : SpillQ) : State :=
  let (l, u) := takeRuns n x.stage
  let s := (s.giveRuns u).setSpill q { ingots := x.ingots ++ [⟨ingot, u.map (fun r => (r.copy, r.cells)), false⟩], stage := l }
  (s.incReg pgIngot 0x2008).ingotEvent 0x0B q ingot (u.map (fun r => (r.copy, r.cells)))

/-- A staging ingot whose 32nd cell is filled is written (R263). -/
def execIngotWrite (q : BitVec 21) (ingot : BitVec 24) (s : State) : Out :=
  if s.stands then .next s else
  match s.spillOf q.toNat with
  | some x =>
    if 32 ≤ s.filledCells q.toNat x x.stage && s.ingotFree ingot.toNat then .next (s.writeIngot q.toNat ingot.toNat 32 x) else .next s
  | none => .next s

/-- STAGE_HOLD passes after the last cell of a partial ingot (R263). -/
def execStageHoldExpire (q : BitVec 21) (ingot : BitVec 24) (s : State) : Out :=
  if s.stands then .next s else
  match s.spillOf q.toNat with
  | some x =>
    let n := s.filledCells q.toNat x x.stage
    if 1 ≤ n && decide (n < 32) && s.ingotFree ingot.toNat then
      .next ((s.writeIngot q.toNat ingot.toNat n x).incReg pgIngot 0x2010)
    else .next s
  | none => .next s

/-- A copy has `n` more of its cells at the head of its queue: in the pre-fetch pool where `pre`, else in the pool they were staged in. -/
def Copy.fill (c : Copy) (n : Nat) (pre bad : Bool) : Copy :=
  let k := min n c.need
  { c with need := c.need - k, pre := if pre then c.pre + k else c.pre,
           charge := if pre then c.charge else c.charge + k, spoilt := c.spoilt || bad }

/-- Cells return to the copies of a queue that own them, as runs name them, each with whether its copy is spoilt. -/
def State.fillCopies (s : State) (q : Nat) (pre : Bool) (runs : List (Nat × Nat × Bool)) : State :=
  runs.foldl (fun s r => s.setQueue q ((s.queue q).map (fun c => if c.id = r.1 then c.fill r.2.1 pre r.2.2 else c))) s

/-- The runs of an ingot with whether the bad cell lies in each (R265). -/
def badRuns (bad : Option Nat) : Nat → List (Nat × Nat) → List (Nat × Nat × Bool)
  | _, [] => []
  | at_, r :: t =>
    let hit := match bad with | some k => decide (at_ ≤ k) && decide (k < at_ + r.2) | none => false
    (r.1, r.2, hit) :: badRuns bad (at_ + r.2) t

/-- Staging cells are relinked to the head of a queue that has no ingot (R263): SHORTCUTS. -/
def State.relink (s : State) (q : Nat) (x : SpillQ) : State :=
  let s := s.fillCopies q false (x.stage.map (fun r => (r.copy, r.cells, false)))
  (((s.setSpill q { x with stage := [] }).incReg pgIngot 0x2014).unspill q)

/-- The head of a SPILLED queue falls below D (R263, R264): the next ingot is requested, or staging cells are relinked to the head
where the queue has no ingot; a request that finds no pre-fetch cell waits, counted in cycles. -/
def execPrefetchRequest (q : BitVec 21) (s : State) : Out :=
  if s.stands then .next s else
  let q := q.toNat
  match s.spillOf q with
  | some x =>
    if !s.headShort q then .next s
    else if x.ingots.isEmpty ∧ 1 ≤ x.staged then .next (s.relink q x)
    else .next (s.askIngot q)
  | none => .next s

/-- The requested ingot's read completes (R264, R265): its cells go to the head, those of copies that are gone back to the pool; it is freed,
READ_LAT_MAX keeps the time, and an uncorrectable error at a 64-byte offset retires it and spoils the copy whose cell holds it. -/
def execIngotReadComplete (q : BitVec 21) (latency : BitVec 16) (uncorr : Option (BitVec 7)) (s : State) : Out :=
  if s.stands then .next s else
  let q := q.toNat
  match s.spillOf q with
  | none => .next s
  | some x => match x.ingots with
    | [] => .next s
    | i :: rest =>
      if !i.asked then .next s
      else
        let place := s.ingotPlace i.num
        let dead := i.runs.foldl (fun n r => if (s.queue q).any (fun c => c.id == r.1) then n else n + r.2) 0
        let s := s.setSpill q { x with ingots := rest }
        let s := s.fillCopies q true (badRuns (uncorr.map (fun o => o.toNat / 4)) 0 i.runs)
        let s := (s.incReg pgIngot 0x200C).maxReg pgIngot 0x2020 16 latency.toNat
        let s := s.ingotEvent 0x0C q i.num i.runs
        let s := match uncorr with
          | some o => ((s.stackUncorr place o.toNat).raise pgIngot 17).retireIngot place
          | none => s
        .next (((s.retireFreed.unspill q).noteCells).givePre dead)

/-- The patrol scrub visits an ingot by stack and stack-local number (R269): a correctable error is rewritten; an uncorrectable
one, at a 64-byte offset, retires a free ingot at once and a used one once its data is freed. -/
def execIngotPatrolScrub (stack : Fin 4) (j : BitVec 22) (err : Option (Option (BitVec 7))) (s : State) : Out :=
  if s.stands then .next s else
  let pg := pgStack + stack.val
  if s.regFld pg 0x2000 1 0 ≠ 3 then .next s
  else match err with
  | none => .next s
  | some none => .next (s.incReg pg 0x2004)
  | some (some o) =>
    let place := stack.val * 2 ^ 22 + j.toNat
    .next (((s.stackUncorr place o.toNat).raise pgIngot 17).retireIngot place)

/-! ### DRAM channel arbiters (R268) -/

/-- The transfers left to the requester that holds a channel. -/
def State.setChannel (s : State) (ch r n : Nat) : State :=
  { s with buf := { s.buf with grants := if n = 0 then Store.erase ch s.buf.grants else Store.insert ch (r, n) s.buf.grants } }

/-- A round of a channel's arbiter (R229, R268): the ages show in WAIT_MAX, every requester that loses counts as CHANNEL_LOSS, and the winner has
its grant, of which it makes the first transfer. -/
def State.channelRound (s : State) (ch : Nat) (requests : BitVec 8) : State :=
  let pg := pgStack + ch / 32
  let cfg := fun x => arbCfg (s.cfg pg (0x180 + 4 * x))
  let a := Store.get ⟨[], [], 0⟩ ch s.buf.arbs
  let (w, a') := a.round cfg requests
  let s := { s with buf := { s.buf with arbs := Store.set ⟨[], [], 0⟩ ch a' s.buf.arbs } }
  let s := a'.age.foldl (fun s e => s.maxReg pg (0x2040 + 4 * e.1) 6 e.2) s
  let lost := ((List.range 8).filter (fun x => requests.getLsbD x && w != some x)).length
  let s := (List.range lost).foldl (fun s _ => s.pmuCount ⟨0x0D, none, [], some (4, ch), none⟩) s
  match w with | some r => s.setChannel ch r ((cfg r).transfers - 1) | none => s

/-- A DRAM channel goes on (R229, R268): a held grant is used by its holder while it requests, else it is released and a round grants a
requester; the outstanding transactions show in OUTSTANDING_MAX. -/
def execChannelArbRound (ch : BitVec 7) (requests : BitVec 8) (outstanding : BitVec 11) (s : State) : Out :=
  if s.stands then .next s else
  let pg := pgStack + ch.toNat / 32
  if s.regFld pg 0x2000 1 0 ≠ 3 then .next s
  else
    let s := match s.buf.grants.find? (fun e => e.1 == ch.toNat) with
      | some (_, r, n) =>
        if requests.getLsbD r then s.setChannel ch.toNat r (n - 1) else (s.setChannel ch.toNat r 0).channelRound ch.toNat requests
      | none => s.channelRound ch.toNat requests
    .next (s.maxReg pg 0x2014 11 outstanding.toNat)

/-! ### Pause thresholds (R278) -/

/-- I_C and I_G of an ingress port and class: charges of held copies in every pool, and their spilled cells. -/
def State.ingressHeld (s : State) (p c : Nat) : Nat × Nat :=
  s.heldCopies.foldl (fun (a : Nat × Nat) x =>
    if x.lossless && x.frame.port == p && x.cls == c then (a.1 + x.charge + x.pre + s.stagedOf x, a.2 + x.need) else a) (0, 0)

/-- Whether XOFF holds for an ingress port and class after an evaluation, given that it did before (R278). -/
def State.xoffNext (s : State) (p c : Nat) (was : Bool) : Bool :=
  let (ic, ig) := s.ingressHeld p c
  let gap := s.cfgFld pgLadle 0x110 15 0
  let a := s.alphaExp 0x108 c
  let b := s.alphaExp 0x10C c
  let full := s.buf.full.contains p
  let fc := s.freeCells
  let fg := s.freeIngots
  let ig := if s.profile = 1 then 0 else ig
  if !ltScaled ic a fc || (s.profile != 1 && !ltScaled ig b (32 * fg)) || full then true
  else was && !(ltScaled (ic + gap) a fc && (s.profile == 1 || ltScaled (ig + gap) b (32 * fg)))

/-- The PFC frame of a port (R133): destination 01-80-C2-00-00-01, opcode 0x0101, the class enables and quanta. -/
def State.pfcFrame (s : State) (p : Nat) (classes quanta : Nat → Nat) : List Byte :=
  let en := (List.range 8).foldl (fun n c => n + classes c * 2 ^ c) 0
  beBytes 6 0x0180C2000001 ++ beBytes 6 (s.portMac p).toNat ++ beBytes 2 0x8808 ++ beBytes 2 0x0101 ++ beBytes 2 en
    ++ (List.range 8).flatMap (fun c => beBytes 2 (quanta c)) ++ beBytes 26 0

/-- XOFF_QUANTA of a port; 0 acts as 1 (R143). -/
def State.xoffQuanta (s : State) (p : Nat) : Nat := orIfZero (fld (s.pfcCfg p) 31 16) 1

/-- Send a PFC frame for some classes with the quanta of their XOFF (R133, R278); a port that sends no frames, or a STANDBY's, sends none (R34,
R38, R129, R135). -/
def State.sendPfc (s : State) (p : Nat) (cls : Nat → Bool) : State :=
  if s.portAbsent p || !s.macSends p || s.standby then s
  else
    let off := s.reg pgLadle (0x2500 + 4 * p)
    let f := s.pfcFrame p (fun c => if cls c then 1 else 0) (fun c => if cls c && bit off c then s.xoffQuanta p else 0)
    let s := if s.carriesData p then { s with port := { s.port with txPfc := Store.insert p f s.port.txPfc } } else s
    s.macCount p 5

/-- Evaluate XOFF of one port (R278): a PFC frame goes out on a change. -/
def State.pfcEvalPort (s : State) (p : Nat) : State :=
  let off := 0x2500 + 4 * p
  let w := s.reg pgLadle off
  let new := (List.range 8).foldl (fun n c => if s.lossless p c && s.xoffNext p c (bit w c) then n + 2 ^ c else n) 0
  if fld w 7 0 = new then s
  else (s.setRegFld pgLadle off 7 0 new).sendPfc p (fun c => s.lossless p c && (bit w c != new.testBit c))

/-- Every 64 cycles the Ladle evaluates XOFF of every port with PFC (R278). -/
def execPfcXoffEval (s : State) : Out :=
  if s.stands then .next s else
  .next ((List.range 240).foldl (fun s p => if s.pfcOn p && !s.portAbsent p then s.pfcEvalPort p else s) s)

/-- Half the quanta time passes while pause is needed (R133). -/
def execPfcRefresh (port : Fin 240) (s : State) : Out :=
  if s.stands then .next s else
  let p := port.val
  let w := s.reg pgLadle (0x2500 + 4 * p)
  if s.pfcOn p && fld w 7 0 != 0 then .next (s.sendPfc p (fun c => s.lossless p c && bit w c)) else .next s

end Sys2Proof.Machine
end

