-- ==== Sys2Proof/Machine/Epoch.lean ====
section
/-! DEFINITION. Rule epochs and versioned commit (R233-R250): the records of long operations, the switch instant, the merge and
retirement. -/
namespace Sys2Proof.Machine

/-! ### Records of long operations (R87, R88) -/

/-- The record in a slot. -/
def State.opRec (s : State) (slot : Nat) : Option OpRec := (s.ops.recs.find? (fun e => e.1 == slot)).map Prod.snd

/-- Hold a record. -/
def State.setOp (s : State) (slot : Nat) (r : OpRec) : State :=
  { s with ops := { s.ops with recs := Store.insert slot r s.ops.recs } }

/-- Change a record, if the slot holds one. -/
def State.updOp (s : State) (slot : Nat) (f : OpRec → OpRec) : State :=
  match s.opRec slot with | some r => s.setOp slot (f r) | none => s

/-- Whether a state is terminal (R89). -/
def OpState.terminal : OpState → Bool
  | .done | .cancelled | .failed => true
  | _ => false

/-- The code of an operation state (R88). -/
def OpState.code : OpState → Nat
  | .queued => 0 | .running => 1 | .suspended => 2 | .done => 3 | .cancelled => 4 | .failed => 5

/-- End an operation (R89, R93): its state and RESULT, PROGRESS at TOTAL for DONE, and the OP_ENDED interrupt. -/
def State.endOp (s : State) (slot : Nat) (st : OpState) (result : Status) : State :=
  let s := s.updOp slot (fun r => { r with state := st, result := result, progress := if st = .done then r.total else r.progress })
  if bit (s.cfg pgHostif 0x100) 4 then s.ibi 0x03 (slot + st.code * 16) else s

/-- Set a detail word 4 to 7 of an operation (R88). -/
def OpRec.setDetail (r : OpRec) (i : Nat) (v : Word) : OpRec := { r with detail := r.detail.set (i - 4) v }

/-- The code of a type (R87). -/
def OpKind.code : OpKind → Nat
  | .epochCommit => 1 | .tableLoad => 2 | .tableFlush => 3 | .snapshotSave => 4 | .snapshotRestore => 5 | .stateSync => 6
  | .memTest => 7 | .fwUpdate => 8 | .twicelRejoin => 9

/-- The type of a code (R87). -/
def OpKind.ofCode (n : Nat) : Option OpKind :=
  [OpKind.epochCommit, .tableLoad, .tableFlush, .snapshotSave, .snapshotRestore, .stateSync, .memTest, .fwUpdate, .twicelRejoin].find?
    (fun k => k.code == n)

/-- The table that a TABLE_LOAD or TABLE_FLUSH names (R221). -/
abbrev OpRec.table (r : OpRec) : Nat := fld (r.params.getD 0 0) 3 0

/-- What a type's own list of conflicts names (R90). -/
def OpKind.lists (a b : OpKind) : Bool :=
  match a with
  | .epochCommit => [OpKind.epochCommit, .snapshotRestore, .twicelRejoin].contains b
  | .tableLoad => [OpKind.tableFlush, .snapshotRestore, .twicelRejoin].contains b
  | .tableFlush => [OpKind.tableLoad, .snapshotRestore, .twicelRejoin].contains b
  | .snapshotSave => [OpKind.snapshotSave, .snapshotRestore, .fwUpdate].contains b
  | .snapshotRestore => true
  | .stateSync => [OpKind.stateSync, .snapshotRestore, .twicelRejoin].contains b
  | .memTest => [OpKind.memTest, .snapshotRestore, .fwUpdate].contains b
  | .fwUpdate => [OpKind.snapshotSave, .snapshotRestore, .memTest, .fwUpdate].contains b
  | .twicelRejoin => [OpKind.epochCommit, .tableLoad, .tableFlush, .stateSync, .snapshotRestore, .twicelRejoin].contains b

/-- Whether two operations conflict (R90): a load and a flush only where they name one table. -/
def OpRec.conflicts (a b : OpRec) : Bool :=
  let tabs := (a.kind == .tableLoad && b.kind == .tableFlush) || (a.kind == .tableFlush && b.kind == .tableLoad)
  (a.kind.lists b.kind || b.kind.lists a.kind) && (!tabs || a.table == b.table)

/-- Whether an operation must wait (R89): a conflicting one created before it has not ended. -/
def State.opBlocked (s : State) (r : OpRec) : Bool :=
  s.ops.recs.any (fun e => decide (e.2.born < r.born) && !e.2.state.terminal && e.2.conflicts r)

/-- A slot without a record (R87). DESIGN CHOICE, unsafe: R87 does not say which of several free slots OP_START takes; the lowest (log entry 137). -/
def State.freeOp (s : State) : Option Nat := (List.range 16).find? (fun k => (s.opRec k).isNone)

/-- The HANDLE of a record (R87). -/
def OpRec.handle (r : OpRec) (slot : Nat) : Word := word (slot + r.serial.toNat * 16)

/-- Create an operation in a slot, QUEUED or RUNNING (R87, R89): `locks` are those its starter holds. -/
def State.opCreate (s : State) (slot : Nat) (kind : OpKind) (agent rights session : Nat) (locks : List Nat) (params : List Word) : OpRec × State :=
  let n := Store.get 0#12 slot s.ops.serials + 1
  let b := s.ops.births + 1
  let r : OpRec := ⟨kind, n, .running, .ok, 0, 0, 0, [0, 0, 0, 0], false, false, agent, BitVec.ofNat 3 rights, BitVec.ofNat 16 session, locks, params, b, false⟩
  let r := if s.opBlocked r then { r with state := .queued } else r
  let s := { s with ops := { s.ops with serials := Store.set 0#12 slot n s.ops.serials, births := b } }
  (r, s.setOp slot r)

/-! ### Epoch numbers and reference counts -/

/-- The standing epoch's number (R235). -/
abbrev State.standing (s : State) : Nat := s.regFld pgEpoch 0x2000 15 0

/-- The pending epoch's number (R235). -/
abbrev State.pendingNo (s : State) : Nat := s.regFld pgEpoch 0x2000 31 16

/-- The retiring epoch's number, if one exists (R235). -/
def State.retiring (s : State) : Option Nat :=
  if bit (s.reg pgEpoch 0x2004) 16 then some (s.regFld pgEpoch 0x2004 15 0) else none

/-- Frames that carry an epoch (R242). -/
def State.refCount (s : State) (e : Nat) : Nat := Store.get 0 e s.tab.refs

/-- A frame is tagged with an epoch (R242). -/
def State.refUp (s : State) (e : Nat) : State := { s with tab := { s.tab with refs := Store.upd 0 e (· + 1) s.tab.refs } }

/-- A frame's last pass is disposed of (R242). -/
def State.refDown (s : State) (f : Frame) : State :=
  match f.epoch with
  | some e => { s with tab := { s.tab with refs := Store.upd 0 e (· - 1) s.tab.refs } }
  | none => s

/-- The view that a frame reads through (R237): shadows for the retiring epoch, else the standing view. -/
def State.frameView (s : State) (f : Frame) : View :=
  if s.retiring.isSome && s.retiring == f.epoch then .retiring else .standing

/-! ### Commit (R244-R248) -/

/-- The phases of a commit (R245). -/
abbrev phWait : Byte := 0
abbrev phArmed : Byte := 1
abbrev phMerge : Byte := 2

/-- Words 1 to 4 of an EPOCH_COMMIT: AT_TIME, LATE_OK and T in nanoseconds (R244). -/
def OpRec.atTime (r : OpRec) : Bool := fld (r.params.getD 0 0) 1 0 == 1
def OpRec.lateOk (r : OpRec) : Bool := bit (r.params.getD 0 0) 2
def OpRec.commitT (r : OpRec) : Nat :=
  (fld (r.params.getD 1 0) 15 0 * 2 ^ 32 + (r.params.getD 2 0).toNat) * 1000000000 + (r.params.getD 3 0).toNat

/-- A commit is DONE: no unmerged slot remains (R245). -/
def State.commitDone (s : State) (slot : Nat) : State :=
  let s := s.endOp slot .done .ok
  { s with tab := { s.tab with commit := none } }

/-- A record as OP_STATUS shows it: until S, TOTAL of a commit is the pending slot count, and detail word 4 the numbers that will become standing
and retiring (R245). -/
def State.opShown (s : State) (r : OpRec) : OpRec :=
  if r.kind == .epochCommit && r.phase != phMerge && !r.state.terminal then
    { r with total := word (s.ovlCount .pending) }.setDetail 4 (word (s.pendingNo + s.standing * 65536))
  else if r.kind == .memTest && !r.state.terminal then { r with phase := if s.testWaits then 0 else 1 }
  else r

/-- The epochs advance at the switch instant S (R235, R245, R404): `no` becomes the standing number, pending slots become unmerged, S is
recorded, COMMITS, the audit record, the event SWITCHED, and the journal's EPOCH_SWITCH. -/
def State.advanceEpoch (s : State) (no : Nat) (late : Bool) (rec : AuditRec) : State :=
  let st := s.standing
  let s := s.setReg pgEpoch 0x2000 (word (no + (no + 1) % 65536 * 65536))
  let s := s.setReg pgEpoch 0x2004 (word (st + 0x10000))
  let ss := s.tab.slots.map (fun (x : Slot) => if x.kind == .pending then { x with kind := .unmerged } else x)
  let s := { s with tab := { s.tab with slots := ss, retireCyc := s.time.cyc, switchAt := none, switchNo := none } }
  let s := ((s.setReg pgEpoch 0x2024 (word (s.nowSec / 2 ^ 32 % 65536))).setReg pgEpoch 0x2028 (word s.nowSec)).setReg pgEpoch 0x202C (word s.nowSub)
  let s := (s.incReg pgEpoch 0x2030).raise pgEpoch 16
  let s := if late then s.orReg pgEpoch 0x2020 0x100#32 else s
  (s.audit rec).journal 5 0 [word no, word s.nowSec, word s.nowSub]

/-- The merge moves the oldest unmerged slot that the base has room for into the base (R238): under a retiring epoch the slot becomes a shadow with
the base's former value; otherwise it is freed. -/
def State.mergeSlot (s : State) : State :=
  match (s.tab.slots.filter (fun x => x.kind == .unmerged)).findSome? (fun x => (s.writeBase x.tab x.key x.val).map (fun t => (x, t))) with
  | none => s
  | some (x, t) =>
    let old := s.verOr .retiring x.tab x.key (if x.tab = 1 ∧ !s.labelRead x.key then [] else Store.get [] x.key (s.baseOf x.tab))
    let rest := t.tab.slots.filter (fun y => !(y == x))
    { t with tab := { t.tab with slots := if s.retiring.isSome then rest ++ [⟨.shadow, x.tab, x.key, old⟩] else rest } }

/-- The merge's transfer of one slot without a commit of this device; MERGE_DONE is raised where it was the last (R253). -/
def State.mergeAlone (s : State) : State :=
  let t := s.mergeSlot
  if s.ovlCount .unmerged ≠ 0 ∧ t.ovlCount .unmerged = 0 then t.raise pgEpoch 18 else t

/-- The transfer of one slot of a commit's merge; a suspended one merges only at EPOCH DISABLED (R248, R250). -/
def State.mergeFor (s : State) (slot : Nat) (r : OpRec) : State :=
  if r.state == .suspended && !s.unversioned then s
  else
    let t := s.mergeSlot
    t.updOp slot (fun r => { r with progress := word (r.total.toNat - t.ovlCount .unmerged) })

/-- The merge's transfer of one slot (R238, R250), which needs a grant of maintenance requester 4 (R229, R230) and a maintenance port that runs
(R38). -/
def execEpochMergeSlot (s : State) : Out :=
  if s.stands then .next s else
  match s.tab.grants.find? (fun e => e.2.1 == 4) with
  | none => .next s
  | some (bank, _, n) =>
    if !s.working pgTables || s.ovlCount .unmerged == 0 then .next s
    else
      let s := (s.countXfer bank []).setGrant bank 4 (n - 1)
      match s.tab.commit.bind (fun k => (s.opRec k).map (fun r => (k, r))) with
      | some (k, r) => .next (s.mergeFor k r)
      | none => .next s.mergeAlone

/-- Retire the retiring epoch (R239): its shadows are freed and RETIRED is raised; RETIRE_MAX takes the time from S. -/
def State.retire (s : State) : State :=
  let s := s.maxReg pgEpoch 0x2034 16 ((s.time.cyc - s.tab.retireCyc) * 64 / 100)
  let s := s.setReg pgEpoch 0x2004 0
  let s := { s with tab := { s.tab with slots := s.tab.slots.filter (fun (x : Slot) => x.kind != SlotKind.shadow) } }
  s.raise pgEpoch 17

/-- The retiring epoch's reference count reaches 0 (R239). -/
def execEpochRetire (s : State) : Out :=
  if s.stands then .next s else
  match s.retiring with
  | none => .next s
  | some e => if s.refCount e = 0 then .next s.retire else .next s

/-- RETIRE_TIMEOUT passes with a non-zero count (R243): RETIRE_FORCED, and the epoch retires. The time in which a breakpoint holds a frame does not
count. -/
def execRetireForced (s : State) : Out :=
  if s.stands then .next s else
  match s.retiring with
  | none => .next s
  | some e =>
    if s.refCount e = 0 ∨ s.pipe.inside.any (fun (x : InPipe) => x.stage.isSome) then .next s
    else .next ((s.orReg pgEpoch 0x2020 0x200#32).raise pgEpoch 20).retire

/-- Free every pending slot. -/
def State.freePending (s : State) : State :=
  { s with tab := { s.tab with slots := s.tab.slots.filter (fun (x : Slot) => x.kind != SlotKind.pending) } }

/-- A write of 1 to PENDING_CTRL.DISCARD (R249): DISCARD_REJECT while a commit is QUEUED, RUNNING or SUSPENDED. -/
def State.pendingDiscard (s : State) : State :=
  if s.ops.recs.any (fun e => e.2.kind == .epochCommit && !e.2.state.terminal) then s.orReg pgEpoch 0x2020 0x400#32
  else s.freePending

end Sys2Proof.Machine
end

