-- ==== Sys2Proof/Machine/Respond.lean ====
section
/-! DEFINITION. How a response leaves the device (R70, R72, R82, R93, R445). -/
namespace Sys2Proof.Machine

/-- HOSTIF.MGMT_MAC: the device's address on the management port (R72). -/
def State.mgmtMac (s : State) : Nat := s.cfgFld pgHostif 0x104 15 0 * 2 ^ 32 + (s.cfg pgHostif 0x108).toNat

/-- The frame that carries a response on the management port, padded to 60 bytes before its FCS (R72). -/
def State.mgmtFrame (s : State) (mac : BitVec 48) (vlan : Option Word) (r : Response) : List Byte :=
  let f := beBytes 6 mac.toNat ++ beBytes 6 s.mgmtMac ++ (match vlan with | some t => wordBytes t | none => [])
    ++ [0x88, 0xB5, 0x00, 0x02] ++ r.bytes
  f ++ List.replicate (60 - f.length) 0#8

/-- Capture a failure of a command without a response and raise NR_ERROR; one that finds a captured failure sets OVERRUN instead (R82). -/
def State.nrError (s : State) (a : Agent) (r : Response) : State :=
  if bit (s.reg pgHostif 0x201C) 31 then s.orReg pgHostif 0x201C 0x40000000#32
  else (s.setReg pgHostif 0x201C (word (r.tag.toNat + r.status.code * 0x100 + a.id * 0x10000 + 0x80000000))).raise pgHostif 16

/-- Whether the management lane sends frames: MGMT is ENABLED or DRAINING, its link and ADMIN_UP are up (R38, R129, R146). -/
def State.mgmtSends (s : State) : Bool := s.working pgMgmt && bit (s.reg pgMgmt 0x2000) 0 && bit (s.reg pgMgmt 0x1000) 0

/-- Put a response on its way; TX_FRAMES of the management lane counts it there (R146), and one that finds the lane sending idle is lost. -/
def State.sendOn (s : State) (route : Route) (r : Response) : State :=
  match route with
  | .i3c =>
    let s := { s with host := { s.host with resp := s.host.resp ++ [r.bytes] } }
    if bit (s.cfg pgHostif 0x100) 3 then s.ibi 0x02 r.tag.toNat else s
  | .mgmt mac vlan =>
    if !s.mgmtSends then s else { s with host := { s.host with mgmtOut := s.host.mgmtOut ++ [s.mgmtFrame mac vlan r] } }.incReg pgMgmt 0x2008
  | .debug => { s with host := { s.host with dbgOut := s.host.dbgOut ++ [r.bytes] } }
  | .nowhere => s

/-- A command's response is ready (R82): sent, or with NO_RESPONSE kept only as an error. -/
def State.respond (s : State) (a : Agent) (route : Route) (noResponse : Bool) (r : Response) : State :=
  if noResponse then (if r.status = .ok then s else s.nrError a r) else s.sendOn route r

end Sys2Proof.Machine
end

