-- ==== Sys2Proof/Machine/Twicel.lean ====
section
/-! DEFINITION. The states of a joined and of a protected device (R385-R386, R396, R400, R406), as the UP of their groups and the
blocks change them; what travels between the devices is in Pair. -/
namespace Sys2Proof.Machine

/-! ### The joint (R385, R386, R396) -/

/-- Enter a state of R386 with TWICEL_CHANGE. -/
def State.setTwicel (s : State) (v : Nat) : State :=
  if s.twicel = v then s else (s.setRegFld pgPair 0x2000 2 0 v).raise pgPair 16

/-- The number of the other device of a pair. -/
def State.otherDev (s : State) : Nat := 1 - s.ownDev

/-- Answer every command that waits on a relay from `from_` on with PARTNER_DOWN (R390, R396). -/
def State.failWaiting (s : State) (from_ : Nat) : State :=
  let (gone, rest) := s.host.waiting.partition (fun (w : Waiting) => decide (from_ ≤ w.lastSeq))
  let s := { s with host := { s.host with waiting := rest } }
  gone.foldl (fun s w => s.respond w.agent w.route w.noResponse ⟨w.resp.tag, .partnerDown, []⟩) s

/-- Discard every frame held in a VOQ that `sel` picks, counting each in a register (R368, R396, R408). -/
def State.discardVoqs (s : State) (sel : Voq → Bool) (page off : Nat) : State :=
  (s.voq.voqs.filter (fun e => sel e.2)).foldl (fun s e =>
    (s.queue (voqKey e.1)).foldl (fun s c =>
      let s := (s.removeCopy c).incReg page off
      if c.mcast then s.incReg pgMcast 0x2004 else s) s) s

/-- Discard the cells held for reassembly from a source, counting a frame that is cut (R377, R396). -/
def State.dropContexts (s : State) (src : Nat) : State :=
  s.voq.ctxs.foldl (fun (s : State) e =>
    if e.1 / 8 ≠ src then s
    else
      let s := if e.2.parts.isEmpty then s else (s.incReg pgCredit 0x2024).raise pgCredit 17
      { s with voq := { s.voq with ctxs := Store.insert e.1 { e.2 with held := [], parts := [], bad := true } s.voq.ctxs } }) s

/-- What a split does on each device (R396). -/
def State.splitActions (s : State) : State :=
  let s := s.discardVoqs (fun v => v.dest == s.otherDev) pgPair 0x2028
  let s := s.freeVoqs.dropContexts s.otherDev
  let s := { s with pair := { s.pair with relays := [] }, tab := { s.tab with learnOut := [] } }.failWaiting 0
  if s.ownDev = 1 ∧ s.regFld pgTime 0x2010 4 3 ≠ 0 then s.setServo 3 else s

/-- The operation slot of a TWICEL_REJOIN in progress. -/
def State.rejoinSlot (s : State) : Option Nat :=
  (s.ops.recs.find? (fun e => e.2.kind == .twicelRejoin && !e.2.state.terminal)).map Prod.fst

/-- Relays and batches are numbered anew, and nothing of theirs is outstanding (R390, R394). -/
def State.relaysRestart (s : State) : State :=
  { s with pair := { s.pair with relays := [], relayNext := 0, relayWant := 0, acks := [], batchOut := 0, batchIn := none, probed := false } }

/-- UP of the joint falls (R386, R396, R397): a joined pair splits; a rejoin in its merge phase fails and the partner frees its
pending slots; in an earlier phase it returns to phase 0. -/
def State.jointDown (s : State) : State :=
  if s.twicel = 2 then (s.splitActions.incReg pgPair 0x2024).setTwicel 3
  else if s.twicel = 4 then
    let s := if s.ownDev = 1 then s.freePending else s
    let s := match s.rejoinSlot with | some k => s.endOp k .failed .partnerDown | none => s
    s.splitActions.setTwicel 3
  else match s.rejoinSlot with
    | some k => { s with pair := { s.pair with told := [] } }.updOp k (fun r => { r with phase := 0 })
    | none => s

/-- UP of the joint falls. -/
def State.jointFell (s : State) : State := s.jointDown.relaysRestart

/-! ### The protected device (R399-R406) -/

/-- The standby's or active's pair group is UP. -/
def State.pairUp (s : State) : Bool := match s.groupOfUse 2 with | some g => s.groupUp g | none => false

/-- PROT_STATUS.SYNC: 0 UNSYNCED, 1 SYNCING, 2 SYNCED, 3 STALE (R406, R416). -/
abbrev State.sync (s : State) : Nat := s.regFld pgPair 0x2004 6 4

/-- Enter a SYNC state with SYNC_CHANGE. -/
def State.setSync (s : State) (v : Nat) : State := if s.sync = v then s else (s.setRegFld pgPair 0x2004 6 4 v).raise pgPair 19

/-- The journal lag in ns (R405). -/
def State.lagNs (s : State) : Nat := (s.nowSub + 1000000000 - s.pair.jCreated % 1000000000) % 1000000000

/-- What FAULT_CAUSE shows while its cause holds (R400, R416): GLOBAL_SAFE, DATA_SAFE, WATCHDOG as it stands, THERMAL, SOFTWARE. -/
def State.faultCause (s : State) : Word :=
  let w := putBit (s.reg pgPair 0x2008) 0 (s.safe pgGlobal)
  let w := putBit w 1 (s.safe pgTables || s.safe pgCrucible || s.safe pgLadle || s.safe pgTm)
  putBit (putBit w 3 (s.regFld pgBellows 0x2000 6 4 == 3)) 4 (bit (s.reg pgPair 0x1004) 0)

/-- FAULT_N is asserted within 10 µs of a cause (R400), with the event FAULT. -/
def State.faultEval (s : State) : State :=
  let w := s.faultCause
  let s := s.setReg pgPair 0x2008 w
  if w = 0 ∨ bit (s.reg pgPair 0x2004) 10 then s else (s.orReg pgPair 0x2004 0x400#32).raise pgPair 20

/-- The level of RDY_OUT (R38, R400). -/
def State.rdyLevel (s : State) : Bool :=
  if s.safe pgPair then false
  else if s.role = 2 then s.sync == 2 && decide (s.lagNs ≤ 1000000) && s.pairUp
  else if s.role = 1 then s.enabled pgGlobal && !bit (s.reg pgPair 0x2004) 10
  else false

/-- RDY_OUT and PEER_LOST follow their conditions (R400, R406). -/
def State.rdyEval (s : State) : State :=
  let r := s.rdyLevel
  let s := s.updReg pgPair 0x2004 (fun w => putBit w 7 (s.role == 1 && !s.pairUp))
  if bit (s.reg pgPair 0x2004) 9 == r then s else (s.updReg pgPair 0x2004 (fun w => putBit w 9 r)).raise pgPair 18

/-- FAULT_N, RDY_OUT and PEER_LOST follow a change. -/
def State.pinsEval (s : State) : State := s.faultEval.rdyEval

/-! ### STATE_SYNC (R403) -/

/-- Policers, and nodes of the three levels of the traffic manager. -/
abbrev policerCount : Nat := 524288
abbrev nodeCount : Nat := 147698

/-- Counter pairs (R417). -/
abbrev pairCount : Nat := 4194304

/-- The items that a STATE_SYNC copies: EPOCH_ID, dynamic MAC entries, buckets, counter pairs. -/
def State.syncItems (s : State) : Nat :=
  1 + (s.tab.mac.filter (fun e => !e.2.static)).length + 2 * policerCount + 2 * nodeCount + pairCount

/-- A STATE_SYNC begins (R403, R404): without the pair group it fails; else a new generation starts with SYNC_START. -/
def State.syncBegin (s : State) (slot : Nat) (r : OpRec) : State :=
  if !s.pairUp then s.endOp slot .failed .partnerDown
  else
    let s := s.incReg pgPair 0x200C
    let p := { s.pair with jNext := 0, jSent := [], jUnsent := 0, jOn := true, jResync := false, jBulk := false, jBroken := false, sweep := none }
    let s := ({ s with pair := p }.setReg pgPair 0x2014 0).journalPut 9 0 [word (s.profile + 256 * s.topo)]
    s.setOp slot ({ r with phase := 0, progress := 0, total := word s.syncItems, params := [0] }.setDetail 4 (s.reg pgPair 0x200C))

/-- The resident firmware of an ACTIVE device starts STATE_SYNC by itself where AUTO_SYNC = 1 (R403), as core 0. -/
def State.autoSync (s : State) : State :=
  if s.role != 1 || !bit (s.cfg pgPair 0x100) 2 || !bit (s.reg pgCpctl 0x2000) 8 then s
  else match s.freeOp with
    | none => s
    | some k =>
      let (r, s) := s.opCreate k .stateSync 4 3 0 [] []
      if r.state == .running then s.syncBegin k r else s

/-- The active knows its standby to be synced: a generation's bulk has been sent and no break followed (R403, R405). -/
def State.standbySynced (s : State) : Bool := s.pair.jOn && s.pair.jBulk && !s.pair.jBroken

/-- UP of the pair group has changed (R406): a fall makes a syncing or synced standby STALE, remembering its state; a rise starts
an automatic STATE_SYNC. -/
def State.pairGroupChanged (s : State) (up : Bool) : State :=
  let s := if !up && s.role == 2 && (s.sync == 1 || s.sync == 2) then
      { s with pair := { s.pair with remember := s.sync } }.setSync 3 else s
  let s := if up && !s.standbySynced then s.autoSync else s
  s.rdyEval

/-- The joint: the lowest-numbered ENABLED group with USE = JOINT (R385). -/
def State.isJoint (s : State) (g : Nat) : Bool := s.groupOfUse 1 == some g

/-- UP of a Sprue group has changed (R167, R368, R386, R406): a route that is UP again takes copies. -/
def State.upChanged (s : State) (g : Nat) (up : Bool) : State :=
  let use := s.cfgFld (pgSprue + g) 0x100 1 0
  if use = 1 ∧ s.topo = 1 ∧ !up then s.jointFell
  else if use = 2 then s.pairGroupChanged up
  else { s with voq := { s.voq with unreach := s.voq.unreach.filter (fun d => !s.reachable d) } }

end Sys2Proof.Machine
end

