-- ==== Sys2Proof/Machine/Sprue.lean ====
section
/-! DEFINITION. Sprue cell links (R147-R173): the cell, its HEC and scrambler, delineation, the sending side, rotations, performance
monitoring. What a delivered cell does is in CellRx. Cells wait for a slot of their member; a slot is 16 CORE_CLK cycles. -/
namespace Sys2Proof.Machine

/-! ### The cell (R149-R152) -/

/-- Bytes 0 to 6 of a header as one number (R149). -/
def CellHdr.num (h : CellHdr) : Nat :=
  h.dst % 4096 * 2 ^ 44 + h.cls % 8 * 2 ^ 41 + h.ctl.toNat * 2 ^ 40 + h.src % 4096 * 2 ^ 28 + h.first.toNat * 2 ^ 27
    + h.last.toNat * 2 ^ 26 + h.rsvd % 4 * 2 ^ 24 + h.seq % 65536 * 256 + h.len % 256

/-- HEC of the seven header bytes (R151). -/
def hecOf (b : List Byte) : Byte := crc8 0x07#8 b ^^^ 0x55#8

/-- The eight bytes of a header (R149, R151). -/
def CellHdr.bytes (h : CellHdr) : List Byte :=
  let b := beBytes 7 h.num
  b ++ [hecOf b]

/-- Whether a header candidate is correct (R154). -/
def hecOk (w : BitVec 64) : Bool := hecOf (beBytes 7 (w.toNat / 256)) == BitVec.ofNat 8 w.toNat

/-- The fields of a received header. -/
def CellHdr.ofBits (w : BitVec 64) : CellHdr :=
  let n := w.toNat
  { dst := n / 2 ^ 52, cls := n / 2 ^ 49 % 8, ctl := n.testBit 48, src := n / 2 ^ 36 % 4096, first := n.testBit 35,
    last := n.testBit 34, rsvd := n / 2 ^ 32 % 4, seq := n / 65536 % 65536, len := n / 256 % 256 }

/-- One byte through the scrambler of R152, most significant bit first: the byte sent and the last 43 bits sent. -/
def scrambleByte (st : BitVec 43) (b : Byte) : Byte × BitVec 43 :=
  (List.range 8).foldl (fun (acc : Byte × BitVec 43) i =>
    let s := b.getLsbD (7 - i) ^^ acc.2.getLsbD 42
    ((acc.1 <<< 1) ||| (if s then 1#8 else 0#8), (acc.2 <<< 1) ||| (if s then 1#43 else 0#43))) (0#8, st)

/-- One byte through the descrambler (R152). -/
def descrambleByte (st : BitVec 43) (b : Byte) : Byte × BitVec 43 :=
  (List.range 8).foldl (fun (acc : Byte × BitVec 43) i =>
    let s := b.getLsbD (7 - i)
    let d := s ^^ acc.2.getLsbD 42
    ((acc.1 <<< 1) ||| (if d then 1#8 else 0#8), (acc.2 <<< 1) ||| (if s then 1#43 else 0#43))) (0#8, st)

/-- Payload bytes through a byte step with 43 bits of history (R152). -/
def scrRun (f : BitVec 43 → Byte → Byte × BitVec 43) (st : BitVec 43) : List Byte → List Byte × BitVec 43
  | [] => ([], st)
  | b :: t =>
    let (x, st) := f st b
    let (l, st) := scrRun f st t
    (x :: l, st)

/-- A 257-bit transcoded block (R147): the transcode bit 1 in bit 0, then 32 bytes of the cell stream in the order of transmission, each with its
first bit lowest. -/
def blockOf (b : List Byte) : BitVec 257 :=
  BitVec.ofNat 257 (1 + 2 * (List.range 32).foldl (fun n i => n + (BitVec.reverse (b.getD i 0)).toNat * 2 ^ (8 * i)) 0)

/-- The blocks of a stretch of the cell stream, 32 bytes each (R147). -/
def blocksOf (stream : List Byte) : List (BitVec 257) := (List.range (stream.length / 32)).map (fun i => blockOf (stream.drop (32 * i)))

/-- The bytes of a cell as received (R147): those of a control block are 0x00; such a block is given by its first byte in the cell and its length
there. -/
def zeroBlocks (cell : List Byte) (blocks : List (Nat × Nat)) : List Byte :=
  cell.mapIdx (fun i b => if blocks.any (fun k => decide (k.1 ≤ i) && decide (i < k.1 + k.2)) then 0#8 else b)

/-! ### Members -/

/-- The key of a member lane. -/
abbrev laneKey (g m : Nat) : Nat := g * 16 + m

/-- The page of a group. -/
abbrev sprPage (g : Nat) : Nat := pgSprue + g

/-- The offset of register `o` of member `m` (R172). -/
abbrev memReg (m o : Nat) : Nat := 0x2100 + 0x20 * m + o

/-- MEMBER_STATUS. -/
abbrev State.memStatus (s : State) (g m : Nat) : Word := s.reg (sprPage g) (memReg m 0)

/-- Hold bit `b` of MEMBER_STATUS. -/
def State.setMemBit (s : State) (g m b : Nat) (v : Bool) : State := s.updReg (sprPage g) (memReg m 0) (fun w => putBit w b v)

/-- DELIN of a member: 0 HUNT, 1 PRESYNC, 2 SYNC (R154). -/
abbrev State.delin (s : State) (g m : Nat) : Nat := fld (s.memStatus g m) 1 0

/-- The physical ID that the device sends as SRC and accepts as DST (R150, R364). -/
def State.ownId (s : State) : Nat := if s.topo = 0 then 0 else if s.topo = 1 then s.ownDev else s.cfgFld pgVoq 0x100 11 0

/-- A group runs: ENABLED, DRAINING or SAFE, and not refused (R161, R168). -/
def State.groupRuns (s : State) (g : Nat) : Bool := decide (2 ≤ s.blk (sprPage g)) && !bit (s.reg (sprPage g) 0x2000) 1

/-- A group carries more than IDLE cells with RDI (R38, R168). -/
def State.groupSends (s : State) (g : Nat) : Bool := s.working (sprPage g) && !bit (s.reg (sprPage g) 0x2000) 1

/-- The latched ROLE_EFF of a bank, or its configured role while it is DISABLED (R161). -/
def State.bankRole (s : State) (n : Nat) : Nat :=
  if s.blk (pgBank + n) = 0 then s.regFld (pgBank + n) 0x100 1 0 else s.regFld (pgBank + n) 0x2000 1 0

/-- A member lane of a running group is named and its bank is an ENABLED TRUNK bank (R123, R159, R163). -/
def State.memberLive (s : State) (g m : Nat) : Bool :=
  s.groupRuns g && (match s.memberLane g m with | some l => s.enabled (pgBank + l / 8) && s.bankRole (l / 8) == 2 | none => false)

/-- The members that a group lists. -/
def State.listed (s : State) (g : Nat) : List Nat := (List.range 16).filter (fun m => (s.memberLane g m).isSome)

/-- A mask of members. -/
def maskOf (l : List Nat) : Nat := l.foldl (fun n m => n ||| 2 ^ m) 0

/-- Members in a mask. -/
def membersIn (mask : Nat) : List Nat := (List.range 16).filter (fun m => mask.testBit m)

/-- RX_OK, RX_ACTIVE, TX_ACTIVE and FAR_RX_OK (R172). -/
abbrev State.rxOk (s : State) (g : Nat) : Nat := s.regFld (sprPage g) 0x2004 31 16
abbrev State.rxActive (s : State) (g : Nat) : Nat := s.regFld (sprPage g) 0x2004 15 0
abbrev State.txActive (s : State) (g : Nat) : Nat := s.regFld (sprPage g) 0x2008 15 0
abbrev State.farRxOk (s : State) (g : Nat) : Nat := s.regFld (sprPage g) 0x2008 31 16

/-! ### Sending (R150, R152, R159) -/

/-- Count a cell of a group in its statistics pairs (R417): kind 0 data or 2 control as sent, one more as delivered; a first cell as 4 or 5. -/
def State.countCell (s : State) (g : Nat) (ctl first rx : Bool) (len : Nat) : State :=
  let n := 0x3F1000 + 8 * g + rx.toNat
  if ctl then s.countFixed (n + 2) 1 len
  else
    let s := s.countFixed n 1 len
    if first then s.countFixed (n + 4) 1 len else s

/-- Put one cell on lane `l`, whose key is `k`: HEC, an injected error (R172), the payload filled with zeros and scrambled with the lane's own
history (R152). -/
def State.putCell (s : State) (k l : Nat) (h : CellHdr) (payload : List Byte) : State :=
  let p := payload.take 248 ++ List.replicate (248 - payload.length) 0#8
  let b := beBytes 7 h.num
  let hec := if s.sprue.badHec.contains k then ~~~(hecOf b) else hecOf b
  let (w, st) := scrRun scrambleByte (Store.get 0 l s.sprue.scr) p
  let x := s.sprue
  { s with sprue := { x with badHec := x.badHec.filter (· != k), scr := Store.set 0 l st x.scr, out := Store.insert k (b ++ [hec] ++ p) x.out, wire := Store.insert k (b ++ [hec] ++ w) x.wire } }

/-- Send one cell on a member, and count it. A control cell takes its SEQ as it goes (R150): link-local ones are counted by lane, others by
destination. -/
def State.sendCell (s : State) (g m : Nat) (h : CellHdr) (payload : List Byte) : State :=
  let k := laneKey g m
  let l := (s.memberLane g m).getD 0
  if !h.ctl then (s.putCell k l h payload).countCell g false h.first false h.len
  else if h.dst = 0xFFF then
    let n := Store.get 0 k s.sprue.seqOut
    let s := { s with sprue := { s.sprue with seqOut := Store.set 0 k ((n + 1) % 65536) s.sprue.seqOut } }
    (s.putCell k l { h with seq := n } payload).countCell g true true false h.len
  else
    let n := Store.get 0 h.dst s.voq.ctlSeq
    let s := { s with voq := { s.voq with ctlSeq := Store.set 0 h.dst ((n + 1) % 65536) s.voq.ctlSeq } }
    (s.putCell k l { h with seq := n } payload).countCell g true true false h.len

/-- The header of a control cell toward a destination, 0xFFF for one of the link, its SEQ to be filled in (R150). -/
def State.ctlHdr (s : State) (dst len : Nat) : CellHdr := ⟨dst, 7, true, s.ownId, true, true, 0, 0, len⟩

/-- A control cell joins those that await a slot of a member, in the control class with buffers of its own (R159). -/
def State.queueCtl (s : State) (k dst len : Nat) (payload : List Byte) : State :=
  { s with sprue := { s.sprue with ctlQ := Store.upd [] k (· ++ [⟨s.ctlHdr dst len, payload, 0, 0⟩]) s.sprue.ctlQ } }

/-- A data cell joins those that await a slot of a member. -/
def State.queueData (s : State) (k : Nat) (h : CellHdr) (payload : List Byte) : State :=
  { s with sprue := { s.sprue with dataQ := Store.upd [] k (· ++ [⟨h, payload, 0, 0⟩]) s.sprue.dataQ } }

/-- A TIME or FLOW_STATUS cell is to go out on a member of an ENABLED group; a DRAINING one accepts no new cells (R168). -/
def State.sendLocal (s : State) (g m len : Nat) (payload : List Byte) : State :=
  if s.enabled (sprPage g) then s.queueCtl (laneKey g m) 0xFFF len payload else s

/-- Cells that a group holds for transmission: its unit of work (R168). -/
def State.cellsHeld (s : State) (g : Nat) : Nat :=
  (List.range 16).foldl (fun n m => n + (Store.get [] (laneKey g m) s.sprue.ctlQ).length + (Store.get [] (laneKey g m) s.sprue.dataQ).length) 0

/-- The cells that a group holds for transmission are discarded. -/
def State.dropCells (s : State) (g : Nat) : State :=
  { s with sprue := { s.sprue with ctlQ := s.sprue.ctlQ.filter (fun (e : Nat × List WaitCell) => e.1 / 16 != g), dataQ := s.sprue.dataQ.filter (fun (e : Nat × List WaitCell) => e.1 / 16 != g) } }

/-- RDI that a member sends (R159, R163, R168): while its RX_OK bit is clear, and always in SAFE. -/
def State.rdiOut (s : State) (g m : Nat) : Bool := !(s.rxOk g).testBit m || s.safe (sprPage g)

/-- An IDLE cell (R158). -/
def State.sendIdle (s : State) (g m : Nat) : State :=
  s.sendCell g m (s.ctlHdr 0xFFF 8) ([1, BitVec.ofNat 8 (s.rdiOut g m).toNat] ++ beBytes 2 (s.cfgFld (sprPage g) 0x100 31 16) ++ [BitVec.ofNat 8 m])

/-- A MARKER on every member lane of a group (R158, R163), with the next MARKER_SEQ. -/
def State.sendMarkers (s : State) (g : Nat) (outOfTurn : Bool) : State :=
  let s := s.incReg (sprPage g) 0x200C
  (s.listed g).foldl (fun s m =>
    if s.memberLive g m then
      s.sendCell g m (s.ctlHdr 0xFFF 16) ([2, BitVec.ofNat 8 ((s.rdiOut g m).toNat + 2 * outOfTurn.toNat)] ++ beBytes 2 (s.cfgFld (sprPage g) 0x100 31 16)
        ++ [BitVec.ofNat 8 m, 0, 0, 0] ++ wordBytes (s.reg (sprPage g) 0x200C) ++ beBytes 2 (s.txActive g) ++ beBytes 2 (s.rxOk g))
    else s) s

/-- A MARKER is owed in the next slot on every member lane of a group (R163); a scheduled one and one out of turn make one (R166). -/
def State.oweMarker (s : State) (g : Nat) (outOfTurn : Bool) : State :=
  let was := (s.sprue.due.find? (fun e => e.1 == g)).any (fun e => e.2)
  { s with sprue := { s.sprue with due := Store.insert g (outOfTurn || was) s.sprue.due } }

/-- The members, over a list of groups, that may take a new cell, as lane keys (R168, R373). -/
def State.txLanes (s : State) (gs : List Nat) : List Nat :=
  (gs.filter (fun g => s.enabled (sprPage g))).flatMap (fun g => (membersIn (s.txActive g)).map (laneKey g))

/-- The next lane in round robin after the one used last, plus 1. -/
def nextLane (lanes : List Nat) (last : Nat) : Option Nat :=
  match lanes.find? (fun k => decide (last ≤ k)) with
  | some k => some k
  | none => lanes.head?

/-- An addressed control cell is to go to a device over its groups (R150, R159); none where no member carries cells. -/
def State.sendControl (s : State) (gs : List Nat) (dst len : Nat) (payload : List Byte) : Option State :=
  match (s.txLanes gs).head? with
  | none => none
  | some k => some (s.queueCtl k dst len payload)

/-! ### Rotations and UP (R162, R163, R167) -/

/-- The conditions of R162 on a member. -/
def State.memberOk (s : State) (g m : Nat) : Bool :=
  let w := s.memStatus g m
  s.memberLive g m && fld w 1 0 == 2 && bit w 2 && !bit w 3 && !bit w 4 && !bit (s.reg (sprPage g) 0x1000) m

/-- The transmit rotation of R163. -/
def State.txWanted (s : State) (g : Nat) : Nat :=
  maskOf ((List.range 16).filter fun m => s.groupSends g && (s.farRxOk g).testBit m && !bit (s.memStatus g m) 8 && s.memberLive g m)

/-- RX_OK bits whose conditions fail are cleared, each counted in REMOVALS; HOLDOFF shows members that wait (R162, R172). -/
def State.dropMembers (s : State) (g : Nat) : State :=
  (List.range 16).foldl (fun s m =>
    let ok := s.memberOk g m
    let on := (s.rxOk g).testBit m
    let s := if on && !ok then
        (s.updReg (sprPage g) 0x2004 (fun w => putBit w (16 + m) false)).incReg (sprPage g) (memReg m 0x14)
      else s
    s.setMemBit g m 5 (ok && !on)) s

/-- MIN_MEMBERS as it acts (R172). -/
def State.minMembers (s : State) (g : Nat) : Nat := orIfZero (s.cfgFld (sprPage g) 0x100 11 8) 1

/-- Bring a group's rotations, counts and UP up to date (R162, R163, R167): a change of RX_OK or of the transmit rotation owes MARKERs out of turn;
`before` is the pair of rotation words before the change. DESIGN CHOICE, unsafe: the receive rotation that UP and RX_COUNT count holds the members
in both RX_OK and RX_ACTIVE (log entry 76). -/
def State.groupEval (s : State) (g : Nat) (before : Word × Word) : State :=
  let pg := sprPage g
  let s := s.dropMembers g
  let s := s.setRegFld pg 0x2008 15 0 (s.txWanted g)
  let rx := (membersIn (s.rxOk g &&& s.rxActive g)).length
  let tx := (membersIn (s.txActive g)).length
  let up := s.groupSends g && decide (s.minMembers g ≤ rx) && decide (s.minMembers g ≤ tx)
  let was := s.groupUp g
  let s := s.updReg pg 0x2000 (fun w => putBit (setFld (setFld w 12 8 rx) 20 16 tx) 0 up)
  let s := if s.reg pg 0x2004 = before.1 ∧ s.regFld pg 0x2008 15 0 = fld before.2 15 0 then s
    else
      let s := s.raise pg 17
      if (s.rxOk g ≠ fld before.1 31 16 ∨ s.txActive g ≠ fld before.2 15 0) ∧ s.groupSends g then s.oweMarker g true else s
  if up = was then s
  else
    let s := s.raise pg 16
    (if up then s else s.orReg pg 0x2000 0x1000000#32).upChanged g up

/-- The rotation words of a group. -/
abbrev State.rotations (s : State) (g : Nat) : Word × Word := (s.reg (sprPage g) 0x2004, s.reg (sprPage g) 0x2008)

/-- Bring a group up to date where nothing of its masks has been written. -/
def State.sprueEval (s : State) (g : Nat) : State := s.groupEval g (s.rotations g)

/-- What the receive side of a group holds is gone. -/
def State.rxClear (s : State) (g : Nat) : State :=
  let x := s.sprue
  { s with sprue := { x with mask := Store.erase g x.mask, marks := Store.erase g x.marks, flowNew := x.flowNew.filter (fun (e : Nat × Nat) => e.1 / 65536 != g), errs := x.errs.filter (fun (e : Nat × List Nat) => e.1 / 16 != g), rxSlot := x.rxSlot.filter (fun (e : Nat × Nat) => e.1 / 16 != g), rxMark := x.rxMark.filter (fun (e : Nat × Nat) => e.1 / 16 != g), held := x.held.filter (fun (e : Nat × List WaitCell) => e.1 / 16 != g) } }

/-- A group leaves service: its members hunt, its rotations empty (R154, R168). -/
def State.groupStop (s : State) (g : Nat) : State :=
  let r := s.rotations g
  let s := (List.range 16).foldl (fun s m => s.setReg (sprPage g) (memReg m 0) 0) (s.rxClear g)
  let s := (s.setRegFld (sprPage g) 0x2004 15 0 0).setRegFld (sprPage g) 0x2008 31 16 0
  s.groupEval g r

/-! ### Configuration (R161) -/

/-- REJECT_CAUSE of a group that enters ENABLING, 0 for none (R161); a group held under the rule is ENABLING like any other. -/
def State.groupCause (s : State) (g : Nat) : Nat :=
  let pg := sprPage g
  let use := s.cfgFld pg 0x100 1 0
  let lanes := (s.listed g).filterMap (fun m => s.memberLane g m)
  let others := (List.range 16).filter (fun h => h != g && s.blk (sprPage h) != 0)
  if s.cfgFld pg 0x100 31 16 = 0 ∨ use = 3 ∨ lanes.isEmpty then 1
  else if (use = 1 ∧ s.topo ≠ 1) ∨ (use = 0 ∧ s.topo ≠ 2) then 2
  else if lanes.any (fun l => s.bankRole (l / 8) != 2) then 3
  else if !lanes.Nodup ∨ others.any (fun h => (s.listed h).any (fun m =>
      match s.memberLane h m with | some x => lanes.any (fun l => l / 8 == x / 8) | none => false)) then 4
  else if use = 2 ∧ others.any (fun h => s.cfgFld (sprPage h) 0x100 1 0 == 2) then 5
  else if lanes.length < s.minMembers g then 6 else 0

/-- A group that has latched its configuration checks it (R161). -/
def State.sprueEnabling (s : State) (g : Nat) : State :=
  let c := s.groupCause g
  let s := s.updReg (sprPage g) 0x2000 (fun w => setFld (putBit w 1 (c ≠ 0)) 4 2 c)
  if c = 0 then s else s.raise (sprPage g) 18

/-! ### Performance bins (R169, R170, R173) -/

/-- Word `i` of bin `b` of entity `e` of a group, in its window array. -/
abbrev binIx (e b i : Nat) : Nat := e * 256 + 4 * b + i

/-- Add to word `i` of the current second of a member (R173). -/
def State.binAdd (s : State) (g e i n : Nat) : State :=
  s.setWinA (sprPage g) (binIx e 0 i) (s.winA (sprPage g) (binIx e 0 i) + word n)

/-- Mark out of SYNC, or UP low, in the current second. -/
def State.binMark (s : State) (g e : Nat) : State := s.setWinA (sprPage g) (binIx e 0 3) 1#32

/-- The ACTIVE_MASK by which a group's slots are read (R164). -/
def State.readMask (s : State) (g : Nat) : Nat := Store.get 0 g s.sprue.mask

/-- The present slot of a member yields no deliverable cell: counted once where the member is read (R164, R169). -/
def State.slotLost (s : State) (g m : Nat) : State :=
  let k := laneKey g m
  if s.sprue.lost.contains k || !(s.readMask g).testBit m then s
  else
    (((({ s with sprue := { s.sprue with lost := Store.addKey k s.sprue.lost } }.binAdd g m 2 1).incReg (sprPage g) 0x2010).incReg (sprPage g)
      (memReg m 0x18))).binAdd g 16 2 1

/-- An errored cell of a member (R162, R169, R173): word 0 or 1 of the current second, of the group too where the member is read; ERR_FAIL once more
than ERR_LIMIT such cells lie within 1 ms. -/
def State.cellErr (s : State) (g m word_ : Nat) : State :=
  let k := laneKey g m
  let now := s.time.cyc
  let l := (Store.get [] k s.sprue.errs).filter (fun c => decide (now < c + 1562500)) ++ [now]
  let s := { s with sprue := { s.sprue with errs := Store.insert k l s.sprue.errs } }.binAdd g m word_ 1
  let s := if (s.readMask g).testBit m then s.binAdd g 16 word_ 1 else s
  if s.cfgFld (sprPage g) 0x114 15 0 < l.length then (s.setMemBit g m 4 true).sprueEval g else s

/-- Leave SYNC or PRESYNC for HUNT (R154, R155); MARKER_LOCK goes with it. `lossOfSync` counts a SYNC_LOSS. -/
def State.toHunt (s : State) (g m : Nat) (lossOfSync : Bool) : State :=
  let s := if lossOfSync then s.incReg (sprPage g) (memReg m 0x10) else s
  let s := s.updReg (sprPage g) (memReg m 0) (fun w => putBit (setFld w 1 0 0) 2 false)
  let s := { s with sprue := { s.sprue with good := Store.set 0 (laneKey g m) 0 s.sprue.good } }
  (s.binMark g m).sprueEval g

/-- The present second of every entity of a group makes its interval SUSPECT (R170). -/
def State.binSuspect (s : State) (g : Nat) : State :=
  let keys : List Nat := (800 + g) :: (List.range 16).map (fun m => 500 + laneKey g m)
  { s with sprue := { s.sprue with susp := keys.foldl (fun l k => Store.addKey k l) s.sprue.susp } }

/-- A step of the time base makes the current intervals suspect (R170). -/
def State.binsStepped (s : State) : State := (List.range 16).foldl (fun s g => s.binSuspect g) s

/-- Copy the four words of a bin. -/
def State.binCopy (s : State) (g e src dst : Nat) : State :=
  (List.range 4).foldl (fun s i => s.setWinA (sprPage g) (binIx e dst i) (s.winA (sprPage g) (binIx e src i))) s

/-- Clear a bin. -/
def State.binClear (s : State) (g e b : Nat) : State := (List.range 4).foldl (fun s i => s.setWinA (sprPage g) (binIx e b i) 0) s

/-- A second of an entity goes to its bins (R170): `words` are those of ES, SES and UAS that count; bins 1 and 34 move to history after the last
second of their interval. -/
def State.binCommit (s : State) (g e sec : Nat) (words : List Nat) (suspect : Bool) : State :=
  let s := [1, 34].foldl (fun s b =>
    let s := words.foldl (fun (s : State) i => s.setWinA (sprPage g) (binIx e b i) (s.winA (sprPage g) (binIx e b i) + 1)) s
    s.setWinA (sprPage g) (binIx e b 3) (s.winA (sprPage g) (binIx e b 3) ||| (if suspect then 3#32 else 1#32))) s
  let s := if sec % 900 = 899 then
      ((List.range 32).foldl (fun s k => s.binCopy g e (32 - k) (33 - k)) s).binClear g e 1 else s
  if sec % 86400 = 86399 then (s.binCopy g e 34 35).binClear g e 34 else s

/-! ### Error seconds (R142, R169) -/

/-- The key of a unit's history. -/
def secKey : SecUnit → Nat
  | .port p => p.val | .lane l => 200 + l.val | .mgmt => 400 | .member g m => 500 + laneKey g.val m.val | .group g => 800 + g.val

/-- Members times cycles of a group's receive rotation in the second so far (R169). -/
def State.rotCycles (s : State) (g : Nat) : Nat :=
  let e := Store.get (0, 0) g s.sprue.rot
  e.2 + (membersIn (s.readMask g)).length * (s.time.cyc - e.1)

/-- Whether a unit's second counted SES and ES (R142, R169): `lost` slots of `slots` make a CLR of 10^-3; a slot is 16 cycles. -/
def State.secOf (s : State) (u : SecUnit) (t : SecTally) : Bool × Bool :=
  match u with
  | .member g m =>
    let w := fun i => (s.winA (sprPage g.val) (binIx m.val 0 i)).toNat
    (decide (97656250 ≤ w 2 * 1000) || w 3 != 0, w 0 != 0 || w 1 != 0 || w 3 != 0)
  | .group g =>
    let w := fun i => (s.winA (sprPage g.val) (binIx 16 0 i)).toNat
    ((w 2 != 0 && decide (s.rotCycles g.val ≤ w 2 * 16000)) || w 3 != 0, w 0 != 0 || w 1 != 0 || w 2 != 0 || w 3 != 0)
  | _ => (decide (300 ≤ t.blocks) || t.defect, decide (1 ≤ t.blocks) || t.defect)

/-- Count a committed second of a unit (R142, R170) as ES, SES or UAS; the bins of a Sprue entity move on whether it counts or not. -/
def State.secCount (s : State) (u : SecUnit) (es ses uas suspect : Bool) : State :=
  let words := (if es then [0] else []) ++ (if ses then [1] else []) ++ (if uas then [2] else [])
  let go := fun (s : State) (pg off : Nat) => words.foldl (fun (s : State) i => s.incReg pg (off + 4 * i)) s
  match u with
  | .port p => go s (bankPage p.val) (0x2100 + 0x40 * (p.val % 8) + 0x28)
  | .lane l => go s (pgBank + l.val / 8) (0x2400 + 0x20 * (l.val % 8))
  | .mgmt => go s pgMgmt 0x201C
  | .member g m => s.binCommit g.val m.val (s.nowSec - 11) words suspect
  | .group g => s.binCommit g.val 16 (s.nowSec - 11) words suspect

/-- The page and event bit of a unit's UAS_CHANGE (R143, R172); MGMT has no such event bit. -/
def secEvent (u : SecUnit) : Option (Nat × Nat) :=
  match u with
  | .port p => some (bankPage p.val, 19) | .lane l => some (pgBank + l.val / 8, 19) | .mgmt => none
  | .member g _ => some (sprPage g.val, 19) | .group g => some (sprPage g.val, 19)

/-- Commit the oldest second of a history of eleven (R142): unavailable time begins at the first of ten consecutive SES and ends at the first of
ten consecutive seconds without. DESIGN CHOICE, unsafe: a second that does not count breaks a run of ten of either kind (log entry 132). -/
def State.secCommit (s : State) (u : SecUnit) (h : SecHist) : State × SecHist :=
  match h.ended with
  | [] => (s, h)
  | r :: rest =>
    let ten := h.ended.take 10
    let un := if h.unavail then !ten.all (fun x => x.counts && !x.ses) else ten.all (fun x => x.counts && x.ses)
    let s := match (if un = h.unavail then none else secEvent u) with | some e => s.raise e.1 e.2 | none => s
    (s.secCount u (r.counts && !un && r.es) (r.counts && !un && r.ses) (r.counts && un) r.suspect, ⟨rest, un⟩)

/-- Whether a unit counts seconds (R142, R146, R169). -/
def State.secRuns (s : State) (u : SecUnit) : Bool :=
  match u with
  | .port p => s.adminUp p.val
  | .mgmt => s.adminUp 241
  | .member g _ | .group g => s.blk (sprPage g.val) != 0
  | .lane _ => true

/-- What a second leaves behind besides its classification: codewords, PRBS errors where the lane's checker runs (R143), and the raw counts of a
Sprue entity cleared (R170). -/
def State.secTake (s : State) (u : SecUnit) (t : SecTally) : State :=
  match u with
  | .member g m => s.binClear g.val m.val 0
  | .group g => { s with sprue := { s.sprue with rot := Store.insert g.val (s.time.cyc, 0) s.sprue.rot } }.binClear g.val 16 0
  | .lane l =>
    let pg := pgBank + l.val / 8
    if bit (s.reg pg 0x1008) (16 + l.val % 8) && t.prbs != 0 then
      (s.addReg pg (0x2400 + 0x20 * (l.val % 8) + 0x10) t.prbs).orReg pg 0x200C (oneBit (16 + l.val % 8))
    else s
  | .port p => (s.addReg (bankPage p.val) (0x2100 + 0x40 * (p.val % 8) + 0x20) t.fecCorr).addReg (bankPage p.val) (0x2100 + 0x40 * (p.val % 8) + 0x24) t.fecUncorr
  | .mgmt => s

/-- Whether a second in which a Sprue group was not ENABLED throughout makes its interval suspect (R170). -/
def State.secSuspect (s : State) (u : SecUnit) : Bool :=
  s.sprue.susp.contains (secKey u) || (match u with | .member g _ | .group g => !s.enabled (sprPage g.val) | _ => false)

/-- A second of a unit has just ended (R142, R169, R170): it joins the history, and the second that ended 10 s before is committed. -/
def execSecondCommit (u : SecUnit) (t : SecTally) (s : State) : Out :=
  if s.stands then .next s else
  let h := Store.get ⟨[], false⟩ (secKey u) s.port.secs
  let (ses, es) := s.secOf u t
  let h := { h with ended := h.ended ++ [⟨ses, es, s.secRuns u, s.secSuspect u⟩] }
  let s := s.secTake u t
  let s := { s with sprue := { s.sprue with susp := s.sprue.susp.filter (fun (k : Nat) => k != secKey u) } }
  let (s, h) := if h.ended.length ≤ 10 then (s, h) else s.secCommit u h
  .next { s with port := { s.port with secs := Store.set ⟨[], false⟩ (secKey u) h s.port.secs } }

/-! ### Delineation (R154, R155) -/

/-- A header candidate at a received byte position (R154): in HUNT any position is tried; in PRESYNC the position 256 bytes on
(`expected`). `payload` is what follows it, from which the descrambler takes its history (R152). -/
def execHeaderCandidate (g m : Fin 16) (hdr : BitVec 64) (payload : List Byte) (expected : Bool) (s : State) : Out :=
  if s.stands then .next s else
  let g := g.val
  let m := m.val
  let k := laneKey g m
  if !s.memberLive g m then .next s
  else
    let l := (s.memberLane g m).getD 0
    let s := s.laneRise l
    let hist := (scrRun descrambleByte (Store.get 0 l s.sprue.descr) payload).2
    let keep := fun (s : State) (n : Nat) =>
      { s with sprue := { s.sprue with good := Store.set 0 k n s.sprue.good, descr := Store.set 0 l hist s.sprue.descr } }
    let ok := hecOk hdr
    if s.delin g m = 0 then
      (if ok then .next (keep (s.setRegFld (sprPage g) (memReg m 0) 1 0 1) 0) else .next s)
    else if s.delin g m = 1 ∧ expected then
      if !ok then .next (s.toHunt g m false)
      else
        let n := Store.get 0 k s.sprue.good + 1
        if n = 6 then .next ((keep (s.setRegFld (sprPage g) (memReg m 0) 1 0 2) 0).sprueEval g)
        else .next (keep s n)
    else .next s

/-- A wrong header at the expected position in SYNC (R154, R164): the cell is discarded; the seventh in a row loses SYNC. -/
def State.badHeader (s : State) (g m : Nat) : State :=
  let k := laneKey g m
  let n := Store.get 0 k s.sprue.good + 1
  let s := ((s.incReg (sprPage g) (memReg m 0x08)).cellErr g m 0).slotLost g m
  if n = 7 then s.toHunt g m true else { s with sprue := { s.sprue with good := Store.set 0 k n s.sprue.good } }

/-- No MARKER with a correct HEC for 16,384 slots (R155). -/
def execMarkerTimeout (g m : Fin 16) (s : State) : Out :=
  if s.stands then .next s else
  if s.delin g.val m.val = 2 then .next (s.toHunt g.val m.val true) else .next s

/-- A member lane loses signal or FEC alignment (R143, R154): its delineation hunts. -/
def execLossOfSignal (g m : Fin 16) (s : State) : Out :=
  if s.stands then .next s else
  match s.memberLane g.val m.val with
  | none => .next s
  | some l =>
    let s := s.laneFall l true
    if s.delin g.val m.val = 0 then .next (s.sprueEval g.val) else .next (s.toHunt g.val m.val false)

/-- Whether a member's MARKER is missing (R165): 2 µs, 3,125 cycles, have passed since the earliest of its MARKER_SEQ, and it has not come. -/
def State.markMissing (s : State) (g m : Nat) : Bool :=
  match s.sprue.marks.find? (fun e => e.1 == g) with
  | some (_, x) => decide (x.cyc + 3125 ≤ s.time.cyc) && !s.sprue.rxMark.any (fun e => e.1 == laneKey g m && e.2 == x.seq)
  | none => false

/-- A member's MARKER has not arrived 2 µs after the earliest (R165). -/
def execSkewFail (g m : Fin 16) (s : State) : Out :=
  if s.stands then .next s else
  if s.memberLive g.val m.val && s.markMissing g.val m.val then .next ((s.setMemBit g.val m.val 3 true).sprueEval g.val) else .next s

/-! ### Members, markers, idle cells (R162-R164) -/

/-- The conditions of R162 have held for HOLDOFF, so that no window of 1 ms exceeded ERR_LIMIT: the RX_OK bit is set. -/
def execMemberAccept (g m : Fin 16) (s : State) : Out :=
  if s.stands then .next s else
  let g := g.val
  let m := m.val
  let r := s.rotations g
  let s' := s.setMemBit g m 4 false
  if !s'.memberOk g m || !s.groupSends g then .next s
  else .next ((s'.updReg (sprPage g) 0x2004 (fun w => putBit w (16 + m) true)).groupEval g r)

/-- Errored and discarded cells of a member within the last 1 ms (R162). -/
def State.errsInMs (s : State) (g m : Nat) : Nat :=
  ((Store.get [] (laneKey g m) s.sprue.errs).filter (fun c => decide (s.time.cyc < c + 1562500))).length

/-- A condition of R162 is looked at: for the error limit, ERR_FAIL shows whether more than ERR_LIMIT errored cells lie within the last 1 ms; a failing
condition clears the RX_OK bit. -/
def execMemberRemove (g m : Fin 16) (cond : MemberCond) (s : State) : Out :=
  if s.stands then .next s else
  if !s.memberLive g.val m.val then .next (s.sprueEval g.val)
  else if cond ≠ .errLimit then .next (s.sprueEval g.val)
  else .next ((s.setMemBit g.val m.val 4 (decide (s.cfgFld (sprPage g.val) 0x114 15 0 < s.errsInMs g.val m.val))).sprueEval g.val)

/-- SKEW_LIMIT in ns (R172). -/
def State.skewLimit (s : State) (g : Nat) : Nat :=
  let v := s.cfgFld (sprPage g) 0x114 23 16
  if v = 0 ∨ 200 < v then 2000 else 10 * v

/-- RDI received on a member (R163). -/
def State.rdiIn (s : State) (g m : Nat) (rdi : Bool) : State :=
  if bit (s.memStatus g m) 8 == rdi then s else (s.setMemBit g m 8 rdi).sprueEval g

/-- A slot of a member has come in (R164, R165). -/
def State.rxStep (s : State) (g m : Nat) : State :=
  { s with sprue := { s.sprue with rxSlot := Store.upd 0 (laneKey g m) (· + 1) s.sprue.rxSlot } }

/-- An IDLE cell is received on a member in SYNC (R158, R163). -/
def execIdleRx (g m : Fin 16) (rdi : Bool) (s : State) : Out :=
  if s.stands then .next s else
  if s.memberLive g.val m.val && s.delin g.val m.val == 2 then .next ((s.rdiIn g.val m.val rdi).rxStep g.val m.val) else .next s

/-- The lag in ns of a member's correct MARKER behind the earliest of its MARKER_SEQ (R165), none where a later one has come already; members are
aligned by it: all MARKERs of a number came in one slot. -/
def State.markLag (s : State) (g m seq : Nat) : Option Nat × State :=
  let k := laneKey g m
  let x := s.sprue
  let now := s.time.cyc
  let mark := fun (x : SprueSt) => { x with rxMark := Store.insert k seq x.rxMark }
  match x.marks.find? (fun e => e.1 == g) with
  | some (_, f) =>
    if f.seq = seq then (some (min 65535 ((now - f.cyc) * 64 / 100)), { s with sprue := mark { x with rxSlot := Store.insert k f.slot x.rxSlot } })
    else if (f.seq + 2 ^ 32 - seq) % 2 ^ 32 < 2 ^ 31 then (none, { s with sprue := mark x })
    else (some 0, { s with sprue := mark { x with marks := Store.insert g ⟨seq, Store.get 0 k x.rxSlot, now⟩ x.marks } })
  | none => (some 0, { s with sprue := mark { x with marks := Store.insert g ⟨seq, Store.get 0 k x.rxSlot, now⟩ x.marks } })

/-- A MARKER is received on a member (R162-R165): RDI, lock, mismatch flags, skew; a correct one clears the flags and gives the far end's masks. -/
def State.markerIn (s : State) (g m : Nat) (rdi : Bool) (gid mem seq active rx : Nat) : State :=
  let pg := sprPage g
  let r := s.rotations g
  let idBad := gid != s.cfgFld pg 0x100 31 16
  let memBad := mem != m
  let s := s.setMemBit g m 8 rdi
  let s :=
    if idBad || memBad then s.updReg pg (memReg m 0) (fun w => putBit (putBit (putBit w 6 (bit w 6 || idBad)) 7 (bit w 7 || memBad)) 2 false)
    else
      let (lag, s) := (s.updReg pg (memReg m 0) (fun w => putBit (putBit (putBit w 6 false) 7 false) 2 true)).markLag g m seq
      let s := match lag with
        | some l => (s.setRegFld pg (memReg m 4) 15 0 l).setMemBit g m 3 (decide (s.skewLimit g < l))
        | none => s.setMemBit g m 3 true
      (s.setRegFld pg 0x2004 15 0 active).setRegFld pg 0x2008 31 16 rx
  s.groupEval g r

/-- A MARKER cell is received on a member in SYNC. -/
def execMarkerRx (g m : Fin 16) (rdi : Bool) (gid : BitVec 16) (mem : BitVec 4) (seq : BitVec 32) (active rx : BitVec 16) (s : State) : Out :=
  if s.stands then .next s else
  if s.memberLive g.val m.val && s.delin g.val m.val == 2 then
    .next ((s.markerIn g.val m.val rdi gid.toNat mem.toNat seq.toNat active.toNat rx.toNat).rxStep g.val m.val)
  else .next s

/-- 8,192 slots have passed since the last MARKER (R163). -/
def execMarkerTx (g : Fin 16) (s : State) : Out := if s.stands then .next s else .next (if s.groupSends g.val then s.oweMarker g.val false else s)

/-- TEST_CTRL is written (R172): MEMBER is held; BAD_HEC makes the next cell on MEMBER carry a wrong HEC. -/
def State.testCtrl (s : State) (g : Nat) (badHec : Bool) : State :=
  if badHec then { s with sprue := { s.sprue with badHec := Store.addKey (laneKey g (s.regFld (sprPage g) 0x1004 3 0)) s.sprue.badHec } } else s

/-! ### FLOW_STATUS (R160) -/

/-- The key of a FLOW_STATUS entry in force: a device, or all devices on a member. -/
def flowKey (g m dev : Nat) : Nat := g * 65536 + (if dev = 0xFFF then 0x1000 + m else dev)

/-- A FLOW_STATUS cell is received on a member (R160): its entries act from the next slot (R166). -/
def State.flowIn (s : State) (g m : Nat) (es : List (Nat × Nat)) : State :=
  let s := s.incReg (sprPage g) 0x2028
  { s with sprue := { s.sprue with flowNew := s.sprue.flowNew ++ es.map (fun e => (flowKey g m e.1, e.2 % 256)) } }

/-- The entries received in the slot that ends come into force (R160, R166). -/
def State.flowTake (s : State) : State :=
  let f := s.sprue.flowNew.foldl (fun l e => Store.set 0 e.1 e.2 l) s.sprue.flow
  { s with sprue := { s.sprue with flow := f, flowNew := [] } }

/-- A FLOW_STATUS cell is received: entries of DEVICE and XOFF. -/
def execFlowStatusRx (g m : Fin 16) (entries : List (BitVec 12 × Byte)) (s : State) : Out :=
  if s.stands then .next s else
  if s.memberLive g.val m.val && s.delin g.val m.val == 2 then
    .next ((s.flowIn g.val m.val (entries.map (fun e => (e.1.toNat, e.2.toNat)))).rxStep g.val m.val)
  else .next s

/-- 50 µs pass without a refresh of an entry (R160). DESIGN CHOICE, unsafe: an entry whose XOFF is 0 stops nothing and is not kept, so that it expires
without a count in FLOW_EXPIRED (log entry 133). -/
def execFlowStatusExpire (g m : Fin 16) (dev : BitVec 12) (s : State) : Out :=
  if s.stands then .next s else
  let k := flowKey g.val m.val dev.toNat
  if Store.get 0 k s.sprue.flow = 0 then .next s
  else .next ({ s with sprue := { s.sprue with flow := Store.erase k s.sprue.flow } }.incReg (sprPage g.val) 0x202C)

/-- Whether a class may not start a data cell to a device over a group (R160). -/
def State.flowStopsDev (s : State) (g dev c : Nat) : Bool := (Store.get 0 (g * 65536 + dev) s.sprue.flow).testBit c

/-- Whether a class may not start a data cell on a member (R160). -/
def State.flowStopsMember (s : State) (g m c : Nat) : Bool := (Store.get 0 (g * 65536 + 0x1000 + m) s.sprue.flow).testBit c

/-! ### The slot (R148, R159, R164, R166) -/

/-- The lanes of enabled TRUNK banks that no ENABLED group names (R159, R168). -/
def State.spareLanes (s : State) : List Nat :=
  (List.range 20).flatMap fun n =>
    if s.enabled (pgBank + n) && s.bankRole n == 2 then
      (List.range' (8 * n) 8).filter (fun l => !(List.range 16).any (fun g => s.groupRuns g && (List.range 16).any (fun m => s.memberLane g m == some l)))
    else []

/-- A lane that no group names sends IDLE with RDI and GROUP_ID 0 (R159). Its key is 256 + lane. -/
def State.spareIdle (s : State) (l : Nat) : State :=
  let k := 256 + l
  let n := Store.get 0 k s.sprue.seqOut
  let s := { s with sprue := { s.sprue with seqOut := Store.set 0 k ((n + 1) % 65536) s.sprue.seqOut } }
  s.putCell k l { s.ctlHdr 0xFFF 8 with seq := n } [1, 1]

/-- Cells that wait on a member outside the transmit rotation go to the first member of it, but for those of its own link (R163, R166). -/
def State.rehome (s : State) (g : Nat) : State :=
  match membersIn (s.txActive g) with
  | [] => s
  | a :: _ =>
    ((s.listed g).filter (fun m => !(s.txActive g).testBit m)).foldl (fun (s : State) m =>
      let x := s.sprue
      let c := Store.get [] (laneKey g m) x.ctlQ
      let d := Store.get [] (laneKey g m) x.dataQ
      if c.all (fun y => y.hdr.dst == 0xFFF) && d.isEmpty then s
      else
        let ctl := Store.upd [] (laneKey g a) (· ++ c.filter (fun y => y.hdr.dst != 0xFFF)) (Store.set [] (laneKey g m) (c.filter (fun y => y.hdr.dst == 0xFFF)) x.ctlQ)
        { s with sprue := { x with ctlQ := ctl, dataQ := Store.upd [] (laneKey g a) (· ++ d) (Store.erase (laneKey g m) x.dataQ) } }) s

/-- Whether a data cell may start on a member now: no FLOW_STATUS stops its class (R160). -/
def State.mayStartCell (s : State) (g m : Nat) (c : WaitCell) : Bool := !s.flowStopsDev g c.hdr.dst c.hdr.cls && !s.flowStopsMember g m c.hdr.cls

/-- What a live member sends in a slot (R38, R159): a control cell before a data cell, IDLE where it has neither, IDLE alone in SAFE. -/
def State.sendSlot (s : State) (g m : Nat) : State :=
  let k := laneKey g m
  if s.safe (sprPage g) then s.sendIdle g m
  else match Store.get [] k s.sprue.ctlQ with
  | c :: t => { s with sprue := { s.sprue with ctlQ := Store.set [] k t s.sprue.ctlQ } }.sendCell g m c.hdr c.payload
  | [] =>
    let q := Store.get [] k s.sprue.dataQ
    match (if (s.txActive g).testBit m then q.findIdx? (s.mayStartCell g m) else none) with
    | some i => match q[i]? with
      | some c => { s with sprue := { s.sprue with dataQ := Store.set [] k (q.eraseIdx i) s.sprue.dataQ } }.sendCell g m c.hdr c.payload
      | none => s.sendIdle g m
    | none => s.sendIdle g m

/-- The far end's last ACTIVE_MASK becomes the one by which slots are read (R164). -/
def State.takeMask (s : State) (g : Nat) : State :=
  if s.readMask g = s.rxActive g then s
  else { s with sprue := { s.sprue with rot := Store.insert g (s.time.cyc, s.rotCycles g) s.sprue.rot, mask := Store.set 0 g (s.rxActive g) s.sprue.mask } }

/-- A cell slot ends on every group and the next begins (R159, R163, R164, R166, R169). What came in it takes effect; a member that is out of SYNC,
or whose bank is not ENABLED, has lost it; then a group that owes a MARKER sends it on every member lane, and another sends what each member has. -/
def State.sprueSlot (s : State) : State :=
  let s := s.flowTake
  let s := (List.range 16).foldl (fun s g =>
    if !s.groupRuns g then s
    else
      let s := (s.listed g).foldl (fun s m =>
        if s.memberLive g m && s.delin g m == 2 then s else (s.slotLost g m).binMark g m) s
      let s := if s.groupUp g then s else s.binMark g 16
      let s := (s.takeMask g).rehome g
      match s.sprue.due.find? (fun e => e.1 == g) with
      | some e =>
        if s.groupSends g then { s with sprue := { s.sprue with due := Store.erase g s.sprue.due } }.sendMarkers g e.2
        else { s with sprue := { s.sprue with due := Store.erase g s.sprue.due } }
      | none => (s.listed g).foldl (fun s m => if s.memberLive g m then s.sendSlot g m else s) s) s
  let s := s.spareLanes.foldl (fun s l => s.spareIdle l) s
  { s with sprue := { s.sprue with lost := [] } }

end Sys2Proof.Machine
end

