-- ==== Sys2Proof/Machine/Relay.lean ====
section
/-! DEFINITION. What leaves for the other device when a command or a write is accepted: relays over the joint (R389, R390), and the
journal's record of a write (R402). What the other device does with them is in Pair. -/
namespace Sys2Proof.Machine

/-! ### The mirror set (R389) -/

/-- Whether the word at offset `o` of page `p` is a domain control of TIME (R334, R389). -/
def domWord (p o : Nat) : Bool := p == pgTime && decide (0x1040 ≤ o) && decide (o < 0x1080) && decide (o % 32 ≤ 0x18)

/-- The words of mirrored pages that belong to each device alone (R389), and the fence words, which are held per agent. -/
def mirrorOut (p o : Nat) : Bool :=
  (p == pgParse && decide (0x400 ≤ o) && decide (o < 0x480))
    || (p == pgClassify && decide (0x140 ≤ o) && decide (o < 0x180))
    || (p == pgTables && ((decide (0xB000 ≤ o) && decide (o < 0xB400)) || o == 0x1000 || o == 0x1004))
    || (p == pgLearn && decide (0x8000 ≤ o))
    || (p == pgPolice && decide (0x1400 ≤ o) && decide (o < 0x2000))

/-- The pages whose every word is mirrored, but for `mirrorOut`. -/
def mirrorPages : List Nat := [pgParse, pgClassify, pgEpoch, pgTables, pgLearn, pgMcast, pgPolice]

/-- Whether a word belongs to the mirror set (R389). -/
def mirrorWord (p o : Nat) : Bool :=
  (p == pgGlobal && (o == 0x100 || o == 0x104)) || domWord p o || (mirrorPages.contains p && !mirrorOut p o)

/-- The lead of a joined pair, which relays what it takes (R389); on a standby joint it relays nothing (R413). -/
def State.leadJoined (s : State) : Bool := s.topo == 1 && s.ownDev == 0 && s.twicel == 2 && s.role != 2

/-- The partner of a joined pair (R391). -/
def State.partnerJoined (s : State) : Bool := s.topo == 1 && s.ownDev == 1 && s.twicel == 2

/-! ### CONFIG_RELAY cells (R158, R390) -/

/-- The payload of a CONFIG_RELAY cell: its flags, RELAY_SEQ, COUNT, ADDRESS, MASK, data words and CRC (R158). -/
def relayBytes (flags seq count : Nat) (addr mask : Word) (data : List Word) : List Byte :=
  let b := [9, BitVec.ofNat 8 flags] ++ beBytes 2 (seq % 65536) ++ beBytes 2 count ++ [0, 0] ++ wordBytes addr ++ wordBytes mask
    ++ data.flatMap wordBytes
  b ++ wordBytes (crc32 b)

/-- The joint as a list of groups. -/
def State.jointGroups (s : State) : List Nat := match s.groupOfUse 1 with | some g => [g] | none => []

/-- Send a CONFIG_RELAY cell to the other device over the joint, where a member carries it. -/
def State.sendRelayCell (s : State) (flags seq : Nat) (addr mask : Word) (data : List Word) : State :=
  (s.sendControl s.jointGroups s.otherDev (20 + 4 * data.length) (relayBytes flags seq data.length addr mask data)).getD s

/-- The flags of a relay (R158, R390). A READ carries COUNT zero words in place of the words it asks for (log entry 16). -/
def Relay.flags (r : Relay) : Nat := 2 * r.mask.isSome.toNat + 4 * r.read.toNat + 8 * r.probe.toNat + 16 * r.fixed.toNat

/-- Send one relay. -/
def State.sendRelay (s : State) (r : Relay) : State := s.sendRelayCell r.flags r.seq r.addr (r.mask.getD 0) r.data

/-- Send the relays among the first 64 that have not been sent (R390), each counted in RELAYS. -/
def State.pumpRelays (s : State) : State :=
  let fresh := (s.pair.relays.take 64).filter (fun r => r.tries == 0)
  let mark := fun (r : Relay) => if r.tries = 0 then { r with tries := 1 } else r
  let l := (s.pair.relays.take 64).map mark ++ s.pair.relays.drop 64
  fresh.foldl (fun s r => (s.sendRelay r).incReg pgPair 0x202C) { s with pair := { s.pair with relays := l } }

/-- Number a relay and queue it (R390). -/
def State.putRelay (s : State) (r : Relay) : State :=
  let n := s.pair.relayNext
  { s with pair := { s.pair with relays := s.pair.relays ++ [{ r with seq := n }], relayNext := n + 1 } }.pumpRelays

/-- Cut a list into pieces of at most `n`. -/
def pieces {α : Type} (n : Nat) : Nat → List α → List (List α)
  | 0, _ => []
  | k + 1, l => if l.isEmpty then [] else l.take n :: pieces n k (l.drop n)

/-- Relay consecutive words, or words at one address where FIXED, in relays of at most 56 (R390). -/
def State.relayWords (s : State) (agent : Nat) (mirror read fixed : Bool) (addr : Nat) (mask : Option Word) (data : List Word) : State :=
  ((pieces 56 data.length data).foldl (fun (acc : State × Nat) l =>
    let r : Relay := ⟨0, agent, mirror, read, false, fixed, word acc.2, mask, l.length, l, 0⟩
    (acc.1.putRelay r, if fixed then acc.2 else acc.2 + 4 * l.length)) (s, addr)).1

/-- Send the partner words that are no write of a register (R251, R393, R397): a MASKED relay with MASK 0 and at least two words, which no
command or store makes (log entry 24). -/
def State.relayTold (s : State) (agent addr : Nat) (l : List Word) : State := s.relayWords agent false false false addr (some 0) l

/-- A time of the time base as the words that relays and records carry it in (R404, log entries 21 and 24). -/
def dueWords (ns : Nat) : List Word := [word (ns / 1000000000 / 2 ^ 32), word (ns / 1000000000), word (ns % 1000000000)]

/-- The last relay that is outstanding for an agent (R392). -/
def State.lastRelay (s : State) (agent : Nat) : Option Nat := ((s.pair.relays.filter (fun r => r.agent == agent)).getLast?).map Relay.seq

/-! ### The journal's record of a write (R402) -/

/-- Whether a write to a word is journalled: not to pages that each device keeps alone, nor the pair group's SPRUE page, nor
DEVICE_CFG and TIME_CFG. -/
def State.journalled (s : State) (p o : Nat) : Bool :=
  !([pgBellows, pgClocks, pgRoles, pgHostif, pgCpctl, pgPstore, pgLocks, pgDebug, pgPair].contains p)
    && !(match s.groupOfUse 2 with | some g => p == pgSprue + g | none => false)
    && !(p == pgVoq && o == 0x100) && !(p == pgTime && o == 0x100)

/-- Record an accepted write while RELAY_EN = 1 (R402, R404). -/
def State.journalWrite (s : State) (p o : Nat) (mask data : Word) : State :=
  if bit (s.cfg pgPair 0x100) 1 && s.journalled p o then s.journal 2 1 [word (0x40000000 + p * 0x10000 + o), mask, data] else s

end Sys2Proof.Machine
end

