-- ==== Sys2Proof/Machine/Commit.lean ====
section
/-! DEFINITION. The commit operation (R244-R251, R407): waiting, arming and switching, alone, joined with a partner, or driven by the
other device; lateness, and what ends a commit before its switch. -/
namespace Sys2Proof.Machine

/-! ### What the lead tells its partner (R251) -/

/-- The word to which a relay about a mirror commit goes (log entry 24). -/
abbrev commitAddr : Nat := 0x40522024

/-- EPOCH_CFG.PAIR_LEAD in ns, at least 20 µs. -/
def State.pairLead (s : State) : Nat := 1000 * max 20 (s.cfgFld pgEpoch 0x100 31 16)

/-- Send T and the number that becomes standing (R251). -/
def State.relayArm (s : State) (r : OpRec) (t : Nat) : State :=
  s.relayTold r.starter commitAddr (dueWords t ++ [word s.pendingNo])

/-- Withdraw T from the partner, where the commit has sent it. -/
def State.relayAbort (s : State) (r : OpRec) : State :=
  if r.paired && r.phase == phArmed && s.leadJoined then s.relayTold r.starter commitAddr [0, 0] else s

/-- A commit is cancelled (R248): every pending slot is freed, a joined partner's too (R251). -/
def State.freeBoth (s : State) (r : OpRec) : State :=
  (if s.leadJoined then s.relayTold r.starter commitAddr [0, 1] else s).freePending

/-- Ask the partner whether its mirror commit is in WAIT without a retiring epoch (1) or has merged (2), unless an answer is awaited (R245, R251). -/
def State.askPartner (s : State) (r : OpRec) (k : Word) : State :=
  if s.pair.relays.any (fun x => x.addr == word commitAddr && x.mask == some 0) then s else s.relayTold r.starter commitAddr [k, word s.pendingNo]

/-- A commit is no longer in progress. -/
def State.dropCommit (s : State) : State := { s with tab := { s.tab with commit := none, switchAt := none, switchNo := none, mirror := 0 } }

/-- A commit ends FAILED before its switch; its pending slots stay. -/
def State.failCommit (s : State) (slot : Nat) (r : OpRec) (res : Status) : State :=
  (((s.setOp slot (s.opShown r)).relayAbort r).endOp slot .failed res).dropCommit

/-! ### The switch -/

/-- The switch of a commit (R245): a commit of nothing is DONE at S, but for one that a partner mirrors. -/
def State.switchEpoch (s : State) (slot : Nat) (r : OpRec) (late : Bool) : State :=
  let st := s.standing
  let pe := s.pendingNo
  let n := s.ovlCount .pending
  let s := { s with tab := { s.tab with mirror := 0 } }
  let s := s.advanceEpoch pe late (s.auditRec r.starter r.rights.toNat r.session.toNat 0x07 0 pgEpoch 0 (word pe) 0)
  let s := s.setOp slot ({ r with phase := phMerge, progress := 0, total := word n }.setDetail 4 (word (pe + st * 65536)) |>.setDetail 5 (word s.nowSub))
  if n = 0 && !r.paired then s.commitDone slot else s

/-- A switch that the other device drives (R251, R398, R407): its number becomes standing. A mirror commit has left the wait without a retiring epoch;
a standby, which no frame enters, retires one at once. -/
def State.drivenSwitch (s : State) (no : Nat) : State :=
  let s := if s.retiring.isSome then s.retire else s
  (s.advanceEpoch no false (s.auditRec 0 0 0 0x07 0 pgEpoch 0 (word no) 0)).clrReg pgPair 0x2000 8#32

/-- A commit leaves the wait (R245, R247, R251): late where T has passed; a joined lead tells its partner T, the journal's EPOCH_ARM names
T to a standby. -/
def State.armCommit (s : State) (slot : Nat) (r : OpRec) : State :=
  let late := r.atTime && s.past r.commitT
  let armed := { r with phase := phArmed, total := word (s.ovlCount .pending), paired := s.leadJoined }
  if late && !r.lateOk then ((s.setOp slot (s.opShown r)).endOp slot .failed .tooLate).dropCommit
  else if s.leadJoined then
    let t := if r.atTime && !late then r.commitT else s.nowNs + s.pairLead
    let s := { s.setOp slot armed with tab := { s.tab with switchAt := some t, switchNo := none } }
    (s.relayArm armed t).journal 4 0 (word s.pendingNo :: dueWords t)
  else if late then s.switchEpoch slot armed true
  else if r.atTime then
    { s.setOp slot armed with tab := { s.tab with switchAt := some r.commitT } }.journal 4 0 (word s.pendingNo :: dueWords r.commitT)
  else s.setOp slot armed

/-- An ARMED commit with a partner (R251): it switches at T if the partner has acknowledged it by T - 10 µs, and else is aborted. -/
def State.pairedSwitch (s : State) (slot : Nat) (r : OpRec) : State :=
  match s.tab.switchAt with
  | none => s
  | some t =>
    if s.tab.switchNo.isSome then
      if t ≤ s.nowNs then s.switchEpoch slot r (r.atTime && decide (r.commitT < t)) else s
    else if t ≤ s.nowNs + 10000 then (s.failCommit slot r .partnerDown).orReg pgEpoch 0x2020 0x800#32
    else s

/-- The cycle's check of an ARMED commit (R245): it switches when T is reached, or at once if IMMEDIATE. -/
def State.armedSwitch (s : State) (slot : Nat) (r : OpRec) : State :=
  if r.paired then s.pairedSwitch slot r
  else if r.atTime && decide (s.nowNs < r.commitT) then s else s.switchEpoch slot r false

/-- The commit in progress, if EPOCH may switch. -/
def State.commitRec (s : State) : Option (Nat × OpRec) := s.tab.commit.bind (fun k => (s.opRec k).map (fun r => (k, r)))

/-- A commit whose T has come has switched before a cancel, a suspend or a lock break of the same cycle (R248). -/
def State.dueSwitch (s : State) : State :=
  match s.commitRec with
  | some (k, r) => if s.enabled pgEpoch && r.state == .running && r.phase == phArmed && (r.atTime || r.paired) then s.armedSwitch k r else s
  | none => s

/-- A commit in WAIT (R245): it is armed once no epoch is retiring, here and, joined, on the partner. -/
def State.waitCommit (s : State) (slot : Nat) (r : OpRec) : State :=
  if s.retiring.isSome then s
  else if s.leadJoined && s.tab.mirror != 1 then s.askPartner r 1
  else s.armCommit slot r

/-- The cycle's check of a commit (R245, R247, R251). Without a commit of its own, a device switches at the instant the other one has named. EPOCH
SAFE switches nothing. -/
def execEpochSwitch (s : State) : Out :=
  if s.stands then .next s else
  if !s.enabled pgEpoch then .next s
  else match s.tab.commit with
    | none => match s.tab.switchAt, s.tab.switchNo with
      | some t, some no => .next (if t ≤ s.nowNs then s.drivenSwitch no else s)
      | _, _ => .next s
    | some slot => match s.opRec slot with
      | none => .next s
      | some r =>
        if r.state != .running then .next s
        else if r.phase = phWait then .next (s.waitCommit slot r)
        else if r.phase = phArmed then .next (s.armedSwitch slot r)
        else .next s

/-- No unmerged slot remains: the commit is DONE and MERGE_DONE is raised (R245, R253); one that a joined partner mirrors, when the partner has
merged too (R251). -/
def execMergeDone (s : State) : Out :=
  if s.stands then .next s else
  match s.commitRec with
  | some (slot, r) =>
    if r.phase != phMerge || s.ovlCount .unmerged != 0 || r.state.terminal then .next s
    else if r.paired && s.leadJoined && s.tab.mirror != 2 then .next (s.askPartner r 2)
    else .next ((s.commitDone slot).raise pgEpoch 18)
  | none => .next s

/-- A step of the time base past T while a commit is ARMED makes it late (R247); with a joined partner a late switch takes a new T (R251). -/
def State.epochStepped (s : State) : State :=
  match s.commitRec with
  | none => s
  | some (slot, r) =>
    if r.state == .running && r.phase == phArmed && r.atTime && s.past r.commitT then
      if !r.lateOk then s.failCommit slot r .tooLate
      else if !r.paired then s.switchEpoch slot r true
      else match s.tab.switchAt with
        | some t =>
          if s.past t then
            let t := s.nowNs + s.pairLead
            { s with tab := { s.tab with switchAt := some t, switchNo := none } }.relayArm r t
          else s
        | none => s
    else s

/-- EPOCH leaves ENABLED (R248): every commit before S fails with CFG_LOCKED, waiting to start or not, and a switch that the other device named is
dropped. -/
def State.epochLeft (s : State) : State :=
  let l := s.ops.recs.filter (fun e => e.2.kind == .epochCommit && !e.2.state.terminal && e.2.phase != phMerge)
  let s := if s.tab.commit.isNone then s.dropCommit else s
  l.foldl (fun s e =>
    if s.tab.commit = some e.1 then s.failCommit e.1 e.2 .cfgLocked else (s.setOp e.1 (s.opShown e.2)).endOp e.1 .failed .cfgLocked) s

/-- EPOCH becomes DISABLED (R250): pending slots are freed, and their number is what DRAIN_DISCARDS counts. -/
def State.epochDisabled (s : State) : State := s.epochLeft.freePending

end Sys2Proof.Machine
end

