-- ==== Sys2Proof/Machine/Login.lean ====
section
/-! DEFINITION. Roles, login, sessions, role keys and the audit log (R98-R114). -/
namespace Sys2Proof.Machine

/-- A response of a command: its status, payload and the state after it. -/
abbrev Reply := Status × List Word × State

/-- A status with no payload. -/
abbrev State.answer (s : State) (st : Status) : Reply := (st, [], s)

/-- Hold an agent's session number and rights (R120, R444). -/
def State.setSession (s : State) (a : Agent) (n rights : Nat) : State :=
  match a with
  | .i3c => s.setReg pgRoles 0x200C (word (n + rights * 0x10000))
  | .mgmt => s.setReg pgRoles 0x2010 (word (n + rights * 0x10000))
  | .debug => { s with host := { s.host with dbgSession := BitVec.ofNat 16 n, dbgRights := BitVec.ofNat 3 rights } }
  | _ => s

/-- End an agent's session, if it has one, and record why (R105, R112): cause 1 LOGOUT, 2 owner reset, 3 idle, 4 last right
removed. -/
def State.endSession (s : State) (a : Agent) (cause : Nat) : State :=
  let n := s.sessionOf a
  if n = 0 then s
  else
    let r := s.auditRec a.id (s.sessionRights a) n 0x03 0 pgRoles 0 (word cause) 0
    (s.setSession a 0 0).audit r

/-- Consecutive login failures of an agent (R106). -/
def State.failCount (s : State) (a : Agent) : Nat := Store.get 0 a.id s.host.fails

/-- CORE_CLK cycles of one second, at the nominal 0.64 ns (R4, R25). -/
abbrev cycPerSec : Nat := 1562500000

/-- The seconds of lockout that remain for an agent, a part of one counting as one (R106, log entry 122). -/
def State.lockoutLeft (s : State) (a : Agent) : Nat :=
  match s.host.lockedOut.find? (fun e => e.1 == a.id) with
  | some e => (e.2 - s.time.cyc + cycPerSec - 1) / cycPerSec
  | none => 0

/-- LOCKOUT (R106, R120); the debug port has no field there. -/
def State.lockoutWord (s : State) : Word := word (s.lockoutLeft .i3c + s.lockoutLeft .mgmt * 0x10000)

/-- Whether an agent's logins are refused for a lockout (R106). -/
abbrev State.lockedOut (s : State) (a : Agent) : Bool := s.host.lockedOut.any (fun e => e.1 == a.id)

/-- Count a login failure (R106, R112, R120): LOGIN_FAIL_COUNT, the event LOGIN_FAIL, the audit record with its cause, and from
the fourth consecutive failure a lockout of 1 s that doubles with each further one up to 256 s. -/
def State.loginFail (s : State) (a : Agent) (role cause : Nat) : State :=
  let n := s.failCount a + 1
  let s := { s with host := { s.host with fails := Store.set 0 a.id n s.host.fails } }
  let s := (s.incReg pgRoles 0x2014).raise pgRoles 16
  let s := s.audit (s.auditRec a.id (s.agentRights a pgRoles) (s.sessionOf a) 0x02 Status.denied.code pgRoles 0 (word (cause + 0 * role)) 0)
  if n < 4 then s
  else
    { s with host := { s.host with lockedOut := Store.insert a.id (s.time.cyc + min 256 (2 ^ (n - 4)) * cycPerSec) s.host.lockedOut } }

/-- The current key of a role (R107): 0 operator, 1 installer, 2 maker. -/
def State.roleKey (s : State) (role : Nat) : BitVec 256 :=
  let cur := fun (k : KeyPair) => if k.curB then k.b else k.a
  if role = 0 then cur s.nvm.opKey else if role = 1 then cur s.nvm.instKey else Config.makerKey

/-- Whether the role has no key (R103, R108): OP_BLANK and INST_BLANK; the maker key is never blank. -/
def State.keyBlank (s : State) (role : Nat) : Bool :=
  (role = 0 && bit (s.reg pgRoles 0x2000) 1) || (role = 1 && bit (s.reg pgRoles 0x2000) 2) || role = 3

/-- LOGIN_CHALLENGE (R103, R106): refused while locked out, for role 3 or a blank key; else a new challenge that replaces an
earlier one, with a random ID and nonce, which are free values. DESIGN CHOICE, unsafe: a refusal for ROLE = 3 is recorded with cause 4, as
for a blank key, since R112 names no cause for it (log entry 123). -/
def loginChallenge (a : Agent) (ws : List Word) (s : State) : Reply :=
  let role := fld (ws.getD 0 0) 1 0
  if s.lockedOut a then (s.loginFail a role 5).answer .denied
  else if s.safe pgRoles then s.answer .denied
  else if s.keyBlank role then (s.loginFail a role 4).answer .denied
  else
    let (k, s) := s.fresh
    let c : Challenge := { id := Config.freeChallengeId k, nonce := Config.freeNonce k, role := BitVec.ofNat 2 role }
    let s := { s with host := { s.host with challenges := Store.insert a.id c s.host.challenges } }
    (.ok, word c.id.toNat :: toWords (beBytes 32 c.nonce.toNat), s)

/-- The 44-byte message of R104. -/
def loginMessage (c : Challenge) (a : Agent) : List Byte :=
  beBytes 32 c.nonce.toNat ++ wordBytes Config.serialHi ++ wordBytes Config.serialLo
    ++ [BitVec.ofNat 8 c.role.toNat, BitVec.ofNat 8 a.id] ++ beBytes 2 c.id.toNat

/-- LOGIN_RESPONSE (R104-R106): the challenge is consumed; on success the role's right joins the session, which a first
success opens under a random non-zero number (a free value). DESIGN CHOICE, unsafe: a success clears the failure count but leaves a lockout
period that runs as it is, since R106 does not say that it ends (log entry 123). -/
def loginResponse (a : Agent) (ws : List Word) (s : State) : Reply :=
  let w0 := ws.getD 0 0
  let role := fld w0 17 16
  let ch := s.host.challenges.find? (fun e => e.1 == a.id)
  let s := { s with host := { s.host with challenges := Store.erase a.id s.host.challenges } }
  match ch with
  | none => (s.loginFail a role 1).answer .denied
  | some (_, c) =>
    if s.safe pgRoles then s.answer .denied
    else if c.id.toNat ≠ fld w0 15 0 ∨ c.role.toNat ≠ role then (s.loginFail a role 2).answer .denied
    else if (ws.drop 1).flatMap wordBytes ≠ hmac256 (s.roleKey role) (loginMessage c a) then
      (s.loginFail a role 3).answer .denied
    else
      let s := { s with host := { s.host with fails := Store.erase a.id s.host.fails } }
      let (k, s) := s.fresh
      let old := s.sessionOf a
      let n := if old = 0 then orIfZero (Config.freeSession k).toNat 1 else old
      let rights := (if old = 0 then 0 else s.sessionRights a) ||| 2 ^ role
      let s := s.setSession a n rights
      let s := s.audit (s.auditRec a.id rights n 0x01 0 pgRoles 0 (word role) 0)
      (.ok, [word (n + rights * 0x10000)], s)

/-- LOGOUT (R105): ends the session it carries. DESIGN CHOICE, unsafe: with SESSION = 0 it names no session, ends nothing and answers OK
(log entry 123). -/
def logoutCmd (a : Agent) (session : Nat) (s : State) : Reply :=
  if session = 0 then s.answer .ok else (s.endSession a 1).answer .ok

/-- What an owner reset ends at once of an agent's login state (R105, R106): its session, not its failure count. -/
def State.resetSession (s : State) (a : Agent) : State := s.endSession a 2

/-! ### Keys (R107-R109) -/

/-- The 256-bit value in the staging words, most significant byte in [31:24] of KEY_STAGE0 (R108). -/
def State.stagedKey (s : State) : BitVec 256 :=
  BitVec.ofNat 256 ((List.range 8).foldl (fun n i => n * 2 ^ 32 + (s.reg pgRoles (0x1000 + 4 * i)).toNat) 0)

/-- A write of KEY_CTRL with COMMIT = 1 (R108, R109): refused with REJECT and DENIED for a role other than 0 or 1 or an all-zero
installer key; else BUSY until KEY_COMMIT_DONE. A commit while BUSY is refused likewise (log entry 8). -/
def State.keyCommit (s : State) (a : Agent) (role : Nat) : Status × State :=
  if role ≥ 2 ∨ (role = 1 ∧ s.stagedKey = 0) ∨ bit (s.reg pgRoles 0x2000) 0 = true then
    (.denied, s.orReg pgRoles 0x2000 0x100#32)
  else (.ok, { s.orReg pgRoles 0x2000 1#32 with nvm := { s.nvm with keyJob := some (a, s.sessionOf a, BitVec.ofNat 2 role) } })

/-- A write to a word of the store other than the audit ring (R119, R121): `k` names the most-written word of a firmware slot (1 to 4), a
key copy (5, 6, 7, 9), a snapshot copy (10, 11), or 0x1000 + w a word of the calibration region. -/
def State.noteWear (s : State) (k : Nat) : State :=
  let n := Store.get 0 k s.nvm.wear + 1
  let s := { s with nvm := { s.nvm with wear := Store.insert k n s.nvm.wear } }
  let m := s.nvm.wear.foldl (fun m e => if e.1 = 8 then m else max m e.2) 0
  let s := s.setReg pgPstore 0x2008 (word (m / 1024))
  if n = 800000001 then s.raise pgPstore 16 else s

/-- The CRC-32 of a key's copy (R107): over its 32 bytes, the most significant first (log entry 123). -/
def keyCrc (v : BitVec 256) : Word := crc32 (beBytes 32 v.toNat)

/-- Write the inactive copy of a key with its CRC and make it current (R107, R108). -/
def KeyPair.commit (k : KeyPair) (v : BitVec 256) (gen : Nat) : KeyPair :=
  if k.curB then { k with a := v, crcA := keyCrc v, genA := BitVec.ofNat 16 gen, curB := false }
  else { k with b := v, crcB := keyCrc v, genB := BitVec.ofNat 16 gen, curB := true }

/-- Remove a right from an agent's session, unless it is the one that made the commit, `keep`; a session without rights ends (R105,
R108). -/
def State.dropRight (s : State) (keep : Agent × Nat) (role : Nat) (a : Agent) : State :=
  let r := s.sessionRights a
  if s.sessionOf a = 0 ∨ (a, s.sessionOf a) = keep ∨ r &&& 2 ^ role = 0 then s
  else if r = 2 ^ role then s.endSession a 4
  else s.setSession a (s.sessionOf a) (r - 2 ^ role)

/-- A key change completes (R108): the inactive copy written and made current, KEY_GEN incremented, staging zeroed, the blank
flag set from the key, the role's right removed from the other sessions, and the event KEY_CHANGED and its record. While PSTORE is SAFE
its store takes no write (R38): the change ends with REJECT and changes nothing else (log entry 124). -/
def execKeyCommitDone (s : State) : Out :=
  if s.stands then .next s else
  match s.nvm.keyJob with
  | none => .next s
  | some (a, ses, role) =>
    if s.safe pgPstore then
      .next { (s.clrReg pgRoles 0x2000 1#32).orReg pgRoles 0x2000 0x100#32 with nvm := { s.nvm with keyJob := none } } else
    let v := s.stagedKey
    let gen := (s.regFld pgRoles 0x2000 31 16 + 1) % 0x10000
    let nv := if role = 0#2 then { s.nvm with opKey := s.nvm.opKey.commit v gen, keyJob := none }
      else { s.nvm with instKey := s.nvm.instKey.commit v gen, keyJob := none }
    let place := if role = 0#2 then (if s.nvm.opKey.curB then 5 else 6) else (if s.nvm.instKey.curB then 7 else 9)
    let s := { s with nvm := nv }.noteWear place
    let s := (s.setRegFld pgRoles 0x2000 31 16 gen).clrReg pgRoles 0x2000 1#32
    let s := s.updReg pgRoles 0x2000 (fun w => putBit w (1 + role.toNat) (v == 0))
    let s := (List.range 8).foldl (fun s i => s.setReg pgRoles (0x1000 + 4 * i) 0) s
    let s := s.raise pgRoles 17
    let s := s.auditBy a 0x08 0 pgRoles 0 (word (role.toNat + gen * 0x10000)) 0
    .next (((s.dropRight (a, ses) role.toNat .i3c).dropRight (a, ses) role.toNat .mgmt).dropRight (a, ses) role.toNat .debug)

/-- An outstanding challenge expires 10 s after its response (R103). -/
def execChallengeExpire (h : HostAgent) (s : State) : Out :=
  if s.stands then .next s else
  .next { s with host := { s.host with challenges := Store.erase h.agent.id s.host.challenges } }

/-- A session that carried no command for SESSION_IDLE seconds ends, unless SESSION_IDLE is 0 (R105). -/
def execSessionIdleExpire (h : HostAgent) (s : State) : Out :=
  if s.stands then .next s else
  .next (if s.cfgFld pgRoles 0x100 15 0 = 0 then s else s.endSession h.agent 3)

/-- The lockout period of an agent ends (R106). -/
def execLockoutExpire (h : HostAgent) (s : State) : Out :=
  if s.stands then .next s else
  .next { s with host := { s.host with lockedOut := Store.erase h.agent.id s.host.lockedOut } }

/-! ### The audit ring (R111-R114) -/

/-- Record that a slot was marked valid or invalid (R112); slots are numbered in the order of R115 (log entry 23). -/
def State.auditSlot (s : State) (agent target slot : Nat) : State :=
  s.audit (s.auditRec agent 0 0 0x09 0 pgPstore 0 (word (2 * target + slot)) 0)

/-- Words 0 to 6 of an audit record, and word 7 without its CRC (R111). -/
def AuditRec.words7 (r : AuditRec) : List Word := [
  r.seq, r.sec.setWidth 32,
  word (r.sec.toNat / 2 ^ 32 + r.kind.toNat * 0x10000 + r.agent.toNat * 0x1000000 + r.rights.toNat * 0x10000000
    + (if r.timeValid then 0x80000000 else 0)),
  r.ns, word (r.session.toNat + r.status.toNat * 0x10000 + r.page.toNat * 0x1000000), r.addr, r.data]

/-- The eight words of an audit record, with the CRC-16 over words 0 to 6 and word 7 [15:0] (R111). -/
def AuditRec.words (r : AuditRec) : List Word :=
  let c := crc16 (r.words7.flatMap wordBytes ++ beBytes 2 r.count.toNat)
  r.words7 ++ [word (r.count.toNat + c.toNat * 0x10000)]

/-- Records stored so far, from AUDIT_NEXT and AUDIT_OLDEST. -/
def State.storeAudit (s : State) (r : AuditRec) : State :=
  let n := s.reg pgRoles 0x201C
  let r := { r with seq := n }
  let s := { s with nvm := { s.nvm with
    ring := Store.insert (n.toNat % 4096) r s.nvm.ring, wear := Store.upd 0 8 (· + 1) s.nvm.wear } }
  let s := s.setReg pgRoles 0x201C (n + 1)
  let s := if (n + 1 - s.reg pgRoles 0x2020).toNat > 4096 then s.incReg pgRoles 0x2020 else s
  let n := Store.get 0 8 s.nvm.wear
  let s := s.setReg pgPstore 0x2004 (word ((n + 4095) / 4096 / 1024))
  if n = 4096 * 800000000 + 1 then s.raise pgPstore 16 else s

/-- The OVERRUN record of lost events takes the next free space, and AUDIT_OVERRUN is raised (R113). -/
def State.auditOverrun (s : State) : State :=
  if s.nvm.auditLost = 0 then s
  else
    let o := s.auditRec 0 0 0 0x0A 0 pgRoles 0 (word s.nvm.auditLost) 0
    { s with nvm := { s.nvm with auditPend := s.nvm.auditPend ++ [o], auditLost := 0 } }.raise pgRoles 18

/-- A pending record reaches the store, but not while PSTORE is SAFE and its store read-only (R38, log entry 124). If events were lost, the
freed space takes one OVERRUN record (R113). -/
def execAuditRecordWrite (s : State) : Out :=
  if s.stands || s.safe pgPstore then .next s else
  match s.nvm.auditPend with
  | [] => .next s
  | r :: rest => .next ({ s with nvm := { s.nvm with auditPend := rest } }.storeAudit r).auditOverrun

/-- LOG_READ (R114): up to COUNT records from START_SEQ, or from the oldest held if that lies 1 to 2^31 - 1 ahead. -/
def logReadCmd (rights : Nat) (ws : List Word) (s : State) : Reply :=
  let start := ws.getD 0 0
  let cnt := fld (ws.getD 1 0) 5 0
  if rights &&& 6 = 0 then s.deny.answer .denied
  else if cnt = 0 ∨ cnt > 32 then s.answer .badLength
  else
    let next := s.reg pgRoles 0x201C
    let old := s.reg pgRoles 0x2020
    let d := (old - start).toNat
    let from0 := if 1 ≤ d ∧ d < 2 ^ 31 then old else start
    let held := (next - from0).toNat
    let n := if held ≤ 4096 then min cnt held else 0
    (.ok, ((List.range n).filterMap (fun i =>
      (s.nvm.ring.find? (fun e => e.1 == (from0.toNat + i) % 4096)).map (fun e => e.2.words))).flatten, s)

end Sys2Proof.Machine
end

