-- ==== Sys2Proof/Machine/Locks.lean ====
section
/-! DEFINITION. Hardware locks (R55-R57) and what a break cancels: the states of a long operation under OP_SUSPEND, OP_RESUME and
OP_CANCEL (R89-R91). -/
namespace Sys2Proof.Machine

/-! ### Long operations under command (R89-R91) -/

/-- Whether a running or suspended operation may be cancelled at its phase (R90). -/
def OpRec.cancellable (r : OpRec) : Bool :=
  match r.kind with
  | .epochCommit => decide (r.phase < phMerge)
  | .fwUpdate | .twicelRejoin => decide (r.phase < 3#8)
  | _ => true

/-- Whether a running operation may be suspended (R90). -/
def OpRec.suspendable (r : OpRec) : Bool := r.kind != .fwUpdate && r.kind != .twicelRejoin

/-- What a cancel leaves of an operation that has started (R90, R248, R271, R483). -/
def State.cancelWork (s : State) (r : OpRec) : State :=
  match r.kind with
  | .epochCommit => ((s.relayAbort r).freeBoth r).dropCommit
  | .memTest => s.setTesting []
  | .fwUpdate =>
    let bel := bit (r.params.getD 0 0) 0
    let b := if bel then 4 else 0
    let k := if bit (s.reg pgPstore 0x2000) (b + 2) then 0 else 1
    if bit (s.reg pgPstore 0x2000) (b + k) then (s.clrReg pgPstore 0x2000 (oneBit (b + k))).auditSlot r.starter bel.toNat k else s
  | _ => s

/-- OP_CANCEL of a record (R89, R90): its status and the state after it; a cancelled commit frees every pending slot, QUEUED or not, and one whose
T has come has switched (R248).
`broken` tells a lock break (R91). -/
def State.opCancel (s : State) (slot : Nat) (r : OpRec) (broken : Bool) : Status × State :=
  let s := if r.kind == .epochCommit then s.dueSwitch else s
  let r := (s.opRec slot).getD r
  let res : Status := if broken then .lockHeld else .ok
  let end_ := fun (s : State) => (s.updOp slot (fun r => { r with broken := broken })).endOp slot .cancelled res
  match r.state with
  | .queued => (.ok, end_ (if r.kind == .epochCommit then (s.setOp slot (s.opShown r)).freeBoth r else s))
  | .running | .suspended => if r.cancellable then (.ok, end_ ((s.setOp slot (s.opShown r)).cancelWork r)) else (.opState, s)
  | _ => (.opState, s)

/-! ### Locks (R55-R57) -/

/-- The word of lock `k`. -/
abbrev State.lockW (s : State) (k : Nat) : Word := s.reg pgLocks (0x1000 + 4 * k)

/-- The owner of lock `k`, 0 if free. -/
abbrev State.lockOwner (s : State) (k : Nat) : Nat := fld (s.lockW k) 3 0

/-- Locks that an owner ID holds. -/
def State.locksOf (s : State) (id : Nat) : List Nat := (List.range 64).filter (fun k => s.lockOwner k == id)

/-- A write of an owner field (R56): the status and the state after it. -/
def State.lockWrite (s : State) (a : Agent) (k v : Nat) : Status × State :=
  let o := s.lockOwner k
  if v = a.id then
    if o = v then (.ok, s)
    else if o ≠ 0 then (.lockHeld, s)
    else if s.safe pgLocks then (.cfgLocked, s)
    else
      let w := s.lockW k
      (.ok, s.setReg pgLocks (0x1000 + 4 * k) (setFld (setFld w 3 0 v) 31 16 (fld w 31 16 + 1)))
  else if v = 0 then
    if o = 0 then (.ok, s)
    else if o = a.id then (.ok, s.updReg pgLocks (0x1000 + 4 * k) (fun w => setFld (putBit w 8 false) 3 0 0))
    else (.lockHeld, s)
  else (.lockHeld, s)

/-- The operations started while their agent held a lock are cancelled, or marked where they cannot be (R57). -/
def State.breakOps (s : State) (k id : Nat) : State :=
  s.ops.recs.foldl (fun (s : State) e =>
    match s.opRec e.1 with
    | none => s
    | some r =>
      if r.starter = id ∧ r.locks.contains k ∧ !r.state.terminal then
        match s.opCancel e.1 r true with
        | (.ok, s) => s
        | (_, s) => s.updOp e.1 (fun r => { r with lockLost := true })
      else s) s

/-- Lock `k` is broken (R57). -/
def State.breakLock (s : State) (id k : Nat) : State :=
  let s := s.breakOps k id
  let s := s.updReg pgLocks (0x1000 + 4 * k) (fun w => putBit (setFld w 3 0 0) 8 true)
  s.orReg pgLocks (0x2000 + 4 * (k / 32)) (oneBit (k % 32))

/-- An owner reset breaks every lock of the owner (R57). -/
def State.breakLocks (s : State) (id : Nat) : State :=
  let l := s.locksOf id
  let s := l.foldl (fun s k => s.breakLock id k) s
  if l.isEmpty then s else s.raise pgLocks 16

/-- An owner reset of an agent (R57, R105): its locks are broken and its session ends. -/
def State.ownerReset (s : State) (a : Agent) : State := (s.breakLocks a.id).resetSession a

/-- The management link has been lost for 1 s (R57). -/
def execMgmtLinkLoss (s : State) : Out :=
  if s.stands then .next s else
  if bit (s.reg pgMgmt 0x2000) 0 then .next s else .next (s.ownerReset .mgmt)

/-- A core enters the resident firmware's fatal-fault handler (R57). -/
def execFatalFaultEntry (k : Fin 4) (s : State) : Out := if s.stands then .next s else .next (s.ownerReset (.core k))

end Sys2Proof.Machine
end

