-- ==== Sys2Proof/Machine/Sched.lean ====
section
/-! DEFINITION. The traffic manager's selection (R294-R299, R303, R304), the egress FIFO and transmission (R132, R276, R277, R322-R328,
R338-R343), the pause watchdog (R280), and the gate engine's instants (R316, R321). -/
namespace Sys2Proof.Machine

/-! ### Virtual time (R297) -/

/-- 32-bit arithmetic of R297: `a` is earlier than `b`. -/
def vBefore (a b : Nat) : Bool :=
  let d := (b + 2 ^ 32 - a % 2 ^ 32) % 2 ^ 32
  decide (1 ≤ d) && decide (d < 2 ^ 31)

/-- The signed difference of two virtual times. -/
def vDiff (a b : Nat) : Int := sext 32 ((a + 2 ^ 32 - b % 2 ^ 32) % 2 ^ 32)

/-- The later of two virtual times. -/
def vMax (a b : Nat) : Nat := if vBefore a b then b else a

/-- The earlier of two virtual times. -/
def vMin (a b : Nat) : Nat := if vBefore a b then a else b

/-- The earliest of a list of virtual times. -/
def vMinOf (d : Nat) (l : List Nat) : Nat := match l with | [] => d | a :: t => t.foldl vMin a

/-- V of a node and band. -/
def State.vOf (s : State) (n b : Nat) : Nat := Store.get 0 (n * 8 + b) s.sched.vt

/-- Hold V of a node and band. -/
def State.setV (s : State) (n b v : Nat) : State := { s with sched := { s.sched with vt := Store.set 0 (n * 8 + b) (v % 2 ^ 32) s.sched.vt } }

/-- Band, weight, start and finish of a child record. -/
abbrev State.bandOf (s : State) (k : Nat) : Nat := fld (s.tmW k 0) 18 16
abbrev State.weightOf (s : State) (k : Nat) : Nat := orIfZero (fld (s.tmW k 1) 15 0) 1
abbrev State.vStart (s : State) (k : Nat) : Nat := (s.tmW k 11).toNat
abbrev State.vFinish (s : State) (k : Nat) : Nat := (s.tmW k 12).toNat

/-- A child makes an offer of a charged length: F (R297). -/
def State.offerF (s : State) (k len : Nat) : State := s.setWin pgTm k 12 (word (s.vStart k + len * 32768 / s.weightOf k))

/-- A child becomes ready under a node (R297). -/
def State.joinR (s : State) (n k : Nat) : State :=
  let v := s.vOf n (s.bandOf k) + Store.get 0 k s.sched.lag
  let s := s.setWin pgTm k 11 (word v)
  { s with sched := { s.sched with lag := Store.erase k s.sched.lag, inR := Store.addKey k s.sched.inR } }

/-- A child ceases to be ready under a node (R297). -/
def State.leaveR (s : State) (n k : Nat) : State :=
  let l := min (max (vDiff (s.vStart k) (s.vOf n (s.bandOf k))) 0) (2 ^ 30)
  { s with sched := { s.sched with lag := Store.set 0 k l.toNat s.sched.lag, inR := s.sched.inR.filter (· != k), offer := Store.erase k s.sched.offer } }

/-- Choose among the ready children of a node (R296, R297): COMMITTED before EXCESS, the highest band, then weighted fair
queueing; `flat` ignores the shapers' phases. -/
def State.pickChild (s : State) (n : Nat) (r : List Nat) (flat : Bool) : Option (Nat × State) :=
  let ph := fun k => if flat then 1 else s.phase k
  let com := r.filter (fun k => ph k == 0)
  let c := if com.isEmpty then r else com
  match c with
  | [] => none
  | k0 :: _ =>
    let b := c.foldl (fun m k => max m (s.bandOf k)) (s.bandOf k0)
    let rb := r.filter (fun k => s.bandOf k == b)
    let cb := c.filter (fun k => s.bandOf k == b)
    let v := vMax (s.vOf n b) (vMinOf 0 (rb.map s.vStart))
    let s := s.setV n b v
    let el := cb.filter (fun k => s.vStart k == v || vBefore (s.vStart k) v)
    let better := fun (x y : Nat) =>
      if el.isEmpty then vBefore (s.vStart y) (s.vStart x) || (s.vStart y == s.vStart x && decide (y < x))
      else vBefore (s.vFinish y) (s.vFinish x)
        || (s.vFinish y == s.vFinish x && (vBefore (s.vStart y) (s.vStart x) || (s.vStart y == s.vStart x && decide (y < x))))
    match (if el.isEmpty then cb else el) with
    | [] => none
    | a :: t => some (t.foldl (fun x y => if better x y then y else x) a, s)

/-- After a child of a node is served with a charged length (R297). -/
def State.served (s : State) (n k len : Nat) (r : List Nat) : State :=
  let b := s.bandOf k
  let rb := r.filter (fun j => s.bandOf j == b)
  let w := rb.foldl (fun x j => x + s.weightOf j) 0
  let s := s.setWin pgTm k 11 (word (s.vFinish k))
  let m := vMinOf (s.vStart k) (rb.map s.vStart)
  let v := vMin (vMax ((s.vOf n b + len * 32768 / max 1 w) % 2 ^ 32) m) ((m + 2 ^ 30) % 2 ^ 32)
  let s := s.setV n b v
  if (2 ^ 30 : Int) < vDiff (s.vStart k) v then s.setWin pgTm k 11 (word (v + 2 ^ 30)) else s

/-! ### Readiness (R295, R323, R326, R328) -/

/-- Charged length Lc of a copy at its port (R299). -/
def State.chargedLen (s : State) (c : Copy) : Nat := s.sentLen c + fld (s.tmW (tmPort c.port) 13) 5 0

/-- The gate that governs an egress class (R295). -/
def gateClass (c : Nat) : Nat := min c 7

/-- Whether received PFC holds a class of a port (R295): PAUSED_RX without WD_TRIPPED. -/
def State.pausedClass (s : State) (p c : Nat) : Bool :=
  let w := s.reg pgLadle (0x2500 + 4 * p)
  decide (c < 8) && bit w (8 + c) && !bit w (16 + c)

/-- Whether a queue's head can be sent at all: all of it resident, and its last byte received unless it goes cut-through. -/
def Copy.whole (c : Copy) : Bool := c.need == 0 && (c.frame.ended || c.ct)

/-- VALID or CLOSING. -/
def State.nodeLive (s : State) (k : Nat) : Bool := bit (s.tmW k 0) 31 || bit (s.tmW k 15) 28

/-- Whether a queue's head is otherwise ready and its gate or guard band holds it (R323): GATED. -/
def State.heldByGate (s : State) (p q : Nat) : Bool :=
  match s.queue q with
  | [] => false
  | c :: _ =>
    let e := s.egressClass q
    c.whole && s.nodeLive q && s.phase q != 2 && !s.pausedClass p e && !s.guardGo p (gateClass e) (s.sentLen c)

/-- Whether a queue is ready under its group (R295); `flush` ignores pause, gates and shapers (R303). -/
def State.queueReady (s : State) (p q : Nat) (flush : Bool) : Bool :=
  match s.queue q with
  | [] => false
  | c :: _ =>
    let e := s.egressClass q
    c.whole && s.nodeLive q && (flush || (s.phase q != 2 && !s.pausedClass p e && s.guardGo p (gateClass e) (s.sentLen c)))

/-- Whether the control queue of a port is ready (R295). -/
def State.controlReady (s : State) (p : Nat) (flush : Bool) : Bool :=
  match s.queue (ctlQueue p) with
  | [] => false
  | c :: _ => c.whole && (flush || s.guardGo p 7 (s.sentLen c))

/-- The group of a queue as a record key. -/
abbrev State.groupOf (s : State) (q : Nat) : Nat := tmGroup (fld (s.tmW q 0) 13 0)

/-- A queue that may have become empty, and its group, stop CLOSING where they are (R289). -/
def State.closeAfter (s : State) (q : Nat) : State :=
  let g := s.groupOf q
  let s := s.closeIfEmpty q
  if q < 131072 then s.closeIfEmpty g else s

/-- Drop a copy that a queue holds, counted for a multicast copy too (R274); a VOQ that is empty then is freed (R369). -/
def State.dropHeld (s : State) (c : Copy) : State :=
  let s := (s.removeCopy c).closeAfter c.queue
  let s := if 1048576 ≤ c.queue then s.freeVoqs else s
  if c.mcast then s.incReg pgMcast 0x2004 else s

/-- Heads that can never be sent leave their queue (R265, R326): one with an uncorrectable cell, one that no open run of its gate
holds; a cut-through head whose estimate does not fit is stored. -/
def State.purgeHead (s : State) (p q : Nat) (flush : Bool) : Nat → State
  | 0 => s
  | n + 1 => match s.queue q with
    | [] => s
    | c :: rest =>
      if c.spoilt && c.need == 0 then ((s.dropHeld c).incReg pgIngot 0x2018).purgeHead p q flush n
      else if c.whole && !flush && s.gateTooLong p (gateClass (s.egressClass q)) (s.sentLen c) then
        if c.frame.ended then
          let s := ((s.dropHeld c).gwInc p gwOversize).incReg pgGates 0x2008
          (s.raise pgGates 18).purgeHead p q flush n
        else s.setQueue q ({ c with ct := false } :: rest)
      else s

/-- PREFETCH_MISS (R328): the head runs short while the gate is open and the queue holds more; once for each shortage. -/
def State.noteShortage (s : State) (p q : Nat) : State :=
  let short := match s.queue q with
    | c :: _ => decide (0 < c.need) && (s.spillOf q).isSome && (s.gateNow p).testBit (gateClass (s.egressClass q))
    | [] => false
  let was := s.buf.gapPort.any (fun e => e.1 == q)
  if short == was then s
  else if short then { s with buf := { s.buf with gapPort := Store.insert q p s.buf.gapPort } }.gwInc p gwMiss
  else { s with buf := { s.buf with gapPort := Store.erase q s.buf.gapPort } }

/-! ### Offers (R294) -/

/-- Queues that bear on a port's selection: those that hold a frame, and those still counted as ready. -/
def State.portQueues (s : State) (p : Nat) : List Nat :=
  let busy := (s.buf.queues.map Prod.fst).filter (fun q => decide (q < 131072))
  let all := (s.sched.inR.filter (fun k => decide (k < 131072))).foldl (fun l k => Store.addKey k l) busy
  all.filter (fun q => fld (s.tmW (s.groupOf q) 0) 7 0 == p)

/-- A queue joins or leaves R and makes its offer of its head (R289, R294, R297); the group's offer of a head that is gone is withdrawn with it. -/
def State.refreshQueue (s : State) (p q : Nat) (flush : Bool) : State :=
  let s := (s.purgeHead p q flush (s.queue q).length).noteShortage p q
  let g := s.groupOf q
  let in_ := s.sched.inR.contains q
  if !(s.queueReady p q flush && s.nodeLive g) then (if in_ then s.leaveR g q else s)
  else match s.queue q with
    | [] => s
    | c :: _ =>
      let s := if in_ then s else s.joinR g q
      if in_ && Store.get 0 q s.sched.offer == c.id + 1 then s
      else
        let s := s.offerF q (s.chargedLen c)
        let kept := if Store.get 0 g s.sched.offer = q + 1 then Store.erase g s.sched.offer else s.sched.offer
        { s with sched := { s.sched with offer := Store.insert q (c.id + 1) kept } }

/-- Ready queues of a group. -/
def State.readyUnder (s : State) (qs : List Nat) (g : Nat) : List Nat :=
  qs.filter (fun q => s.groupOf q == g && s.sched.inR.contains q)

/-- A group keeps its standing offer while that queue stays ready, or chooses anew, and joins or leaves its port's R (R294). -/
def State.refreshGroup (s : State) (p : Nat) (qs : List Nat) (flush : Bool) (g : Nat) : State :=
  let r := s.readyUnder qs g
  let in_ := s.sched.inR.contains g
  if r.isEmpty || !s.nodeLive g || (!flush && s.phase g == 2) then (if in_ then s.leaveR (tmPort p) g else s)
  else
    let o := Store.get 0 g s.sched.offer
    if in_ && decide (0 < o) && r.contains (o - 1) then s
    else match s.pickChild g r flush with
      | none => s
      | some (q, s) =>
        let len := match s.queue q with | c :: _ => s.chargedLen c | [] => 0
        let s := if in_ then s else s.joinR (tmPort p) g
        let s := s.offerF g len
        { s with sched := { s.sched with offer := Store.insert g (q + 1) s.sched.offer } }

/-- Groups under a port that hold a queue of a list, or are still counted as ready. -/
def State.portGroups (s : State) (p : Nat) (qs : List Nat) : List Nat :=
  let old := s.sched.inR.filter (fun k => decide (0x100000 ≤ k) && fld (s.tmW k 0) 7 0 == p)
  qs.foldl (fun l q => Store.addKey (s.groupOf q) l) old

/-- Bring the offers of a port's tree up to date. -/
def State.refreshPort (s : State) (p : Nat) (flush : Bool) : State :=
  let s := s.purgeHead p (ctlQueue p) flush (s.queue (ctlQueue p)).length
  let qs := s.portQueues p
  let s := qs.foldl (fun s q => s.refreshQueue p q flush) s
  (s.portGroups p qs).foldl (fun s g => s.refreshGroup p qs flush g) s

/-! ### ECN (R304) -/

/-- The marking test of a queue of depth `d` cells under a random value of 16 bits (R304). -/
def ecnHit (pmax mn mx d rnd : Nat) : Bool :=
  if mx ≤ mn then decide (mn ≤ d)
  else if d < mn then false
  else if mx ≤ d then true
  else decide (rnd * 256 * (mx - mn) < 65536 * pmax * (d - mn))

/-- Whether a copy released by a queue is marked, discarded or neither (R304); the random value is free (log entry 2). -/
def State.ecnRelease (s : State) (c : Copy) : (Bool × Bool) × State :=
  let q := c.queue
  let w := s.tmW q 13
  if 131072 ≤ q ∨ !bit w 0 then ((false, false), s)
  else
    let (k, s) := s.fresh
    let t := s.tmW q 14
    let hit := ecnHit (fld w 15 8) (64 * fld t 15 0) (64 * fld t 31 16) (s.queueCells q + 32 * s.queueIngots q) (Config.ecnRandom k).toNat
    let f := s.sentBytes c
    match (if hit then ecnOf f (s.parse { c.frame with bytes := f, len := f.length }) else some 3) with
    | some 3 => ((false, false), s)
    | some 1 | some 2 => ((true, false), s.incReg pgTm 0x2008)
    | _ => if bit w 1 then ((false, true), s.incReg pgTm 0x200C) else ((false, false), s)

/-! ### The egress FIFO and the wire -/

/-- The bytes of a copy on the wire, with CE and one-step Sync (R304, R341). -/
def State.wireBytes (s : State) (c : Copy) : List Byte :=
  let f := s.sentBytes c
  let p := s.parse { c.frame with bytes := f, len := f.length }
  let f := if c.ce then (match firstIp p with | some h => setCe f h | none => f) else f
  match c.sync, ptpEvent f p with
  | some t, some h =>
    let udp := (p.hdrs.find? (fun x => x.code == 0x0A && x.start + 8 == h)).map
      (fun x => (x.start, (p.hdrs.filter (fun y => y.code == 6 || y.code == 7)).getLast?.any (fun y => y.code == 6)))
    oneStep f h udp t
  | _, _ => f

/-- Egress stamps and PTP actions of a copy that starts on the wire (R338-R342). -/
def State.stampCopy (s : State) (p : Nat) (c : Copy) : Copy × State :=
  let f := s.sentBytes c
  if p = 240 then ({ c with exit := Config.internalStamp true c.id }, s)
  else match ptpEvent f (s.parse { c.frame with bytes := f, len := f.length }) with
  | none => ({ c with exit := s.egressStamp p s.time.tb }, s)
  | some h =>
    let d := s.ptpDomain p (byteAt f (h + 4))
    let st := s.egressStamp p (s.domClk d)
    let c := { c with exit := st }
    let w := s.portTime p 0
    let own := c.frame.port == 240 || c.frame.port == 241
    let sync := byteAt f h % 16 == 0 && byteAt f (h + 6) / 2 % 2 == 0
    if !own then (c, s)
    else if bit w 1 && sync then ({ c with sync := some st.toNat }, s.updWin pgTime p 12 (· + 1))
    else if bit w 0 then (c, s.queueStamp p ⟨half f (h + 30), byteAt f h % 16, d, st.toNat⟩)
    else (c, s)

/-- What has become of a copy that reached the egress FIFO of a port: discarded and counted there (R132, R280, R281), or not. -/
def State.fifoDiscard (s : State) (p : Nat) (c : Copy) (ringFull : Bool) : Option State :=
  let e := s.egressClass c.queue
  if p = 240 then (if ringFull then some (s.incReg pgLadle 0x2038) else none)
  else if !s.portUp p then some (if p = 241 then s.incReg pgLadle 0x2038 else s.macCount p 7)
  else if e < 8 ∧ bit (s.reg pgLadle (0x2500 + 4 * p)) (16 + e) then some (s.incReg pgLadle (0x2D00 + 4 * p))
  else none

/-- Cells of a frame read for transmission, each a CELL_READ event (R425): what records then report of the copy, and the state. -/
def State.noteCellReads (s : State) (c : Copy) : RecInfo × State :=
  (List.range (ceilDiv (s.storedBytes c.frame c.wrap c.info c.port).length 256)).foldl
    (fun r _ =>
      let (b, s) := r.2.cellBank
      s.pmuCopy ⟨0x0A, none, [], some (2, b), some (if c.kind == .control then 8 else c.cls)⟩ s.nowSub r.1 c.frame 0 (c.kind == .mirror))
    ({ c.info with outcome := 0 }, s)

/-- Errors found in the cells read for a copy (R254): ECC_CORR; ECC_UNCORR with its event, and the frame in ECC_DROP. -/
def State.eccFound (s : State) (ecc : Option Bool) : State :=
  match ecc with
  | some true => ((s.incReg pgCrucible 0x2010).raise pgCrucible 16).incReg pgCrucible 0x2014
  | some false => s.incReg pgCrucible 0x200C
  | none => s

/-- A copy that left its queue enters the egress FIFO and starts on the wire (R276, R304, R433); `ecc` is an error found in its
cells before the start (R254). -/
def State.startTx (s : State) (p : Nat) (c : Copy) (ringFull : Bool) (ecc : Option Bool) : State :=
  let lost := fun (s : State) => if c.mcast then (s.releaseCopy c).incReg pgMcast 0x2004 else s.releaseCopy c
  let (info, s) := s.noteCellReads c
  let c := { c with info := info }
  let s := s.eccFound ecc
  if ecc = some true then lost s
  else match s.fifoDiscard p c ringFull with
  | some s => lost s
  | none =>
    let s := if c.ct && !c.frame.ended then s.incReg pgLadle 0x202C else s
    let (c, s) := s.stampCopy p { c with began := s.planeNs p }
    let s := { s with buf := { s.buf with fifo := Store.set [] p [c] s.buf.fifo } }
    let w := s.skimSrc p
    if bit w 12 && c.kind != .mirror then
      let i := { c.info with egress := s.sysPort p }
      s.skimFire (fld w 11 8) 1 { c.frame with bytes := s.wireBytes c, len := (s.wireBytes c).length } 0 false i c.exit
    else s

/-! ### Selection (R294, R296, R299, R303) -/

/-- Whether a port flushes: absent, or down without a hold (R303). -/
def State.flushing (s : State) (p : Nat) : Bool := s.portAbsent p || (!s.portUp p && !s.sched.hold.contains p)

/-- Whether the traffic manager may send to a port now: the TM works, the port is not held (R303), and its bank, FlexE or
management lane is neither DRAINING nor SAFE (R38, R125). -/
def State.portServes (s : State) (p : Nat) : Bool :=
  let b := s.blk (portPage p)
  s.working pgTm && !s.standby && !(s.sched.hold.contains p && !s.portUp p && !s.portAbsent p) && (p == 240 || !(b == 3 || b == 4))

/-- A winding-down device starts a frame only within its bounds (R408): 20 µs and 30 µs after the fall. -/
def State.windOk (s : State) (p : Nat) (c : Copy) : Bool :=
  if !bit (s.reg pgPair 0x2004) 2 then true
  else
    let ns := (s.time.cyc - s.pair.windAt) * 64 / 100
    decide (ns ≤ 20000) && decide (ns + s.txTime p (s.sentLen c) ≤ 30000)

/-- Charge a taken frame along its path (R300, R303): a control frame to its port alone; nothing while flushing. -/
def State.chargePath (s : State) (p q : Nat) (len : Int) : State :=
  let s := s.chargeNode (tmPort p) len
  if q < 131072 then (s.chargeNode q len).chargeNode (s.groupOf q) len else s

/-- Take a copy from its queue toward its port (R294, R299, R303, R304). -/
def State.takeCopy (s : State) (p : Nat) (c : Copy) (flush ringFull : Bool) (ecc : Option Bool) : State :=
  let len := s.sentLen c
  let s := if flush then s else s.chargePath p c.queue (s.chargedLen c)
  let ((mark, drop), s) := if s.portAbsent p then ((false, false), s) else s.ecnRelease c
  let s := (s.dequeue c).closeAfter c.queue
  let c := { c with ce := mark, estimate := if flush then 0 else len }
  if s.portAbsent p then (if c.mcast then (s.releaseCopy c).mapDrop.incReg pgMcast 0x2004 else (s.releaseCopy c).mapDrop)
  else if drop then (if c.mcast then (s.releaseCopy c).incReg pgMcast 0x2004 else s.releaseCopy c)
  else s.startTx p c ringFull ecc

/-- The port node's own selection among its groups' standing offers (R294, R296): held back while the port's shaper is RED (R300). -/
def State.selectTree (s : State) (p : Nat) (flush ringFull : Bool) (ecc : Option Bool) : State :=
  let qs := s.portQueues p
  let gs := (s.portGroups p qs).filter (fun g => s.sched.inR.contains g)
  if !flush && s.phase (tmPort p) == 2 then s
  else match s.pickChild (tmPort p) (gs.filter (fun g => Store.get 0 g s.sched.offer != 0)) flush with
    | none => s
    | some (g, s) =>
      let q := Store.get 0 g s.sched.offer - 1
      match s.queue q with
      | [] => s
      | c :: _ =>
        if !s.windOk p c then s
        else
          let len := s.chargedLen c
          let s := (s.served (tmPort p) g len gs).served g q len (s.readyUnder qs g)
          let s := { s with sched := { s.sched with offer := Store.erase g (Store.erase q s.sched.offer) } }
          s.takeCopy p c flush ringFull ecc

/-- One selection at a port (R296): the control queue first, then the tree. -/
def State.selectOne (s : State) (p : Nat) (ringFull : Bool) (ecc : Option Bool) : State :=
  let flush := s.flushing p
  let s := s.refreshPort p flush
  if !(Store.get [] p s.buf.fifo).isEmpty then s
  else if s.controlReady p flush then
    match s.queue (ctlQueue p) with
    | c :: _ => if s.windOk p c then s.takeCopy p c flush ringFull ecc else s
    | [] => s
  else s.selectTree p flush ringFull ecc

/-- One cycle of the traffic manager at a port: offers are brought up to date and a frame is taken where the egress FIFO is free; a port without
a rate is flushed at two frames in a cycle, the second among the offers that still stand (R294, R303). -/
def execTmSelect (port : Fin 242) (ringFull : Bool) (ecc : Option Bool) (s : State) : Out :=
  if s.stands then .next s else
  let p := port.val
  if !s.portServes p then .next s
  else if s.flushing p && s.portRate p == 0 then .next ((s.selectOne p ringFull ecc).selectTree p true ringFull ecc)
  else .next (s.selectOne p ringFull ecc)

/-- The frame on the wire of a port ends (R132, R317, R325, R417): counted in its pair and by the PMU; an error in its cells found while it
was sent ends it with an inverted FCS (R254). The frame as sent, whether its FCS is good, and the state after. -/
def State.txDone (s : State) (p : Nat) (ecc : Option Bool) : Option (List Byte × Bool × State) :=
  match Store.get [] p s.buf.fifo with
  | [] => none
  | c :: rest =>
    if !c.frame.ended || !s.macSends p then none
    else
      let f := s.wireBytes c
      let e := s.egressClass c.queue
      let bad := c.cut || ecc == some true
      let wire := if s.carriesData p then Store.insert p (f, !bad) s.port.wire else s.port.wire
      let s := { s with buf := { s.buf with fifo := Store.set [] p rest s.buf.fifo }, port := { s.port with wire := wire } }.releaseCopy c
      let s := s.eccFound ecc
      let s := s.countFixed (0x3F0000 + 16 * p + 8 + min e 7) 1 (f.length + 4)
      let s := if p = 241 then s.incReg pgMgmt 0x2008 else s
      let s := if s.gateRanPast p (gateClass e) c.began then s.gwInc p gwOverrun else s
      let i := { c.info with outcome := 5, egress := s.sysPort p }
      some (f, !bad, (s.pmuCopy ⟨0x0E, none, [(1, p)], none, some (min e 8)⟩ ((c.exit / 65536).toNat % 1000000000) i c.frame 0 (c.kind == .mirror)).2)

/-! ### Pause watchdog and down ports -/

/-- Whether a frame of a class waits for a port (R280). -/
def State.classWaits (s : State) (p c : Nat) : Bool :=
  s.buf.queues.any (fun e => decide (e.1 < 131072) && s.egressClass e.1 == c && e.2.any (fun x => x.port == p))

/-- The paused time of a port and class with waiting frames reaches WD_TIME (R280). -/
def execWdTrip (port : Fin 240) (cls : Fin 8) (s : State) : Out :=
  if s.stands then .next s else
  let o := 0x2500 + 4 * port.val
  let w := s.reg pgLadle o
  if bit (s.reg pgLadle 0x1004) 0 && bit w (8 + cls.val) && !bit w (16 + cls.val) && s.classWaits port.val cls.val then
    .next (((s.orReg pgLadle o (oneBit (16 + cls.val))).incReg pgLadle (0x2900 + 4 * port.val)).raise pgLadle 17)
  else .next s

/-- No PFC frame with a quanta for the class has arrived for WD_RESTORE (R280). -/
def execWdRestore (port : Fin 240) (cls : Fin 8) (s : State) : Out :=
  if s.stands then .next s else
  .next (s.clrReg pgLadle (0x2500 + 4 * port.val) (oneBit (16 + cls.val)))

/-- DOWN_HOLD passes (R303): the port flushes. -/
def execDownHoldExpire (port : Fin 242) (s : State) : Out :=
  if s.stands then .next s else
  .next { s with sched := { s.sched with hold := s.sched.hold.filter (· != port.val) } }

/-! ### The gate engine's instants -/

/-- The time base reaches CT (R321): the pending list becomes active; while GATES is SAFE it is cancelled (R329). Every head of the
port is then checked for its open run (R326). -/
def execGateSwitch (port : Fin 242) (s : State) : Out :=
  if s.stands then .next s else
  let p := port.val
  if !s.gatePending p || decide (s.planeNs p < s.gateCt p) then .next s
  else if s.safe pgGates then .next (s.gateDrop p)
  else
    let s := s.gateApply p
    .next ((ctlQueue p :: s.portQueues p).foldl (fun s q => s.purgeHead p q (s.flushing p) (s.queue q).length) s)

/-- The time base reaches an entry boundary (R316): queues whose gate closes leave R, and those whose gate opens return to it (R323, R327). -/
def execGateTransition (port : Fin 242) (s : State) : Out :=
  if s.stands then .next s else
  .next (if s.gated port.val && s.portServes port.val then s.refreshPort port.val (s.flushing port.val) else s)

end Sys2Proof.Machine
end

