-- ==== Sys2Proof/Machine/Mac.lean ====
section
/-! DEFINITION. The MACs (R129-R133, R174, R175, R257, R277): links coming up and going down, received frames and their ends, PFC. -/
namespace Sys2Proof.Machine

/-! ### Frames held anywhere -/

/-- Change every held frame of one identity. -/
def State.mapFrames (s : State) (id : Nat) (f : Frame → Frame) : State :=
  let g := fun (x : Frame) => if x.id = id then f x else x
  let gc := fun (c : Copy) => { c with frame := g c.frame }
  let fifos := s.port.fifos.map (fun e => (e.1, e.2.map g))
  let inside := s.pipe.inside.map (fun x => { x with frame := g x.frame })
  let streams := s.pipe.streams.map (fun e => (e.1, e.2.map g))
  let held := s.pipe.held.map (fun h => { h with result := { h.result with frame := g h.result.frame } })
  let adm := s.buf.waiting.map (fun a => { a with frame := g a.frame })
  let queues := s.buf.queues.map (fun e => (e.1, e.2.map gc))
  let fifo := s.buf.fifo.map (fun e => (e.1, e.2.map gc))
  { s with port := { s.port with fifos := fifos }, pipe := { s.pipe with inside := inside, streams := streams, held := held }, buf := { s.buf with waiting := adm, queues := queues, fifo := fifo } }

/-! ### Links -/

/-- The frame a port transmits is ended with an inverted FCS (R132): TX_ABORT. -/
def State.txAbort (s : State) (p : Nat) : State :=
  match Store.get [] p s.buf.fifo with
  | [] => s
  | c :: _ =>
    let wire := if s.carriesData p then Store.insert p (s.wireBytes c, false) s.port.wire else s.port.wire
    let s := { s with buf := { s.buf with fifo := Store.erase p s.buf.fifo }, port := { s.port with wire := wire } }.releaseCopy c
    let s := if c.mcast then s.incReg pgMcast 0x2004 else s
    (if p = 241 then s.incReg pgMgmt 0x2008 else s).macCount p 6

/-- The end of a frame that is still arriving at a port (R257, R277): `rest` is what followed, `bad` whether it proved bad. -/
def State.frameEnd (s : State) (p id : Nat) (rest : List Byte) (bad : Bool) : State :=
  let s := { s with port := { s.port with arriving := Store.erase p s.port.arriving } }
  let s := s.mapFrames id (fun x => { x with bytes := x.bytes ++ rest, len := x.len + rest.length, ended := true, late := bad })
  let mine := s.allCopies.filter (fun c => c.frame.id == id)
  if bad then
    let s := mine.foldl (fun s c => s.dropHeld c) s
    let ct := s.buf.fifo.foldl (fun n e => n + (e.2.filter (fun c => c.frame.id == id)).length) 0
    let fifo := s.buf.fifo.map (fun e => (e.1, e.2.map (fun c => if c.frame.id = id then { c with cut := true } else c)))
    ({ s with buf := { s.buf with fifo := fifo } }.addReg pgLadle 0x2030 ct).incReg pgLadle 0x2028
  else
    let s := mine.foldl (fun s c =>
      let (c', s) := s.trimCopy c
      s.setQueue c.queue ((s.queue c.queue).map (fun x => if x.id = c.id then c' else x))) s
    let s := s.buf.fifo.foldl (fun s e => e.2.foldl (fun s c =>
      if c.frame.id ≠ id then s
      else
        let (c', s) := s.trimCopy c
        let l := (Store.get [] e.1 s.buf.fifo).map (fun x => if x.id = c.id then c' else x)
        { s with buf := { s.buf with fifo := Store.set [] e.1 l s.buf.fifo } }) s) s
    let s := s.noteCells
    s.buf.fifo.foldl (fun s e => e.2.foldl (fun s c =>
      if c.frame.id = id ∧ c.estimate ≠ 0 then s.chargePath e.1 c.queue ((s.sentLen c : Int) - c.estimate) else s) s) s

/-- A port's LINK_UP falls (R132, R277, R303): what it sends is aborted, what it receives ends bad, DOWN_MODE HOLD starts. -/
def State.portFell (s : State) (p : Nat) : State :=
  let s := s.txAbort p
  let s := match s.port.arriving.find? (fun e => e.1 == p) with
    | some e => s.frameEnd p e.2 [] true
    | none => s
  let s := { s with port := { s.port with ctlRx := Store.erase p s.port.ctlRx } }
  if bit (s.tmW (tmPort p) 13) 8 then { s with sched := { s.sched with hold := Store.addKey p s.sched.hold } } else s

/-- A port's LINK_UP rises: normal service resumes (R303). -/
def State.portRose (s : State) (p : Nat) : State := { s with sched := { s.sched with hold := s.sched.hold.filter (· != p) } }

/-- Clients that went down or came up since a former state (R137). -/
def State.clientsFollow (old s : State) : State :=
  (List.range' 160 80).foldl (fun s p =>
    if old.portUp p && !s.portUp p then s.portFell p else if !old.portUp p && s.portUp p then s.portRose p else s) s

/-- LINK_UP of a line port changes, and its FlexE group and clients with it (R138). -/
def State.setLine (s : State) (p : Nat) (up : Bool) : State :=
  if s.lineUp p == up then s
  else
    let s1 := (s.updReg (bankPage p) 0x2004 (fun w => putBit w (p % 8) up)).raise (bankPage p) 16
    State.clientsFollow s (if up then s1.portRose p else s1.portFell p).flexEval

/-- LINK_UP of the management lane changes, mirrored in HOST_STATUS (R146). -/
def State.setMgmtUp (s : State) (up : Bool) : State :=
  if bit (s.reg pgMgmt 0x2000) 0 == up then s
  else
    let s := (s.updReg pgMgmt 0x2000 (fun w => putBit w 0 up)).updReg pgHostif 0x2000 (fun w => putBit w 9 up)
    if up then s.portRose 241 else (s.portFell 241).squelch 160

/-- The receive side of a line port or the management lane has been sound for 10 ms (R129, R146): the port exists and its block runs; its lanes
have SIGNAL and LOCK and it has no fault, and LINK_UP rises where ADMIN_UP = 1. DEDUCED: with ADMIN_UP = 0 the lanes lock all the same, since
the port keeps them locked (log entry 130). A client's state follows its group (R137). -/
def execLinkUp (port : Fin 242) (s : State) : Out :=
  if s.stands then .next s else
  let p := port.val
  if p < 160 then
    if s.portAccepted p && decide (2 ≤ s.blk (bankPage p)) then
      let s := (s.portLanes p).foldl (fun (s : State) l => s.laneRise l) s
      let s := s.updReg (bankPage p) 0x2004 (fun x => putBit (putBit x (8 + p % 8) false) (16 + p % 8) false)
      .next (if s.adminUp p then s.setLine p true else s)
    else .next s
  else if p = 241 then
    if 2 ≤ s.blk pgMgmt then
      let s := s.clrReg pgMgmt 0x2000 6#32
      .next (if s.adminUp 241 then s.setMgmtUp true else s)
    else .next s
  else .next s

/-- A condition of LINK_UP fails (R129): a local fault, a received remote fault, or alignment; `noSignal` and `noLock` tell which lanes of a line
port, from its first, lose SIGNAL, or LOCK alone (R143). -/
def execLinkDown (port : Fin 242) (localFault remoteFault : Bool) (s : State) (noSignal noLock : Byte := 0) : Out :=
  if s.stands then .next s else
  let p := port.val
  if p < 160 then
    let s := (s.portLanes p).foldl (fun (s : State) l =>
      let s := if noSignal.getLsbD (l - p) then s.laneFall l true else s
      if noLock.getLsbD (l - p) then s.laneFall l false else s) s
    .next ((s.updReg (bankPage p) 0x2004 (fun x => putBit (putBit x (8 + p % 8) localFault) (16 + p % 8) remoteFault)).setLine p false)
  else if p = 241 then
    .next ((s.updReg pgMgmt 0x2000 (fun x => putBit (putBit x 1 localFault) 2 remoteFault)).setMgmtUp false)
  else .next s

/-! ### Reception -/

/-- How a frame of EtherType 0x88B5 is handled: its command with route, a discard, or a frame of port 241. -/
inductive MgmtFrame where
  | command (mac : BitVec 48) (vlan : Option Word) (bytes : List Byte)
  | discard
  | data
  deriving DecidableEq, Repr

/-- A command frame within the padded rest of an Ethernet frame. -/
def commandBytes (f : List Byte) : List Byte := f.take (8 + 4 * beNat ((f.drop 4).take 2) + 2)

/-- What a frame of the management lane is (R72, R146). -/
def State.mgmtFrameKind (s : State) (f : List Byte) : MgmtFrame :=
  let tagged := half f 12 == 0x8100
  let o := if tagged then 16 else 12
  let tag := s.cfg pgHostif 0x10C
  let sub := half f (o + 2)
  let wanted := !bit tag 12 || (tagged && half f 14 % 4096 == fld tag 11 0)
  if half f o ≠ 0x88B5 ∨ sub = 0 ∨ 0xFF < sub then .data
  else if sub ≠ 1 ∨ beNat (f.take 6) ≠ s.mgmtMac ∨ !wanted then .discard
  else .command (BitVec.ofNat 48 (beNat ((f.drop 6).take 6))) (if tagged then some (word (beNat ((f.drop 12).take 4))) else none)
    (commandBytes (f.drop (o + 4)))

/-- Whether a port's MAC takes frames now (R38, R125, R129, R137): up, its block ENABLED or DRAINING. -/
def State.macTakes (s : State) (p : Nat) : Bool :=
  if p = 240 then true
  else s.portUp p && s.adminUp p && s.working (portPage p) && (p < 160 || p == 241 || !s.clientBad (p - 160))
    && !(s.portAbsent p)

/-- Received PFC (R133): RX_PFC; with PFC_EN = 1 each enabled class stops for its quanta, and a quanta of 0 releases it. A STANDBY keeps no pause
state (R34). DESIGN CHOICE, unsafe: on the management lane, which has no PFC and no RX_PFC counter, such a frame counts as RX_PAUSE_DISCARD (log
entry 131). -/
def State.pfcReceived (s : State) (p : Nat) (enable : Nat) (quanta : Nat → Nat) : State :=
  let s := s.macCount p (if p = 241 then 3 else 4)
  if !s.pfcOn p || s.standby then s
  else s.updReg pgLadle (0x2500 + 4 * p) (fun w =>
    (List.range 8).foldl (fun w c => if enable.testBit c then putBit w (8 + c) (quanta c != 0) else w) w)

/-- The row of R131 that discards a whole frame: 0 FCS, 1 runt, 2 oversize, 3 a MAC control frame; 4 is a PFC frame; 5 none. -/
def State.macRow (s : State) (p : Nat) (f : List Byte) (fcsOk : Bool) : Nat :=
  if !fcsOk then 0
  else if f.length + 4 < 64 then 1
  else if s.maxFrame p < f.length + 4 then 2
  else if half f 12 = 0x8808 then (if half f 14 = 0x0101 then 4 else 3) else 5

/-- Ingress clock of a frame: the time base, or the domain of a PTP event message (R338, R339); RX_PTP counts those. Port 240
takes no stamp. -/
def State.stampIn (s : State) (p : Nat) (f : List Byte) (ended : Bool) : Int × State :=
  if p = 240 then (Config.internalStamp false s.port.nextId, s)
  else match ptpEvent f (s.parseFrom (f.take 256) (ended && decide (f.length ≤ 256)) f.length 17 (.hdr 1) 0 [] 0 0) with
  | some h => (s.ingressStamp p (s.domClk (s.ptpDomain p (byteAt f (h + 4)))), s.updWin pgTime p 13 (· + 1))
  | none => (s.ingressStamp p s.time.tb, s)

/-- Count a frame that a port hands to the pipelines (R417). -/
def State.countRx (s : State) (p : Nat) (f : List Byte) : State :=
  s.countFixed (0x3F0000 + 16 * p + s.framePcp f p) 1 (f.length + 4)

/-- A frame enters its port's ingress FIFO (R22, R174, R175, R401): discarded by a STANDBY or winding-down device, dropped where the
FIFO is full and its class is not lossless; else it takes its stamp and sequence number. -/
def State.enterFifo (s : State) (p : Nat) (f : List Byte) (ended fifoFull : Bool) : State :=
  let full := if fifoFull then Store.addKey p s.buf.full else s.buf.full.filter (· != p)
  let s := { s with buf := { s.buf with full := full } }
  if p ≠ 240 ∧ (s.standby || s.winding) then s.incReg pgPair 0x204C
  else if fifoFull && !s.lossless p (s.framePcp f p) then s.updWin pgParse p 13 (· + 1)
  else
    let (st, s) := s.stampIn p f ended
    let id := s.port.nextId
    let seq := Store.get 0 p s.port.seqs
    let x : Frame := { id := id, port := p, quad := s.portQuad p, recirc := false, seq := seq, pass := 1, epoch := none, bytes := f, len := f.length, gone := 0, ended := ended, late := false, stamp := st, mark := none }
    let fifos := Store.upd [] p (· ++ [x]) s.port.fifos
    let arr := if ended then s.port.arriving else Store.insert p id s.port.arriving
    let s := { s with port := { s.port with nextId := id + 1, seqs := Store.set 0 p ((seq + 1) % 65536) s.port.seqs, fifos := fifos, arriving := arr } }
    if ended then s.countRx p f else s

/-- A whole frame at a port, after R131. -/
def State.rxWhole (s : State) (p : Nat) (f : List Byte) (fcsOk fifoFull : Bool) : State :=
  if p = 240 then s.enterFifo p f true fifoFull
  else
    let r := s.macRow p f fcsOk
    if r = 5 then s.enterFifo p f true fifoFull
    else if r = 4 then s.pfcReceived p (half f 16) (fun c => half f (18 + 2 * c))
    else s.macCount p r

/-- Far loopback (R143): a line port whose lanes retransmit what they receive sends a frame that arrives. -/
def State.farFrame (s : State) (p : Nat) (f : List Byte) (fcsOk : Bool) : State :=
  if s.farLooped p then { s with port := { s.port with wire := Store.insert p (f, fcsOk) s.port.wire } } else s

/-- A port receives a frame, or its first 256 bytes (R131, R174); a MAC control frame waits in the MAC for its end. Whole frames and commands of the
management lane come with MGMT_FRAME_RX. A port looped back inside the PMA hears nothing from outside (R143). -/
def execFrameRx (port : Fin 242) (bytes : List Byte) (complete fcsOk fifoFull : Bool) (s : State) : Out :=
  if s.stands then .next s else
  let p := port.val
  let whole := complete || decide (bytes.length < 256) || p == 240
  let s := if whole && decide (p < 160) then s.farFrame p bytes fcsOk else s
  if !s.macTakes p || s.looped p || (p == 241 && (whole || s.mgmtFrameKind bytes != .data)) then .next s
  else if whole then .next (s.rxWhole p bytes fcsOk fifoFull)
  else if half bytes 12 = 0x8808 then .next { s with port := { s.port with ctlRx := Store.insert p (bytes.take 256) s.port.ctlRx } }
  else .next (s.enterFifo p (bytes.take 256) false fifoFull)

/-- The end of a frame whose first 256 bytes have come (R131, R257): an FCS error or an error code, or a length beyond MAX_FRAME, at which it is
cut off, makes it bad; a MAC control frame is decided whole. -/
def State.rxEnd (s : State) (p : Nat) (rest : List Byte) (fcsOk : Bool) : State :=
  match s.port.ctlRx.find? (fun e => e.1 == p) with
  | some e => { s with port := { s.port with ctlRx := Store.erase p s.port.ctlRx } }.rxWhole p (e.2 ++ rest) fcsOk false
  | none => match s.port.arriving.find? (fun e => e.1 == p) with
  | none => s
  | some e =>
    let above := decide (s.maxFrame p < 256 + rest.length + 4)
    let rest := if above then rest.take (s.maxFrame p - 256) else rest
    let bad := !fcsOk || above
    let s := if p = 241 then s.incReg pgMgmt 0x2004 else s
    let s := if !fcsOk then s.macCount p 0 else if above then s.macCount p 2 else s
    let first := ((s.port.fifos.flatMap Prod.snd ++ s.pipe.inside.map InPipe.frame ++ s.buf.waiting.map Adm.frame
      ++ s.heldCopies.map Copy.frame).find? (fun x => x.id == e.2))
    let pcp := match first with | some x => s.framePcp x.bytes p | none => s.defaultPcp p
    let s := s.countFixed (0x3F0000 + 16 * p + pcp) 1 (256 + rest.length + 4)
    s.frameEnd p e.2 rest bad

/-- The end of a frame already offered arrives (R131, R257). -/
def execFrameEndRx (port : Fin 242) (rest : List Byte) (fcsOk : Bool) (s : State) : Out :=
  if s.stands then .next s else .next (s.rxEnd port.val rest fcsOk)

/-- A frame completes transmission (R132, R317, R325, R417); a port looped back inside the PMA receives it (R143). A port that sends idle, as in
SAFE, ends none (R38). -/
def execFrameTxEnd (port : Fin 242) (ecc : Option Bool) (s : State) : Out :=
  if s.stands then .next s else
  let p := port.val
  match s.txDone p ecc with
  | none => .next s
  | some (f, good, t) => .next (if t.looped p && t.macTakes p then t.rxWhole p f good false else t)

/-- A PFC frame is received (R133). -/
def execPfcRx (port : Fin 240) (enable : Byte) (quanta : List (BitVec 16)) (s : State) : Out :=
  if s.stands then .next s else
  if s.macTakes port.val then .next (s.pfcReceived port.val enable.toNat (fun c => (quanta.getD c 0).toNat)) else .next s

/-- The quanta of a received PFC frame expire (R133). -/
def execPfcPauseExpire (port : Fin 240) (cls : Fin 8) (s : State) : Out :=
  if s.stands then .next s else
  .next (s.clrReg pgLadle (0x2500 + 4 * port.val) (oneBit (8 + cls.val)))

/-! ### FlexE overhead and the calendar in use (R139, R141) -/

/-- A received overhead frame (R139, R141): skew, group number, calendars, calendar in use and the far end's request, which is
acknowledged; clients follow their group (R137). -/
def execFlexeOverheadRx (g : Fin 16) (o : FlexeOverhead) (s : State) : Out :=
  if s.stands then .next s else
  let g := g.val
  if !(decide (2 ≤ s.blk pgFlexe) && bit (s.flexCfg g) 0) then .next s
  else
    let old := s
    let dA := s.calDiffs g 0 o.calA
    let dB := s.calDiffs g 1 o.calB
    let s := s.setRegFld pgFlexe (0x2004 + 16 * g) 15 0 o.skew.toNat
    let s := s.updReg pgFlexe (0x2000 + 16 * g) (fun w =>
      putBit (putBit (putBit (putBit w 4 (decide (1000 < o.skew.toNat))) 6 (o.number.toNat != fld (s.flexCfg g) 27 8))
        5 (!(dA.isEmpty && dB.isEmpty))) 2 o.inUseB)
    let others := s.port.calDiff.filter (fun k => k / 1280 != g)
    let diff := (if o.inUseB then dB else dA).foldl (fun l t => Store.addKey (g * 1280 + t) l) others
    let sent := if o.request then Store.addKey g s.port.calAckSent else s.port.calAckSent.filter (· != g)
    .next (State.clientsFollow old { s with port := { s.port with calDiff := diff, calAckSent := sent } }.flexEval)

/-- The overhead frame boundary after the acknowledgement (R141): TX_ACTIVE_B toggles, SWITCH_PENDING falls; calendars are frozen
while FLEXE is SAFE (R38). A client without a slot in the new calendar goes down (R137). -/
def execCalendarSwitch (g : Fin 16) (s : State) : Out :=
  if s.stands then .next s else
  if bit (s.flexStatus g.val) 3 && s.port.calAcked.contains g.val && !s.safe pgFlexe then
    let old := s
    let s := s.updReg pgFlexe (0x2000 + 16 * g.val) (fun w => putBit (putBit w 3 false) 1 (!bit w 1))
    .next (State.clientsFollow old ({ s with port := { s.port with calAcked := s.port.calAcked.filter (· != g.val) } }.raise pgFlexe 17))
  else .next s

end Sys2Proof.Machine
end

