-- ==== Sys2Proof/Machine/Learn.lean ====
section
/-! DEFINITION. Learning and aging (R224-R228): learn and move requests, the learning engine, limits, the aging sweep, move
storms. -/
namespace Sys2Proof.Machine

/-- G of R227: the refresh grain in ticks. -/
def State.ageGrain (s : State) : Nat := max 1 (2 * min 1000000 (s.regFld pgLearn 0x1000 19 0))

/-- A source hit refreshes LAST_SEEN where it is G ticks old or more (R227); STATIC entries keep theirs. -/
def State.refreshSeen (s : State) (ix : Nat) (e : MacEnt) : State :=
  if !e.static && decide (s.ageGrain ≤ (word s.tick - e.seen).toNat) then s.setMac (Store.insert ix { e with seen := word s.tick } s.tab.mac) else s

/-- Queue a learn or move request (R225): merged into one of the same key, dropped where 4,096 wait. -/
def State.learnRequest (s : State) (r : LearnReq) : State :=
  let q := s.tab.learnQ
  if q.any (fun x => x.mac == r.mac && x.vid == r.vid) then
    { s with tab := { s.tab with learnQ := q.map (fun x => if x.mac == r.mac && x.vid == r.vid then r else x) } }
  else if 4096 ≤ q.length then (s.incReg pgLearn 0x200C).raise pgLearn 17
  else { s with tab := { s.tab with learnQ := q ++ [r] } }

/-- Count a move to a port, keeping the count at the start of its second (R228, R232). -/
def State.countMove (s : State) (p : Nat) : State :=
  let sec := s.tick / 16
  let n := (s.winW pgLearn p 3).toNat
  let s := if (Store.get (0, 0) p s.tab.moveBase).1 = sec ∧ s.tab.moveBase.any (fun e => e.1 == p) then s
    else { s with tab := { s.tab with moveBase := Store.insert p (sec, n) s.tab.moveBase } }
  (s.updWin pgLearn p 3 (· + 1)).incReg pgLearn 0x2008

/-- Take one request (R225, R226, R228): insert a dynamic entry, move one, refresh a hit; static entries stay. -/
def State.learnOne (s : State) (r : LearnReq) : State :=
  let dest := BitVec.ofNat 20 (s.sysPort r.port)
  match s.macFind r.mac r.vid with
  | none =>
    if s.atLimit r.port then s.updWin pgLearn r.port 2 (· + 1)
    else match s.macInsert ⟨r.mac, r.vid, false, false, dest, word s.tick⟩ with
      | none => s
      | some (_, s) => ((s.incReg pgLearn 0x2004).noteLearn 1 { r with port := s.sysPort r.port }).limitReached r.port
  | some (ix, e) =>
    if e.static then s
    else if !e.isNh && e.dest == dest then s.refreshSeen ix e
    else if bit (s.winW pgLearn r.port 1) 31 then s.incReg pgLearn 0x2018
    else if s.atLimit r.port then s.updWin pgLearn r.port 2 (· + 1)
    else
      let s := s.setMac (Store.insert ix { e with isNh := false, dest := dest, seen := word s.tick } s.tab.mac)
      ((s.countMove r.port).noteLearn 2 { r with port := s.sysPort r.port }).limitReached r.port

/-- The learning engine takes a queued request (R225) while LEARN works (R38); on a STANDBY, MAC entries change by journal records only
(R401). -/
def execLearnInsert (s : State) : Out :=
  if s.stands then .next s else
  match s.tab.learnQ with
  | [] => .next s
  | r :: rest =>
    if s.working pgLearn && s.working pgTables && s.role != 2 then
      .next ({ s with tab := { s.tab with learnQ := rest } }.learnOne r)
    else .next s

/-- Whether the sweep removes a dynamic entry (R227, R395): its age is at least 16 A + G; while JOINED an entry of the other device
goes after 3 x SYNC_WALK. -/
def State.aged (s : State) (a : Nat) (e : MacEnt) : Bool :=
  let age := (word s.tick - e.seen).toNat
  let other := s.twicel == 2 && e.dest.toNat / 256 != s.ownDev
  if other then decide (48 * orIfZero (s.cfgFld pgPair 0x104 15 0) 1 ≤ age) else decide (16 * a + s.ageGrain ≤ age)

/-- The aging sweep visits a MAC row, numbered by slot index div 4 (R227): dynamic entries that are old enough go. It does not run on a
STANDBY (R401), nor while TABLES stops the maintenance port (R38). -/
def execAgeSweep (row : BitVec 22) (s : State) : Out :=
  if s.stands then .next s else
  let a := min 1000000 (s.regFld pgLearn 0x1000 19 0)
  if !s.enabled pgLearn || !s.working pgTables || a == 0 || s.role == 2 then .next s
  else
    let old := fun (e : Nat × MacEnt) => e.1 / 4 == row.toNat && !e.2.static && s.aged a e.2
    let gone := s.tab.mac.filter old
    let s := s.setMac (s.tab.mac.filter (fun e => !old e))
    .next (gone.foldl (fun s e => (s.incReg pgLearn 0x2010).noteLearn 4 ⟨e.2.mac, e.2.vid, e.2.dest.toNat⟩) s)

/-- Moves to a port within a second of the aging tick exceed MOVE_THRESHOLD (R228): MOVE_STORM, and FROZEN under MOVE_FREEZE. -/
def execMoveStorm (port : Fin 243) (s : State) : Out :=
  if s.stands then .next s else
  let p := port.val
  let (sec, n) := Store.get (0, 0) p s.tab.moveBase
  let moved := ((s.winW pgLearn p 3) - word n).toNat
  if sec = s.tick / 16 ∧ s.regFld pgLearn 0x1008 15 0 < moved then
    let s := s.raise pgLearn 16
    .next (if bit (s.reg pgLearn 0x1004) 1 then s.updWin pgLearn p 1 (· ||| 0x80000000#32) else s)
  else .next s

/-- FREEZE_TIME of a port ends (R228). -/
def execMoveFreezeExpire (port : Fin 243) (s : State) : Out :=
  if s.stands then .next s else
  .next (s.updWin pgLearn port.val 1 (· &&& 0x7FFFFFFF#32))

end Sys2Proof.Machine
end

