-- ==== Sys2Proof/Machine/Pipeline.lean ====
section
/-! DEFINITION. The pipelines (R174-R198): spray, the pass (parse, classification, forwarding lookup, learning, policing, resolve), the punt
path, the reorder stage and recirculation. -/
namespace Sys2Proof.Machine

/-! ### Rotation and spray (R176-R178, R197) -/

/-- Whether the engine profile or a THROTTLE excludes pipeline `k` (R30, R470). -/
def State.pipeExcluded (s : State) (k : Nat) : Bool := (s.profile == 3 || s.pow.throttle) && decide (2 ≤ k % 4)

/-- The frame that a breakpoint holds in pipeline `k` (R449). -/
def State.pipeHeld (s : State) (k : Nat) : Option InPipe := s.pipe.inside.find? (fun x => x.pipe == k && x.stage.isSome)

/-- Whether pipeline `k` is in rotation (R177, R449). -/
def State.inRotation (s : State) (k : Nat) : Bool :=
  s.enabled (pgPipe + k) && !s.pipeExcluded k && (s.pipeHeld k).isNone

/-- Recompute IN_ROTATION and PROFILE_EXCLUDED of every pipeline, with ROTATION_CHANGE where the first changes (R198). -/
def State.pipesEval (s : State) : State :=
  (List.range 16).foldl (fun s k =>
    let pg := pgPipe + k
    let old := s.reg pg 0x2000
    let s := s.setReg pg 0x2000 (putBit (putBit old 0 (s.inRotation k)) 3 (s.pipeExcluded k))
    if bit old 0 == s.inRotation k then s else s.raise pg 16) s

/-- Ingress halt (R33, R38, R197, R401); CRUCIBLE stores no frame, its unit of work, unless it is ENABLED (R44, R283). -/
def State.ingressHalt (s : State) : Bool :=
  !(s.enabled pgGlobal && s.enabled pgParse && s.enabled pgClassify && s.enabled pgReorder && s.enabled pgTables && s.enabled pgCrucible)
    || s.standby

/-- The pipelines in rotation of a quadrant, in the order of assignment (R177): ascending from the one after the last. -/
def State.rotation (s : State) (q : Nat) : List Nat :=
  let rot := ((List.range 4).map (4 * q + ·)).filter s.inRotation
  let last := Store.get (4 * q + 3) q s.pipe.lastPipe
  rot.filter (fun k => decide (last < k)) ++ rot.filter (fun k => decide (k ≤ last))

/-- Word `i` of packet breakpoint `b` in the DEBUG window (R456). -/
abbrev State.pbp (s : State) (b i : Nat) : Word := s.winW pgDebug b i

/-- Whether a frame matches an armed breakpoint in a pipeline (R448). -/
def State.pbpMatches (s : State) (b k : Nat) (f : Frame) : Bool :=
  let w := s.pbp b 0
  bit w 0 && bit (s.reg pgDebug 0x2000) 0 && bit (s.pbp b 1) k
    && (!bit w 4 || fld w 23 16 == f.port) && (fld w 27 24 == 0 || fld w 27 24 == f.pass)
    && (List.range 8).all (fun i =>
      let x := word (numAt f.bytes (4 * i) 4)
      (x &&& s.pbp b (16 + i)) == (s.pbp b (8 + i) &&& s.pbp b (16 + i)))

/-- A frame enters stage 0: each breakpoint that matches passes it under SKIP or marks it; the lowest that marks holds it (R448). -/
def State.pbpTest (s : State) (k : Nat) (f : Frame) : Frame × State :=
  (List.range 4).foldl (fun (r : Frame × State) b =>
    let (f, s) := r
    if !s.pbpMatches b k f then r
    else
      let skip := s.pbp b 2
      if fld skip 15 0 ≠ 0 then (f, s.setWin pgDebug b 2 (setFld skip 15 0 (fld skip 15 0 - 1)))
      else
        let s := s.updWin pgDebug b 25 (· + 1)
        let s := if bit (s.pbp b 0) 5 then s.updWin pgDebug b 0 (fun w => putBit w 0 false) else s
        ({ f with mark := if f.mark.isSome then f.mark else some b }, s)) (f, s)

/-- A frame enters a pipeline (R198, R240, R242): its epoch on pass 1, the counters, the breakpoints. -/
def State.enterPipe (s : State) (k : Nat) (f : Frame) : State :=
  let s := s.incReg (pgPipe + k) 0x2004
  let s := if 1 < f.pass then s.incReg (pgPipe + k) 0x2008 else s
  let (f, s) := if f.epoch.isNone then ({ f with epoch := some s.standing }, s.refUp s.standing) else (f, s)
  let (f, s) := s.pbpTest k { f with mark := none }
  let ins := s.pipe.inside ++ [InPipe.mk k f s.time.cyc none 0 none]
  { s with pipe := { s.pipe with inside := ins, lastPipe := Store.insert (k / 4) k s.pipe.lastPipe } }

/-- Bytes of a frame as R196 counts them: its length and 20; before its end the estimate (R299). -/
def State.recBytes (s : State) (f : Frame) : Nat := s.lenEstimate f + 20

/-- What the recirculation path may carry in bytes: quadrant `q` at 0.4 Tb/s, or with 4 the device at 1.6 Tb/s (R196); never more than one
cycle's share saved up. -/
def State.recShare (s : State) (q : Nat) : Bucket :=
  let rate := if q = 4 then 128 else 32
  (Store.get ⟨rate, s.time.cyc⟩ q s.pipe.recPath).fill rate rate s.time.cyc

/-- Whether the path carries a frame of quadrant `q` now (R196): within the quadrant's own share, or within the device's while no other
quadrant has a frame that waits. -/
def State.recFree (s : State) (q : Nat) : Bool :=
  decide (0 < (s.recShare q).level)
    || (decide (0 < (s.recShare 4).level) && (List.range 4).all (fun r => r == q || (Store.get [] r s.pipe.streams).isEmpty))

/-- Take the oldest frame of a recirculation stream (R177, R196). DEDUCED, safe: a frame that is still arriving waits until its parse window has come
(log entry 135). -/
def State.takeRecirc (s : State) (q : Nat) : Option (Frame × State) :=
  match Store.get [] q s.pipe.streams with
  | [] => none
  | f :: t =>
    if !s.recFree q || !(f.ended || decide (256 ≤ f.bytes.length)) then none
    else
      let pay := fun (l : List (Nat × Bucket)) (k : Nat) => Store.insert k (Bucket.mk ((s.recShare k).level - (s.recBytes f : Int)) s.time.cyc) l
      some (f, { s with pipe := { s.pipe with streams := Store.set [] q t s.pipe.streams, recPath := pay (pay s.pipe.recPath q) 4 } })

/-- Take the oldest waiting frame of a port that is sprayed in a quadrant: its ingress FIFO is full no more (R22). -/
def State.takePort (s : State) (q p : Nat) : Option (Frame × State) :=
  match Store.get [] p s.port.fifos with
  | [] => none
  | f :: t => if f.quad ≠ q then none
    else some (f, { s with port := { s.port with fifos := Store.set [] p t s.port.fifos }
                           buf := { s.buf with full := s.buf.full.filter (fun x => x != p) } })

/-- The weight of a port (R177): its rate in units of 5 Gb/s; 20 and 5 for ports 240 and 241. -/
def State.sprayWeight (s : State) (p : Nat) : Nat := if p = 240 then 20 else if p = 241 then 5 else max 1 (s.portRate p / 5)

/-- The port that weighted round robin serves next in a quadrant, with the frames it will have had in its turn (R177): the port whose turn it is up
to its weight, then the next in ascending order that has a frame waiting. DESIGN CHOICE, unsafe: R177 does not say how the turns go (log entry
54). -/
def State.nextPort (s : State) (q : Nat) : Option (Nat × Nat) :=
  let (p, n) := Store.get (241, 0) q s.pipe.turn
  let waits := fun p => (s.takePort q p).isSome
  if decide (0 < n ∧ n < s.sprayWeight p) && waits p then some (p, n + 1)
  else ((List.range' 1 242).find? (fun i => waits ((p + i) % 242))).map (fun i => ((p + i) % 242, 1))

/-- Fill the pipelines of a list: recirculated frames first, then ports by weighted round robin (R177). -/
def State.fillPipes (s : State) (q : Nat) : List Nat → State
  | [] => s
  | k :: ks =>
    match s.takeRecirc q with
    | some (f, s) => (s.enterPipe k f).fillPipes q ks
    | none =>
      match s.nextPort q with
      | none => s
      | some (p, n) => match s.takePort q p with
        | some (f, s) => ({ s with pipe := { s.pipe with turn := Store.insert q (p, n) s.pipe.turn } }.enterPipe k f).fillPipes q ks
        | none => s

/-- Whether a breakpoint holds a frame in a quadrant (R450). -/
def State.quadHeld (s : State) (q : Nat) : Bool := s.pipe.inside.any (fun x => x.pipe / 4 == q && x.stage.isSome)

/-- A cycle in which some banks' lookup queues hold more than 24 requests (R207, R425): LOOKUP_STALL, and LOOKUP_WAIT for each bank. -/
def State.lookupStall (s : State) (banks : List (BitVec 11)) : State :=
  (firstTouched banks).foldl (fun s b => s.pmuCount ⟨0x05, none, [], some (1, b.toNat), none⟩) ((s.incReg pgTables 0x201C).raise pgTables 19)

/-- A quadrant takes waiting frames in one cycle (R177); `stall` lists the banks whose lookup queue holds more than 24 requests (R207), counted once
for the device, with the `first` quadrant looked at in the cycle. -/
def execSpray (q : Fin 4) (stall : List (BitVec 11)) (first : Bool) (s : State) : Out :=
  if s.stands then .next s else
  if !stall.isEmpty then .next (if first then s.lookupStall stall else s)
  else if s.ingressHalt || (s.quadHeld q.val && decide (16000 ≤ (s.pipe.held.filter (fun h => h.quad == q.val)).length)) then .next s
  else .next (s.fillPipes q.val (s.rotation q.val))

/-! ### The forwarding lookup (R212-R216, R220) -/

/-- The port table word and the VLAN table word (R220). -/
abbrev State.portTab (s : State) (p : Nat) : Word := s.winA pgTables (0x4000 + p)
abbrev State.vlanTab (s : State) (v : Nat) : Word := s.winA pgTables (0x8000 + v)

/-- The VID of a frame for lookup (R215). -/
def State.lookupVid (s : State) (fr : Frame) (p : Parsed) : Nat :=
  if (outerTags p).isEmpty then fld (s.portTab fr.port) 11 0 else tagTci fr.bytes p 0 % 4096

/-- A miss of a route or label, counted at `off` (R216). -/
def State.lookupMiss (s : State) (off : Nat) : Looked := ⟨if bit (s.cfg pgTables 0x160) 0 then .punt 6 else .drop, [off]⟩

/-- A TTL of 0 or 1 (R216). -/
def State.ttlOut (s : State) : Fwd := if bit (s.cfg pgTables 0x160) 1 then .punt 5 else .drop

/-- The route lookup of an IP header (R215). -/
def State.routeLookup (s : State) (v : View) (f : List Byte) (h : Hdr) (pops : Nat) : Looked :=
  let (tab, addr) := if h.code = 6 then (2, numAt f (h.start + 16) 4) else (3, numAt f (h.start + 24) 16)
  match s.lpm v tab addr with
  | some (_, d) => ⟨.nh (fld (d.getD 0 0) 19 0) pops, []⟩
  | none => s.lookupMiss 0x202C

/-- Label lookups in a label space (R213), at most as many as the first number; `hs` are the headers from the top label on. A label beyond them
is a miss; the IP header below the bottom of stack is routed. -/
def State.labelLookup (s : State) (v : View) (f : List Byte) (space : Nat) : Nat → List Hdr → Nat → Looked
  | _, [], _ => ⟨.drop, []⟩
  | n, h :: t, pops =>
    if h.code = 6 ∨ h.code = 7 then s.routeLookup v f h pops
    else if h.code ≠ 4 then ⟨.drop, []⟩
    else match n with
    | 0 => s.lookupMiss 0x2030
    | n + 1 =>
      if byteAt f (h.start + 3) ≤ 1 then ⟨s.ttlOut, []⟩
      else match s.ver v 1 (space * 2 ^ 20 + numAt f h.start 4 / 4096) with
        | [] => s.lookupMiss 0x2030
        | d =>
          let act := fld (d.getD 0 0) 1 0
          if act = 0 then ⟨.nh (fld (d.getD 1 0) 19 0) (pops + 1), []⟩
          else if act = 1 then s.labelLookup v f space n t (pops + 1)
          else if act = 2 then ⟨.drop, []⟩
          else ⟨.punt 6, []⟩

/-- Whether a destination address is an enabled ROUTER_MAC (R215, R231). -/
def State.routerMac (s : State) (da : Nat) : Bool :=
  (List.range 4).any fun i => bit (s.cfg pgTables (0x140 + 8 * i)) 31
    && fld (s.cfg pgTables (0x140 + 8 * i)) 15 0 * 2 ^ 32 + (s.cfg pgTables (0x144 + 8 * i)).toNat == da

/-- The flow hash (R212): CRC-32 over ECMP_SEED and the flow bytes. -/
def State.flowHash (s : State) (fr : Frame) (p : Parsed) : Word :=
  let f := fr.bytes
  let seed := wordBytes (s.cfg pgTables 0x134)
  match s.fromIp p with
  | h :: t =>
    let (o, n) := if h.code = 6 then (12, 8) else (8, 32)
    let l4 := match l4Of (h :: t) with | some x => bytesAt f x.start 4 | none => [0, 0, 0, 0]
    crc32 (seed ++ bytesAt f (h.start + o) n ++ [BitVec.ofNat 8 (keyProto f (h :: t))] ++ l4)
  | [] => crc32 (seed ++ bytesAt f 0 12)

/-- The NEXTHOP entry that a frame will use (R212): an ECMP entry selects a member; none acts as DROP. -/
def State.nextHop (s : State) (v : View) (idx : Nat) (h : Word) : Option (List Word) :=
  let cap := (s.range 5).2 * 8192
  let at_ := fun (i : Nat) =>
    let d := s.ver v 5 i
    if cap ≤ i ∨ !bit (d.getD 0 0) 31 then none else some d
  match at_ idx with
  | none => none
  | some d =>
    if fld (d.getD 0 0) 30 28 ≠ 1 then some d
    else match at_ (fld (d.getD 3 0) 19 0 + h.toNat % (fld (d.getD 3 0) 25 20 + 1)) with
      | some e => if fld (e.getD 0 0) 30 28 = 1 then none else some e
      | none => none

/-- The port that a unicast result names, if it names one: itself, or as TARGET of its next-hop (R212, R215). -/
def State.fwdPort (s : State) (v : View) (fr : Frame) (p : Parsed) : Fwd → Option Nat
  | .port n => some n
  | .nh i _ => match s.nextHop v i (s.flowHash fr p) with
    | some d => if fld (d.getD 0 0) 30 28 = 0 then some (fld (d.getD 0 0) 15 0) else none
    | none => none
  | _ => none

/-- The bridge of R215: a hit's destination, or the VLAN's FLOOD_GROUP; a frame is not sent back to its own ingress port. -/
def State.bridge (s : State) (v : View) (fr : Frame) (p : Parsed) (vid : Nat) : Looked :=
  let f := fr.bytes
  let flood := fld (s.vlanTab vid) 31 16
  let miss : Looked := ⟨if flood = 0 then .drop else .group flood, []⟩
  if byteAt f 0 % 2 = 1 then miss
  else match s.macFind (BitVec.ofNat 48 (numAt f 0 6)) (BitVec.ofNat 12 vid) with
    | some (_, e) =>
      let r : Fwd := if e.isNh then .nh e.dest.toNat 0 else .port (e.dest.toNat % 65536)
      if s.fwdPort v fr p r = some (s.sysPort fr.port) then ⟨.drop, [0x2038]⟩ else ⟨r, []⟩
    | none => miss

/-- Steps 3 to 5 of R215. -/
def State.resolveLookup (s : State) (v : View) (fr : Frame) (p : Parsed) (vid : Nat) : Looked :=
  let f := fr.bytes
  let rest := (p.hdrs.drop 1).dropWhile (fun h => h.code == 2 || h.code == 3)
  let pw := s.portTab fr.port
  let label := match rest with | h :: _ => h.code == 4 && bit pw 13 | [] => false
  if label then s.labelLookup v f (fld pw 27 16) 3 rest 0
  else if s.routerMac (numAt f 0 6) && bit (s.vlanTab vid) 2 then
    match firstIp p with
    | some h => s.routeLookup v f h 0
    | none => ⟨.drop, []⟩
  else s.bridge v fr p vid

/-- Learning (R224, R226, R227): the source is looked up and a request queued; true where the frame is dropped by its port's limit. -/
def State.learnFrom (s : State) (fr : Frame) (p : Parsed) (vid : Nat) : Bool × State :=
  let f := fr.bytes
  let src := numAt f 6 6
  if !(s.working pgLearn && bit (s.reg pgLearn 0x1004) 0 && bit (s.portTab fr.port) 12 && bit (s.vlanTab vid) 1
      && fr.pass == 1 && p.dross == 0 && byteAt f 6 % 2 == 0 && src != 0) then (false, s)
  else
    let mac := BitVec.ofNat 48 src
    let v := BitVec.ofNat 12 vid
    let drop := s.atLimit fr.port && bit (s.reg pgLearn 0x1004) 2
    match s.macFind mac v with
    | none => (drop, s.learnRequest ⟨mac, v, fr.port⟩)
    | some (ix, e) =>
      if !e.isNh && e.dest.toNat == s.sysPort fr.port then
        (false, s.refreshSeen ix e)
      else if e.static then (false, s.incReg pgLearn 0x2014)
      else (drop, s.learnRequest ⟨mac, v, fr.port⟩)

/-- The rewrites that a NEXTHOP entry asks for (R212). -/
def nhRewrite (d : List Word) (pops : Nat) : Rewrite :=
  let w := d.getD 0 0
  { pops := pops
    dmac := if bit w 25 then some (BitVec.ofNat 48 (fld (d.getD 1 0) 31 16 * 2 ^ 32 + (d.getD 2 0).toNat)) else none
    vid := if bit w 24 then some (BitVec.ofNat 12 (fld (d.getD 1 0) 11 0)) else none
    decTtl := bit w 27
    push := if bit w 26 ∧ fld w 30 28 = 0 then some (BitVec.ofNat 20 (fld (d.getD 3 0) 19 0)) else none
    dei := false }

/-! ### Punts (R189, R190) -/

/-- Rate and burst of bucket `r`; 32 is the aggregate (R190, R200). -/
def State.puntRate (s : State) (r : Nat) : Nat × Nat :=
  if r = 32 then (min 2000000 (s.regFld pgClassify 0x1100 23 0), orIfZero (s.regFld pgClassify 0x1104 15 0) 1)
  else (s.regFld pgClassify (0x1000 + 8 * r) 23 0, orIfZero (s.regFld pgClassify (0x1004 + 8 * r) 15 0) 1)

/-- A punt bucket now; full where nothing is recorded (log entry 4). -/
def State.puntBucket (s : State) (r : Nat) : Bucket :=
  let (rate, burst) := s.puntRate r
  (Store.get ⟨burst * frameUnit, s.time.cyc⟩ r s.pipe.puntBuckets).fill rate (burst * frameUnit) s.time.cyc

/-- Hold a punt bucket; also before a write of its rate or burst. -/
def State.setPunt (s : State) (r : Nat) (b : Bucket) : State := { s with pipe := { s.pipe with puntBuckets := Store.insert r b s.pipe.puntBuckets } }

/-- Count a dropped punt (R190). -/
def State.puntDrop (s : State) (r : Nat) : State := (s.incReg pgClassify (0x2104 + 8 * r)).raise pgClassify 16

/-- Whether reason `r` goes to port 241 (R191). -/
def State.puntMgmt (s : State) (r : Nat) : Bool := bit (s.cfg pgClassify 0x108) r

/-- Charge a punt to its buckets (R190): true where it proceeds. -/
def State.puntTake (s : State) (r : Nat) : Bool × State :=
  let b := s.puntBucket r
  let a := s.puntBucket 32
  if (s.puntMgmt r && !bit (s.reg pgMgmt 0x2000) 0) || (s.puntRate r).1 == 0 then (false, s.puntDrop r)
  else if b.level < frameUnit then (false, s.puntDrop r)
  else if a.level < frameUnit then (false, (s.puntDrop r).incReg pgClassify 0x2000)
  else
    let s := (s.setPunt r ⟨b.level - frameUnit, b.cyc⟩).setPunt 32 ⟨a.level - frameUnit, a.cyc⟩
    (true, s.incReg pgClassify (0x2100 + 8 * r))

/-! ### The pass (R186, R187, R192, R197) -/

/-- Field of the deciding rule. -/
def Pass.ruleFld (x : Pass) (i hi lo : Nat) : Nat := match x.rule with | some r => fld (r.getD i 0) hi lo | none => 0

/-- A rule matched: COUNT, MIRROR and SET_TC take effect (R186, R417); the class of the rule matched last stands. -/
def State.ruleHit (s : State) (x : Pass) (r : List Word) : Pass × State :=
  let w := r.getD 2 0
  ({ x with mirrors := if bit w 5 then x.mirrors ++ [(fld w 27 24, 2)] else x.mirrors
            tc := if bit w 7 then some (fld w 23 21) else x.tc },
    if bit w 4 then s.count (fld (r.getD 4 0) 21 0) 1 (s.lenEstimate x.frame) else s)

/-- POLICE (R305): the port's policer on pass 1, then the rule's where its action permits; the same policer once. A policer with EN = 0 makes no
metering, so the last one with EN = 1 decides (R308). The length is that received, with what a recirculation removed (R306). -/
def State.policeFrame (s : State) (x : Pass) : Pass × State :=
  let f := x.frame
  let len := s.lenEstimate f + f.gone
  let pw := s.reg pgPolice (0x1400 + 4 * f.port)
  let first := if f.pass = 1 ∧ bit pw 31 then [fld pw 18 0] else []
  let second := if x.byRule ∧ x.ruleFld 2 6 6 = 1 then [x.ruleFld 3 18 0] else []
  let l := (first ++ second).eraseDups.filter (fun i => bit (s.polW i 4) 0)
  let col := if bit pw 29 && tagTci f.bytes x.parsed 0 / 4096 % 2 == 1 then yellow else green
  let (c, s) := l.foldl (fun (r : Nat × State) i => r.2.policer i len r.1) (col, s)
  let last := match l.getLast? with | some i => s.polW i 4 | none => 0
  let x := { x with colour := c, dei := c != green && bit last 5 }
  if c = red ∧ bit last 4 then ({ x with red := true }, (s.incReg pgPolice 0x2000).raise pgPolice 16) else (x, s)

/-- What a result reports of a frame (R430). -/
def State.passInfo (s : State) (x : Pass) (outcome cls nh egress : Nat) (resid : BitVec 60) (banks : List (BitVec 11)) : RecInfo :=
  { pass := x.frame.pass, colour := x.colour, terminating := x.term, inPort := s.sysPort x.frame.port, outcome := outcome,
    pipe := x.pipe, dross := x.parsed.dross, cls := cls, seq := x.frame.seq, epoch := x.frame.epoch.getD 0,
    stamp := x.frame.stamp, resid := resid, wait := 0, banks := banks, forme := x.forme, rule := x.ruleFld 0 19 0, nh := nh,
    queue := 0, isVoq := false, depth := 0, egress := egress, sess := [] }

/-- What RESOLVE makes of a frame: the action, its class, NEXT_HOP index and egress port. -/
structure Resolved where
  act : ResAct
  cls : Nat
  nh : Nat
  egress : Nat
  deriving DecidableEq, Repr

/-- A frame dropped in the pipeline (R192). -/
def holeOut : Resolved := ⟨.hole, 0, 0, 0⟩

/-- A punt at RESOLVE (R190, R191). -/
def State.resolvePunt (s : State) (x : Pass) (r : Nat) : Resolved × State :=
  let (go, s) := s.puntTake r
  if !go then (holeOut, s)
  else
    let flags := (if x.parsed.depth then 8 else 0) + (if x.parsed.dross ≠ 0 then 4 else 0)
    (⟨.punt r x.parsed.dross flags (x.ruleFld 0 19 0), 8, 0, if s.puntMgmt r then 241 else 240⟩, s)

/-- The traffic class of a frame (R186, R290): what SET_TC gave, else the ingress port's choice. -/
def State.passClass (s : State) (x : Pass) : Nat := x.tc.getD (s.classOf x.frame.bytes x.frame.port x.parsed)

/-- A frame resolved to a port as tables name it, with its rewrites (R241, R291, R292, R366). -/
def State.resolvePort (s : State) (x : Pass) (n nh : Nat) (rw : Rewrite) : Resolved × State :=
  let c := s.passClass x
  let rw := { rw with dei := x.dei }
  let vid := match rw.vid with | some v => v.toNat | none => tagTci x.frame.bytes x.parsed 0 % 4096
  let h := s.flowHash x.frame x.parsed
  let (dev, p) := s.splitPort n
  if dev = s.ownDev then
    let q := s.queueFor p c vid h
    if s.mapOk p q then (⟨.forward (.port p q) c vid h rw, c, nh, n⟩, s) else (holeOut, s.mapDrop)
  else match s.pathTo dev with
    | (none, s) => (holeOut, s)
    | (some ph, s) => (⟨.forward (.remote dev p ph) c vid h rw, c, nh, n⟩, s)

/-- A frame resolved to a multicast group (R272). -/
def State.resolveGroup (s : State) (x : Pass) (g nh : Nat) (rw : Rewrite) : Resolved × State :=
  let c := s.passClass x
  let vid := match rw.vid with | some v => v.toNat | none => tagTci x.frame.bytes x.parsed 0 % 4096
  (⟨.forward (.group g) c vid (s.flowHash x.frame x.parsed) { rw with dei := x.dei }, c, nh, 0⟩, s)

/-- Whether DEC_TTL of a next-hop entry meets an IP TTL of 0 or 1 (R216). -/
def ttlLow (x : Pass) (d : List Word) : Bool :=
  match firstIp x.parsed with | some h => bit (d.getD 0 0) 27 && decide (ttlOf x.frame.bytes h ≤ 1) | none => false

/-- The TTL check of R216 on the next-hop that the frame will use. -/
def State.ttlCheck (s : State) (x : Pass) (r : Fwd) : Fwd :=
  match r with
  | .nh i _ => match s.nextHop x.view i (s.flowHash x.frame x.parsed) with
    | some d => if ttlLow x d then s.ttlOut else r
    | none => r
  | r => r

/-- Resolve a forwarding result (R212, R215). -/
def State.resolveFwd (s : State) (x : Pass) (r : Fwd) : Resolved × State :=
  let none_ : Rewrite := ⟨0, none, none, false, none, false⟩
  match r with
  | .drop => (holeOut, s)
  | .punt r => s.resolvePunt x r
  | .group g => s.resolveGroup x g 0 none_
  | .port n => s.resolvePort x n 0 none_
  | .nh i pops =>
    match s.nextHop x.view i (s.flowHash x.frame x.parsed) with
    | none => (holeOut, s)
    | some d =>
      let kind := fld (d.getD 0 0) 30 28
      let n := fld (d.getD 0 0) 15 0
      if kind = 0 then s.resolvePort x n i (nhRewrite d pops)
      else if kind = 2 then s.resolveGroup x n i (nhRewrite d pops)
      else if kind = 4 then s.resolvePunt x 6
      else (holeOut, s)

/-- Punt reason of a rule: values 0-7 act as 8 (R184). -/
def ruleReason (x : Pass) : Nat := if x.ruleFld 2 20 16 < 8 then 8 else x.ruleFld 2 20 16

/-- The outcome of a terminating frame (R186, R187), with whether the rule's policer applies. -/
def termDecide (x : Pass) : Decide × Bool :=
  if x.parsed.dross ≠ 0 then (.fwd (.punt 1), false)
  else match x.rule with
    | none => (.fwd (.punt 0), false)
    | some _ =>
      let a := x.ruleFld 2 3 0
      if a = 1 then (.deliver (if x.ruleFld 2 15 8 = 241 then 241 else 240), true)
      else if a = 2 then (.fwd (.punt (ruleReason x)), false)
      else (.fwd .drop, false)

/-- The forwarding result of a transit frame (R215, R226): VLAN, the learn limit, the lookup. -/
def State.transitLookup (s : State) (x : Pass) (vid : Nat) (limit : Bool) : Looked :=
  if !bit (s.vlanTab vid) 0 then ⟨.drop, [0x2034]⟩
  else if limit then ⟨.drop, []⟩
  else s.resolveLookup x.view x.frame x.parsed vid

/-- A REDIRECT replaces a resolved destination (R216). -/
def redirect (r : Fwd) (nh : Nat) : Fwd :=
  match r with
  | .nh _ pops => .nh nh pops
  | .port _ | .group _ => .nh nh 0
  | r => r

/-- The lookup's result stands, changed by `g` where a rule redirects the frame: its counters advance (log entry 55), and the TTL check is made on
what the frame will use. -/
def State.useLooked (s : State) (x : Pass) (g : Fwd → Fwd) : Decide × State :=
  (.fwd (s.ttlCheck x (g x.looked.fwd)), x.looked.counts.foldl (fun s o => s.incReg pgTables o) s)

/-- The outcome of a transit frame that Dross lets pass (R186, R187). -/
def State.transitDecide (s : State) (x : Pass) : (Decide × Bool) × State :=
  match x.rule with
  | some _ =>
    let a := x.ruleFld 2 3 0
    if a = 1 then let (r, s) := s.useLooked x id; ((r, true), s)
    else if a = 3 then let (r, s) := s.useLooked x (fun r => redirect r (x.ruleFld 5 19 0)); ((r, true), s)
    else if a = 4 then ((.fwd (.punt (ruleReason x)), false), s)
    else if a = 5 then ((.recirc (x.ruleFld 6 4 0), true), s)
    else ((.fwd .drop, false), s)
  | none =>
    let p := x.frame.port
    let s := s.updWin pgParse p 14 (· + 1)
    let a := s.cfgFld pgClassify (0x140 + 4 * (p / 16)) (2 * (p % 16) + 1) (2 * (p % 16))
    if a = 0 then let (r, s) := s.useLooked x id; ((r, false), s)
    else if a = 2 then ((.fwd (.punt 3), false), s)
    else ((.fwd .drop, false), s)

/-! ### The stages of a pass (R197) -/

/-- What a pass knows before it starts. -/
def State.passOf (s : State) (k : Nat) (f : Frame) : Pass :=
  { frame := f, pipe := k, view := s.frameView f, parsed := s.parse f, term := false, forme := 0, rule := none, tc := none, mirrors := [],
    looked := ⟨.drop, []⟩, todo := .fwd .drop, police := false, byRule := false, colour := green, dei := false, red := false }

/-- PARSE (R179-R183, R199): the frame is parsed and counted. -/
def State.parseStage (s : State) (x : Pass) : Pass × State :=
  let x := { x with parsed := s.parse x.frame }
  let s := if x.frame.pass = 1 then s.updWin pgParse x.frame.port 15 (· + 1) else s
  (x, if x.parsed.depth then s.updWin pgParse x.frame.port 12 (· + 1) else s)

/-- The rule of a set that a frame matches (R185, R216). -/
def State.matchRule (s : State) (x : Pass) (set : Nat) : Option (List Word) :=
  let ipCode := match s.fromIp x.parsed with | h :: _ => h.code | [] => 0
  (bestRule set (s.verAll x.view 4) (s.keyOf x.frame (s.sysPort x.frame.port) x.parsed) ipCode).map Prod.snd

/-- FORME (R186). -/
def State.formeStage (s : State) (x : Pass) : Pass × State :=
  match s.matchRule x 0 with
  | some r => s.ruleHit { x with forme := fld (r.getD 0 0) 19 0, term := fld (r.getD 2 0) 3 0 == 1 } r
  | none => (x, s)

/-- The Dross action of a transit frame (R187, R200), 2 where it goes on. -/
def State.drossAction (s : State) (x : Pass) : Nat :=
  let r := x.parsed.dross
  if x.term ∨ r = 0 then 2 else s.cfgFld pgClassify 0x100 (2 * r - 1) (2 * r - 2)

/-- LOOKUP (R215, R224): a transit frame that Dross lets pass is learned from and looked up. -/
def State.lookupStage (s : State) (x : Pass) : Pass × State :=
  let s := if x.term ∨ x.parsed.dross = 0 then s else s.updWin pgParse x.frame.port (x.parsed.dross - 1) (· + 1)
  if x.term ∨ s.drossAction x ≠ 2 then (x, s)
  else
    let vid := s.lookupVid x.frame x.parsed
    let looked := s.transitLookup x vid
    let (limit, s) := if bit (s.vlanTab vid) 0 then s.learnFrom x.frame x.parsed vid else (false, s)
    ({ x with looked := looked limit }, s)

/-- RULES (R186, R187): the TERM or TRANSIT set, or what Dross makes of the frame, which is not policed. -/
def State.rulesStage (s : State) (x : Pass) : Pass × State :=
  let rule := fun (s : State) (x : Pass) (set : Nat) => match s.matchRule x set with
    | some r => s.ruleHit { x with rule := some r } r
    | none => (x, s)
  if x.term then
    let s := s.incReg pgClassify 0x2004
    let (x, s) := if x.parsed.dross ≠ 0 then (x, s) else rule s x 1
    ({ x with todo := (termDecide x).1, byRule := (termDecide x).2, police := true }, s)
  else
    let a := s.drossAction x
    if a = 2 then
      let (x, s) := rule s x 2
      let (d, s) := s.transitDecide x
      ({ x with todo := d.1, byRule := d.2, police := true }, s)
    else if a = 3 then ({ x with todo := .fwd (.punt 2) }, s)
    else
      let sk := s.cfg pgClassify 0x104
      (if a = 1 ∧ bit sk 4 then { x with mirrors := x.mirrors ++ [(fld sk 3 0, 3)] } else x, s)

/-- POLICE (R195, R305): not of a frame that is dropped already. -/
def State.policeStage (s : State) (x : Pass) : Pass × State :=
  if x.police && x.todo != .fwd .drop then s.policeFrame x else (x, s)

/-- The work of stage `n` before RESOLVE. -/
def State.stageWork (n : Nat) (r : Pass × State) : Pass × State :=
  match n with
  | 0 => r.2.parseStage r.1
  | 1 => r.2.formeStage r.1
  | 2 => r.2.lookupStage r.1
  | 3 => r.2.rulesStage r.1
  | 4 => r.2.policeStage r.1
  | _ => r

/-- RESOLVE (R195, R197, R308). -/
def State.resolveStage (s : State) (x : Pass) : Resolved × State :=
  if x.red then (holeOut, s)
  else match x.todo with
    | .fwd r => s.resolveFwd x r
    | .deliver p => s.resolvePort x (s.sysPort p) 0 ⟨0, none, none, false, none, false⟩
    | .recirc strip => if 4 ≤ x.frame.pass then s.resolvePunt x 4 else (⟨.recirc strip, 0, 0, 0⟩, s)

/-- What a frame's pass has found, with the stages done: what a breakpoint has kept, or nothing yet (R222, R449). -/
def State.passSoFar (s : State) (h : InPipe) : Nat × Pass :=
  match h.pass with
  | some (n, x) => (n, { x with frame := h.frame })
  | none => (0, s.passOf h.pipe h.frame)

/-- A frame's pass goes on to the start of stage `n`. -/
def State.passUpTo (s : State) (h : InPipe) (n : Nat) : Pass × State :=
  let (m, x) := s.passSoFar h
  (List.range' m (n - m)).foldl (fun r i => State.stageWork i r) (x, s)

/-- An uncorrectable error in a lookup read (R208). -/
def State.lookupUncorr (s : State) (bank row : BitVec 11) : State :=
  ((s.incReg pgTables 0x2024).setReg pgTables 0x2028 (word (bank.toNat + row.toNat * 65536))).raise pgTables 17

/-- Whether a frame carries an epoch that has been forced to retire (R243). -/
def State.staleEpoch (s : State) (f : Frame) : Bool := f.epoch != some s.standing && f.epoch != s.retiring

/-- The PMU events of a pass (R425): the samples drawn, as counter and code. -/
def State.passEvents (s : State) (x : Pass) (o : Resolved) (banks : List (BitVec 11)) : List (Nat × Nat) × State :=
  let pr := some (if x.term then 4 else 3)
  let ms := [(0, x.pipe), (1, x.frame.port)]
  let run := fun (r : List (Nat × Nat) × State) (e : PmuEvent) =>
    let (ns, s) := r.2.pmuEvent e
    (r.1 ++ ns.map (fun n => (n, e.code)), s)
  let r := banks.foldl (fun r b => run r ⟨0x04, pr, [(0, x.pipe)], some (1, b.toNat), some o.cls⟩) ([], s)
  let r := run r ⟨0x02, pr, ms, none, some o.cls⟩
  let r := if o.act = .hole then run r ⟨0x03, pr, ms, none, some o.cls⟩ else r
  match o.act with
  | .punt .. => run r ⟨0x0F, none, [(1, x.frame.port)], none, some 8⟩
  | _ => r

/-- The result a pass emits (R192, R433): a dropped frame with a mirror copy still gives a result. -/
def State.emitResult (s : State) (x : Pass) (o : Resolved) (resid : BitVec 60) (banks : List (BitVec 11)) : Result × State :=
  let (ns, s) := s.passEvents x o banks
  let src := s.skimSrc (if x.frame.recirc then 242 else x.frame.port)
  let rx := if x.frame.pass = 1 ∧ bit src 4 then [(fld src 3 0, 0)] else []
  let ms := mirrorList (rx ++ x.mirrors ++ (s.sampleSessions (ns.map Prod.fst)).map (fun k => (k, 4)))
  let act := if o.act = .hole ∧ ms ≠ [] then .mirrorOnly else o.act
  let outcome := match act with | .hole | .mirrorOnly => 1 | .punt .. => 2 | .recirc _ => 3 | .forward .. => 0
  let s := if act = .hole then s.incReg (pgPipe + x.pipe) 0x200C else s
  (⟨x.frame, act, ms, ns, { s.passInfo x outcome o.cls o.nh o.egress resid banks with sess := ms.map Prod.fst }⟩, s)

/-- The stream of a frame in the reorder stage (R193): its port, or its quadrant's recirculation stream. -/
def streamOf (f : Frame) : Nat := if f.recirc then 1000 + f.quad else f.port

/-- Dispose of a frame's last pass (R242). -/
def State.disposed (s : State) (f : Frame) : State := s.refDown f

/-- A result reaches the reorder stage (R193): held, or discarded where it lies behind. -/
def State.reorderIn (s : State) (q : Nat) (r : Result) : State :=
  let st := streamOf r.frame
  let next := Store.get 0 st s.pipe.nextSeq
  if 32768 ≤ (r.frame.seq + 65536 - next) % 65536 then
    (s.incReg pgReorder (0x2004 + 0x10 * q)).disposed r.frame
  else { s with pipe := { s.pipe with held := s.pipe.held ++ [⟨st, q, r.frame.seq, s.time.cyc, r⟩] } }

/-- The pass of a frame that leaves its pipeline (R179-R197): its stages to the end and its result. A frame whose epoch was forced to retire (R243)
or that meets an uncorrectable error in a lookup (R208) is dropped. -/
def State.runPass (s : State) (h : InPipe) (resid : BitVec 60) (banks : List (BitVec 11)) (ecc : Option (BitVec 11 × BitVec 11)) : State :=
  let dead := s.staleEpoch h.frame || ecc.isSome
  let (x, s) := s.passUpTo h (if dead then 1 else 5)
  let (o, s) :=
    if s.staleEpoch h.frame then (holeOut, s.incReg pgEpoch 0x2038)
    else match ecc with
      | some (b, r) => (holeOut, s.lookupUncorr b r)
      | none => s.resolveStage x
  let (r, s) := s.emitResult x o resid banks
  s.reorderIn (h.pipe / 4) r

/-- A frame inside a pipeline is discarded (R178, R192): it emits a hole marker. -/
def State.holeFor (s : State) (h : InPipe) : State :=
  let x := s.passOf h.pipe h.frame
  (s.incReg (pgPipe + h.pipe) 0x200C).reorderIn (h.pipe / 4) ⟨h.frame, .hole, [], [], s.passInfo x 1 0 0 0 0 []⟩

/-- Take a frame out of its pipeline, with RESIDENCE_MAX (R198). -/
def State.leavePipe (s : State) (x : InPipe) : State :=
  let s := { s with pipe := { s.pipe with inside := s.pipe.inside.filter (fun (y : InPipe) => !(y == x)) } }
  s.maxReg (pgPipe + x.pipe) 0x1000 16 ((s.time.cyc - x.since) * 64 / 100)

/-- A pipeline completes its oldest frame and emits one result (R178, R192). A pass is computed as it completes, from where a breakpoint has left it; a
pipeline in which a frame is held stands (R449). -/
def execPassResult (pipe : Fin 16) (residence : BitVec 60) (banks : List (BitVec 11)) (ecc : Option (BitVec 11 × BitVec 11)) (s : State) : Out :=
  if s.stands then .next s else
  match s.pipe.inside.find? (fun x => x.pipe == pipe.val) with
  | none => .next s
  | some x =>
    if (s.pipeHeld pipe.val).isSome || x.frame.mark.isSome then .next s
    else .next ((s.leavePipe x).runPass x residence banks ecc)

/-! ### Release (R191-R196, R433) -/

/-- Send a frame to admission. -/
def State.toAdmit (s : State) (a : Adm) : State := { s with buf := { s.buf with waiting := s.buf.waiting ++ [a] } }

/-- Bytes of a stream as R196 counts them. -/
def State.streamBytes (s : State) (l : List Frame) : Nat := l.foldl (fun n f => n + s.recBytes f) 0

/-- A frame enters its quadrant's recirculation stream (R195, R196), less the bytes before header STRIP_TO. -/
def State.recircIn (s : State) (f : Frame) (strip : Nat) : State :=
  let hs := (s.parse f).hdrs
  let cut := if strip = 0 then 0 else match hs[strip]? with | some h => h.start | none => 0
  let q := f.quad
  let l := Store.get [] q s.pipe.streams
  let g := { f with bytes := f.bytes.drop cut, len := f.len - cut, gone := f.gone + cut, pass := f.pass + 1, recirc := true, seq := Store.get 0 (1000 + q) s.port.seqs }
  if 16384 < s.streamBytes (l ++ [g]) then (s.incReg pgReorder (0x2008 + 0x10 * q)).disposed f
  else
    let seqs := Store.set 0 (1000 + q) ((g.seq + 1) % 65536) s.port.seqs
    let s := { s with port := { s.port with seqs := seqs }, pipe := { s.pipe with streams := Store.set [] q (l ++ [g]) s.pipe.streams } }
    s.incReg pgReorder (0x200C + 0x10 * q)

/-- The PUNT result as a copy of the control class (R190, R191). -/
def State.puntAdm (s : State) (r : Result) (reason dross flags rule : Nat) : Adm :=
  let m := s.puntMgmt reason
  let p := if m then 241 else 240
  { frame := r.frame, out := .port p (ctlQueue p), tc := 7, vid := 0, hash := 0, rw := ⟨0, none, none, false, none, false⟩, kind := .control, wrap := .punt m reason dross flags rule, info := r.info, samples := r.samples, mcast := false }

/-- A released result goes to its destination, then its mirror copies to Skim and its samples to the ring (R192, R193, R430, R433). -/
def State.releaseResult (s : State) (h : Held) : State :=
  let r := { h.result with info := { h.result.info with wait := s.time.cyc - h.since } }
  let hash := match r.act with | .forward _ _ _ x _ => x | _ => 0
  let s := match r.act with
    | .hole | .mirrorOnly => s.disposed r.frame
    | .forward out tc vid hh rw =>
      (s.toAdmit { frame := r.frame, out := out, tc := tc, vid := vid, hash := hh, rw := rw, kind := .data, wrap := .bare, info := r.info, samples := r.samples, mcast := false }).disposed r.frame
    | .punt reason dross flags rule => (s.toAdmit (s.puntAdm r reason dross flags rule)).disposed r.frame
    | .recirc strip => s.recircIn r.frame strip
  let dropped := match r.act with | .hole | .mirrorOnly => true | _ => false
  let s := r.mirrors.foldl (fun s m => s.skimFire m.1 m.2 r.frame hash dropped r.info r.frame.stamp) s
  let (ns, s) := match r.act with
    | .recirc _ => s.pmuEvent ⟨0x10, none, [(0, r.info.pipe)], none, some r.info.cls⟩
    | _ => ([], s)
  s.sampleFrame (r.samples ++ ns.map (fun n => (n, 0x10))) s.nowSub r.info

/-- Release the next result of a quadrant that is in sequence, up to `n` results that are not holes (R193). -/
def State.releaseNext (s : State) (q : Nat) : Nat → State
  | 0 => s
  | n + 1 =>
    match s.pipe.held.find? (fun h => h.quad == q && h.seq == Store.get 0 h.stream s.pipe.nextSeq) with
    | none => s
    | some h =>
      let held := s.pipe.held.filter (fun (x : Held) => !(x == h))
      let next := Store.set 0 h.stream ((h.seq + 1) % 65536) s.pipe.nextSeq
      ({ s with pipe := { s.pipe with held := held, nextSeq := next } }.releaseResult h).releaseNext q n

/-- The reorder stage releases up to four results of a quadrant in one cycle (R193). -/
def execReorderRelease (q : Fin 4) (s : State) : Out := if s.stands then .next s else .next (s.releaseNext q.val 4)

/-- TIMEOUT in cycles (R201). -/
def State.reorderTimeout (s : State) : Nat := ceilDiv (max 2200 (s.cfgFld pgReorder 0x104 15 0) * 100) 64

/-- A missing sequence of a stream is given up after TIMEOUT (R193), not while a breakpoint holds a frame of the quadrant (R450). -/
def execReorderSkip (stream : Fin 1004) (s : State) : Out :=
  if s.stands then .next s else
  let st := stream.val
  let mine := s.pipe.held.filter (fun h => h.stream == st)
  let next := Store.get 0 st s.pipe.nextSeq
  match mine.find? (fun h => decide (h.since + s.reorderTimeout ≤ s.time.cyc)) with
  | none => .next s
  | some h =>
    if mine.any (fun x => x.seq == next) || s.quadHeld h.quad then .next s
    else
      let s := { s with pipe := { s.pipe with nextSeq := Store.set 0 st ((next + 1) % 65536) s.pipe.nextSeq } }
      .next ((s.incReg pgReorder (0x2000 + 0x10 * h.quad)).raise pgReorder 16)

end Sys2Proof.Machine
end

