-- ==== Sys2Proof/Machine/Debug.lean ====
section
/-! DEFINITION. The debug port (R440-R450) and Quench (R452-R455): attachment, core triggers, packet breakpoints, the freeze and the
thaw. The port's commands are in Commands. -/
namespace Sys2Proof.Machine

/-! ### Packet breakpoints (R448, R449) -/

/-- The stage of a breakpoint: 6 and 7 act as 5 (R456). -/
def State.pbpStage (s : State) (b : Nat) : Nat := min 5 (fld (s.pbp b 0) 3 1)

/-- Show a breakpoint's held frame (R449, R456): HELD, AT_STAGE, PIPE, PBP_HELD and HELD_PIPES. -/
def State.showHeld (s : State) (b k : Nat) (stage : Option Nat) : State :=
  let w := match stage with | some n => word (1 + 2 * n + 16 * k) | none => 0
  let s := s.setWin pgDebug b 24 w
  let s := s.updReg pgDebug 0x2000 (fun w => putBit w (12 + b) stage.isSome)
  s.updReg pgDebug 0x2004 (fun w => putBit w k stage.isSome)

/-- Change the frames inside the pipelines. -/
def State.mapInside (s : State) (f : InPipe → InPipe) : State :=
  { s with pipe := { s.pipe with inside := s.pipe.inside.map f } }

/-- Show the frame that a pipeline holds (R456). -/
def State.showStage (s : State) (x : InPipe) (stage : Option Nat) : State :=
  match x.frame.mark with | some b => s.showHeld b x.pipe stage | none => s

/-- The pipeline of a held frame runs on (R449); the time held counts for no frame in it (R450). -/
def State.letGo (s : State) (x : InPipe) : State :=
  (s.showStage x none).mapInside (fun (y : InPipe) =>
    if y.pipe ≠ x.pipe then y
    else
      let y := { y with since := y.since + (s.time.cyc - x.heldSince) }
      if y.frame.id = x.frame.id then { y with stage := none, frame := { y.frame with mark := none } } else y)

/-- The frame that a pipeline holds goes on to the start of stage `n` and is held there: the stages before it are done (R449, R222). -/
def State.holdAt (s : State) (x : InPipe) (n : Nat) : State :=
  let (y, s) := s.passUpTo x n
  (s.showStage x (some n)).mapInside (fun (z : InPipe) => if z.frame.id = x.frame.id ∧ z.pipe = x.pipe then
    { z with stage := some n, heldSince := if z.stage.isNone then s.time.cyc else z.heldSince, pass := some (n, y) } else z)

/-- A pipeline runs on (R449): its frame is not held again on its current pass. -/
def State.pbpRelease (s : State) (k : Nat) : State :=
  match s.pipeHeld k with
  | none => s
  | some x => (s.letGo x).pipesEval

/-- A marked frame, the oldest of its pipeline, reaches its breakpoint's stage (R449). DESIGN CHOICE, safe: frames ahead of it complete first (log entry
136). -/
def execPbpHit (pipe : Fin 16) (s : State) : Out :=
  if s.stands then .next s else
  let k := pipe.val
  match s.pipeHeld k, s.pipe.inside.find? (fun (x : InPipe) => x.pipe == k) with
  | none, some x =>
    match x.frame.mark with
    | none => .next s
    | some b => .next (((s.holdAt x (s.pbpStage b)).raise pgDebug 17).pipesEval)
  | _, _ => .next s

/-- STEP of a held pipeline (R449): one stage on, or from stage 5 the frame's result, with what its pass has met. -/
def State.pbpStep (s : State) (k : Nat) (resid : BitVec 60) (banks : List (BitVec 11)) (ecc : Option (BitVec 11 × BitVec 11)) : State :=
  match s.pipeHeld k with
  | none => s
  | some x =>
    match x.stage with
    | some n =>
      if n < 5 then s.holdAt x (n + 1)
      else
        let s := s.letGo x
        match s.pipe.inside.find? (fun (y : InPipe) => y.pipe == k && y.frame.id == x.frame.id) with
        | some y => ((s.leavePipe y).runPass y resid banks ecc).pipesEval
        | none => s
    | none => s

/-! ### Attachment (R443) -/

/-- DBG_STATUS.ATTACHED. -/
abbrev State.attached (s : State) : Bool := bit (s.reg pgDebug 0x2000) 0

/-- Show the halted cores with their causes (R456). -/
def State.showHalts (s : State) : State :=
  let code : HaltCause → Nat := fun | .running => 0 | .coreHalt => 1 | .step => 2 | .execTrigger => 3 | .accessTrigger => 4
  let mask := s.cp.halted.foldl (fun n e => n ||| 2 ^ e.1) 0
  let cause := s.cp.halted.foldl (fun n e => n + code e.2 * 16 ^ e.1) 0
  (s.setRegFld pgDebug 0x2000 7 4 mask).setReg pgDebug 0x2008 (word cause)

/-- Hold the halted cores. -/
def State.setHalted (s : State) (l : List (Nat × HaltCause)) : State := { s with cp := { s.cp with halted := l } }.showHalts

/-- Halt a core (R446). -/
def State.haltCore (s : State) (k : Nat) (c : HaltCause) : State := (s.setHalted (Store.insert k c s.cp.halted)).raise pgDebug 18

/-- The port detaches (R443): an owner reset of owner 8; triggers are cleared, cores resume, held frames run on. -/
def State.debugDetach (s : State) : State :=
  if !s.attached then s
  else
    let s := ((s.clrReg pgDebug 0x2000 1#32).raise pgDebug 16).ownerReset .debug
    let s := { s with cp := { s.cp with triggers := [] } }.setHalted []
    (List.range 16).foldl (fun s k => s.pbpRelease k) s

/-- DBG_EN_N is asserted (R443); a SAFE DEBUG page keeps the port detached (R38). -/
def execDebugAttach (s : State) : Out :=
  if s.inReset then .next s else
  if s.attached || s.safe pgDebug then .next s
  else .next (((s.orReg pgDebug 0x2000 1#32).incReg pgDebug 0x201C).raise pgDebug 16)

/-- DBG_EN_N has been deasserted for 1 µs (R443). -/
def execDebugDetach (s : State) : Out := if s.inReset then .next s else .next s.debugDetach

/-- No valid request for DETACH_IDLE seconds (R443). -/
def execDetachIdleExpire (s : State) : Out :=
  if s.inReset then .next s else
  if s.cfgFld pgDebug 0x100 31 16 = 0 then .next s else .next s.debugDetach

/-- A line reset while the device is receiving (R442). -/
def execDebugLineReset (s : State) : Out := if s.inReset then .next s else if s.attached then .next (s.incReg pgDebug 0x2020) else .next s

/-! ### Triggers (R447) -/

/-- Whether a trigger matches an access. -/
def Trigger.hits (t : Trigger) (acc : TrigAccess) (addr : BitVec 64) (user : Bool) : Bool :=
  let kind := match acc with
    | .execute => t.kind == 1 | .load => t.kind == 2 || t.kind == 4 | .store => t.kind == 3 || t.kind == 4
  kind && (user || !t.userOnly) && (addr.setWidth 32 &&& t.mask) == (t.addr &&& t.mask)

/-- A core's access matches one of its triggers and the core halts (R447). -/
def execTriggerHit (k i : Fin 4) (acc : TrigAccess) (addr : BitVec 64) (user : Bool) (s : State) : Out :=
  if s.stands then .next s else
  match s.cp.triggers.find? (fun e => e.1 == k.val * 4 + i.val) with
  | none => .next s
  | some (_, t) =>
    if !t.hits acc addr user || s.cp.halted.any (fun e => e.1 == k.val && e.2 != .coreHalt) then .next s
    else .next (s.haltCore k.val (if acc = .execute then .execTrigger else .accessTrigger))

/-! ### Quench (R452-R455) -/

/-- DBG_STATUS.QUENCHED. -/
abbrev State.quenched (s : State) : Bool := bit (s.reg pgDebug 0x2000) 8

/-- A Quench request from source bit `src`: 0 pin, 1 command, 2 launch (R452, R453). -/
def State.quench (s : State) (src : Nat) : State :=
  if s.quenched then s.incReg pgDebug 0x2028
  else
    let s := s.updReg pgDebug 0x2000 (fun w => setFld (putBit w 8 true) 18 16 (2 ^ src))
    let s := ((s.setReg pgDebug 0x200C (word (s.nowSec / 2 ^ 32 % 65536))).setReg pgDebug 0x2010 (word s.nowSec)).setReg pgDebug 0x2014 (word s.nowSub)
    ((s.incReg pgDebug 0x2024).raise pgDebug 19).clrReg pgPair 0x2004 0x200#32

/-- QUENCH_N is asserted (R452). -/
def execQuenchPin (s : State) : Out := if s.inReset then .next s else if bit (s.cfg pgDebug 0x100) 0 then .next (s.quench 0) else .next s

/-- The thaw (R455): the clocks run again; links start down, delineation hunts, and a frame in transmission at Q is lost. `us` is how
long the Quench lasted. -/
def State.thaw (s : State) (us : Nat) : State :=
  if !s.quenched then s
  else
    let s := s.updReg pgDebug 0x2000 (fun w => putBit w 8 false)
    let s := (s.setReg pgDebug 0x2018 (word (min us 0xFFFFFFFF))).raise pgDebug 20
    let s := (List.range 160).foldl (fun s p => s.setLine p false) s
    let s := s.setMgmtUp false
    let s := (List.range 16).foldl (fun s g => (List.range 16).foldl (fun s m =>
      if s.delin g m = 0 then s else s.toHunt g m false) s) s
    s.pinsEval

end Sys2Proof.Machine
end

