-- ==== Sys2Proof/Machine/TimeX.lean ====
section
/-! DEFINITION. What a step of the time base does elsewhere (R247, R317, R354), and time transfer over Sprue (R347-R351, R415). -/
namespace Sys2Proof.Machine

/-! ### Launch slots as a step sees them (R352, R354) -/

/-- Word `i` of launch slot `k`, at window offset 4 i (R363). -/
abbrev State.slotW (s : State) (k i : Nat) : Word := s.winA pgLaunch (k * 512 + i)

/-- Hold a word of a launch slot. -/
abbrev State.setSlotW (s : State) (k i : Nat) (v : Word) : State := s.setWinA pgLaunch (k * 512 + i) v

/-- SLOT_STATUS.STATE: 0 IDLE, 1 ARMING, 2 ARMED, 3 APPLIED, 4 MISSED, 5 CANCELLED (R363). -/
abbrev State.slotState (s : State) (k : Nat) : Nat := fld (s.slotW k 4) 2 0

/-- T of a slot in ns. -/
def State.slotT (s : State) (k : Nat) : Nat :=
  (fld (s.slotW k 0) 15 0 * 2 ^ 32 + (s.slotW k 1).toNat) * 1000000000 + (s.slotW k 2).toNat

/-- The time base is at or after T of a slot. -/
def State.slotDue (s : State) (k : Nat) : Bool := decide (s.slotT k ≤ s.nowNs)

/-- A step of the time base from `before` ns (R354): ARMED slots whose T it reaches or passes are marked, and a backward step waits for
T again. -/
def State.launchStepped (s : State) (before : Nat) : State :=
  let hit := (List.range 256).filter fun k => s.slotState k == 2 && s.slotDue k && (decide (before < s.slotT k) || s.launch.stepped.contains k)
  { s with launch := { s.launch with stepped := hit } }

/-- What a step of the time base does in the other blocks. -/
def State.afterStep (s : State) (before : Nat) : State := ((s.gatesStepped.epochStepped).launchStepped before).binsStepped

/-! ### Exchanges (R348, R349) -/

/-- The group that the device follows on (R347, R415). -/
def State.followGroup (s : State) : Option Nat :=
  if s.roleFollows then (if s.topo = 1 then s.groupOfUse 1 else some (s.cfgFld pgTime 0x100 7 4)) else s.groupOfUse 2

/-- The time member of a group (R348): the lowest in both TX_ACTIVE and RX_OK. -/
def State.timeMember (s : State) (g : Nat) : Option Nat := (membersIn (s.txActive g &&& s.rxOk g)).head?

/-- A stamp of the time base in 2^-16 ns. -/
abbrev State.stampNow (s : State) : Nat := s.time.tb / 2 ^ 48

/-- The 12 bytes of a TOD96 (R158). -/
def tod96 (t : Nat) : List Byte :=
  let ns := t / 65536
  beBytes 6 (ns / 1000000000) ++ beBytes 4 (ns % 1000000000) ++ beBytes 2 (t % 65536)

/-- A TOD96 field in 2^-16 ns. -/
def ofTod96 (w : BitVec 96) : Nat :=
  let n := w.toNat
  (n / 2 ^ 48 * 1000000000 + n / 65536 % 2 ^ 32) * 65536 + n % 65536

/-- A TIME cell (R158): MSG, EXCHANGE_ID, T1, T2, T3. -/
def timeCell (msg id t1 t2 t3 : Nat) : List Byte :=
  [5, BitVec.ofNat 8 msg] ++ beBytes 2 id ++ tod96 t1 ++ tod96 t2 ++ tod96 t3

/-- The outstanding exchange is lost (R348). -/
def State.exchLost (s : State) : State :=
  match s.time.exch with
  | none => s
  | some _ => { s with time := { s.time with exch := none } }.incReg pgTime 0x2090

/-- EXCH_INTERVAL passes (R348): an exchange still outstanding is lost, and a follower sends a REQUEST on its time member. -/
def execTimeExchangeStart (s : State) : Out :=
  if s.stands then .next s else
  if !s.follows || !s.enabled pgTime then .next s
  else
    let s := s.exchLost
    match s.followGroup with
    | none => .next s
    | some g =>
      match s.timeMember g with
      | none => .next s
      | some m =>
        let id := (s.time.exchId + 1) % 65536
        let t1 := s.stampNow
        let s := { s with time := { s.time with exchId := id, exch := some (id, t1, m) } }
        .next (s.sendLocal g m 40 (timeCell 0 id t1 0 0))

/-- A REQUEST is delivered (R348): answered on the same member with T2 and T3. -/
def State.timeRequest (s : State) (g m id t1 : Nat) : State :=
  if !s.enabled (sprPage g) then s
  else (s.sendLocal g m 40 (timeCell 1 id t1 s.stampNow s.stampNow)).incReg pgTime 0x2094

/-- A TIME REQUEST is received. -/
def execTimeRequestRx (g m : Fin 16) (id : BitVec 16) (t1 : BitVec 96) (s : State) : Out :=
  if s.stands then .next s else
  .next (s.timeRequest g.val m.val id.toNat (ofTod96 t1))

/-! ### The servo (R350) -/

/-- 200 ppm in 2^-40. -/
def rateLimit : Int := 219902325

/-- 20 ppm of a cycle in 2^-64 ns. -/
def phaseLimit : Int := 236118324143482

/-- Clamp to a symmetric bound. -/
def clampTo (b v : Int) : Int := max (-b) (min b v)

/-- The loop update (R350): its rate and phase correction are free within their clamps (log entry 2). -/
def State.loopUpdate (s : State) : State :=
  let (k, s) := s.fresh
  let r := clampTo rateLimit (Config.servoRate k)
  let p := clampTo phaseLimit (Config.servoPhase k)
  { s with time := { s.time with phase := p } }.setReg pgTime 0x2088 (BitVec.ofInt 32 r)

/-- Step the time base by a signed amount in 2^-17 ns (R336, R350). -/
def State.servoStep (s : State) (d : Int) : State :=
  let before := s.nowNs
  (s.stepTb (d * 2 ^ 47)).afterStep before

/-- LOCK_LOST (R350). -/
def State.lockLost (s : State) : State := s.orReg pgTime 0x2010 0x400#32

/-- Enter ACQUIRING with no exchange counted. -/
def State.acquire (s : State) : State := { s with time := { s.time with good := 0, bad := 0 } }.setServo 1

/-- A valid exchange with offset `th` in 2^-17 ns acts on the servo (R350). -/
def State.servo (s : State) (th : Int) : State :=
  let a := th.natAbs
  let step := orIfZero (s.cfgFld pgTime 0x104 31 16) 1000 * 131072
  let st := s.regFld pgTime 0x2010 4 3
  if st = 2 then
    if step < a then ((s.servoStep th).lockLost).acquire
    else if 10 * 131072 < a then
      let n := s.time.bad + 1
      let s := s.loopUpdate
      if n = 4 then s.lockLost.acquire else { s with time := { s.time with bad := n } }
    else { s.loopUpdate with time := { s.loopUpdate.time with bad := 0 } }
  else
    let s := if st = 1 then s else s.acquire
    if step < a then
      let s := s.servoStep th
      { s with time := { s.time with good := 0 } }
    else if a ≤ 2 * 131072 then
      let n := s.time.good + 1
      let s := s.loopUpdate
      let s := { s with time := { s.time with good := n, bad := 0 } }
      if n = 64 then s.setServo 2 else s
    else
      let s := s.loopUpdate
      { s with time := { s.time with good := 0 } }

/-- A RESPONSE is delivered (R348-R350): one that answers the outstanding exchange on its member within 100 µs
gives offset and delay. -/
def State.timeResponse (s : State) (g m id t1 t2 t3 : Nat) : State :=
  match s.time.exch with
  | none => s
  | some (i, t, mm) =>
    if i ≠ id ∨ t ≠ t1 ∨ mm ≠ m ∨ s.followGroup ≠ some g then s
    else if t1 + 100000 * 65536 < s.stampNow then s.exchLost
    else
      let t4 : Int := s.stampNow
      let out := (t2 : Int) - t1
      let back := t4 - t3
      let th := out - back - 2 * (s.reg pgTime (0x10C0 + 4 * g)).toInt
      let s := { s with time := { s.time with exch := none } }.incReg pgTime 0x208C
      let s := s.setReg pgTime 0x2080 (BitVec.ofInt 32 (max (-2147483648) (min 2147483647 (th / 2))))
      let s := s.setReg pgTime 0x2084 (BitVec.ofInt 32 ((out + back) / 2))
      if s.safe pgTime || !s.follows then s else s.servo th

/-- A TIME RESPONSE is received. -/
def execTimeResponseRx (g m : Fin 16) (id : BitVec 16) (t1 t2 t3 : BitVec 96) (s : State) : Out :=
  if s.stands then .next s else
  .next (s.timeResponse g.val m.val id.toNat (ofTod96 t1) (ofTod96 t2) (ofTod96 t3))

/-- 100 µs pass without a valid RESPONSE (R348). -/
def execTimeExchangeLost (s : State) : Out := if s.stands then .next s else .next s.exchLost

/-- 1 ms passes without a valid exchange (R350): a LOCKED servo freezes R_CORR and enters HOLDOVER. -/
def execServoHoldover (s : State) : Out :=
  if s.stands then .next s else
  if s.regFld pgTime 0x2010 4 3 = 2 then
    .next ({ s with time := { s.time with phase := 0 } }.lockLost.setServo 3)
  else .next s

/-- The time role may have changed (R347, R350, R415): FOLLOWING and the servo follow it; a new follower acquires. -/
def State.timeRoleEval (s : State) : State :=
  let f := s.follows && decide (2 ≤ s.blk pgTime)
  if bit (s.reg pgTime 0x2010) 2 == f then s
  else
    let s := s.updReg pgTime 0x2010 (fun w => putBit w 2 f)
    if f then s.acquire else { s with time := { s.time with phase := 0 } }.setServo 0

end Sys2Proof.Machine
end

