-- ==== Sys2Proof/Machine/Trunk.lean ====
section
/-! DEFINITION. Trunked operation (R364-R382): VOQ service, credits and grants, reassembly, back-pressure, takeover of an alias. -/
namespace Sys2Proof.Machine

/-! ### Serving a VOQ (R371-R374) -/

/-- Cells of a frame of `l` bytes in transfer (R372). -/
def transferCells (l : Nat) : Nat := ceilDiv (16 + l) 248

/-- Microseconds in CORE_CLK cycles, rounded up (R25). -/
def usCycles (us : Nat) : Nat := ceilDiv (us * 3125) 2

/-- CREDIT_UNIT in bytes (R383). -/
def State.creditUnit (s : State) : Nat := min 16 (orIfZero (s.cfgFld pgVoq 0x108 4 0) 1) * 1024

/-- The lanes that may carry a data cell of a class to a physical destination now (R160, R373). -/
def State.dataLanes (s : State) (phys c : Nat) : List Nat :=
  ((s.txLanes ((s.routeGroups phys).filter (fun g => !s.flowStopsDev g phys c))).filter
    (fun k => !s.flowStopsMember (k / 16) (k % 16) c))

/-- A probe is permitted (R374): no probe and no grant in the last PROBE_TIME. -/
def State.probeOk (s : State) (v : Voq) : Bool :=
  match v.lastProbe with
  | none => true
  | some t => decide (t + usCycles (orIfZero (s.cfgFld pgVoq 0x104 15 8) 1) ≤ s.time.cyc)

/-- A VOQ brought to its alias entry's present physical ID, whose first frame probes (R366, R379). -/
def State.voqNow (s : State) (v : Voq) : Voq :=
  match s.physOf v.dest with
  | some ph => if ph = v.phys then v else { v with phys := ph, credit := 0 }
  | none => v

/-- Whether a VOQ is ready (R373). -/
def State.voqReady (s : State) (n : Nat) (v : Voq) : Bool :=
  match s.queue (voqKey n) with
  | [] => false
  | c :: _ => c.need == 0 && c.frame.ended && !(s.dataLanes v.phys v.cls).isEmpty && (decide (0 < v.credit) || s.probeOk v)

/-- The ready VOQ that is served next (R373): the highest class first, round robin within a class. -/
def State.pickVoq (s : State) : Option (Nat × Voq) :=
  (List.range 8).findSome? fun i =>
    let c := 7 - i
    let l := s.voq.voqs.filter (fun e => e.2.cls == c && s.voqReady e.1 (s.voqNow e.2))
    let last := Store.get 0 c s.voq.served
    match l.find? (fun e => decide (last ≤ e.1)) with
    | some e => some e
    | none => l.head?

/-- The transfer header of a frame (R371). -/
def State.transferHeader (s : State) (n : Nat) (c : Copy) (len : Nat) (probe : Bool) : List Byte :=
  let left := ((s.queue (voqKey n)).drop 1).foldl (fun k x => k + transferCells (s.sentLen x)) 0
  let b2 := c.cls % 8 * 32 + c.info.colour % 4 * 8 + (c.kind == .mirror).toNat * 4 + c.mcast.toNat * 2 + probe.toNat
  [1, BitVec.ofNat 8 c.port, BitVec.ofNat 8 b2, 0] ++ beBytes 2 c.info.inPort ++ beBytes 2 len ++ beBytes 2 (min left 65535)
    ++ beBytes 2 c.info.epoch ++ beBytes 4 ((c.frame.stamp / 65536).toNat % 1000000000)

/-- The cells of a frame go to the lanes, sprayed in round robin (R372, R373); each waits for its slot, as it does where a lane becomes unusable. -/
def State.sendFrame (s : State) (phys c : Nat) (bytes : List Byte) (first : Bool) : Nat → State
  | 0 => s
  | n + 1 =>
    match nextLane (s.dataLanes phys c) (Store.get 0 phys s.voq.sprayed) with
    | none => s
    | some k =>
      let part := bytes.take 248
      let rest := bytes.drop 248
      let sq := Store.get 0 (phys * 8 + c) s.voq.streams
      let v := s.voq
      let s := { s with voq := { v with streams := Store.set 0 (phys * 8 + c) ((sq + 1) % 65536) v.streams, sprayed := Store.set 0 phys (k + 1) v.sprayed } }
      let s := s.queueData k ⟨phys, c, false, s.ownId, first, rest.isEmpty, 0, sq, part.length⟩ part
      if rest.isEmpty then s else s.sendFrame phys c rest false n

/-- A ready VOQ sends one frame, credited or as a probe (R373, R374); a frame with an uncorrectable cell is discarded instead (R254, R265);
`ecc` is an error found in the Crucible cells read for it. -/
def execVoqServe (s : State) (ecc : Option Bool := none) : Out :=
  if s.stands then .next s else
  if !decide (2 ≤ s.blk pgVoq) || s.topo == 0 || s.standby || (s.topo == 1 && s.twicel != 2) then .next s
  else match s.pickVoq with
  | none => .next s
  | some (n, v0) =>
    match s.queue (voqKey n) with
    | [] => .next s
    | c :: _ =>
      let v := s.voqNow v0
      let lost := fun (s : State) => (if c.mcast then (s.removeCopy c).incReg pgMcast 0x2004 else s.removeCopy c).freeVoqs
      let s := if c.spoilt then s else s.eccFound ecc
      if c.spoilt then .next (lost (s.incReg pgIngot 0x2018))
      else if ecc = some true then .next (lost s)
      else
        let f := s.sentBytes c
        let charge := 256 * transferCells f.length
        let probe := decide (v.credit ≤ 0)
        let b := s.transferHeader n c f.length probe ++ f
        let v := if probe then { v with lastProbe := some s.time.cyc } else { v with credit := v.credit - (charge : Nat) }
        let s := ((s.noteCellReads c).2).setVoq n v
        let s := { s with voq := { s.voq with served := Store.set 0 v.cls (n + 1) s.voq.served } }
        let s := if probe then s.incReg pgVoq 0x201C else s
        .next ((s.sendFrame v.phys v.cls b true (transferCells f.length)).removeCopy c).freeVoqs

/-! ### Credits (R374, R375) -/

/-- One entry of a CREDIT_GRANT cell from a source (R374). -/
def State.creditIn (s : State) (src port cls units : Nat) : State :=
  let s := s.incReg pgVoq 0x2020
  match s.voq.voqs.find? (fun e => e.2.port == port && e.2.cls == cls && s.physOf e.2.dest == some src) with
  | none => s.incReg pgVoq 0x2024
  | some (n, v) =>
    let v := s.voqNow v
    let cap : Int := (s.cfgFld pgVoq 0x108 31 16 * s.creditUnit : Nat)
    let c := v.credit + (units * s.creditUnit : Nat)
    let s := if cap < c then s.incReg pgVoq 0x2028 else s
    s.setVoq n { v with credit := min c cap, lastProbe := some s.time.cyc }

/-- A CREDIT_GRANT cell from a source: entries of PORT, CLS and CREDITS (R374). -/
def execCreditGrantRx (src : BitVec 12) (entries : List (BitVec 16 × Fin 8 × BitVec 16)) (s : State) : Out :=
  if s.stands then .next s else
  .next (entries.foldl (fun s e => s.creditIn src.toNat e.1.toNat e.2.1.val e.2.2.toNat) s)

/-- Whether a flow is eligible for a grant at its port (R375). -/
def State.flowEligible (s : State) (p c : Nat) (f : Flow) : Bool :=
  let w := s.reg pgLadle (0x2500 + 4 * p)
  decide (f.out < min (f.backlog : Int) (s.cfgFld pgCredit 0x100 31 16 * s.creditUnit : Nat))
    && !(bit w (8 + c) && !bit w (16 + c))

/-- The charge held in a port's egress queues, in cells (R375). -/
def State.portCells (s : State) (p : Nat) : Nat :=
  s.allCopies.foldl (fun n c => if c.queue < 1048576 ∧ c.port = p then n + c.charge + c.pre + s.stagedOf c else n) 0

/-- The flow that takes a port's grant (R375): the highest class, sources in round robin within it. -/
def State.pickFlow (s : State) (p : Nat) : Option (Nat × Flow) :=
  (List.range 8).findSome? fun i =>
    let c := 7 - i
    let l := s.voq.flows.filter (fun e => e.1 % 8 == c && e.1 / 8 % 256 == p && s.flowEligible p c e.2)
    let last := Store.get 0 (p * 8 + c) s.voq.grantLast
    match l.find? (fun e => decide (last ≤ e.1 / 2048)) with
    | some e => some e
    | none => l.head?

/-- Add a unit to the entries gathered for a source (R375). -/
def addUnit (l : List (Nat × Nat)) (key : Nat) : List (Nat × Nat) :=
  if l.any (fun e => e.1 == key) then l.map (fun e => if e.1 = key then (e.1, e.2 + 1) else e) else l ++ [(key, 1)]

/-- Send the grants gathered for a source, up to 20 entries in a cell (R158, R375); they wait while no member can carry them. -/
def State.sendGrants (s : State) (src : Nat) : State :=
  match Store.get [] src s.voq.grants with
  | [] => s
  | all =>
    let l := all.take 20
    let es := l.flatMap (fun e => beBytes 8 (e.1 / 8 * 2 ^ 48 + e.1 % 8 * 2 ^ 45 + e.2 * 65536))
    match s.sendControl (s.routeGroups src) src (4 + 8 * l.length) ([3, BitVec.ofNat 8 l.length, 0, 0] ++ es) with
    | none => s
    | some s =>
      let s := { s with voq := { s.voq with grants := Store.set [] src (all.drop 20) s.voq.grants } }
      (s.addReg pgCredit 0x2008 l.length).incReg pgCredit 0x200C

/-- The generator earns a grant for an egress port and spends it on an eligible flow (R375). -/
def execCreditEarn (port : Fin 242) (s : State) : Out :=
  if s.stands then .next s else
  let p := port.val
  if !s.working pgCredit || s.standby || decide (s.cfgFld pgCredit 0x104 19 0 < s.portCells p) then .next s
  else match s.pickFlow p with
  | none => .next s
  | some (k, f) =>
    let src := k / 2048
    let v := s.voq
    let l := addUnit (Store.get [] src v.grants) (k % 2048)
    let s := { s with voq := { v with flows := Store.insert k { f with out := f.out + (s.creditUnit : Nat) } v.flows, grantLast := Store.set 0 (p * 8 + k % 8) (src + 1) v.grantLast, grants := Store.insert src l v.grants } }
    .next (if 20 ≤ l.length then s.sendGrants src else s)

/-- GRANT_HOLD has passed since the first entry for a source (R375). -/
def execGrantCellSend (src : BitVec 12) (s : State) : Out :=
  if s.stands then .next s else
  if decide (2 ≤ s.blk pgCredit) && s.blk pgCredit != 4 then .next (s.sendGrants src.toNat) else .next s

/-! ### Reassembly (R376, R377) -/

/-- Cells held in the reorder buffer (RB_USED). -/
def State.rbUsed (s : State) : Nat := s.voq.ctxs.foldl (fun n e => n + e.2.held.length) 0

/-- Hold a reassembly context. -/
def State.setCtx (s : State) (k : Nat) (x : RxCtx) : State := { s with voq := { s.voq with ctxs := Store.insert k x s.voq.ctxs } }

/-- A data cell is placed in its context or discarded (R376, R377, R401). -/
def State.dataCell (s : State) (src cls : Nat) (x : DataCell) : State :=
  if s.standby || s.winding then s.incReg pgPair 0x204C
  else if !s.working pgCredit || s.topo == 0 || (s.topo == 1 && s.twicel != 2 && s.twicel != 4) then s
  else
    let k := src * 8 + cls
    let now := s.time.cyc
    match s.voq.ctxs.find? (fun e => e.1 == k) with
    | none =>
      if 4096 ≤ s.voq.ctxs.length then s.incReg pgCredit 0x2020
      else if 32768 ≤ s.rbUsed then s.incReg pgCredit 0x201C
      else s.setCtx k ⟨if x.seq = 0 then some 0 else none, [(x.seq, x, now)], [], false, now⟩
    | some (_, c) =>
      let idle := decide (c.last + orIfZero (s.cfgFld pgCredit 0x108 31 16) 100 * 1562500 ≤ now)
      let next := if idle then none else c.next
      let next := if next.isNone ∧ x.seq = 0 then some 0 else next
      let c := { c with next := next, last := now }
      match next with
      | some n =>
        if 32768 ≤ (x.seq + 65536 - n) % 65536 then (s.setCtx k c).incReg pgCredit 0x2018
        else if 32768 ≤ s.rbUsed then (s.setCtx k c).incReg pgCredit 0x201C
        else s.setCtx k { c with held := Store.insert x.seq (x, now) c.held }
      | none =>
        if 32768 ≤ s.rbUsed then (s.setCtx k c).incReg pgCredit 0x201C
        else s.setCtx k { c with held := Store.insert x.seq (x, now) c.held }

/-- A data cell is delivered (R377). -/
def execDataCellRx (src : BitVec 12) (cls : Fin 8) (seq : BitVec 16) (first last : Bool) (payload : List Byte) (s : State) : Out :=
  if s.stands then .next s else
  .next (s.dataCell src.toNat cls.val ⟨seq.toNat, first, last, payload⟩)

/-- A frame that frame assembly discards (R371, R377). -/
def State.frameErr (s : State) : State := (s.incReg pgCredit 0x2024).raise pgCredit 17

/-- A complete frame in transfer bytes goes to the Ladle (R371, R375, R377, R291), or is dropped where its mapping fails (R292). -/
def State.frameOut (s : State) (src cls cells : Nat) (b : List Byte) : State :=
  let dst := byteAt b 1
  let b2 := byteAt b 2
  let len := half b 6
  if byteAt b 0 ≠ 1 ∨ b.length ≠ 16 + len ∨ len = 0 ∨ 16000 < len ∨ 241 < dst then s.frameErr
  else
    let s := s.incReg pgCredit 0x2028
    let k := (src * 256 + dst) * 8 + cls
    let f := Store.get ⟨0, 0⟩ k s.voq.flows
    let probe := b2 % 2 == 1
    let s := if probe then s.incReg pgCredit 0x2010 else s
    let f : Flow := ⟨if probe then 0 else f.out - (256 * cells : Nat), half b 8 * 256⟩
    let s := { s with voq := { s.voq with flows := Store.insert k f s.voq.flows } }
    let bytes := b.drop 16
    let stamp : Int := (beNat (bytesAt b 12 4) * 65536 : Nat)
    let fr : Frame := { id := s.port.nextId, port := 255, quad := 0, recirc := false, seq := 0, pass := 1, epoch := none, bytes := bytes, len := bytes.length, ended := true, gone := 0, late := false, stamp := stamp, mark := none }
    let s := { s with port := { s.port with nextId := s.port.nextId + 1 } }
    let h := s.flowHash fr (s.parse fr)
    let vid := outerVid bytes
    let tc := b2 / 32
    let info : RecInfo := ⟨1, b2 / 8 % 4, false, half b 4, 0, 0, 0, tc, 0, half b 10, stamp, 0, 0, [], 0, 0, 0, 0, false, 0, dst, []⟩
    let kind : CopyKind := if b2 / 4 % 2 = 1 then .mirror else .data
    let mcast := b2 / 2 % 2 == 1
    let q := s.queueFor dst tc vid h
    if !s.mapOk dst q then (if mcast then s.mapDrop.incReg pgMcast 0x2004 else s.mapDrop)
    else s.toAdmit { frame := fr, out := .port dst q, tc := tc, vid := vid, hash := h, rw := ⟨0, none, none, false, none, false⟩, kind := kind, wrap := .bare, info := info, samples := [], mcast := mcast }

/-- A cell passes to frame assembly (R377). -/
def State.assemble (s : State) (k : Nat) (x : DataCell) (c : RxCtx) : State × RxCtx :=
  let s := if x.first && !c.parts.isEmpty then s.frameErr else s
  if !x.first && c.parts.isEmpty then
    (if c.bad then s else s.frameErr, { c with bad := !x.last })
  else
    let parts := if x.first then [x] else c.parts ++ [x]
    if x.last then (s.frameOut (k / 8) (k % 8) parts.length (parts.flatMap DataCell.payload), { c with parts := [], bad := false })
    else (s, { c with parts := parts, bad := false })

/-- Cells in sequence of a context pass to frame assembly (R377). -/
def State.drainCtx (s : State) (k : Nat) (c : RxCtx) : Nat → State × RxCtx
  | 0 => (s, c)
  | n + 1 => match c.next with
    | none => (s, c)
    | some q => match c.held.find? (fun e => e.1 == q) with
      | none => (s, c)
      | some (_, x, _) =>
        let (s, c) := s.assemble k x { c with next := some ((q + 1) % 65536), held := Store.erase q c.held }
        s.drainCtx k c n

/-- Each cycle the cells in sequence pass to frame assembly, and complete frames go to the Ladle (R377). -/
def execReassemblyRelease (s : State) : Out :=
  if s.stands then .next s else
  .next (s.voq.ctxs.foldl (fun (s : State) e =>
    let (s, c) := s.drainCtx e.1 e.2 e.2.held.length
    s.setCtx e.1 c) s)

/-- The held SEQ that comes first after `from_`. -/
def firstHeld (c : RxCtx) (from_ : Nat) : Option Nat :=
  c.held.foldl (fun (b : Option Nat) e =>
    match b with
    | none => some e.1
    | some m => if (e.1 + 65536 - from_) % 65536 < (m + 65536 - from_) % 65536 then some e.1 else some m) none

/-- Whether a context's earliest held cell has waited TIMEOUT (R376, R377). -/
def State.heldTooLong (s : State) (c : RxCtx) : Bool :=
  c.held.any (fun e => decide (e.2.2 + usCycles (orIfZero (s.cfgFld pgCredit 0x108 7 0) 1) ≤ s.time.cyc))

/-- The earliest held cell of a synced context has waited TIMEOUT (R377): the gap is given up, unless the missing cell has come
(R379). -/
def execRbSkip (src : BitVec 12) (cls : Fin 8) (s : State) : Out :=
  if s.stands then .next s else
  let k := src.toNat * 8 + cls.val
  match s.voq.ctxs.find? (fun e => e.1 == k) with
  | none => .next s
  | some (_, c) =>
    match c.next with
    | none => .next s
    | some n =>
      if c.held.any (fun e => e.1 == n) || !s.heldTooLong c then .next s
      else match firstHeld c n with
      | none => .next s
      | some q =>
        let s := (s.incReg pgCredit 0x2014).raise pgCredit 16
        let cut := !c.parts.isEmpty
        let s := if cut then s.frameErr else s
        .next (s.setCtx k { c with next := some q, parts := [], bad := cut || c.bad })

/-- TIMEOUT has passed since the first cell of an unsynced context (R376): next is the earliest held SEQ. -/
def execContextSync (src : BitVec 12) (cls : Fin 8) (s : State) : Out :=
  if s.stands then .next s else
  let k := src.toNat * 8 + cls.val
  match s.voq.ctxs.find? (fun e => e.1 == k) with
  | none => .next s
  | some (_, c) =>
    match c.next, c.held with
    | none, h :: t =>
      if !s.heldTooLong c then .next s else
      let oldest := t.foldl (fun (m : Nat × DataCell × Nat) e => if e.2.2 < m.2.2 then e else m) h
      .next (s.setCtx k { c with next := firstHeld c ((oldest.1 + 32768) % 65536) })
    | _, _ => .next s

/-! ### Back-pressure (R378) -/

/-- The groups on which the device receives data: those of the fabric, or the joint. -/
def State.dataGroups (s : State) : List Nat :=
  (List.range 16).filter fun g => s.groupSends g && s.cfgFld (sprPage g) 0x100 1 0 == (if s.topo = 1 then 1 else 0)

/-- Send a FLOW_STATUS cell with one entry for the device itself on every member it receives data on (R158, R378). -/
def State.sendFlow (s : State) (xoff : Bool) : State :=
  s.dataGroups.foldl (fun s g => (s.listed g).foldl (fun s m =>
    if s.memberLive g m then
      s.sendLocal g m 8 ([4, 1, 0, 0] ++ wordBytes (word (s.ownId * 2 ^ 20 + (if xoff then 0xFF else 0))))
    else s) s) s

/-- The occupancy of the reorder buffer crosses XOFF or XON (R378). -/
def execRbXoff (s : State) : Out :=
  if s.stands then .next s else
  let n := s.rbUsed
  if !s.voq.xoff && decide (s.cfgFld pgCredit 0x10C 15 0 ≤ n) then
    .next (((({ s with voq := { s.voq with xoff := true } }.incReg pgCredit 0x202C).raise pgCredit 18)).sendFlow true)
  else if s.voq.xoff && decide (n < s.cfgFld pgCredit 0x10C 31 16) then
    .next ({ s with voq := { s.voq with xoff := false } }.sendFlow false)
  else .next s

/-- 10 µs after the last XOFF cell (R378). -/
def execFlowStatusRepeat (s : State) : Out := if s.stands then .next s else .next (if s.voq.xoff then s.sendFlow true else s)

/-! ### Freeing, unreachable destinations, takeover (R366-R369) -/

/-- FREE_HOLD passes over an empty VOQ with credit (R369): it is freed and the credit discarded. -/
def execVoqFreeHoldExpire (v : BitVec 18) (s : State) : Out :=
  if s.stands then .next s else
  let n := v.toNat
  if (s.queue (voqKey n)).isEmpty && (s.spillOf (voqKey n)).isNone then
    .next { s with voq := { s.voq with voqs := Store.erase n s.voq.voqs } }
  else .next s

/-- A destination has been unreachable for UNREACH_TIME (R368). -/
def execUnreachExpire (phys : BitVec 12) (s : State) : Out :=
  if s.stands then .next s else
  let ph := phys.toNat
  if s.reachable ph || s.topo == 0 then .next s
  else
    let s := (s.discardVoqs (fun v => (s.voqNow v).phys == ph) pgVoq 0x2018).freeVoqs
    .next ({ s with voq := { s.voq with unreach := Store.addKey ph s.voq.unreach } }.raise pgVoq 17)

/-- A TAKEOVER cell (R367). -/
def State.takeoverIn (s : State) (logical new old : Nat) : State :=
  let w := s.winA pgVoq logical
  if s.topo = 2 ∧ logical < 256 ∧ bit w 31 ∧ fld w 11 0 = old then
    (((s.setWinA pgVoq logical (setFld w 11 0 new)).incReg pgVoq 0x202C).orReg pgVoq 0x2000 0x100#32).raise pgVoq 16
  else s.incReg pgVoq 0x2030

/-- A TAKEOVER cell is delivered (R367). -/
def execTakeoverRx (logical new old : BitVec 12) (s : State) : Out :=
  if s.stands then .next s else .next (s.takeoverIn logical.toNat new.toNat old.toNat)

end Sys2Proof.Machine
end

