-- ==== Sys2Proof/Machine/Blocks.lean ====
section
/-! DEFINITION. Block states (R40-R49): the latched configuration and its parity, work in flight, draining, and what each block does as it
enters ENABLING, ENABLED, SAFE or DISABLED. -/
namespace Sys2Proof.Machine

/-! ### Work in flight (R44) -/

/-- Copies in the queues that `sel` picks by queue number. -/
def State.copiesIn (s : State) (sel : Nat → Bool) : List Copy := (s.buf.queues.filter (fun e => sel e.1)).flatMap (fun e => e.2)

/-- Discard the copies in the queues that `sel` picks. -/
def State.dropQueues (s : State) (sel : Nat → Bool) : State := (s.copiesIn sel).foldl (fun s c => s.dropHeld c) s

/-- Ports whose egress FIFO a page owns: a bank's, FLEXE's clients, the management port. -/
def fifoPorts (p : Nat) : List Nat :=
  match pageKind p with
  | some .bank => List.range' (8 * (p - pgBank)) 8
  | some .flexe => List.range' 160 80
  | some .mgmt => [241]
  | _ => []

/-- Frames in the egress FIFOs of a page. -/
def State.fifoWork (s : State) (p : Nat) : Nat := (fifoPorts p).foldl (fun n q => n + (Store.get [] q s.buf.fifo).length) 0

/-- Slots that are ARMING or ARMED (R357). -/
def State.armedSlots (s : State) : List Nat := (List.range 256).filter (fun k => s.slotState k == 1 || s.slotState k == 2)

/-- A slot's STATE and its place in SLOT_STATEj. -/
def State.setSlotState (s : State) (k v : Nat) : State := s.setSlotW k 4 (setFld (s.slotW k 4) 2 0 v)

/-- An ARMING or ARMED slot is cancelled (R354, R357). -/
def State.cancelSlot (s : State) (k : Nat) : State :=
  let s := { s with launch := { s.launch with stepped := s.launch.stepped.filter (fun x => x != k) } }
  (s.setSlotState k 5).incReg pgLaunch 0x2010

/-- Ingots whose read has been requested. -/
def State.ingotsAsked (s : State) : Nat := s.buf.spill.foldl (fun n e => n + (e.2.ingots.filter (fun i => i.asked)).length) 0

/-- Copies of multicast frames that await copying. -/
def Adm.toGroup (a : Adm) : Bool := match a.out with | .group _ => true | _ => false

/-- The work in flight of a block, in the units that its chapter defines (R44). -/
def State.workCount (s : State) (p : Nat) : Nat :=
  match pageKind p with
  | some .bank | some .flexe | some .mgmt => s.fifoWork p
  | some .sprue => s.cellsHeld (p - pgSprue)
  | some .pipe => (s.pipe.inside.filter (fun x => x.pipe == p - pgPipe)).length
  | some .parse | some .classify => s.pipe.inside.length
  | some .reorder => s.pipe.held.length
  | some .tables => s.tab.busyWin.length
  | some .learn => s.tab.learnQ.length
  | some .epoch => s.ovlCount .pending
  | some .ladle => s.buf.waiting.length
  | some .crucible => (s.allCopies.foldl (fun l (c : Copy) => Store.addKey c.frame.id l) []).length
  | some .ingot => s.ingotsAsked
  | some .mcast => (s.buf.waiting.filter Adm.toGroup).length
  | some .tm => (s.copiesIn (fun q => decide (q < 1048576))).length
  | some .voq => (s.copiesIn (fun q => decide (1048576 ≤ q))).length
  | some .gates => ((List.range 242).filter s.gatePending).length
  | some .time => if s.time.exch.isSome then 1 else 0
  | some .launch => s.armedSlots.length
  | some .credit => s.rbUsed
  | some .pair => s.pair.jSent.length
  | some .stats => if s.stat.job.isSome then 1 else 0
  | some .pmu => s.stat.waiting.length
  | some .hostif => s.host.waiting.length + s.host.ordered.length
  | some .pstore => if s.nvm.keyJob.isSome then 1 else 0
  | some .cpctl => if bit (s.reg pgCpctl 0x2000) 9 then 1 else 0
  | some .debug => (s.pipe.inside.filter (fun x => x.stage.isSome)).length
  | _ => 0

/-- The frames inside the pipelines that `sel` picks are discarded, each with a hole marker (R178, R192). -/
def State.dropInside (s : State) (sel : InPipe → Bool) : State :=
  let s := (s.pipe.inside.filter (fun x => sel x && x.stage.isSome)).foldl (fun s x => s.letGo x) s
  let gone := s.pipe.inside.filter sel
  let s := { s with pipe := { s.pipe with inside := s.pipe.inside.filter (fun x => !sel x) } }
  gone.foldl (fun s x => s.holeFor x) s

/-- The application is stopped as a whole (R61, R66). -/
def State.stopApp (s : State) : State := s.clrReg pgCpctl 0x2000 0x200#32

/-- The journal is broken (R405, R416): its records are discarded, and RESYNC_NEEDED takes the number of the first of them. -/
def State.breakJournal (s : State) : State :=
  let n := match s.pair.jSent.head? with | some r => r.1 | none => s.pair.jNext
  { s.orReg pgPair 0x2004 0x20000#32 with pair := { s.pair with jSent := [], jUnsent := 0, jNext := n, jResync := true, jBroken := true } }

/-- Discard the work in flight of a block. -/
def State.dropWork (s : State) (p : Nat) : State :=
  match pageKind p with
  | some .bank | some .flexe | some .mgmt => (fifoPorts p).foldl (fun s q => s.txAbort q) s
  | some .sprue => s.dropCells (p - pgSprue)
  | some .pipe => s.dropInside (fun x => x.pipe == p - pgPipe)
  | some .parse | some .classify => s.dropInside (fun _ => true)
  | some .reorder =>
    let l := s.pipe.held
    l.foldl (fun s h => s.disposed h.result.frame) { s with pipe := { s.pipe with held := [] } }
  | some .tables => s.twDiscard
  | some .learn => { s with tab := { s.tab with learnQ := [] } }
  | some .epoch => s.freePending
  | some .ladle => { s with buf := { s.buf with waiting := [] } }
  | some .crucible => s.dropQueues (fun _ => true)
  | some .ingot =>
    let n := s.buf.spill.foldl (fun n e => (e.2.ingots.filter (fun i => i.asked)).foldl (fun n i => n + i.cells) n) 0
    let f := fun (e : Nat × SpillQ) => (e.1, { e.2 with ingots := e.2.ingots.map (fun (i : Ingot) => { i with asked := false }) })
    let s := { s with buf := { s.buf with spill := s.buf.spill.map f, pfWait := [] } }.giveCells .prefetch 0 n
    s.buf.spill.foldl (fun s e => s.freeDead e.1) s
  | some .mcast => { s with buf := { s.buf with waiting := s.buf.waiting.filter (fun a => !a.toGroup) } }
  | some .tm => s.dropQueues (fun q => decide (q < 1048576))
  | some .voq => (s.dropQueues (fun q => decide (1048576 ≤ q))).freeVoqs
  | some .gates => (List.range 242).foldl (fun s q => if s.gatePending q then s.gateDrop q else s) s
  | some .time => { s with time := { s.time with exch := none } }
  | some .launch => s.armedSlots.foldl (fun s k => s.cancelSlot k) s
  | some .credit =>
    let f := fun (e : Nat × RxCtx) => (e.1, { e.2 with held := [] })
    { s with voq := { s.voq with ctxs := s.voq.ctxs.map f } }
  | some .pair => if s.pair.jSent.isEmpty then s else s.breakJournal
  | some .stats => s.setStop
  | some .pmu => { s with stat := { s.stat with waiting := [] } }
  | some .hostif => { s with host := { s.host with waiting := [], ordered := [] } }
  | some .pstore => { s.clrReg pgRoles 0x2000 1#32 with nvm := { s.nvm with keyJob := none } }
  | some .cpctl => s.stopApp
  | some .debug => (List.range 16).foldl (fun s k => s.pbpRelease k) s
  | _ => s

/-- Discard the work in flight and count it in DRAIN_DISCARDS; a DEBUG drain counts none (R449). -/
def State.discardWork (s : State) (p : Nat) : State :=
  let n := if pageKind p = some .debug then 0 else s.workCount p
  (s.dropWork p).addReg p 0x30 n

/-! ### What follows a change of a block's state -/

/-- Ports of blocks that do not run are down, and lanes that are not powered have neither SIGNAL nor LOCK (R125, R126, R129, R146); a member of a
Sprue group on such a lane hunts, without MARKER_LOCK (R154). -/
def State.linesDown (s : State) : State :=
  let s := (List.range 20).foldl (fun s n =>
    if s.blk (pgBank + n) < 2 then (List.range' (8 * n) 8).foldl (fun s p => s.setLine p false) s else s) s
  let s := (List.range 160).foldl (fun (s : State) l => if s.reg (bankPage l) 0x200C &&& 0xFFFF#32 = 0 ∨ s.lanePowered l then s else s.laneFall l true) s
  let s := (List.range 16).foldl (fun s g => (s.listed g).foldl (fun (s : State) m =>
    match s.memberLane g m with
    | some l => if s.memStatus g m &&& 7#32 = 0 ∨ (s.lanePowered l && s.bankRole (l / 8) == 2) then s else s.toHunt g m false
    | none => s) s) s
  if s.blk pgMgmt < 2 then s.setMgmtUp false else s

/-- What follows a change of a block's state elsewhere: lines, clients, rotations, groups, pins, the reserve and the time role. -/
def State.settle (s old : State) : State :=
  let s := State.clientsFollow old s.linesDown.pipesEval.flexEval
  let s := (List.range 16).foldl (fun s g =>
    if old.blk (sprPage g) ≠ 0 ∧ s.blk (sprPage g) = 0 then s.groupStop g else s.sprueEval g) s
  s.timeRoleEval.reserveEval.pinsEval

/-- A block leaves ENABLED (R61, R248, R406, R449): its second of performance is suspect, a commit before its switch fails, the
application stops, a standby is UNSYNCED. -/
def State.leaveEnabled (s : State) (p : Nat) : State :=
  match pageKind p with
  | some .epoch => s.epochLeft
  | some .sprue => s.binSuspect (p - pgSprue)
  | some .cpctl => s.stopApp
  | some .pair => if s.role = 2 then s.setSync 0 else s
  | some .debug => (List.range 16).foldl (fun s k => s.pbpRelease k) s
  | _ => s

/-- A block enters SAFE (R38, R44, R443). -/
def State.toSafe (s : State) (p : Nat) : State :=
  let old := s
  let s := if s.blk p = 2 then s.leaveEnabled p else if s.blk p = 3 then s.discardWork p else s
  let s := s.setBlk p 4
  let s := if p = pgDebug then s.debugDetach else s
  s.settle old

/-- Rejections that are held while a block stays in ENABLING return to 0 in DISABLED (R124, R161, R204, R365). -/
def State.clearHeld (s : State) (p : Nat) : State :=
  match pageKind p with
  | some .bank => s.clrReg p 0x2000 0xF00#32
  | some .sprue => s.clrReg p 0x2000 0x1E#32
  | some .tables => s.setReg p 0x2000 0
  | some .ladle => s.clrReg p 0x2000 1#32
  | some .voq => s.clrReg p 0x2000 1#32
  | _ => s

/-- A block enters DISABLED. -/
def State.toDisabled (s : State) (p : Nat) : State :=
  let old := s
  let s := if p = pgEpoch then s.epochLeft else s
  (((s.setBlk p 0).clearHeld p)).settle old

/-! ### The latched configuration and parity (R43, R47, R48) -/

/-- Whether a register key lies in the configuration region of page `p`. -/
def cfgKey (p k : Nat) : Bool := decide (regKey p 0x100 ≤ k) && decide (k < regKey p 0x1000)

/-- Latch the configuration region of a page. -/
def State.latchPage (s : State) (p : Nat) : State :=
  let kept := s.latched.filter (fun e => !cfgKey p e.1)
  let mine := s.regs.filter (fun e => cfgKey p e.1)
  { s with latched := mine.foldl (fun m e => Store.put regReset e.1 e.2 m) kept }

/-- Set the parity flags of the page of a word (R40, R44). -/
def State.parityFlags (s : State) (k : Nat) : State :=
  let p := k / 0x10000
  let w := s.reg p 0x0C
  let s := if bit w 10 then s else s.setReg p 0x0C (setFld (putBit w 10 true) 25 16 (k % 0x10000 / 4))
  s.blkFault p 0

/-- The first finding of a mismatched word (R48). -/
def State.parityReport (s : State) (k : Nat) : State :=
  if s.reported.contains k then s
  else
    let s := { s with reported := Store.addKey k s.reported }
    let s := s.updReg pgGlobal 0x2020 (fun w => setFld (putBit w 24 true) 23 16 (k / 0x10000))
    s.incReg pgGlobal 0x2024

/-- The scrubber or a read finds a mismatched word (R44, R48): reported once, its block goes SAFE. DESIGN CHOICE, unsafe: R44 has no row for a
mismatch found while the block is SAFE already; the parity flags are set and it stays SAFE (log entry 125). -/
def State.parityFound (s : State) (k : Nat) : State :=
  if s.reported.contains k ∨ !s.upset.contains k then s
  else
    let p := k / 0x10000
    let s := (s.parityReport k).parityFlags k
    if s.blk p = 0 ∨ s.blk p = 4 then s else s.toSafe p

/-- The bits of a word that hold a field that can be written (R12): those of a reserved bit read 0 whatever strikes them. -/
def fieldBits (p o : Nat) : Word := match pageRow p with | some r => (match regRow r.kind o with | some x => word x.rw | none => 0) | none => 0

/-- An upset strikes a bit of a configuration word, `k` its address less 0x4000_0000 (R47): the word's parity no longer matches, or matches
again; a reserved bit still reads 0 (R12). -/
def State.strike (s : State) (k : Nat) (b : Nat) : State :=
  let p := k / 0x10000
  if (pageRow p).isSome ∧ cfgKey p k then
    let s := s.updReg p (k % 0x10000) (fun w => w ^^^ (oneBit b &&& fieldBits p (k % 0x10000)))
    { s with upset := if s.upset.contains k then s.upset.filter (fun x => x != k) else Store.addKey k s.upset }
  else s

/-- A scrub pass ends (R41, R47, R48): every mismatched word is acted on, the signatures are taken from the words as they stand, PASSES
counts. -/
def State.scrubEnd (s : State) : State :=
  let s := s.upset.foldl (fun s k => s.parityFound k) s
  { s.updReg pgGlobal 0x2020 (fun w => setFld w 15 0 (fld w 15 0 + 1)) with sigWords := some (s.regs.filter (fun e => cfgKey (e.1 / 0x10000) e.1)) }

/-! ### Entering ENABLING -/

/-- Banks, carving unit and largest count of each table (R202). -/
def carveUnits : List (Nat × Nat) := [(4, 1020), (4, 256), (40, 1200), (48, 1200), (1, 128), (1, 128)]

/-- Whether two ranges of banks share a bank. -/
def sharesBank (a b : Nat × Nat) : Bool := decide (0 < a.2) && decide (0 < b.2) && decide (a.1 < b.1 + b.2) && decide (b.1 < a.1 + a.2)

/-- The failing cause and its table of a carving, none where it is valid (R204). -/
def State.carveCause (s : State) : Option (Nat × Nat) :=
  let r := s.range
  if s.cfgFld pgTables 0x100 1 0 = 3 then some (1, 0)
  else
    let beyond := fun t => decide (0 < (r t).2) && decide (1216 < (r t).1 + (r t).2)
    match (List.range 6).find? (fun t => beyond t || (List.range' (t + 1) (5 - t)).any (fun u => sharesBank (r t) (r u))) with
    | some t => some (2, t)
    | none => match (List.range 6).find? (fun t => (r t).2 % (carveUnits.getD t (1, 0)).1 != 0) with
      | some t => some (3, t)
      | none => ((List.range 6).find? (fun t => decide ((carveUnits.getD t (1, 0)).2 < (r t).2))).map (fun t => (4, t))

/-- Clear a table whose range has changed, with the overlay slots that hold its entries (R205). -/
def State.clearTable (s : State) (t : Nat) : State :=
  let s := { s with tab := { s.tab with slots := s.tab.slots.filter (fun (x : Slot) => x.tab != t || t == 0) } }
  if t = 0 then s.setMac []
  else
    let s := s.setBase t []
    if t = 1 then { s with tab := { s.tab with labelAt := [] } } else s

/-- TABLES enters ENABLING (R204, R205). -/
def State.tablesEnabling (s : State) : State :=
  match s.carveCause with
  | some (c, t) => (s.setReg pgTables 0x2000 (word (1 + c * 2 + t * 16))).raise pgTables 16
  | none =>
    let s := s.setReg pgTables 0x2000 0
    (List.range 6).foldl (fun (s : State) t =>
      if Store.get (0, 0) t s.tab.carve = s.range t then s
      else { s.clearTable t with tab := { (s.clearTable t).tab with carve := Store.set (0, 0) t (s.range t) s.tab.carve } }) s

/-- Whether user-defined type `u` fails a check of R182. -/
def State.udhBad (s : State) (u : Nat) : Bool :=
  let w := s.udh u
  let on := fun v => fld (s.udh v 0) 1 0 != 0
  let base := fld (w 1) 7 0
  on u && (decide (base < 2)
    || (fld (w 2) 15 0 != 0 && decide (base < fld (w 1) 13 8 + 2))
    || ((fld (w 3) 9 8 == 1 || fld (w 3) 9 8 == 2) && (fld (w 3) 31 16 == 0 || decide (base < fld (w 3) 5 0 + 2)))
    || (List.range u).any (fun v => on v && fld (s.udh v 0) 1 0 == fld (w 0) 1 0 && fld (s.udh v 0) 31 16 == fld (w 0) 31 16))

/-- PARSE enters ENABLING (R182). -/
def State.parseEnabling (s : State) : State :=
  let m := (List.range 16).foldl (fun (m : Word) u => if s.udhBad u then m ||| oneBit u else m) 0
  let s := s.setReg pgParse 0x2000 m
  if m = 0 then s else s.raise pgParse 16

/-- Whether the profile in force powers stack `n` (R30). -/
def State.stackWanted (s : State) (n : Nat) : Bool :=
  if s.profile = 1 then n == 0 else if s.profile = 3 then decide (n < 2) else decide (n < 4)

/-- What each spilled queue holds after a change of profile: its ingots by their new numbers, or nothing where a stack of theirs has
lost its contents (R33). -/
def State.renumber (s old : State) : State :=
  if s.packetStacks = old.packetStacks then s
  else
   let due := s.buf.retireDue
   let s := s.buf.spill.foldl (fun (s : State) e =>
    let place := e.2.ingots.map (fun i => old.ingotPlace i.num)
    if place.any (fun k => decide (s.packetStacks ≤ k / 2 ^ 22)) then s.dropQueues (fun q => q == e.1)
    else
      let f := fun (i : Ingot) => { i with num := old.ingotPlace i.num % 2 ^ 22 * s.packetStacks + old.ingotPlace i.num / 2 ^ 22 }
      s.setSpill e.1 { e.2 with ingots := e.2.ingots.map f }) { s with buf := { s.buf with retireDue := [] } }
   { s with buf := { s.buf with retireDue := due } }.retireFreed

/-- The AVS point of the profile (R466): a change keeps GLOBAL in ENABLING until the slack meets the new target (R467), where Bellows moves the
voltage at all (R38, R480). -/
def State.avsPoint (s : State) (v : Nat) : State :=
  let moves := s.regFld pgBellows 0x2000 1 0 != v && !bit (s.reg pgGlobal 0x2068) 2 && !s.safe pgBellows
  { s with pow := { s.pow with avsWait := s.pow.avsWait || moves } }.setRegFld pgBellows 0x2000 1 0 v

/-- GLOBAL enters ENABLING (R31, R33, R386, R466): topology and profile come into force, the stacks are powered to match, the AVS
point follows. -/
def State.globalEnabling (s : State) : State :=
  let old := s
  let t := s.cfgFld 0 0x100 1 0
  let f := s.cfgFld 0 0x104 2 0
  let s := s.updReg 0 0x2000 (fun w => setFld (setFld w 1 0 t) 10 8 f)
  let s := s.avsPoint (if f = 3 then 2 else if f = 4 then 1 else 0)
  let s := (List.range 4).foldl (fun s n =>
    if s.stackWanted n then s.orReg (pgStack + n) 0x2000 1#32 else s.clrReg (pgStack + n) 0x2000 3#32) s
  let s := s.renumber old
  if t = 1 then s else s.setTwicel 0

/-- Sequence numbers of a block's ports restart at 0 as it enters ENABLING (R174), and the reorder stage with them (log entry 15). -/
def State.seqRestart (s : State) (l : List Nat) : State :=
  let seqs := l.foldl (fun m p => Store.erase p m) s.port.seqs
  let next := l.foldl (fun m p => Store.erase p m) s.pipe.nextSeq
  { s with port := { s.port with seqs := seqs }, pipe := { s.pipe with nextSeq := next } }

/-- Every V and LAG is set to 0 (R310), and every bucket is filled to its burst (R300). -/
def State.tmEnabling (s : State) : State := { s with sched := { s.sched with vt := [], lag := [], tokC := [], tokP := [] } }

/-- The checks a block makes with its latched configuration as it enters ENABLING. -/
def State.enablingChecks (s : State) (p : Nat) : State :=
  match pageKind p with
  | some .global => s.globalEnabling
  | some .bank => (s.bankEnabling (p - pgBank)).seqRestart (fifoPorts p)
  | some .flexe => s.flexEnabling.seqRestart (fifoPorts p)
  | some .mgmt => s.seqRestart [241]
  | some .sprue => s.sprueEnabling (p - pgSprue)
  | some .parse => s.parseEnabling
  | some .tables => s.tablesEnabling
  | some .ladle => if s.poolsBad then (s.orReg pgLadle 0x2000 1#32).raise pgLadle 19 else s
  | some .voq =>
    let s := { s with voq := { s.voq with streams := [] } }
    if s.topo = 2 ∧ s.cfgFld pgVoq 0x100 11 0 = 0xFFF then (s.orReg pgVoq 0x2000 1#32).raise pgVoq 19 else s
  | some .tm => s.tmEnabling
  | some .stack => if s.stackWanted (p - pgStack) then s.orReg p 0x2000 1#32 else s
  | _ => s

/-- Whether a block in ENABLING is held there (R33, R124, R161, R204, R254, R284, R365, R467, R481). -/
def State.heldEnabling (s : State) (p : Nat) : Bool :=
  match pageKind p with
  | some .global => s.pow.avsWait || (List.range 4).any (fun n => s.regFld (pgStack + n) 0x2000 1 0 == 1 && (s.blk (pgStack + n) == 1 || s.blk (pgStack + n) == 2))
  | some .bank => bit (s.reg p 0x2000) 8
  | some .sprue => bit (s.reg p 0x2000) 1
  | some .tables | some .ladle | some .voq => bit (s.reg p 0x2000) 0
  | some .stack => s.regFld p 0x2000 1 0 != 3
  | some .ingot => (List.range 4).any (fun n => bit (s.reg (pgStack + n) 0x2000) 0 && !s.enabled (pgStack + n))
  | _ => false

/-- The journal of a role ends with it: nothing waits, and a STATE_SYNC fails. -/
def State.journalEnd (s : State) : State :=
  let s := { s with pair := { s.pair with jSent := [], jUnsent := 0, jOn := false, jResync := false, jBulk := false, sweep := none } }
  match s.ops.recs.find? (fun e => e.2.kind == .stateSync && !e.2.state.terminal) with
  | some e => s.endOp e.1 .failed .cfgLocked
  | none => s

/-- A role change of a protected device (R399): ROLE_CHANGE, and what follows the role. -/
def State.setRole (s : State) (r : Nat) : State :=
  if s.role = r then s
  else ((s.setRegFld pgPair 0x2004 1 0 r).raise pgPair 17).timeRoleEval.pinsEval

/-- PAIR enters ENABLED (R386, R399). -/
def State.pairEnabled (s : State) : State :=
  let r := if bit (s.cfg pgPair 0x100) 0 then (if bit (s.reg pgPair 0x2004) 8 then 1 else 2) else 0
  let s := if s.role = r then s else { s.journalEnd with pair := { s.journalEnd.pair with promoting := false } }.clrReg pgPair 0x2004 4#32
  let s := s.setRole r
  if s.topo = 1 then (s.setTwicel 1).relaysRestart else s

/-- The checks that the resident firmware makes before it starts an application (R65): the cause of a failure. -/
def State.appCause (s : State) : Option Nat :=
  let w := fun o => (s.cfg pgCpctl o).toNat
  let ok := fun base size first last unit =>
    decide (base % unit = 0) && decide (size % unit = 0) && decide (first ≤ base) && decide (base + size ≤ last)
  if !ok (w 0x108) (w 0x10C) 0x10400000 0x10800000 4096 then some 5
  else if !ok (w 0x110) (w 0x114) 0xA0000000 0xC0000000 0x100000 then some 5
  else if crc32 ((List.range (w 0x10C)).map (fun i => Store.get (0 : Byte) (w 0x108 + i) s.cp.mem)) ≠ s.cfg pgCpctl 0x11C then some 6
  else none

/-- CPCTL enters ENABLED (R65, R66): the application starts, or APP_FAULT records why not. -/
def State.cpctlEnabled (s : State) : State :=
  match s.appCause with
  | some c => s.setReg pgCpctl 0x2008 (word c)
  | none => s.orReg pgCpctl 0x2000 0x200#32

/-- What a block does as it enters ENABLED. -/
def State.enabledHook (s : State) (p : Nat) : State :=
  match pageKind p with
  | some .time => s.timeEnabled
  | some .pair => s.pairEnabled
  | some .cpctl => s.cpctlEnabled
  | some .sprue => s.binSuspect (p - pgSprue)
  | _ => s

/-! ### The rows of R44 -/

/-- BLK_CTRL.ENABLE. -/
abbrev State.enableBit (s : State) (p : Nat) : Bool := bit (s.reg p 8) 0

/-- Whether a page reset in progress keeps a page DISABLED (R478). -/
def State.resetting (s : State) (p : Nat) : Bool := s.resetPage == some p

/-- ENABLE = 1 is found on a DISABLED block (R44, R46, R48): its configuration is latched, it enters ENABLING and makes its checks, and a
mismatch in the latched words takes it on to SAFE. In recovery no data-path page leaves DISABLED (R480). -/
def State.blockEnable (s : State) (p : Nat) : State :=
  if (pageRow p).isNone ∨ s.blk p ≠ 0 ∨ !s.enableBit p ∨ s.resetting p ∨ (bit (s.reg 0 0x2068) 0 ∧ 0x10 ≤ p) then s
  else
    let old := s
    let s := (((s.latchPage p).setBlk p 1).enablingChecks p).settle old
    let bad := s.upset.filter (cfgKey p)
    if bad.isEmpty then s else (bad.foldl (fun s k => (s.parityReport k).parityFlags k) s).toSafe p

/-- ENABLE = 1 is found on a page. -/
def execBlockEnable (page : Fin 256) (s : State) : Out := if s.stands then .next s else .next (s.blockEnable page.val)

/-- An ENABLING block is ready (R44); it is not while it is held. -/
def State.blockReady (s : State) (p : Nat) : State :=
  if (pageRow p).isNone ∨ s.blk p ≠ 1 ∨ !s.enableBit p ∨ s.heldEnabling p then s
  else ((s.setBlk p 2).enabledHook p).settle s

/-- A block has become ready. -/
def execBlockReady (page : Fin 256) (s : State) : Out := if s.stands then .next s else .next (s.blockReady page.val)

/-- ENABLE = 0 is found (R44): an enabled block drains or discards at once; a SAFE one discards; one in ENABLING gives up. An application is
CPCTL's work in flight (R96): a drain stops it, a discard counts it. -/
def execBlockDisable (page : Fin 256) (s : State) : Out :=
  if s.stands then .next s else
  let p := page.val
  if (pageRow p).isNone ∨ s.enableBit p then .next s
  else match s.blk p with
    | 1 => .next (s.toDisabled p)
    | 2 =>
      if bit (s.reg p 8) 1 ∨ s.regFld p 8 31 16 = 0 then
        .next (((if p = pgCpctl then s else s.leaveEnabled p).discardWork p).toDisabled p)
      else .next (((s.leaveEnabled p).setBlk p 3).settle s)
    | 4 => .next ((s.discardWork p).toDisabled p)
    | _ => .next s

/-- The work in flight of a DRAINING block is complete (R44). -/
def execDrainComplete (page : Fin 256) (s : State) : Out :=
  if s.stands then .next s else
  let p := page.val
  if (pageRow p).isSome ∧ s.blk p = 3 ∧ s.workCount p = 0 then .next (s.toDisabled p) else .next s

/-- The drain timer reaches DRAIN_TIMEOUT (R44-R46). -/
def execDrainTimeout (page : Fin 256) (s : State) : Out :=
  if s.stands then .next s else
  let p := page.val
  if (pageRow p).isNone ∨ s.blk p ≠ 3 then .next s
  else if s.workCount p = 0 then .next (s.toDisabled p)
  else
    let s' := s.discardWork p
    .next ((if s'.reg p 0x30 = s.reg p 0x30 then s' else s'.blkFault p 1).toDisabled p)

/-- DRAIN_DISCARD = 1 is found in DRAINING (R44, R46). -/
def State.drainDiscard (s : State) (p : Nat) : State :=
  if s.blk p = 3 then (s.discardWork p).toDisabled p else s

end Sys2Proof.Machine
end

