-- ==== Sys2Proof/Machine/Mem.lean ====
section
/-! DEFINITION. Memory as the control processor and the windows see it: the address map of R62, the persistent store's regions and
their views (R107, R115, R118, R514). -/
namespace Sys2Proof.Machine

/-! ### The persistent store (R115, R514) -/

/-- The regions of the store (R115). -/
inductive Region where
  | cpSlot | belSlot | calibration | keys | snapshot | audit | spare
  deriving DecidableEq, Repr

/-- The region of an offset of the store (R115). -/
def storeRegion (o : Nat) : Region :=
  if o < 0x1000000 then .cpSlot
  else if o < 0x1080000 then .belSlot
  else if o < 0x1180000 then .calibration
  else if o < 0x1181000 then .keys
  else if o < 0x1200000 then .spare
  else if o < 0x1A00000 then .snapshot
  else if o < 0x1A20000 then .audit
  else .spare

/-- A byte of the store as shipped (R514): firmware in slots A, calibration data, zeros elsewhere. -/
def shipped (o : Nat) : Byte :=
  match storeRegion o with
  | .cpSlot => if o < 0x800000 then Config.shippedByte o else 0
  | .belSlot => if o < 0x1040000 then Config.shippedByte o else 0
  | .calibration => Config.shippedByte o
  | _ => 0

/-- Byte `o` of the audit ring's region: the stored records, word by word in rising order, byte lane 0 first (R5, R111). -/
def State.auditByte (s : State) (o : Nat) : Byte :=
  match s.nvm.ring.find? (fun e => e.1 == o / 32) with
  | some e => (e.2.words.getD (o % 32 / 4) 0).extractLsb' (8 * (o % 4)) 8
  | none => 0

/-- A byte of the store as every view shows it: role keys and spare read 0 (R107, R115, R118). -/
def State.storeByte (s : State) (o : Nat) : Byte :=
  match storeRegion o with
  | .keys | .spare => 0
  | .audit => s.auditByte (o - 0x1A00000)
  | _ => Store.get (shipped o) o s.nvm.bytes

/-- Write a byte of the store. -/
def State.putStore (s : State) (o : Nat) (b : Byte) : State :=
  { s with nvm := { s.nvm with bytes := Store.put shipped o b s.nvm.bytes } }

/-- Write bytes of the store from an offset on. -/
def State.putStoreBytes (s : State) (o : Nat) (l : List Byte) : State :=
  ((l.foldl (fun (acc : State × Nat) b => (acc.1.putStore acc.2 b, acc.2 + 1)) (s, o))).1

/-- `n` bytes of the store from an offset on. -/
def State.storeBytes (s : State) (o n : Nat) : List Byte := (List.range n).map (fun i => s.storeByte (o + i))

/-! ### The address map (R62) -/

/-- What a physical address names (R62). -/
inductive MemPlace where
  | rom | sramFw | sramApp | pages | store | dramFw | dramApp | outside
  deriving DecidableEq, Repr

/-- The range of R62 that holds an address. -/
def placeOf (a : Nat) : MemPlace :=
  if a < 0x10000 then .rom
  else if 0x10000000 ≤ a ∧ a < 0x10400000 then .sramFw
  else if 0x10400000 ≤ a ∧ a < 0x10800000 then .sramApp
  else if 0x40000000 ≤ a ∧ a < 0x41000000 then .pages
  else if 0x60000000 ≤ a ∧ a < 0x63000000 then .store
  else if 0x80000000 ≤ a ∧ a < 0xA0000000 then .dramFw
  else if 0xA0000000 ≤ a ∧ a < 0xC0000000 then .dramApp
  else .outside

/-- Whether an address lies in memory that a store can change. -/
def ramAt (a : Nat) : Bool :=
  match placeOf a with | .sramFw | .sramApp | .dramFw | .dramApp => true | _ => false

/-- A byte of memory outside the register pages (R62): boot ROM, SRAM, the read view of the store, the STACK0 region. -/
def State.memByte (s : State) (a : Nat) : Byte :=
  match placeOf a with
  | .rom => Config.bootRomByte a
  | .store => s.storeByte (a - 0x60000000)
  | .pages | .outside => 0
  | _ => Store.get (0 : Byte) a s.cp.mem

/-- Four bytes as a word, byte lane 0 first (R5). -/
def laneWord (b : Nat → Byte) : Word := word ((b 0).toNat + (b 1).toNat * 0x100 + (b 2).toNat * 0x10000 + (b 3).toNat * 0x1000000)

/-- The word of memory at an address. -/
def State.memWord (s : State) (a : Nat) : Word := laneWord (fun i => s.memByte (a + i))

/-- Write a byte of SRAM or of the STACK0 region; other memory has no such write. -/
def State.putMem (s : State) (a : Nat) (b : Byte) : State :=
  if ramAt a then { s with cp := { s.cp with mem := Store.set (0 : Byte) a b s.cp.mem } } else s

/-- Write `n` bytes of a number at an address, the least significant first. -/
def State.putMemBytes (s : State) (a n v : Nat) : State :=
  (List.range n).foldl (fun s i => s.putMem (a + i) (BitVec.ofNat 8 (v / 256 ^ i))) s

/-- Write a word of memory under a bit mask. -/
def State.putMemWord (s : State) (a : Nat) (mask data : Word) : State :=
  s.putMemBytes a 4 (blend mask data (s.memWord a)).toNat

/-! ### The windows onto memory (R96, R118, R121) -/

/-- WIN_BASE of CPCTL where it is valid (R96): a multiple of 32 KiB inside an application part. -/
def State.cpWindow (s : State) : Option Nat :=
  let b := (s.reg pgCpctl 0x100C).toNat
  if b % 0x8000 = 0 ∧ (placeOf b = .sramApp ∨ placeOf b = .dramApp) then some b else none

/-- WIN_BASE of PSTORE where it is valid (R121): a multiple of 32 KiB within the store. -/
def State.storeWindow (s : State) : Option Nat :=
  let b := (s.reg pgPstore 0x1000).toNat
  if b % 0x8000 = 0 ∧ b < 0x3000000 then some b else none

/-- The right that reads a region of the store (R118). -/
def readRight : Region → Nat
  | .cpSlot | .belSlot | .snapshot => 2
  | .calibration => 7
  | .audit => 6
  | .keys | .spare => 0

end Sys2Proof.Machine
end

