-- ==== Sys2Proof/Machine/Image.lean ====
section
/-! DEFINITION. Firmware images: what verifies, which slot a core type boots from (R479), and a restart of Bellows (R465). -/
namespace Sys2Proof.Machine

/-- Where a slot of a target lies in the store and how long it is (R115): target 0 control processor, 1 Bellows; slot 0 A, 1 B. -/
def slotPlace (target slot : Nat) : Nat × Nat :=
  if target = 0 then (slot * 0x800000, 0x800000) else (0x1000000 + slot * 0x40000, 0x40000)

/-- The words of an image header by number, in the order of R6 (R479). -/
def headerWord (f : List Byte) (i : Nat) : Nat := beNat ((f.drop (4 * i)).take 4)

/-- Whether an image verifies for a target (R479): MAGIC, FORMAT, TARGET and BODY_LEN, and the checks of hash, key and signature. -/
def imageOk (target limit : Nat) (f : List Byte) : Bool :=
  headerWord f 0 == 0x5A594C53 && headerWord f 1 == 1 && headerWord f 2 == target && decide (headerWord f 4 + 512 ≤ min limit f.length)
    && Config.signatureOk (f.take (512 + headerWord f 4))

/-- Whether a slot of the store verifies. -/
def State.slotVerifies (s : State) (target slot : Nat) : Bool :=
  let (at_, n) := slotPlace target slot
  imageOk target n (s.storeBytes at_ n)

/-- SLOT_STATUS: the bit of a slot's VALID and of a target's ACTIVE_B (R121). -/
abbrev validBit (target slot : Nat) : Nat := 4 * target + slot
abbrev activeBit (target : Nat) : Nat := 4 * target + 2

/-- The active slot of a target. -/
def State.activeSlot (s : State) (target : Nat) : Nat := s.regFld pgPstore 0x2000 (activeBit target) (activeBit target)

/-- The slot that a core type starts from (R479): the active one if marked valid and verifying, else the other if it verifies, which becomes
active; none where neither does. -/
def State.bootSlot (s : State) (target : Nat) : Option Nat × State :=
  let a := s.activeSlot target
  let b := 1 - a
  if bit (s.reg pgPstore 0x2000) (validBit target a) && s.slotVerifies target a then (some a, s)
  else if s.slotVerifies target b then
    (some b, (s.updReg pgPstore 0x2000 (fun w => putBit (putBit w (activeBit target) (b == 1)) (validBit target a) false)).auditSlot 0 target a)
  else (none, s)

/-- Bellows loads its image (R479, R480): BELLOWS_ROM shows that no slot verified. -/
def State.bellowsLoad (s : State) : State :=
  let (k, s) := s.bootSlot 1
  s.updReg pgGlobal 0x2068 (fun w => putBit w 2 k.isNone)

/-- Bellows restarts (R465): an owner reset of owner 9, the active slot loaded anew. -/
def State.bellowsRestart (s : State) : State :=
  (((s.ownerReset .bellows).incReg pgBellows 0x2060).raise pgBellows 20).bellowsLoad

end Sys2Proof.Machine
end

