-- ==== Sys2Proof/Machine/Reset.lean ====
section
/-! DEFINITION. Resets (R475-R478): what a cold, a warm, a core and a page reset keep and clear. -/
namespace Sys2Proof.Machine

/-- Copy the bits `m` of a register word from a former state. -/
def State.keepReg (s old : State) (p o : Nat) (m : Word) : State := s.updReg p o (fun w => blend m (old.reg p o) w)

/-- Copy whole register words from a former state. -/
def State.keepRegs (s old : State) (p : Nat) (l : List Nat) : State := l.foldl (fun s o => s.keepReg old p o 0xFFFFFFFF#32) s

/-- Copy every register word of a page from a former state. -/
def State.keepPage (s old : State) (p : Nat) : State :=
  (old.regs.filter (fun e => e.1 / 0x10000 == p)).foldl (fun s e => s.setReg p (e.1 % 0x10000) e.2) s

/-- The registers that show the persistent store (R514). -/
def State.keepStore (s old : State) : State :=
  ((s.keepReg old pgRoles 0x2000 0xFFFF0006#32).keepRegs old pgRoles [0x201C, 0x2020]).keepRegs old pgPstore [0x2000, 0x2004, 0x2008]

/-- Cold reset is entered (R459, R460, R475-R477): every register and all volatile state at its reset value; the persistent store is
kept, less what had not reached it. `cause` is what ended the run; a device already in cold reset keeps the first. -/
def State.coldReset (s : State) (cause : Nat) : State :=
  let nvm := { s.nvm with keyJob := none, auditPend := [], auditLost := 0, storeRun := none }
  let pow := { State.reset.pow with phase := 0, ended := if s.pow.phase = 0 then s.pow.ended else cause, off := s.pow.off, hotOff := s.pow.hotOff, trip := s.pow.trip, hot := s.pow.hot, rails := s.pow.rails, vcore := s.pow.vcore }
  let t := { State.reset with pending := s.pending, freeCtr := s.freeCtr, nvm := nvm, pow := pow }
  (t.keepStore s).keepReg s 0 0x2060 0x10F#32

/-- Warm reset (R475-R477): register pages at reset values but for RESET_CAUSE, STRAPS and the I3C addresses; Bellows, its rails and the
clocks run on; stacks stay trained; the performance history of SPRUE stays (R173); the control processor restarts from its boot ROM. -/
def State.warmReset (s : State) (cause : Nat) : State :=
  let nvm := { s.nvm with keyJob := none, storeRun := none }
  let host := { State.reset.host with fails := s.host.fails, lockedOut := s.host.lockedOut.map (fun e => (e.1, e.2 - s.time.cyc)), mgmtOut := s.host.mgmtOut, dbgOut := s.host.dbgOut }
  let cp := { State.reset.cp with mem := s.cp.mem.filter (fun e => decide (0x80000000 ≤ e.1)) }
  let ops := { State.reset.ops with serials := s.ops.serials }
  let pow := { s.pow with phase := 6 }
  let win := s.win.filter (fun e => pageKind (e.1 / 64 / 0x1000000) == some .sprue)
  let port := { State.reset.port with secs := s.port.secs.filter (fun e => decide (500 ≤ e.1)) }
  let t := { State.reset with pending := s.pending, freeCtr := s.freeCtr, win := win, port := port, nvm := nvm, host := host, cp := cp, ops := ops, pow := pow, sigWords := s.sigWords }
  let t := (t.keepStore s).keepPage s pgBellows
  let t := { t.keepPage s pgClocks with latched := s.latched.filter (fun e => e.1 / 0x10000 == pgBellows || e.1 / 0x10000 == pgClocks) }
  let t := (t.setReg 0 0x2060 (setFld (s.reg 0 0x2060) 3 0 cause)).keepRegs s 0 [0x2064]
  let t := (t.keepReg s pgHostif 0x2000 0x1FE#32).keepRegs s pgHostif [0x2004]
  let t := t.keepReg s pgPair 0x2004 0x400#32
  ((List.range 4).foldl (fun t n => t.keepRegs s (pgStack + n) [0x2000]) t).keepReg s 0 0x2068 4#32

/-- A warm reset is requested (R475): ignored while one is in progress. -/
def State.warmRequest (s : State) (cause : Nat) : State :=
  if decide (s.pow.phase < 8) && decide (8 ≤ s.regFld 0 0x2060 3 0) then s else s.warmReset cause

/-! ### Page resets (R478) -/

/-- Words of a page's status region that show state the block holds, which a page reset leaves (R478): every RO word that is no
counter and no maximum. -/
def keptWord (k : Kind) (o : Nat) : Bool :=
  match k with
  | .time => !([0x2018, 0x207C, 0x208C, 0x2090, 0x2094].contains o)
  | .pmu => o == 0x2000
  | .stats => o == 0x2000
  | .debug => !([0x201C, 0x2020, 0x2024, 0x2028].contains o)
  | .pair => decide (o ≤ 0x2020)
  | .mgmt | .tm => o == 0x2000
  | .bank => decide (o ≤ 0x200C)
  | .flexe => decide (o < 0x2200)
  | .sprue => decide (o ≤ 0x200C) || (decide (0x2100 ≤ o) && decide (o % 32 ≤ 4))
  | .pipe | .parse | .voq | .launch => o == 0x2000
  | .epoch => decide (o ≤ 0x202C)
  | .tables => o == 0x2000 || o == 0x2028
  | .ladle => o == 0x2000 || (decide (0x2500 ≤ o) && decide (o < 0x2900))
  | .ingot => o == 0x2004
  | .stack => [0x2000, 0x200C, 0x2010].contains o
  | _ => false

/-- The bits of a status word that a write of 1 clears. -/
def w1cMask (k : Kind) (o : Nat) : Word := match regRow k o with | some r => word r.w1c | none => 0

/-- Whether a page reset returns a window word to its reset value (R478): the performance bins of SPRUE stay, as do the fields of TM
records and GATES port words that show state. -/
def winResets (p key : Nat) : Bool :=
  let u := key / 64 % 0x1000000
  let i := key % 64
  match pageKind p with
  | some .sprue => false
  | some .tm => !(u < 0x200000 && [9, 10, 11, 12, 15].contains i)
  | some .gates => (u * 64 + i) % 0x2000 != gwStatus
  | some .debug => i != 24
  | _ => true

/-- A page reset begins (R478): the words return to their reset values. -/
def State.pageReset (s : State) (p : Nat) : State :=
  match pageRow p with
  | none => s
  | some r =>
    let mine := s.regs.filter (fun e => e.1 / 0x10000 == p)
    let s := mine.foldl (fun (s : State) e =>
      let o := e.1 % 0x10000
      if o < 0x100 then s
      else if o < 0x2000 ∨ !keptWord r.kind o then s.setReg p o (regReset e.1)
      else s.setReg p o (e.2 &&& ~~~(w1cMask r.kind o))) s
    let s := ((s.clrReg p 0x0C 0x3FF0700#32).setReg p 0x10 0).setReg p 0x14 0
    let s := (s.setReg p 0x30 0)
    let s := { s with win := s.win.filter (fun e => !(e.1 / 64 / 0x1000000 == p && winResets p e.1)) }
    let s := { s with upset := s.upset.filter (fun k => k / 0x10000 != p), reported := s.reported.filter (fun k => k / 0x10000 != p) }
    match r.kind with
    | .time => ({ s with time := { s.time with txts := [] } }.applyFreq 0 0).applyFreq 1 0
    | .flexe => (List.range 16).foldl (fun s g => s.clrReg p (0x2000 + 16 * g) 2#32) s
    | .gates => (List.range 242).foldl (fun s q => s.setGw q gwStatus (s.gw q gwStatus &&& 0xFF03#32)) s
    | _ => s

/-- A write of BLOCK_RESET with GO = 1 (R478). -/
def State.blockReset (s : State) (p : Nat) : State :=
  if s.resetPage.isSome ∨ (pageRow p).isNone ∨ p < 8 ∨ s.blk p ≠ 0 then s.orReg 0 0x2068 0x200#32
  else ({ s with resetPage := some p }.setReg 0 0x100C (word (p + 0x80000000))).pageReset p

/-- A page reset completes (R478): a word of the page's regions or window that was written meanwhile ends with the written value or with
its reset value, which of the two is not defined (log entry 2). -/
def State.resetComplete (s : State) (p : Nat) : State :=
  let race := fun (s : State) (put : State → State) =>
    let (n, s) := s.fresh
    if Config.resetKeeps n then s else put s
  let mine := s.regs.filter (fun e => e.1 / 0x10000 == p && decide (0x100 ≤ e.1 % 0x10000) && decide (e.1 % 0x10000 < 0x2000))
  let s := mine.foldl (fun s e => race s (fun s => s.setReg p (e.1 % 0x10000) (regReset e.1))) s
  let wins := s.win.filter (fun e => e.1 / 64 / 0x1000000 == p && winResets p e.1)
  let s := wins.foldl (fun s e => race s (fun s => { s with win := Store.put winReset e.1 (winReset e.1) s.win })) s
  { s with resetPage := none }.clrReg 0 0x100C 0x80000000#32

/-- A page reset completes within its bound (R478). -/
def execBlockResetComplete (s : State) : Out :=
  if s.stands then .next s else
  match s.resetPage with
  | some p => .next (s.resetComplete p)
  | none => .next s

/-! ### The control processor's cores (R67) -/

/-- What a reset of all four cores does to an operation that has not ended, once the locks are broken (R67). -/
def State.endByReset (s : State) (slot : Nat) (r : OpRec) : State :=
  if r.state.terminal then s
  else match r.kind with
    | .epochCommit =>
      if r.phase == phMerge && r.state != .queued then s.updOp slot (fun r => { r with state := .running })
      else if s.tab.commit = some slot then s.failCommit slot r .internal else s.endOp slot .failed .internal
    | .twicelRejoin =>
      let s := if s.twicel = 4 then (if s.ownDev = 1 then s.freePending else s).setTwicel 3 else s
      s.endOp slot .failed .internal
    | _ => if r.state == .queued then s.endOp slot .failed .internal else (s.cancelWork r).endOp slot .failed .internal

/-- All four cores are reset (R67), and a halt of any ends with it (log entry 18): locks of owners 4 to 7 broken, operations ended, FW_READY clear, the firmware restarts. -/
def State.coresReset (s : State) : State :=
  let s := (List.range 4).foldl (fun s k => s.ownerReset (.core (Fin.ofNat 4 k))) s
  let s := s.ops.recs.foldl (fun s e => match s.opRec e.1 with | some r => s.endByReset e.1 r | none => s) s
  let s := (s.clrReg pgCpctl 0x2000 0x300#32).clrReg pgHostif 0x2000 1#32
  { s with pow := { s.pow with phase := min s.pow.phase 7 } }.setHalted []

/-- Core `k`, 1 to 3, is reset alone (R67); a halt of the core ends with it (log entry 18). -/
def State.coreReset (s : State) (k : Nat) : State :=
  let s := s.ownerReset (.core (Fin.ofNat 4 k))
  s.setHalted (Store.erase k s.cp.halted)

/-- The CPCTL watchdog expires (R67, R400); it is paused while a core is halted by the port (R446). -/
def execWdtExpired (s : State) : Out :=
  if s.stands then .next s else
  if bit (s.reg pgCpctl 0x1008) 16 || !s.cp.halted.isEmpty then .next s
  else
    let s := ((s.orReg pgCpctl 0x2000 0x400#32).raise pgCpctl 17).orReg pgPair 0x2008 4#32
    .next ({ s with pair := { s.pair with wdtHit := true } }.coresReset).pinsEval

end Sys2Proof.Machine
end

