-- ==== Sys2Proof/Machine/Flags.lean ====
section
/-! DEFINITION. The status flags computed from others: INT_RAW's level bit, INT_PEND, the summary words, the six groups, their
destinations and ALERT_N (R40, R92-R94). -/
namespace Sys2Proof.Machine

/-- INT_RAW as read: bit 0 is 1 while BLK_FAULT is non-zero (R40). -/
def State.intRaw (s : State) (p : Nat) : Word :=
  let w := s.reg p 0x14
  if s.reg p 0x10 = 0 then w else w ||| 1#32

/-- INT_PEND: INT_RAW AND INT_MASK (R40). -/
def State.intPend (s : State) (p : Nat) : Word := s.intRaw p &&& s.reg p 0x18

/-- Whether a page's INT_PEND is non-zero (R92). -/
def State.pagePending (s : State) (p : Nat) : Bool := s.intPend p != 0

/-- INT_SUMMARYi (R92): bit b while page 32i + b is pending. -/
def State.intSummary (s : State) (i : Nat) : Word :=
  (List.range 32).foldl (fun w b => if (pageRow (32 * i + b)).isSome && s.pagePending (32 * i + b) then w ||| oneBit b else w) 0

/-- The pages of a source group (R92): first page and count. -/
def groupPages : Nat → List Nat
  | 0 => List.range' 0 16
  | 1 => List.range' 0x10 21
  | 2 => List.range' 0x30 16
  | 3 => List.range' 0x40 22
  | 4 => List.range' 0x60 7
  | 5 => List.range' 0x70 6
  | _ => []

/-- The lowest pending page of a group (R93). -/
def State.groupLowest (s : State) (g : Nat) : Option Nat := (groupPages g).find? (fun p => s.pagePending p)

/-- Whether a group is pending (R92). -/
def State.groupPending (s : State) (g : Nat) : Bool := (s.groupLowest g).isSome

/-- Whether INT_ROUTE sends group `g` to destination `d`: 0 control processor, 1 IBI, 2 ALERT_N (R97). -/
def State.routed (s : State) (g d : Nat) : Bool := bit (s.reg pgHostif 0x1000) (4 * g + d)

/-- ALERT_N is asserted while any group routed to it is pending (R94). -/
def State.alertAsserted (s : State) : Bool := (List.range 6).any (fun g => s.routed g 2 && s.groupPending g)

/-- The control processor's external interrupt source g + 1 (R92). -/
def State.cpInterrupt (s : State) (g : Nat) : Bool := s.routed g 0 && s.groupPending g

/-- Groups that ceased to be pending may be requested again (R93). -/
def State.forgetGroups (s : State) : State :=
  let keep := (List.range 6).foldl (fun (w : BitVec 6) g => if s.groupPending g then w else w &&& ~~~(1#6 <<< g)) s.host.groupSeen
  if s.host.groupSeen = 0 then s else { s with host := { s.host with groupSeen := keep } }

end Sys2Proof.Machine
end

