-- ==== Sys2Proof/Machine/BusRead.lean ====
section
/-! DEFINITION. Reads of the register pages (R36-R42, R50-R54, R78, R99, R100): what each word shows, what a read of it changes, and
the latches of R52. -/
namespace Sys2Proof.Machine

/-! ### Who makes an access -/

/-- Where an access comes from: an agent itself, SNAPSHOT_RESTORE, the launch engine, a relay or the journal. -/
inductive Src where
  | own | restore | launch | relay | journal
  deriving DecidableEq, Repr

/-- The maker of an access: the agent, the right set it acts with, where the access comes from and, for a relayed domain control, the
nanosecond at which it takes effect (R334). -/
structure Who where
  agent : Agent
  rights : Nat
  src : Src
  due : Option Nat
  deriving DecidableEq, Repr

/-- An agent that acts by itself on a page (R101). -/
def State.ownWho (s : State) (a : Agent) (p : Nat) : Who := ⟨a, s.agentRights a p, .own, none⟩

/-- Offsets of the live words whose aliases do not exist (R50): the fence words and the lock words. -/
def noAlias (p o : Nat) : Bool :=
  ((p == pgGlobal || p == pgTables) && (o == 0x1000 || o == 0x1004)) || (p == pgLocks && decide (o < 0x1100))

/-- The word and bit that an alias offset names (R50). -/
def aliasOf (o : Nat) : Nat × Nat := (0x1000 + (o - 0x4000) / 128 * 4, (o - 0x4000) / 4 % 32)

/-- The offset at which the implemented window of a page ends (R40). -/
def windowEnd (r : PageRow) : Nat := match r.window with | some n => 0x8000 + 1024 * 2 ^ n | none => 0x8000

/-- The key under which a fence word of an agent is held: 0 FENCE, 1 FENCE_DONE of GLOBAL, 2 and 3 of TABLES (R60, R223). -/
def fenceKey (id p o : Nat) : Nat := id * 4 + (if p = pgTables then 2 else 0) + (if o = 0x1004 then 1 else 0)

/-- A fence word of an agent. -/
def State.fenceWord (s : State) (id p o : Nat) : Word := Store.get 0#32 (fenceKey id p o) s.fences

/-- Hold a fence word of an agent. -/
def State.setFence (s : State) (id p o : Nat) (v : Word) : State := { s with fences := Store.set 0#32 (fenceKey id p o) v s.fences }

/-! ### Words that show state held elsewhere -/

/-- The bytes of a word by byte lane, lane 0 first (R5). -/
def laneBytes (w : Word) : List Byte := (wordBytes w).reverse

/-- The CRC-32 of a page's configuration region as `get` gives its words (R41). -/
def cfgCrc (get : Nat → Word) : Word := crc32 ((List.range 960).flatMap (fun i => laneBytes (get (0x100 + 4 * i))))

/-- CFG_SIGNATURE (R41): of the words as the last scrub pass left them; 0 before the first. -/
def State.cfgSignature (s : State) (p : Nat) : Word :=
  match s.sigWords with
  | some l => cfgCrc (fun o => Store.get (regReset (regKey p o)) (regKey p o) l)
  | none => 0

/-- GPIO_IN (R500): the levels driven; a ball that the device does not drive has the level its surroundings give it (log entry 2). -/
def State.gpioIn (s : State) : Word :=
  let oe := s.reg 0 0x1014
  ((s.reg 0 0x1010 &&& oe) ||| (Config.openWord s.freeCtr &&& ~~~oe)) &&& 0xFFFF#32

/-- LAUNCH_STATUS (R358, R362). -/
def State.launchStatus (s : State) : Word :=
  let armed := match s.tab.commit with
    | some k => match s.opRec k with | some r => r.phase == phArmed && r.atTime | none => false
    | none => false
  putBit (setFld (s.reg pgLaunch 0x2000) 8 0 s.armedSlots.length) 24 armed

/-- SLOT_STATEj (R362). -/
def State.slotStates (s : State) (j : Nat) : Word :=
  word ((List.range 8).foldl (fun n i => n + fld (s.slotW (8 * j + i) 4) 3 0 * 16 ^ i) 0)

/-- OVF_SUMMARYj (R438). -/
def State.ovfSummary (s : State) (j : Nat) : Word :=
  (List.range 32).foldl (fun w i => putBit w i (bit (s.reg pgPmu (pmuVal (32 * j + i) + 4)) 31)) 0

/-- Stash entries of an exact-match table in use (R231). -/
def State.stashUsed (s : State) (tab : Nat) (l : List Nat) : Nat := (l.filter (fun i => decide ((s.em tab).banks * 8192 ≤ i))).length

/-- Multicast payloads held (R286). -/
def State.payloadsHeld (s : State) : Nat :=
  ((s.heldCopies.filter (fun (c : Copy) => c.mcast)).foldl (fun l (c : Copy) => Store.addKey c.frame.id l) []).length

/-- JOURNAL_LAG of a standby in µs (R405, R416). -/
def State.journalLag (s : State) : Word := if s.role = 2 then word (min (s.lagNs / 1000) 0xFFFFF) else 0

/-- Words of GLOBAL and the control pages that are computed. -/
def State.viewControl (s : State) (k : Kind) (o : Nat) : Option Word :=
  match k with
  | .global =>
    if 0x2040 ≤ o ∧ o < 0x2060 then some (s.intSummary ((o - 0x2040) / 4)) else if o = 0x2070 then some s.gpioIn else none
  | .roles =>
    if o = 0x2004 then some Config.serialHi else if o = 0x2008 then some Config.serialLo else if o = 0x2024 then some s.lockoutWord else none
  | .launch =>
    if o = 0x2000 then some s.launchStatus
    else if 0x2100 ≤ o ∧ o < 0x2180 then some (s.slotStates ((o - 0x2100) / 4)) else none
  | .time =>
    let w := clkWords s.time.tb
    if o = 0x2000 then some w.1 else if o = 0x2004 then some w.2.1 else if o = 0x2008 then some w.2.2
    else if o = 0x2014 then some s.deltaReg else if o = 0x2088 then some (BitVec.ofInt 32 s.rCorr) else none
  | .pmu => if 0x2040 ≤ o ∧ o < 0x2060 then some (s.ovfSummary ((o - 0x2040) / 4)) else none
  | .debug => if o = 0x2000 then some (setFld (s.reg pgDebug o) 3 1 (if s.attached then s.agentRights .debug pgDebug else 0)) else none
  | .pair => if o = 0x2008 then some s.faultCause else if o = 0x2018 then some s.journalLag else none
  | _ => none

/-- Words of the table pages that are computed (R231, R232, R253). -/
def State.viewTables (s : State) (k : Kind) (o : Nat) : Option Word :=
  match k with
  | .tables =>
    if o = 0x2004 then some (word (s.stashUsed 0 (s.tab.mac.map Prod.fst)))
    else if o = 0x2008 then some (word (s.stashUsed 1 (s.tab.labelAt.map Prod.fst)))
    else if o = 0x200C then some (word s.tab.mac.length)
    else if o = 0x2010 then some (word (s.verAll .standing 1).length)
    else if o = 0x2014 then some (word (s.verAll .standing 2).length)
    else if o = 0x2018 then some (word (s.verAll .standing 3).length) else none
  | .learn =>
    if o = 0x2000 then some (word s.tab.learnQ.length)
    else if o = 0x201C then some (word (s.tab.mac.filter (fun e => !e.2.static)).length) else none
  | .epoch =>
    if o = 0x2008 then some (word (s.refCount s.standing))
    else if o = 0x200C then some (word (match s.retiring with | some e => s.refCount e | none => 0))
    else if o = 0x2010 then some (word (s.ovlCount .pending))
    else if o = 0x2014 then some (word (s.ovlCount .unmerged))
    else if o = 0x2018 then some (word (s.ovlCount .shadow))
    else if o = 0x201C then some (word s.ovlFree)
    else if o = 0x2020 then some (putBit (putBit (s.reg pgEpoch o) 0 s.unversioned) 1 (s.ovlCount .unmerged != 0)) else none
  | _ => none

/-- Words of the buffer, scheduler and trunk pages that are computed (R282-R286, R330, R383, R384). -/
def State.viewBuffer (s : State) (k : Kind) (p o : Nat) : Option Word :=
  match k with
  | .pipe => if o = 0x2010 then some (word (s.pipe.inside.filter (fun x => x.pipe == p - pgPipe)).length) else none
  | .ladle =>
    if o = 0x2004 then some (word s.freeCells) else if o = 0x2008 then some (word s.freeIngots)
    else if o = 0x200C then some (word (s.poolFree .headroom 0)) else none
  | .crucible => if o = 0x2000 then some (word s.cellsUsed) else if o = 0x2008 then some (word s.heldCopies.length) else none
  | .ingot => if o = 0x2000 then some (word s.usedIngots.length) else none
  | .stack => if o = 0x2000 then some (putBit (s.reg p o) 2 (p == pgStack)) else none
  | .mcast => if o = 0x200C then some (word s.payloadsHeld) else none
  | .voq =>
    if o = 0x2004 then some (word s.voq.voqs.length) else if o = 0x2008 then some (word s.reserveTotal)
    else if o = 0x200C then some (word s.reserveFree) else none
  | .credit => if o = 0x2000 then some (word s.rbUsed) else if o = 0x2004 then some (word s.voq.ctxs.length) else none
  | .gates => if o = 0x2000 then some (word s.gatedPorts.length) else none
  | _ => none

/-- A header, configuration, live or status word as an agent of owner ID `id` reads it. -/
def State.regView (s : State) (id p o : Nat) : Word :=
  match pageRow p with
  | none => 0
  | some r =>
    if o = 0x14 then s.intRaw p else if o = 0x1C then s.intPend p else if o = 0x20 then s.cfgSignature p
    else if (p = pgGlobal ∨ p = pgTables) ∧ (o = 0x1000 ∨ o = 0x1004) then s.fenceWord id p o
    else match s.viewControl r.kind o with
    | some w => w
    | none => match s.viewTables r.kind o with
      | some w => w
      | none => match s.viewBuffer r.kind p o with
        | some w => w
        | none => match regRow r.kind o with
          | some x => if x.wo then 0 else s.reg p o
          | none => 0

/-! ### Windows -/

/-- The word of a queue's, group's or port's record as read (R311, R312). -/
def State.tmView (s : State) (lvl n i : Nat) : Word :=
  let k := lvl * 0x100000 + n
  let signed := fun (b : Bucket) => BitVec.ofInt 32 b.bytes
  if i = 9 then signed (s.bucketC k) else if i = 10 then signed (s.bucketP k)
  else if i = 15 then
    let ph := s.phase k * 2 ^ 24
    if lvl = 0 then
      let p := fld (s.tmW (s.groupOf n) 0) 7 0
      let e := s.egressClass n
      let w := word (min (s.queue n).length 0xFFFFF + ph)
      let w := putBit (putBit w 26 (s.pausedClass p e)) 27 (s.heldByGate p n)
      putBit w 28 (bit (s.tmW k 15) 28)
    else if lvl = 1 then
      let c := s.sched.inR.filter (fun q => decide (q < 131072) && s.groupOf q == k)
      putBit (word (c.length + ph)) 28 (bit (s.tmW k 15) 28)
    else
      let c := s.sched.inR.filter (fun g => decide (0x100000 ≤ g) && fld (s.tmW g 0) 7 0 == n)
      putBit (word (c.length + ph)) 28 (s.flushing n)
  else s.tmW k i

/-- Records of a level of the traffic manager. -/
def tmCount (lvl : Nat) : Nat := if lvl = 0 then 131072 else if lvl = 1 then 16384 else if lvl = 2 then 242 else 0

/-- A policer's word as read (R313). -/
def State.polView (s : State) (i w : Nat) : Word :=
  if w = 8 then word (s.polBuckets i).1.bytes.toNat else if w = 9 then word (s.polBuckets i).2.bytes.toNat else s.polW i w

/-- A LADLE window word (R282) of queue `q` in a view. -/
def State.ladleView (s : State) (view q : Nat) : Word :=
  if view = 0 then s.winA pgLadle q
  else if view = 1 then putBit (word (s.queueCells q)) 31 (s.spillOf q).isSome
  else if view = 2 then word (s.queueIngots q) else 0

/-- A GATES window word, by its place from 0x8000 (R331). -/
def State.gatesView (s : State) (i : Nat) : Word :=
  let p := s.regFld pgGates 0x1000 7 0
  if 241 < p then 0
  else if i = gwStatus then s.gateStatus p
  else if 0x1018 ≤ i ∧ i < 0x1020 then word (s.maxOpen p (i - 0x1018))
  else s.gw p i

/-- A VOQ window word (R364, R383). -/
def State.voqView (s : State) (o : Nat) : Word :=
  if o < 0x8400 then
    let l := (o - 0x8000) / 4
    if s.topo = 1 ∧ l < 2 then word (0x80000000 + l) else s.winA pgVoq l
  else if 0x9000 ≤ o ∧ o < 0xCFFC then s.winA pgVoq (0x400 + (o - 0x9000) / 4)
  else if 0xD000 ≤ o ∧ o < 0xD3C0 then word (s.spilledCells ((o - 0xD000) / 4)) else 0

/-- A TABLES window word (R217, R220). -/
def State.tablesView (s : State) (o : Nat) : Word :=
  if o < 0x8800 then (if o % 0x200 < 0x100 then s.tw ((o - 0x8000) / 0x200) (o % 0x200 / 4) else 0)
  else if 0xB000 ≤ o ∧ o < 0xB400 then s.winA pgTables (0x4000 + (o - 0xB000) / 4)
  else if 0xC000 ≤ o then s.winA pgTables (0x8000 + (o - 0xC000) / 4) else 0

/-- A LEARN window word (R232). -/
def State.learnView (s : State) (p i : Nat) : Word :=
  if i = 1 then setFld (s.winW pgLearn p 1) 22 0 (s.learnCount p) else s.winW pgLearn p i

/-- A LAUNCH window word (R363). -/
def State.launchView (s : State) (o : Nat) : Word :=
  let k := s.regFld pgLaunch 0x1000 7 0
  let i := (o - 0x8000) / 4
  if i < 8 then s.slotW k i else if 64 ≤ i ∧ i < 320 ∧ i % 4 ≠ 3 then s.slotW k i else 0

/-- A MCAST window word (R286). -/
def State.mcastView (s : State) (o : Nat) : Word :=
  if o < 0xC000 then s.winA pgMcast (4096 * s.regFld pgMcast 0x1004 7 0 + (o - 0x8000) / 4)
  else s.mcGroup (4096 * s.regFld pgMcast 0x1000 3 0 + (o - 0xC000) / 4)

/-- A FLEXE window word (R145). -/
def State.flexeView (s : State) (o : Nat) : Word :=
  let g := s.regFld pgFlexe 0x1040 3 0
  let n := (o - 0x8000) / 4
  if 2560 ≤ n then 0 else if n % 1280 < 20 * s.flexInst g then s.winA pgFlexe (g * 2560 + n) else 0xFF#32

/-- A word of the sample ring (R430, R432). -/
def State.ringView (s : State) (e i : Nat) : Word :=
  match s.stat.ring.find? (fun x => x.1 == e) with
  | some x => (toWords x.2).getD i 0
  | none => 0

/-! ### Stage views (R451) -/

/-- The NEXT_HOP index that a pass has found (R451). -/
def Pass.nh (x : Pass) (n : Nat) : Nat := match (if n ≤ 3 then .fwd x.looked.fwd else x.todo) with | .fwd (.nh i _) => i | _ => 0

/-- Words of the view of a held frame at the start of stage `n`: what the stages before it have found. -/
def State.heldView (s : State) (h : InPipe) (n i : Nat) : Word :=
  let f := h.frame
  let x := (s.passSoFar h).2
  let p := x.parsed
  let opt := fun (b : Bool) (v : Nat) => if b then v else 0
  let last := match p.hdrs.getLast? with | some h => h.code | none => 0
  if i = 0 then word (f.seq + f.pass * 2 ^ 16 + n * 2 ^ 20 + h.pipe * 2 ^ 24 + 3 * 2 ^ 30)
  else if i = 1 then word (f.epoch.getD 0 % 65536 + s.sysPort f.port * 65536)
  else if i = 2 then
    word (opt (0 < n) (p.hdrs.length + last * 256 + keyFlags (f.bytes.take 256) p (s.fromIp p) * 2 ^ 24)
      + opt (1 < n && x.term) (2 ^ 17) + opt (4 < n) (x.colour * 2 ^ 18))
  else if i = 3 then word (opt (1 < n) x.forme)
  else if i = 4 then word (x.ruleFld 0 19 0 + opt (0 < n) (p.dross * 2 ^ 24))
  else if i = 5 then word (opt (2 < n) (x.nh n))
  else if i < 8 then 0
  else (toWords (bytesAt f.bytes (4 * (i - 8)) 4)).getD 0 0

/-- Whether the stage view of a pipeline at a stage is settled: it holds a frame there, or no other frame could be there. -/
def State.stageFrame (s : State) (p n : Nat) : Option (Option InPipe) :=
  let l := s.pipe.inside.filter (fun (x : InPipe) => x.pipe == p)
  match s.pipeHeld p with
  | some x => if x.stage = some n then some (some x) else if l.length ≤ 1 then some none else none
  | none => if l.isEmpty then some none else none

/-- A word of a stage view: free where the view is not stable (R451, log entry 2). -/
def State.stageView (s : State) (v i : Nat) : Word :=
  match s.stageFrame (v / 6) (v % 6) with
  | some (some x) => s.heldView x (v % 6) i
  | some none => 0
  | none => Config.openWord s.freeCtr

/-- A DEBUG window word (R456). -/
def State.debugView (s : State) (o : Nat) : Word :=
  if o < 0x8200 then s.winW pgDebug ((o - 0x8000) / 0x80) (o % 0x80 / 4)
  else if 0xC000 ≤ o ∧ o < 0xD800 then s.stageView ((o - 0xC000) / 0x40) (o % 0x40 / 4) else 0

/-- The word at an offset of a page's window, but for STATS, CPCTL and PSTORE. -/
def State.winView (s : State) (k : Kind) (p o : Nat) : Word :=
  let n := (o - 0x8000) / 4
  match k with
  | .launch => s.launchView o
  | .time =>
    let q := n / 16
    let i := n % 16
    if 242 ≤ q ∨ i = 9 ∨ 13 < i then 0 else if 4 ≤ i ∧ i ≤ 8 then s.stampWord q i else s.portTime q i
  | .pmu =>
    if o < 0xA000 then s.winW pgPmu (n / 8) (n % 8)
    else if 0xC000 ≤ o then s.ringView (256 * s.regFld pgPmu 0x100C 3 0 + (o - 0xC000) / 0x40) (o % 0x40 / 4) else 0
  | .debug => s.debugView o
  | .flexe => s.flexeView o
  | .sprue => if n < 17 * 256 ∧ n % 256 < 144 then s.winA p n else 0
  | .parse => if n / 16 < 243 then s.winW pgParse (n / 16) (n % 16) else 0
  | .tables => s.tablesView o
  | .learn => s.learnView (n / 4) (n % 4)
  | .ladle => s.ladleView (s.regFld pgLadle 0x1000 5 4) (8192 * s.regFld pgLadle 0x1000 3 0 + n)
  | .tm =>
    let lvl := s.regFld pgTm 0x1000 1 0
    let r := 512 * s.regFld pgTm 0x1000 15 8 + n / 16
    if r < tmCount lvl then s.tmView lvl r (n % 16) else 0
  | .police => if n % 16 < 11 then s.polView (512 * s.regFld pgPolice 0x1000 9 0 + n / 16) (n % 16) else 0
  | .voq => s.voqView o
  | .gates => s.gatesView n
  | .mcast => s.mcastView o
  | _ => 0

/-! ### The latches of R52 -/

/-- The key of an agent's latch for a page; that of NOW_X lies apart (R337). -/
abbrev latchKey (id p : Nat) : Nat := id * 256 + p

/-- An access of an agent to a page other than the reads below ends what it held there (R52, R421, R427). -/
def State.touchPage (s : State) (a : Agent) (p : Nat) : State :=
  let s := { s with lastLow := Store.erase (latchKey a.id p) s.lastLow }
  if p = pgStats then s.dropPairLatch a else if p = pgPmu then s.pmuDropHold a else s

/-- Note which low word an agent has read last. -/
def State.setLow (s : State) (id p o : Nat) : State := { s with lastLow := Store.insert (latchKey id p) (o + 1) s.lastLow }

/-- Hold an agent's latch. -/
def State.setLatch (s : State) (key : Nat) (w : Word) : State := { s with readLatch := Store.insert key w s.readLatch }

/-- A read of NOW_LO, NOW_HI or NOW_X (R337). -/
def State.readNow (s : State) (a : Agent) (o : Nat) : Word × State :=
  let k := latchKey a.id pgTime
  let last := Store.get 0 k s.lastLow
  let live := s.regView a.id pgTime o
  let s := s.touchPage a pgTime
  if o = 0x2000 then
    let w := clkWords s.time.tb
    (live, ((s.setLatch k w.2.1).setLatch (0x10000 + k) w.2.2).setLow a.id pgTime o)
  else if o = 0x2004 ∧ last = 0x2001 then (Store.get 0 k s.readLatch, s.setLow a.id pgTime o)
  else if o = 0x2008 ∧ last = 0x2005 then (Store.get 0 (0x10000 + k) s.readLatch, s)
  else (live, s)

/-- A read of VALUEn_LO or VALUEn_HI (R427). -/
def State.readPmu (s : State) (a : Agent) (o : Nat) : Word × State :=
  let k := latchKey a.id pgPmu
  let last := Store.get 0 k s.lastLow
  let s := s.touchPage a pgPmu
  if o % 8 = 0 then (s.reg pgPmu o, (s.setLatch k (s.reg pgPmu (o + 4))).setLow a.id pgPmu o)
  else if last + 3 = o then (Store.get 0 k s.readLatch, s)
  else (s.reg pgPmu o, s)

/-- A read of a STATS record's word (R421). -/
def State.readStats (s : State) (a : Agent) (o : Nat) (uncorr : Bool) : Word × State :=
  let n := (o - 0x8000) / 4
  let i := 1024 * s.regFld pgStats 0x1000 11 0 + n / 8
  let w := n % 8
  if w = 0 then s.readFramesLo a i uncorr
  else if w ≤ 5 then
    if s.stat.latch.any (fun e => e.1 == a.id && e.2.1 == i) then s.readPairWord a i w else (s.touchPage a pgStats).readPairWord a i w
  else (0, s.touchPage a pgStats)

/-! ### The read of a word -/

/-- Words that a read clears (R231, R253, R283-R285, R437). -/
def clearsOnRead (k : Kind) (o : Nat) : Bool :=
  match k with
  | .tables => decide (0x2040 ≤ o) && decide (o < 0x2060)
  | .epoch => o == 0x2034
  | .crucible => o == 0x2004
  | .ingot => o == 0x2020
  | .stack => o == 0x2014 || (decide (0x2040 ≤ o) && decide (o < 0x2060))
  | .stats => o == 0x200C
  | _ => false

/-- A read of a header, configuration, live or status word: its value, and what the read changes (R48). -/
def State.readReg (s : State) (a : Agent) (k : Kind) (p o : Nat) : Word × State :=
  if p = pgTime ∧ 0x2000 ≤ o ∧ o ≤ 0x2008 then s.readNow a o
  else if p = pgPmu ∧ 0x2100 ≤ o ∧ o < 0x2900 then s.readPmu a o
  else
    let v := s.regView a.id p o
    let s := s.touchPage a p
    let s := if clearsOnRead k o then s.setReg p o 0 else s
    let s := if p = pgGlobal ∧ o = 0x2070 then s.fresh.2 else s
    (v, if 0x100 ≤ o ∧ o < 0x1000 then s.parityFound (regKey p o) else s)

/-- A read of a window word: its status, its value and what the read changes. -/
def State.readWin (s : State) (w : Who) (k : Kind) (p o : Nat) : Status × Word × State :=
  let a := w.agent
  match k with
  | .stats => let (v, s) := s.readStats a o false; (.ok, v, s)
  | .cpctl =>
    match s.cpWindow with
    | some b => (.ok, s.memWord (b + (o - 0x8000)), s.touchPage a p)
    | none => (.accessFault, 0, s.accessFault a (0x40000000 + p * 0x10000 + o) false 1 (some p))
  | .pstore =>
    match s.storeWindow with
    | none => (.accessFault, 0, s.accessFault a (0x40000000 + p * 0x10000 + o) false 1 (some p))
    | some b =>
      let at_ := b + (o - 0x8000)
      if rightOk w.rights (readRight (storeRegion at_)) then (.ok, laneWord (fun i => s.storeByte (at_ + i)), s.touchPage a p)
      else (.denied, 0, s.deny)
  | _ =>
    let v := s.winView k p o
    let open_ := p = pgDebug && decide (0xC000 ≤ o) && decide (o < 0xD800) && (s.stageFrame ((o - 0xC000) / 0x40 / 6) ((o - 0xC000) / 0x40 % 6)).isNone
    (.ok, v, (if open_ then s.fresh.2 else s).touchPage a p)

/-- A read of a 32-bit word at an address of the register space (R36-R42, R50-R53, R99): its status, value and effect. RIGHT_R is 0 on
every page, so a read needs no right but in the PSTORE window (R118). -/
def State.busRead (s : State) (w : Who) (addr : Nat) : Status × Word × State :=
  let p := (addr - 0x40000000) / 0x10000
  let o := addr % 0x10000
  match pageRow p with
  | none => (.ok, 0, s)
  | some r =>
    if addr % 4 ≠ 0 then (.accessFault, 0, s.accessFault w.agent addr false 0 (some p))
    else if o < 0x4000 then let (v, s) := s.readReg w.agent r.kind p o; (.ok, v, s)
    else if o < 0x8000 then
      let (l, b) := aliasOf o
      (.ok, if noAlias p l then 0 else if bit (s.regView w.agent.id p l) b then 1 else 0, s.touchPage w.agent p)
    else if windowEnd r ≤ o then (.accessFault, 0, s.accessFault w.agent addr false 1 (some p))
    else s.readWin w r.kind p o

end Sys2Proof.Machine
end

