-- ==== Sys2Proof/Machine/WinWrite.lean ====
section
/-! DEFINITION. The right that a write needs (R99) and writes to the block windows: launch slots (R352-R357, R363), time stamps, counters,
table windows, records of queues and policers, gate lists, multicast entries, memory views. -/
namespace Sys2Proof.Machine

/-! ### The right a write needs (R99) -/

/-- The required value of a write to offset `o` of page `p` that would leave `v` there (R99, R109): the live word for an alias. -/
def State.neededRight (s : State) (p o : Nat) (v : Word) : Nat :=
  let w := (s.reg p 0x28).toNat
  let blank := bit (s.reg pgRoles 0x2000) 2
  if p = pgGlobal ∧ o = 0x1000 then 0
  else if p = pgLocks ∧ ((0x1000 ≤ o ∧ o < 0x1100) ∨ o = 0x2000 ∨ o = 0x2004) then 0
  else if p = pgDebug ∧ o = 0x1008 then 6
  else if p = pgRoles ∧ blank ∧ ((0x1000 ≤ o ∧ o < 0x1020) ∨ (o = 0x1020 ∧ fld v 1 0 = 1)) then 0
  else if (p = pgRoles ∨ p = pgDebug) ∧ 0x1000 ≤ o ∧ o < 0x4000 then w
  else if o = 8 ∨ (0x100 ≤ o ∧ o < 0x1000) then w
  else w ||| 1

/-- The further right that a register or a field asks for where this write would change it (R99), 0 for none. -/
def furtherRight (p o : Nat) (mask data old : Word) : Nat :=
  if p = pgGlobal ∧ (o = 0x1008 ∨ o = 0x100C) then 2
  else if p = pgBellows ∧ o = 0x1000 ∧ bit (mask &&& data) 0 then 4
  else if p = pgCpctl ∧ o = 0x1008 ∧ bit (mask &&& (data ^^^ old)) 16 then 4 else 0

/-- Whether a right set may write the masked bits of a word (R98, R99). -/
def State.mayWrite (s : State) (rights p o : Nat) (mask data : Word) : Bool :=
  let x := if 0x4000 ≤ o ∧ o < 0x8000 then aliasOf o else (o, 0)
  let sh := if 0x4000 ≤ o ∧ o < 0x8000 then (fun (w : Word) => (w &&& 1#32) <<< x.2) else id
  let old := s.reg p x.1
  rightOk rights (s.neededRight p x.1 (blend (sh mask) (sh data) old)) && rightOk rights (furtherRight p x.1 (sh mask) (sh data) old)

/-! ### Launch slots (R353, R354, R356) -/

/-- The first cause of R353 that entry `i` of slot `k` fails, 0 for none. -/
def State.entryCause (s : State) (rights k i : Nat) : Nat :=
  let a := (s.slotW k (64 + 4 * i)).toNat
  let p := (a - 0x40000000) / 0x10000
  let o := a % 0x10000
  if a < 0x40000000 ∨ 0x41000000 ≤ a ∨ a % 4 ≠ 0 then 3
  else match pageRow p with
    | none => 3
    | some r =>
      if windowEnd r ≤ o then 3
      else if 0x100 ≤ o ∧ o < 0x1000 then 4
      else if [pgGlobal, pgHostif, pgCpctl, pgRoles, pgPstore, pgLocks, pgLaunch, pgDebug].contains p then 5
      else if s.mayWrite rights p o (s.slotW k (66 + 4 * i)) (s.slotW k (65 + 4 * i)) then 0 else 6

/-- The cause that refuses ARM with the entry it lies in (R353); none where the slot passes. -/
def State.armCause (s : State) (rights k : Nat) : Option (Nat × Nat) :=
  let c := fld (s.slotW k 3) 6 0
  if !s.enabled pgLaunch then some (7, 0)
  else if 64 < c then some (1, 0)
  else if 1000000000 ≤ (s.slotW k 2).toNat then some (2, 0)
  else if bit (s.slotW k 3) 9 && !rightOk rights (s.reg pgDebug 0x28).toNat then some (6, 0)
  else (List.range c).findSome? (fun i => let x := s.entryCause rights k i; if x = 0 then none else some (x, i))

/-- A write of 1 to ARM (R353); ignored on a slot that is ARMING or ARMED (R356). -/
def State.armSlot (s : State) (w : Who) (k : Nat) : State :=
  if s.slotState k = 1 ∨ s.slotState k = 2 then s
  else match s.armCause w.rights k with
    | some (c, e) => ((s.setSlotW k 4 (setFld (setFld (s.slotW k 4) 7 4 c) 13 8 e)).orReg pgLaunch 0x2000 0x20000#32).raise pgLaunch 19
    | none =>
      let s := s.setSlotW k 4 (setFld (s.slotW k 4) 13 0 1)
      { s with launch := { s.launch with armers := Store.insert k w.agent s.launch.armers } }

/-- EDIT_REJECT of a write to a slot that is ARMING or ARMED (R354). -/
def State.editReject (s : State) : State := s.orReg pgLaunch 0x2000 0x10000#32

/-- An ARMED slot whose applying cycle has come (R354, R356): a CANCEL is ignored. -/
def State.slotApplying (s : State) (k : Nat) : Bool :=
  s.slotState k == 2 && s.slotDue k && s.working pgLaunch && (!s.launch.stepped.contains k || bit (s.slotW k 3) 8)

/-- A write to SLOT_CTRL (R353, R354, R356). -/
def State.writeSlotCtrl (s : State) (w : Who) (k : Nat) (mask data : Word) : Status × State :=
  let old := s.slotW k 3
  let new := blend (mask &&& 0x37F#32) data old
  let arm := bit (mask &&& data) 16
  let cancel := bit (mask &&& data) 17 && !s.slotApplying k
  let busy := s.slotState k == 1 || s.slotState k == 2
  let s := if busy && cancel then s.cancelSlot k else s
  if busy && !(cancel && arm) then
    if new = old then (.ok, s) else (.cfgLocked, s.editReject)
  else
    let s := s.setSlotW k 3 new
    (.ok, if arm then s.armSlot w k else s)

/-- A write to the window of LAUNCH (R354, R363). -/
def State.winLaunch (s : State) (w : Who) (o : Nat) (mask data : Word) : Status × State :=
  let k := s.regFld pgLaunch 0x1000 7 0
  let i := (o - 0x8000) / 4
  if i = 3 then s.writeSlotCtrl w k mask data
  else if i < 3 ∨ (64 ≤ i ∧ i < 320 ∧ i % 4 ≠ 3) then
    if s.slotState k = 1 ∨ s.slotState k = 2 then (.cfgLocked, s.editReject)
    else (.ok, s.setSlotW k i (blend (if i = 0 then mask &&& 0xFFFF#32 else mask) data (s.slotW k i)))
  else (.ok, s)

/-! ### The other windows -/

/-- Write the writable bits `m` of a window word. -/
def State.putWin (s : State) (p u i : Nat) (m mask data : Word) : State := s.updWin p u i (blend (mask &&& m) data)

/-- Write the writable bits `m` of a word of a window array. -/
def State.putWinA (s : State) (p n : Nat) (m mask data : Word) : State := s.putWin p (n / 64) (n % 64) m mask data

/-- A write to the window of TIME (R361). -/
def State.winTime (s : State) (n : Nat) (mask data : Word) : State :=
  let p := n / 16
  let i := n % 16
  if 242 ≤ p then s
  else if i = 0 then s.putWin pgTime p 0 0xF#32 mask data
  else if i ≤ 3 then s.putWin pgTime p i 0xFFFFFFFF#32 mask data
  else if i = 4 then s.updWin pgTime p 4 (fun w => w &&& ~~~(mask &&& data &&& 0x100#32))
  else if i = 9 then s.popStamp p else s

/-- Writable bits of the words of a PMU counter's configuration (R438). -/
def pmuMask (i : Nat) : Word :=
  if i = 0 then 0x1F3FF#32 else if i = 1 then 0x1F#32 else if i = 2 then 0x1FF3F#32 else if i = 3 then 7#32
  else if i = 5 then 0x1FF#32 else if i = 7 then 0 else 0xFFFFFFFF#32

/-- A write to the window of PMU (R429, R438): a counter's configuration, which reloads COUNTDOWN. -/
def State.winPmu (s : State) (o : Nat) (mask data : Word) : State :=
  let n := (o - 0x8000) / 4
  if o < 0xA000 ∧ n % 8 ≠ 7 then
    let s := s.putWin pgPmu (n / 8) (n % 8) (pmuMask (n % 8)) mask data
    s.setWin pgPmu (n / 8) 7 (s.winW pgPmu (n / 8) 6)
  else s

/-- A write to a counter pair's record (R421): WRAP flags are W1C. -/
def State.winStats (s : State) (o : Nat) (mask data : Word) : State :=
  let n := (o - 0x8000) / 4
  let i := 1024 * s.regFld pgStats 0x1000 11 0 + n / 8
  if n % 8 = 5 then s.setFlags i (word (s.pairFlags i) &&& ~~~(mask &&& data &&& 3#32)).toNat else s

/-- A write to a packet breakpoint (R456). -/
def State.winDebug (s : State) (o : Nat) (mask data : Word) : State :=
  let b := (o - 0x8000) / 0x80
  let i := o % 0x80 / 4
  if 0x8200 ≤ o then s
  else if i = 0 then s.putWin pgDebug b 0 0xFFF003F#32 mask data
  else if i ≤ 2 then s.putWin pgDebug b i 0xFFFF#32 mask data
  else if 8 ≤ i ∧ i < 24 then s.putWin pgDebug b i 0xFFFFFFFF#32 mask data else s

/-- A write to a FlexE calendar (R140, R145): refused on the active calendar and while a switch is pending. DESIGN CHOICE, unsafe: an entry
beyond the group's slots is ignored with OK (R145) on the active calendar and while a switch is pending too, where R140 speaks of any entry
(log entry 126). -/
def State.winFlexe (s : State) (o : Nat) (mask data : Word) : Status × State :=
  let g := s.regFld pgFlexe 0x1040 3 0
  let n := (o - 0x8000) / 4
  if 2560 ≤ n ∨ 20 * s.flexInst g ≤ n % 1280 then (.ok, s)
  else if bit (s.flexStatus g) 3 || n / 1280 == (if bit (s.flexStatus g) 1 then 1 else 0) then
    (.cfgLocked, (s.orReg pgFlexe (0x2000 + 16 * g) 0x100#32).raise pgFlexe 19)
  else (.ok, s.putWinA pgFlexe (g * 2560 + n) 0xFF#32 mask data)

/-- A write of TW_CMD (R217, R390, R402): a relayed or journalled command is applied as it is received, before what follows it. -/
def State.winCommand (s : State) (wh : Who) (w : Nat) (cmd : Word) : State :=
  let t := s.twStart wh.agent w cmd
  if (wh.src == .relay || wh.src == .journal) && decide (s.tab.busyWin.length < t.tab.busyWin.length) then t.twFinish w else t

/-- A write to the window of TABLES (R211, R217, R220). -/
def State.winTables (s : State) (wh : Who) (o : Nat) (mask data : Word) : State :=
  let w := (o - 0x8000) / 0x200
  let i := o % 0x200 / 4
  if o < 0x8800 then
    if i = 0 then s.winCommand wh w (blend mask data (s.tw w 0))
    else if i = 1 then s.updWin pgTables w 1 (fun x => x &&& ~~~(mask &&& data &&& 0x100#32))
    else if i = 2 then s.putWin pgTables w 2 0xFFFFFF#32 mask data
    else if (16 ≤ i ∧ i < 28) ∨ (32 ≤ i ∧ i < 64) then s.putWin pgTables w i 0xFFFFFFFF#32 mask data else s
  else if 0xB000 ≤ o ∧ o < 0xB400 then s.putWinA pgTables (0x4000 + (o - 0xB000) / 4) 0xFFF3FFF#32 mask data
  else if 0xC000 ≤ o then s.putWinA pgTables (0x8000 + (o - 0xC000) / 4) 0xFFFF0007#32 mask data else s

/-- A write to the window of LEARN (R226, R232). -/
def State.winLearn (s : State) (n : Nat) (mask data : Word) : State :=
  if n % 4 = 0 then (s.putWin pgLearn (n / 4) 0 0x7FFFFF#32 mask data).limitReached (n / 4) else s

/-- Writable bits of word `i` of a record of a level of the traffic manager, word 0 apart (R311, R312). -/
def tmMask (lvl i : Nat) : Word :=
  if i = 1 then 0xFFFF#32 else if i = 2 ∨ i = 3 ∨ i = 6 ∨ i = 7 then 0xFFFFFFFF#32 else if i = 4 ∨ i = 5 then 0xFFFFFF#32
  else if i = 8 then 0x11F#32
  else if lvl = 2 then (if i = 11 then 0xFFFFFF#32 else if i = 12 then 0x7F#32 else if i = 13 then 0xFFFF013F#32 else 0)
  else if lvl = 0 then (if i = 13 then 0xFF03#32 else if i = 14 then 0xFFFFFFFF#32 else 0) else 0

/-- A write to word `i` of node `k` of a level (R289, R301, R311, R312). -/
def State.tmWrite (s : State) (lvl k i : Nat) (mask data : Word) : Status × State :=
  if i = 0 ∧ lvl < 2 then
    let (refused, s) := s.tmNodeWrite k (blend mask data (s.tmW k 0))
    (if refused then .cfgLocked else .ok, s)
  else if i = 0 then (.ok, s.putWin pgTm k 0 0x3DFFFF#32 mask data)
  else (.ok, (if 2 ≤ i ∧ i ≤ 5 then s.tmTouch k else s).putWin pgTm k i (tmMask lvl i) mask data)

/-- A write to the window of TM (R310). -/
def State.winTm (s : State) (n : Nat) (mask data : Word) : Status × State :=
  let lvl := s.regFld pgTm 0x1000 1 0
  let r := 512 * s.regFld pgTm 0x1000 15 8 + n / 16
  if r < tmCount lvl then s.tmWrite lvl (lvl * 0x100000 + r) (n % 16) mask data else (.ok, s)

/-- A write to the window of POLICE (R309, R313): a write of EN from 0 to 1 fills the buckets, one of tokens is capped at the burst. -/
def State.winPolice (s : State) (n : Nat) (mask data : Word) : State :=
  let i := 512 * s.regFld pgPolice 0x1000 9 0 + n / 16
  let w := n % 16
  if w ≤ 3 then (s.polTouch i).putWin pgPolice i w (if w < 2 then 0xFFFFFFFF#32 else 0xFFFFFF#32) mask data
  else if w = 4 then
    let t := (s.polTouch i).putWin pgPolice i 4 0xFF3F#32 mask data
    if bit (t.polW i 4) 0 && !bit (s.polW i 4) 0 then t.polFill i else t
  else if w ≤ 6 then s.putWin pgPolice i w 0xFFFFFFFF#32 mask data
  else if w = 7 then s.putWin pgPolice i 7 0x11F#32 mask data
  else if w ≤ 9 then s.polSetTokens i (w == 9) (blend (mask &&& 0x1FFFFFF#32) data (s.polView i w)).toNat
  else if w = 10 then s.putWin pgPolice i 10 0x803FFFFF#32 mask data else s

/-- A write to the window of VOQ (R364, R368, R383): the alias table is read-only in TWICEL; a route that is UP takes copies again. -/
def State.winVoq (s : State) (o : Nat) (mask data : Word) : State :=
  if o < 0x8400 then (if s.topo = 1 then s else s.putWinA pgVoq ((o - 0x8000) / 4) 0x80000FFF#32 mask data)
  else if 0x9000 ≤ o ∧ o < 0xCFFC then
    let s := s.putWinA pgVoq (0x400 + (o - 0x9000) / 4) 0xFFFF#32 mask data
    { s with voq := { s.voq with unreach := s.voq.unreach.filter (fun d => !s.reachable d) } }
  else s

/-- A write to a list's entry or header of port `p` (R318): refused on the active list and while a switch is pending. -/
def State.gateListWrite (s : State) (p l i : Nat) (m mask data : Word) : Status × State :=
  if s.gatePending p || s.gateActive p == l then
    (.cfgLocked, (s.setGw p gwStatus (s.gw p gwStatus ||| 0x10000#32)).raise pgGates 19)
  else (.ok, s.putWinA pgGates (p * 0x2000 + i) m mask data)

/-- A write to PORT_CTRL (R319, R321, R331). -/
def State.gateCtrl (s : State) (p : Nat) (mask data : Word) : State :=
  let s := s.putWinA pgGates (p * 0x2000 + gwCtrl) 0x100#32 mask data
  let s := if bit (mask &&& data) 1 then s.gateCancel p else s
  if bit (mask &&& data) 0 then s.gateRequest p else s

/-- A write to the window of GATES (R318, R331). -/
def State.winGates (s : State) (i : Nat) (mask data : Word) : Status × State :=
  let p := s.regFld pgGates 0x1000 7 0
  let h := i % 8
  if 241 < p then (.ok, s)
  else if i < 0x1000 then s.gateListWrite p (i / 0x800) i (if i % 2 = 0 then 0xFF#32 else 0xFFFFFFFF#32) mask data
  else if i < 0x1010 then
    if h < 5 then s.gateListWrite p (i % 16 / 8) i (if h = 0 then 0xFFFF#32 else if h = 4 then 0x7FF#32 else 0xFFFFFFFF#32) mask data
    else (.ok, s)
  else if i = gwCtrl then (.ok, s.gateCtrl p mask data)
  else if i = gwStatus then (.ok, s.setGw p gwStatus (s.gw p gwStatus &&& ~~~(mask &&& data &&& 0xF0000#32)))
  else if i = gwGuard then (.ok, s.putWinA pgGates (p * 0x2000 + gwGuard) 0xFFFF#32 mask data)
  else (.ok, s)

/-- A write to the window of MCAST (R272, R286). -/
def State.winMcast (s : State) (o : Nat) (mask data : Word) : State :=
  if o < 0xC000 then s.putWinA pgMcast (4096 * s.regFld pgMcast 0x1004 7 0 + (o - 0x8000) / 4) 0xCFFFFFFF#32 mask data
  else
    let g := 4096 * s.regFld pgMcast 0x1000 3 0 + (o - 0xC000) / 4
    if g = 0 then s else s.putWinA pgMcast (0x200000 + g) 0x9FFFFFFF#32 mask data

/-- A write to the window of PSTORE (R115, R118, R121): the calibration region takes the maker's writes; the rest is refused. -/
def State.winStore (s : State) (w : Who) (o : Nat) (mask data : Word) : Status × State :=
  match s.storeWindow with
  | none => (.accessFault, s.accessFault w.agent (0x40000000 + pgPstore * 0x10000 + o) true 1 (some pgPstore))
  | some b =>
    let at_ := b + (o - 0x8000)
    if storeRegion at_ = .calibration ∧ rightOk w.rights 4 ∧ !s.safe pgPstore then
      let v := blend mask data (laneWord (fun i => s.storeByte (at_ + i)))
      (.ok, (s.putStoreBytes at_ (laneBytes v)).noteWear (0x1000 + at_ / 4))
    else (.denied, (s.incReg pgPstore 0x200C).deny)

/-- A write to the window of CPCTL (R96). -/
def State.winCpctl (s : State) (w : Who) (o : Nat) (mask data : Word) : Status × State :=
  match s.cpWindow with
  | none => (.accessFault, s.accessFault w.agent (0x40000000 + pgCpctl * 0x10000 + o) true 1 (some pgCpctl))
  | some b => (.ok, s.putMemWord (b + (o - 0x8000)) mask data)

/-- A write to a window word: its status and the state after it. -/
def State.writeWin (s : State) (w : Who) (k : Kind) (o : Nat) (mask data : Word) : Status × State :=
  let n := (o - 0x8000) / 4
  match k with
  | .launch => s.winLaunch w o mask data
  | .time => (.ok, s.winTime n mask data)
  | .pmu => (.ok, s.winPmu o mask data)
  | .stats => (.ok, s.winStats o mask data)
  | .debug => (.ok, s.winDebug o mask data)
  | .flexe => s.winFlexe o mask data
  | .tables => (.ok, s.winTables w o mask data)
  | .learn => (.ok, s.winLearn n mask data)
  | .ladle =>
    (.ok, if s.regFld pgLadle 0x1000 5 4 = 0 then s.putWinA pgLadle (8192 * s.regFld pgLadle 0x1000 3 0 + n) 0x3FF1#32 mask data else s)
  | .tm => s.winTm n mask data
  | .police => (.ok, s.winPolice n mask data)
  | .voq => (.ok, s.winVoq o mask data)
  | .gates => s.winGates n mask data
  | .mcast => (.ok, s.winMcast o mask data)
  | .cpctl => s.winCpctl w o mask data
  | .pstore => s.winStore w o mask data
  | _ => (.ok, s)

end Sys2Proof.Machine
end

