-- ==== Sys2Proof/Machine/BusWrite.lean ====
section
/-! DEFINITION. Writes of the register pages (R12, R13, R32, R40, R43, R50, R51, R53, R79, R99, R391): which bits of which word a write
changes, what it is refused for, and what it triggers. -/
namespace Sys2Proof.Machine

/-- A write by the access codes of its row (R13): LV, CF and WO bits take the data, W1C bits clear; what W1S bits trigger is told below. -/
def State.putRow (s : State) (k : Kind) (p o : Nat) (mask data : Word) : State :=
  match regRow k o with
  | none => s
  | some r => s.updReg p o (fun old => blend (mask &&& word r.rw) data old &&& ~~~(mask &&& data &&& word r.w1c))

/-! ### Header and configuration words -/

/-- A write of a header word (R40): DRAIN_DISCARD written 1 ends a drain (R44). -/
def State.writeHeader (s : State) (k : Kind) (p o : Nat) (mask data : Word) : State :=
  let s := s.putRow k p o mask data
  let s := if o = 8 ∧ bit (mask &&& data) 1 then s.drainDiscard p else s
  s.forgetGroups

/-- The parity of words computed anew, as each is written (R48, R51). -/
def State.reparity (s : State) (l : List Nat) : State :=
  { s with upset := s.upset.filter (fun x => !l.contains x), reported := s.reported.filter (fun x => !l.contains x) }

/-- A write of TOPOLOGY that the CF rule accepts (R32). -/
def State.writeTopology (s : State) (mask data : Word) : Status × State :=
  let old := s.regFld 0 0x100 1 0
  let new := fld (blend mask data (s.reg 0 0x100)) 1 0
  if new = 3 then (.cfgLocked, s.orReg 0 0x2000 0x10000#32)
  else
    let s := s.setReg 0 0x100 (word new)
    (.ok, if (new == 2) = (old == 2) then s else (s.setReg 0 0x104 (if new = 2 then 4 else 0)).reparity [0x104])

/-- PROFILE_REJECT (R32). -/
def State.profileReject (s : State) : State := s.orReg 0 0x2000 0x20000#32

/-- A write of ENGINE_PROFILE that the CF rule accepts (R32). -/
def State.writeProfile (s : State) (mask data : Word) : Status × State :=
  let v := fld (blend mask data (s.reg 0 0x104)) 2 0
  let trunked := s.regFld 0 0x100 1 0 == 2
  if 4 < v ∨ (v == 4) ≠ trunked then (.cfgLocked, s.profileReject) else (.ok, s.setReg 0 0x104 (word v))

/-- A write of a configuration word while the block is DISABLED (R12, R13); the parity of a word that is written is computed anew (R51). -/
def State.writeConfig (s : State) (k : Kind) (p o : Nat) (mask data : Word) : Status × State :=
  let (st, s) := if p = pgGlobal ∧ o = 0x100 then s.writeTopology mask data
    else if p = pgGlobal ∧ o = 0x104 then s.writeProfile mask data else (.ok, s.putRow k p o mask data)
  (st, if st = .ok then s.reparity [regKey p o] else s)

/-! ### Live and status words with a rule of their own -/

/-- RESET_CTRL (R459, R475, R477): a cold reset goes before a warm one, and a warm reset in progress is not begun again. -/
def State.writeResetCtrl (s : State) (acts : Word) : State :=
  if bit acts 1 then
    let s := s.coldReset 6
    { s with pow := { s.pow with off := true, rails := [] } }
  else if bit acts 0 then s.warmRequest 9 else s

/-- An agent writes a token to FENCE (R60, R223): FENCE_DONE waits for the relays and the waiting commands that came before. -/
def State.writeFence (s : State) (id p : Nat) (v : Word) : State :=
  let s := s.setFence id p 0x1000 v
  { s with host := { s.host with fenceAt := Store.insert (fenceKey id p 0x1000) (s.pair.relayNext, s.host.taken) s.host.fenceAt } }

/-- GLOBAL (R54, R478, R484). -/
def State.liveGlobal (s : State) (a : Agent) (o : Nat) (mask data : Word) : State :=
  let acts := mask &&& data
  if o = 0x1000 then s.writeFence a.id pgGlobal (blend mask data (s.fenceWord a.id pgGlobal 0x1000))
  else if o = 0x1008 then s.writeResetCtrl acts
  else if o = 0x100C then
    let v := blend (mask &&& 0xFF#32) data (s.reg 0 o)
    if bit acts 31 then (s.blockReset (fld v 7 0)).forgetGroups else s.setReg 0 o v
  else if o = 0x2010 ∧ bit acts 0 then s.clrReg 0 o 3#32
  else s.putRow .global pgGlobal o mask data

/-- ROLES (R108, R109): staging is closed while BUSY; a write of COMMIT starts the key change. -/
def State.liveRoles (s : State) (a : Agent) (o : Nat) (mask data : Word) : Status × State :=
  if o < 0x1020 then (.ok, if bit (s.reg pgRoles 0x2000) 0 then s else s.putRow .roles pgRoles o mask data)
  else if o = 0x1020 ∧ bit (mask &&& data) 8 then
    let v := fld (blend mask data (s.reg pgRoles o)) 1 0
    match s.keyCommit a v with
    | (.ok, t) => (.ok, t.setReg pgRoles o (word v))
    | r => r
  else (.ok, s.putRow .roles pgRoles o mask data)

/-- CPCTL (R67, R96): CORE_RESET; a kick of the watchdog has no state but its time, which WDT_EXPIRED names. -/
def State.liveCpctl (s : State) (o : Nat) (mask data : Word) : State :=
  let acts := mask &&& data
  if o = 0x1000 then
    if bit acts 0 then s.coresReset
    else [1, 2, 3].foldl (fun s k => if bit acts k then s.coreReset k else s) s
  else if o = 0x1004 then s else s.putRow .cpctl pgCpctl o mask data

/-- LOCKS (R55, R56): a write that selects no bit of OWNER changes nothing. -/
def State.liveLocks (s : State) (a : Agent) (o : Nat) (mask data : Word) : Status × State :=
  if o < 0x1100 then
    let k := (o - 0x1000) / 4
    if mask &&& 0xF#32 = 0 then (.ok, s) else s.lockWrite a k (fld (blend mask data (s.lockW k)) 3 0)
  else (.ok, s.putRow .locks pgLocks o mask data)

/-- TIME (R334, R337). -/
def State.liveTime (s : State) (due : Option Nat) (o : Nat) (mask data : Word) : State :=
  let acts := mask &&& data
  let s := s.putRow .time pgTime o mask data
  let d := (o - 0x1040) / 0x20
  if o = 0x1000 then (if bit acts 8 then s.snap else s)
  else if o = 0x1040 ∨ o = 0x1060 then s.freqWritten d due
  else if o = 0x1058 ∨ o = 0x1078 then s.domGo d (bit acts 0) (bit acts 1) due else s

/-- PMU (R424, R427, R432). -/
def State.livePmu (s : State) (a : Agent) (o : Nat) (mask data : Word) : State :=
  let n := (o - 0x2100) / 8
  if o = 0x1000 then
    let s := s.putRow .pmu pgPmu o mask data
    if bit (mask &&& data) 1 then s.pmuResetAll else s
  else if o = 0x1004 then s.ringRead (fld (blend mask data (s.reg pgPmu o)) 12 0)
  else if 0x2100 ≤ o ∧ o < 0x2900 then
    if o % 8 = 0 then (s.pmuWriteLo a n (blend mask data (s.reg pgPmu o))).pmuDropHold a
    else s.pmuWriteHi a n (blend mask data (s.reg pgPmu o))
  else s.putRow .pmu pgPmu o mask data

/-- DEBUG (R449, R455): STEP goes before RELEASE. What a step's pass meets in the tables and how long a Quench lasted is free here (log
entry 2); PBP_STEP and Q_CTRL_THAW carry it. -/
def State.liveDebug (s : State) (o : Nat) (mask data : Word) : State :=
  let acts := mask &&& data
  let s := s.putRow .debug pgDebug o mask data
  if o = 0x1004 then
    let k := s.regFld pgDebug o 3 0
    let s := if bit acts 8 then
        let (n, s) := s.fresh
        s.pbpStep k ((Config.openWord n).setWidth 60) [] none
      else s
    if bit acts 9 then s.pbpRelease k else s
  else if o = 0x1008 ∧ bit acts 0 ∧ s.quenched then
    let (n, s) := s.fresh
    s.thaw (Config.openWord n).toNat
  else s

/-- FAULT_CTRL (R400, R416): ASSERT, then CLEAR, which also clears ASSERT. -/
def State.writeFaultCtrl (s : State) (acts : Word) : State :=
  let s := if bit acts 0 then (s.setReg pgPair 0x1004 1#32).faultEval else s
  if bit acts 1 then
    let s := (s.setReg pgPair 0x1004 0).clrReg pgPair 0x2008 4#32
    (if s.faultCause = 0 then s.clrReg pgPair 0x2004 0x400#32 else s).pinsEval
  else s.pinsEval

/-- PAIR (R400). -/
def State.livePair (s : State) (o : Nat) (mask data : Word) : State :=
  if o = 0x1000 then { s with pair := { s.pair with kick := some s.time.cyc } }
  else if o = 0x1004 then s.writeFaultCtrl (mask &&& data)
  else s.putRow .pair pgPair o mask data

/-- A bank (R129): clearing ADMIN_UP of a port takes its link down. -/
def State.liveBank (s : State) (p o : Nat) (mask data : Word) : State :=
  let s := s.putRow .bank p o mask data
  if o = 0x1000 then
    (List.range 8).foldl (fun s i => if bit (s.reg p o) i then s else s.setLine (8 * (p - pgBank) + i) false) s
  else s

/-- FLEXE (R137, R141). -/
def State.liveFlexe (s : State) (o : Nat) (mask data : Word) : State :=
  let t := s.putRow .flexe pgFlexe o mask data
  if o < 0x1040 then (if bit (mask &&& data) 0 then t.calSwitchReq ((o - 0x1000) / 4) else t)
  else if 0x1044 ≤ o ∧ o < 0x1054 then State.clientsFollow s t else t

/-- CLASSIFY (R190): a bucket is brought up to date before its rate or burst changes. -/
def State.liveClassify (s : State) (o : Nat) (mask data : Word) : State :=
  let r := if o < 0x1100 then (o - 0x1000) / 8 else 32
  (if o < 0x1108 then s.setPunt r (s.puntBucket r) else s).putRow .classify pgClassify o mask data

/-- SPRUE (R161, R172). -/
def State.liveSprue (s : State) (p o : Nat) (mask data : Word) : State :=
  let s := s.putRow .sprue p o mask data
  if o = 0x1000 then s.sprueEval (p - pgSprue)
  else if o = 0x1004 then s.testCtrl (p - pgSprue) (bit (mask &&& data) 8) else s

/-- A write of a live or status word: its status and what it does. -/
def State.writeLive (s : State) (w : Who) (k : Kind) (p o : Nat) (mask data : Word) : Status × State :=
  let acts := mask &&& data
  let plain := s.putRow k p o mask data
  match k with
  | .global => (.ok, s.liveGlobal w.agent o mask data)
  | .bellows => (.ok, if o = 0x1000 ∧ bit acts 0 then s.bellowsRestart else plain)
  | .roles => s.liveRoles w.agent o mask data
  | .hostif => (.ok, if o = 0x201C ∧ bit acts 31 then s.clrReg p o 0xC0000000#32 else plain)
  | .cpctl => (.ok, s.liveCpctl o mask data)
  | .locks => s.liveLocks w.agent o mask data
  | .time => (.ok, s.liveTime w.due o mask data)
  | .pmu => (.ok, s.livePmu w.agent o mask data)
  | .stats => (.ok, if o = 0x101C ∧ bit acts 0 then plain.setGo else plain)
  | .debug => (.ok, s.liveDebug o mask data)
  | .pair => (.ok, s.livePair o mask data)
  | .mgmt => (.ok, if o = 0x1000 ∧ !bit (plain.reg p o) 0 then plain.setMgmtUp false else plain)
  | .bank => (.ok, s.liveBank p o mask data)
  | .flexe => (.ok, s.liveFlexe o mask data)
  | .classify => (.ok, s.liveClassify o mask data)
  | .epoch => (.ok, if o = 0x1000 ∧ bit acts 0 then s.pendingDiscard else plain)
  | .tables =>
    (.ok, if o = 0x1000 then s.writeFence w.agent.id p (blend mask data (s.fenceWord w.agent.id p o)) else plain)
  | .tm => (.ok, if o = 0x1004 then s.tmRateApply acts else plain)
  | .police => (.ok, if o = 0x1004 then s.polRateApply acts else plain)
  | .sprue => (.ok, s.liveSprue p o mask data)
  | _ => (.ok, plain)

/-! ### The write of a word -/

/-- An agent other than the relay writes a mirror-set word of a JOINED partner (R32, R391). -/
def State.localReject (s : State) (p o : Nat) : State :=
  let s := s.orReg pgPair 0x2000 0x200#32
  if p = pgGlobal ∧ o = 0x104 then s.profileReject else s

/-- Whether the CF rule refuses a write (R13, R43). -/
def State.cfRefuses (s : State) (p o : Nat) : Bool := decide (0x100 ≤ o) && decide (o < 0x1000) && s.blk p != 0

/-- The effect of a write whose right has been checked (R12, R13, R32, R43, R391): the CF rule goes first, and a write of GLOBAL that it
refuses is not looked at further (R32). -/
def State.writeWord (s : State) (w : Who) (r : PageRow) (p o : Nat) (mask data : Word) : Status × State :=
  let mine := s.partnerJoined && mirrorWord p o && w.src != .relay && w.src != .journal
  let cf := s.cfRefuses p o
  let s' := if cf then s.orReg p 0x0C 0x100#32 else s
  if mine && !(p == pgGlobal && cf) then (.cfgLocked, s'.localReject p o)
  else if cf then (.cfgLocked, s')
  else if o < 0x100 then (.ok, s.writeHeader r.kind p o mask data)
  else if o < 0x1000 then s.writeConfig r.kind p o mask data
  else if o < 0x4000 then s.writeLive w r.kind p o mask data
  else s.writeWin w r.kind o mask data

/-- Whether the rights of the maker of an access are checked here: a relay's were on the lead (R387), a launched write's as its slot was
armed (R353), a journalled write's on the active (log entry 17). -/
def Src.checked : Src → Bool
  | .own | .restore => true
  | _ => false

/-- The store's window has its own rule of refusal (R118). -/
def isStoreWin (p o : Nat) : Bool := p == pgPstore && decide (0x8000 ≤ o)

/-- A write at a resolved offset: the rights check, the latches of R52, the effect, and the journal's record (R402). -/
def State.writeAt (s : State) (w : Who) (r : PageRow) (p o : Nat) (mask data : Word) : Status × State :=
  if w.src.checked && !isStoreWin p o && !s.mayWrite w.rights p o mask data then (.denied, s.deny)
  else
    let value := p == pgPmu && decide (0x2100 ≤ o) && decide (o < 0x2900)
    let s := if value then { s with lastLow := Store.erase (latchKey w.agent.id p) s.lastLow } else s.touchPage w.agent p
    let (st, s) := s.writeWord w r p o mask data
    if st = .ok ∧ w.src ≠ .launch ∧ w.src ≠ .journal then (st, s.journalWrite p o mask data) else (st, s)

/-- A write of the bits `mask` of a 32-bit word at an address of the register space (R36, R37, R50, R53, R79): its status and the state
after it. -/
def State.busWrite (s : State) (w : Who) (addr : Nat) (mask data : Word) : Status × State :=
  let p := (addr - 0x40000000) / 0x10000
  let o := addr % 0x10000
  match pageRow p with
  | none => (.ok, s)
  | some r =>
    if addr % 4 ≠ 0 then (.accessFault, s.accessFault w.agent addr true 0 (some p))
    else if 0x8000 ≤ o ∧ windowEnd r ≤ o then (.accessFault, s.accessFault w.agent addr true 1 (some p))
    else if 0x4000 ≤ o ∧ o < 0x8000 then
      let (l, b) := aliasOf o
      if noAlias p l ∨ mask &&& 1#32 = 0 then (.ok, s) else s.writeAt w r p l (oneBit b) ((data &&& 1#32) <<< b)
    else if mask = 0 then (.ok, s)
    else s.writeAt w r p o mask data

/-! ### The performance monitor's view of an access (R425) -/

/-- An event of an agent's access: a core's one that a counter samples writes an instruction record, whose program counter and latency are
free, with the address of the data that it loads (R425, R429, R431, log entry 2). -/
def State.accessEvent (s : State) (code : Nat) (a : Agent) (space : Option (Nat × Nat)) (load : Nat) : State :=
  let mode := match a with | .core _ => some 0 | .app _ => some 2 | _ => none
  let (ns, s) := s.pmuEvent ⟨code, mode, [agentMaster a], space, none⟩
  match a with
  | .core k | .app k =>
    ns.foldl (fun s n =>
      let (i, s) := s.fresh
      let (j, s) := s.fresh
      s.sample (instrRecord n code k.val (match a with | .app _ => 0 | _ => 3) ((Config.openWord i).setWidth 64)
        (s.nowSub) (Config.openWord j).toNat (BitVec.ofNat 64 load))) s
  | _ => s

/-- A register access by an agent itself takes effect: REG_ACCESS. -/
def State.noteAccess (s : State) (w : Who) (addr load : Nat) : State :=
  if w.src != .own || !s.pmuRuns then s else s.accessEvent 0x11 w.agent (some (3, (addr - 0x40000000) / 0x10000)) load

/-- A read as an agent makes it: its effect and its count. -/
def State.readBus (s : State) (w : Who) (addr : Nat) : Status × Word × State :=
  let (st, v, s) := s.busRead w addr
  (st, v, if st = .ok then s.noteAccess w addr addr else s)

/-- A write as an agent makes it: its effect and its count. -/
def State.writeBus (s : State) (w : Who) (addr : Nat) (mask data : Word) : Status × State :=
  let (st, s) := s.busWrite w addr mask data
  (st, if st = .ok then s.noteAccess w addr 0 else s)

end Sys2Proof.Machine
end

