-- ==== Sys2Proof/Machine/CtrlProc.lean ====
section
/-! DEFINITION. Accesses as each agent makes them: words that a host or the debug port reads and writes (R78, R445), stores of the
control processor in machine and user mode (R51-R53, R61-R66), the audit records of writes (R112) and the relays of mirrored writes
(R389), and the rows that are one register write. -/
namespace Sys2Proof.Machine

/-! ### Words by address (R62, R78, R445) -/

/-- The address of offset `o` of page `p`. -/
abbrev regAddr (p o : Nat) : Nat := 0x40000000 + p * 0x10000 + o

/-- Whether an address lies in the register pages. -/
def inPages (addr : Nat) : Bool := decide (0x40000000 ≤ addr) && decide (addr < 0x41000000)

/-- The core-debug right of the debug port (R444). -/
def State.coreDebug (s : State) : Bool :=
  let r := s.agentRights .debug pgDebug
  (r &&& 4) != 0 || ((r &&& 2) != 0 && bit (s.reg pgDebug 0x1000) 8)

/-- A read of a word outside the register pages (R78, R118, R445). -/
def State.readOutside (s : State) (a : Agent) (addr : Nat) : Status × Word × State :=
  if a ≠ .debug ∨ placeOf addr = .outside then (.accessFault, 0, s.accessFault a addr false 2 none)
  else if addr % 4 ≠ 0 then (.accessFault, 0, s.accessFault a addr false 0 none)
  else if !s.coreDebug then (.denied, 0, s.deny)
  else if placeOf addr = .store && !rightOk (s.agentRights a pgPstore) (readRight (storeRegion (addr - 0x60000000))) then (.denied, 0, s.deny)
  else (.ok, s.memWord addr, s)

/-- A write of a word outside the register pages (R78, R118, R445): the store's view takes no write, the boot ROM keeps its content (log
entry 19). -/
def State.writeOutside (s : State) (a : Agent) (addr : Nat) (mask data : Word) : Status × State :=
  if a ≠ .debug ∨ placeOf addr = .outside then (.accessFault, s.accessFault a addr true 2 none)
  else if addr % 4 ≠ 0 then (.accessFault, s.accessFault a addr true 0 none)
  else if !s.coreDebug || placeOf addr = .store then (.denied, s.deny)
  else (.ok, s.putMemWord addr mask data)

/-- A read of a word by a host or the debug port. -/
def State.readAddr (s : State) (a : Agent) (addr : Nat) : Status × Word × State :=
  if inPages addr then s.readBus (s.ownWho a ((addr - 0x40000000) / 0x10000)) addr else s.readOutside a addr

/-- A write of a word by a host, the debug port or a core. -/
def State.writeAddr (s : State) (w : Who) (addr : Nat) (mask data : Word) : Status × State :=
  if inPages addr then s.writeBus w addr mask data else s.writeOutside w.agent addr mask data

/-! ### Audit records of writes (R112, R113) -/

/-- Whether a refused write to a word is recorded (R112): its page is ROLES, PSTORE or one whose RIGHT_W has bit 1 or 2. -/
def State.auditedPage (s : State) (addr : Nat) : Bool :=
  let p := (addr - 0x40000000) / 0x10000
  inPages addr && (pageRow p).isSome && (p == pgRoles || p == pgPstore || (s.reg p 0x28 &&& 6#32) != 0)

/-- Whether an accepted write to a word is recorded (R112): to any word of ROLES or PSTORE, else to BLK_CTRL or the configuration region. -/
def State.audited (s : State) (addr : Nat) : Bool :=
  let p := (addr - 0x40000000) / 0x10000
  let o := addr % 0x10000
  s.auditedPage addr && (p == pgRoles || p == pgPstore || o == 8 || (decide (0x100 ≤ o) && decide (o < 0x1000)))

/-- DATA of a WRITE record: the key being staged is not shown. -/
def auditData (addr : Nat) (data : Word) : Word :=
  if regAddr pgRoles 0x1000 ≤ addr ∧ addr < regAddr pgRoles 0x1020 then 0 else data

/-- Record a WRITE or WRITE_MASKED command or one store: WRITE where words took effect, WRITE_DENIED where a right was missing. `hit` tells
whether a word that took effect, or the refused one, is of the kind recorded. -/
def State.auditWrite (s : State) (a : Agent) (st : Status) (addr : Nat) (data : Word) (n : Nat) (hit : Bool) : State :=
  let p := (addr - 0x40000000) / 0x10000
  match a with
  | .core _ | .bellows => s
  | _ =>
    if !hit then s
    else if 0 < n then s.auditBy a 0x04 st.code p (word addr) (auditData addr data) n
    else if st = .denied then s.auditBy a 0x05 st.code p (word addr) 0 0 else s

/-- Count one more store in the newest record, whether it waits or has reached the store (log entry 20). -/
def State.countStore (s : State) : State :=
  let more := fun (r : AuditRec) => { r with count := r.count + 1 }
  match s.nvm.auditPend.getLast? with
  | some r => { s with nvm := { s.nvm with auditPend := s.nvm.auditPend.dropLast ++ [more r] } }
  | none =>
    let k := (s.reg pgRoles 0x201C - 1#32).toNat % 4096
    { s with nvm := { s.nvm with ring := s.nvm.ring.map (fun e => if e.1 = k then (e.1, more e.2) else e) } }

/-- Record a store of an application or the debug port (R112): consecutive stores to one page, each within 1 ms of the one before and with no
other record between, give one record. -/
def State.auditStore (s : State) (a : Agent) (st : Status) (addr : Nat) (data : Word) : State :=
  let p := (addr - 0x40000000) / 0x10000
  let own := match a with | .core _ | .bellows => true | _ => false
  if own || st ≠ .ok || !s.audited addr then s.auditWrite a st addr data 0 (st == .denied && s.auditedPage addr)
  else
    let joined := match s.nvm.storeRun with
      | some (i, q, c) => i == a.id && q == p && decide (s.time.cyc ≤ c + 1562500)
      | none => false
    let room := decide (s.nvm.auditPend.length < 64)
    let t := if joined then s.countStore else s.auditWrite a st addr data 1 true
    { t with nvm := { t.nvm with storeRun := if joined || room then some (a.id, p, s.time.cyc) else none } }

/-! ### Relays of mirrored writes (R334, R389) -/

/-- The word that a write reaches: a live word's bit for an alias. -/
def resolved (addr : Nat) (mask data : Word) : Option (Nat × Word × Word) :=
  let o := addr % 0x10000
  if 0x4000 ≤ o ∧ o < 0x8000 then
    let (l, b) := aliasOf o
    if noAlias ((addr - 0x40000000) / 0x10000) l ∨ mask &&& 1#32 = 0 then none
    else some (addr - o + l, oneBit b, (data &&& 1#32) <<< b)
  else some (addr, mask, data)

/-- An accepted write of the lead to a mirror-set word goes to the partner (R389); FREQ, STEP_GO and SET_GO name their instant (R334). -/
def State.mirrorWrite (s : State) (agent addr : Nat) (mask data : Word) : State :=
  if !s.leadJoined || !inPages addr then s
  else match resolved addr mask data with
    | none => s
    | some (a, m, d) =>
      let p := (a - 0x40000000) / 0x10000
      let o := a % 0x10000
      if !mirrorWord p o || m == 0 then s
      else if p = pgTime ∧ (o % 0x20 = 0 ∨ o % 0x20 = 0x18) then
        s.relayWords agent true false false a (some m) (d :: dueWords (s.nowNs + 100000))
      else s.relayWords agent true false false a (some m) [d]

/-! ### Exceptions of a core (R53, R63, R267) -/

/-- A core's register by number (R447); x0 reads 0. -/
def State.coreReg (s : State) (k n : Nat) : BitVec 64 := if n = 0 then 0 else Store.get 0#64 (k * 65536 + n) s.cp.coreRegs

/-- Write a core's register; a write to x0 is ignored. -/
def State.setCoreReg (s : State) (k n : Nat) (v : BitVec 64) : State :=
  if n = 0 then s else { s with cp := { s.cp with coreRegs := Store.set 0#64 (k * 65536 + n) v s.cp.coreRegs } }

/-- The causes of RISC-V exceptions that the model raises, as mcause codes them (PRESUMED, log entry 127). -/
abbrev excIllegal : Nat := 2
abbrev excLoadFault : Nat := 5
abbrev excStoreFault : Nat := 7

/-- A core takes a RISC-V exception into machine mode (R53, R63; PRESUMED, log entry 127): mepc, mcause and mtval, the interrupt enable and
the mode stacked in mstatus, and the PC at the base of mtvec. -/
def State.coreTrap (s : State) (k : Nat) (user : Bool) (cause : Nat) (tval : BitVec 64) : State :=
  let st := s.coreReg k 0x1300
  let st := (st &&& ~~~0x1888#64) ||| (if st.getLsbD 3 then 0x80#64 else 0) ||| (if user then 0 else 0x1800#64)
  ((((s.setCoreReg k 0x1341 (s.coreReg k 0x40)).setCoreReg k 0x1342 (BitVec.ofNat 64 cause)).setCoreReg k 0x1343 tval).setCoreReg k 0x1300 st).setCoreReg
    k 0x40 (s.coreReg k 0x1305 &&& ~~~3#64)

/-! ### Applications (R61, R64-R66) -/

/-- Whether an application runs on core `k`. -/
def State.appOn (s : State) (k : Nat) : Bool :=
  bit (s.reg pgCpctl 0x2000) 9 && decide (0 < k) && bit (s.cfg pgCpctl 0x100) k && !s.cp.halted.any (fun e => e.1 == k)

/-- An application is stopped as a whole (R66): cause, core and address are captured. -/
def State.appStopped (s : State) (cause k : Nat) (addr : Word) : State :=
  let s := (s.stopApp.setReg pgCpctl 0x2008 (word (cause + 16 * k))).setReg pgCpctl 0x200C addr
  (s.incReg pgCpctl 0x2010).raise pgCpctl 16

/-- The pages that are closed to user mode (R64). -/
def appClosed (p : Nat) : Bool := [pgBellows, pgClocks, pgRoles, pgCpctl, pgPstore, pgLocks, pgDebug].contains p

/-- Whether an offset lies within what its page implements (R53). -/
def inWindow (p o : Nat) : Bool := match pageRow p with | none => true | some r => decide (o < 0x8000) || decide (o < windowEnd r)

/-- Whether user mode may store to a register word (R64, R428): an unimplemented page asks for no right (R37). -/
def State.appMayStore (s : State) (addr : Nat) (mask data : Word) : Bool :=
  let p := (addr - 0x40000000) / 0x10000
  let o := addr % 0x10000
  bit (s.cfg pgCpctl (0x160 + 4 * (p / 32))) (p % 32) && !appClosed p && p != pgPmu && inWindow p o
    && ((pageRow p).isNone || s.mayWrite (s.cfgFld pgCpctl 0x104 1 0) p o mask data)

/-- Whether user mode may load from a register word (R64, R428): the page's bit, its RIGHT_R, no closed page; of PMU the counter values that
USER_EN opens. -/
def State.appMayLoad (s : State) (addr : Nat) : Bool :=
  let p := (addr - 0x40000000) / 0x10000
  let o := addr % 0x10000
  let n := (o - 0x2100) / 8
  bit (s.cfg pgCpctl (0x140 + 4 * (p / 32))) (p % 32) && !appClosed p && inWindow p o
    && rightOk (s.cfgFld pgCpctl 0x104 1 0) (s.reg p 0x2C).toNat
    && (p != pgPmu || (decide (0x2100 ≤ o) && decide (o < 0x2900) && bit (s.reg pgPmu (0x1010 + 4 * (n / 32))) (n % 32)))

/-- Whether user mode may load from or store to memory (R62): within the ranges of the application's configuration. -/
def State.appMem (s : State) (addr n : Nat) : Bool :=
  let within := fun (b z : Nat) => decide ((s.cfg pgCpctl b).toNat ≤ addr) && decide (addr + n ≤ (s.cfg pgCpctl b).toNat + (s.cfg pgCpctl z).toNat)
  (placeOf addr == .sramApp && within 0x108 0x10C) || (placeOf addr == .dramApp && within 0x110 0x114)

/-! ### Stores -/

/-- A write of one register word by an agent: effect, audit record, relay. -/
def State.storeWord (s : State) (a : Agent) (addr : Nat) (mask data : Word) : Status × State :=
  let (st, t) := s.writeAddr (s.ownWho a ((addr - 0x40000000) / 0x10000)) addr mask data
  let t := t.auditStore a st addr data
  (st, if st = .ok then t.mirrorWrite a.id addr mask data else t)

/-- A store of a core to the register pages, aligned: 64 bits as two words, the low address first (R52). -/
def State.corePages (s : State) (a : Agent) (addr : Nat) (z : AccSize) (d : BitVec 64) : Status × State :=
  let w := addr / 4 * 4
  match z with
  | .dword =>
    let (lo, s) := s.storeWord a addr 0xFFFFFFFF#32 (d.setWidth 32)
    if lo = .accessFault then (lo, s)
    else
      let (hi, s) := s.storeWord a (addr + 4) 0xFFFFFFFF#32 ((d >>> 32).setWidth 32)
      (if lo = .ok ∨ hi = .accessFault then hi else lo, s)
  | _ => s.storeWord a w (laneMask z addr) (laneData z addr d)

/-- Whether `n` bytes from an address on lie in one range of R62. -/
def inMap (addr n : Nat) : Bool := placeOf addr != .outside && placeOf (addr + n - 1) == placeOf addr

/-- A store of a core in machine mode (R53, R62, R63): outside the map, misaligned to a page, or beyond a page's window the core takes a
store access-fault exception. An unimplemented page ignores any store (R37). -/
def State.coreStore (s : State) (k : Fin 4) (addr : Nat) (z : AccSize) (d : BitVec 64) : Status × State :=
  let p := (addr - 0x40000000) / 0x10000
  if s.cp.halted.any (fun e => e.1 == k.val) then (.busy, s)
  else
    let (st, s) := if !inPages addr then (if inMap addr (accBytes z) then (.ok, s.putMemBytes addr (accBytes z) d.toNat) else (.accessFault, s))
      else if (pageRow p).isNone then (.ok, s)
      else if accAligned z addr then s.corePages (.core k) addr z d
      else (.accessFault, s.accessFault (.core k) addr true 0 (some p))
    (st, if st = .accessFault then s.coreTrap k.val false excStoreFault (BitVec.ofNat 64 addr) else s)

/-- An application takes an exception: the core enters the handler of the firmware, which stops the application (R63, R66). -/
def State.appTrap (s : State) (cause k exc : Nat) (addr : Word) : State := (s.coreTrap k true exc (addr.setWidth 64)).appStopped cause k addr

/-- A store of an application (R63, R64, R66): what the sandbox does not grant stops the application. -/
def State.appStore (s : State) (k : Fin 4) (addr : Nat) (z : AccSize) (d : BitVec 64) : Status × State :=
  if !s.appOn k.val then (.busy, s)
  else if inPages addr then
    let bare := (pageRow ((addr - 0x40000000) / 0x10000)).isNone
    let ok := (bare || accAligned z addr) && s.appMayStore (addr / 4 * 4) (laneMask z addr) (laneData z addr d)
      && (accBytes z != 8 || s.appMayStore (addr / 4 * 4 + 4) 0xFFFFFFFF#32 ((d >>> 32).setWidth 32))
    if !ok then (.accessFault, s.appTrap 1 k.val excStoreFault (word addr)) else if bare then (.ok, s) else s.corePages (.app k) addr z d
  else if !s.appMem addr (accBytes z) then (.accessFault, s.appTrap 1 k.val excStoreFault (word addr))
  else if !accAligned z addr then (.accessFault, s.appTrap 3 k.val 6 (word addr))
  else (.ok, s.putMemBytes addr (accBytes z) d.toNat)

/-! ### Loads (R51-R53, R62-R64, R267, R428) -/

/-- A read of one register word by a core. -/
def State.loadWord (s : State) (a : Agent) (addr : Nat) : Status × Word × State := s.readBus (s.ownWho a ((addr - 0x40000000) / 0x10000)) addr

/-- A load of a core from the register pages, aligned: 64 bits as two words, the low address first (R52); a narrow load gives the selected
bytes (R51). -/
def State.loadPages (s : State) (a : Agent) (addr : Nat) (z : AccSize) : Status × BitVec 64 × State :=
  match s.loadWord a (addr / 4 * 4) with
  | (.ok, lo, s) =>
    if z = .dword then
      match s.loadWord a (addr + 4) with
      | (.ok, hi, s) => (.ok, hi ++ lo, s)
      | (st, _, s) => (st, 0, s)
    else (.ok, BitVec.ofNat 64 (lo.toNat / 256 ^ (addr % 4) % 256 ^ accBytes z), s)
  | (st, _, s) => (st, 0, s)

/-- `n` bytes of memory as a number, the byte at the lowest address least significant (R5). -/
def State.memNat (s : State) (addr n : Nat) : Nat := (List.range n).foldl (fun v i => v + (s.memByte (addr + i)).toNat * 256 ^ i) 0

/-- An uncorrectable error found in a control processor read (R267) shows in STACK0 (R285); its ingot holds no packets and is not retired. -/
def State.dramUncorr (s : State) (addr : Nat) : State :=
  s.stackUncorr ((addr - 0x80000000) / 8192) (addr % 8192 / 64)

/-- A load of a core in machine mode (R53, R62, R63): its status, value and effect; a refused one is an exception. `uncorr` tells that its data
in the STACK0 region has an uncorrectable error (R267). -/
def State.coreLoad (s : State) (k : Fin 4) (addr : Nat) (z : AccSize) (uncorr : Bool) : Status × BitVec 64 × State :=
  let p := (addr - 0x40000000) / 0x10000
  if s.cp.halted.any (fun e => e.1 == k.val) then (.busy, 0, s)
  else
    let (st, v, s) := if inPages addr then
        (if (pageRow p).isNone then (.ok, 0, s)
         else if accAligned z addr then s.loadPages (.core k) addr z
         else (.accessFault, 0, s.accessFault (.core k) addr false 0 (some p)))
      else if !inMap addr (accBytes z) then (.accessFault, 0, s)
      else if uncorr && decide (0x80000000 ≤ addr) then (.accessFault, 0, s.dramUncorr addr)
      else (.ok, BitVec.ofNat 64 (s.memNat addr (accBytes z)), s)
    (st, v, if st = .accessFault then s.coreTrap k.val false excLoadFault (BitVec.ofNat 64 addr) else s)

/-- A load of an application (R62-R64, R66, R267, R428). -/
def State.appLoad (s : State) (k : Fin 4) (addr : Nat) (z : AccSize) (uncorr : Bool) : Status × BitVec 64 × State :=
  if !s.appOn k.val then (.busy, 0, s)
  else if inPages addr then
    let bare := (pageRow ((addr - 0x40000000) / 0x10000)).isNone
    let ok := (bare || accAligned z addr) && s.appMayLoad (addr / 4 * 4) && (accBytes z != 8 || s.appMayLoad (addr / 4 * 4 + 4))
    if !ok then (.accessFault, 0, s.appTrap 1 k.val excLoadFault (word addr)) else if bare then (.ok, 0, s) else s.loadPages (.app k) addr z
  else if !s.appMem addr (accBytes z) then (.accessFault, 0, s.appTrap 1 k.val excLoadFault (word addr))
  else if !accAligned z addr then (.accessFault, 0, s.appTrap 3 k.val 4 (word addr))
  else if uncorr && decide (0x80000000 ≤ addr) then (.accessFault, 0, (s.dramUncorr addr).appTrap 1 k.val excLoadFault (word addr))
  else (.ok, BitVec.ofNat 64 (s.memNat addr (accBytes z)), s)

/-- What a load leaves in its register: the value, with its sign where it is a signed load (RV64). -/
def extend (signed : Bool) (z : AccSize) (v : BitVec 64) : BitVec 64 :=
  if !signed then v
  else match z with
    | .byte => (v.setWidth 8).signExtend 64
    | .half => (v.setWidth 16).signExtend 64
    | .word => (v.setWidth 32).signExtend 64
    | .dword => v

/-- Whether `n` bytes from an address on lie in the control processor's STACK0 region (R62, R221, R483). -/
def inDram (a n : Nat) : Bool := decide (0x80000000 ≤ a) && decide (a + n ≤ 0xC0000000)

/-- A load or store of a core retires (R425): CP_INSTRET, and CP_DRAM_LOAD where it loads from the STACK0 region, on the channel of its ingot
(R266). -/
def State.retired (s : State) (a : Agent) (load : Option Nat) : State :=
  if !s.pmuRuns then s
  else
    let s := s.accessEvent 0x12 a none (load.getD 0)
    match load with
    | some ad => if inDram ad 1 then s.accessEvent 0x14 a (some (4, (ad - 0x80000000) / 8192 % 32)) ad else s
    | none => s

/-- A load instruction of a core: its register takes the value where no exception is taken. -/
def State.load (s : State) (l : CoreLoad) : State :=
  if s.stands then s
  else
    let (st, v, t) := if l.user then s.appLoad l.core l.addr.toNat l.size l.uncorr else s.coreLoad l.core l.addr.toNat l.size l.uncorr
    if st = .ok then (t.setCoreReg l.core.val l.rd.toNat (extend l.signed l.size v)).retired (if l.user then .app l.core else .core l.core) (some l.addr.toNat)
    else t

/-- A store that is made retires its instruction. -/
def storeRetires (a : Agent) (x : Status × State) : Status × State :=
  (x.1, if x.1 = .accessFault ∨ x.1 = .busy then x.2 else x.2.retired a none)

/-- A write of an agent at an address (R43, R51, R101): other agents than cores write whole words. BUSY tells that the agent makes no
access: its core is halted, no application runs, the debug port is not attached, or the device stands and takes nothing but a write of
Q_CTRL and what Bellows writes (R453, R454). -/
def State.store (s : State) (a : Agent) (addr : Nat) (z : AccSize) (d : BitVec 64) : Status × State :=
  if s.inReset || (s.stands && a != .bellows && addr != 0x400D1008) then (.busy, s)
  else match a with
  | .core k => storeRetires a (s.coreStore k addr z d)
  | .app k => storeRetires a (s.appStore k addr z d)
  | .debug => if s.attached then s.storeWord a addr 0xFFFFFFFF#32 (d.setWidth 32) else (.busy, s)
  | _ => s.storeWord a addr 0xFFFFFFFF#32 (d.setWidth 32)

/-- A write of a whole register word by an agent, as the rows for one register make it. -/
def State.regWrite (s : State) (a : Agent) (p o : Nat) (data : Word) : State := (s.store a (regAddr p o) .word (data.setWidth 64)).2

/-! ### Rows that are one register write -/

/-- An agent writes a register word (R43). -/
def execRegisterWrite (a : Agent) (addr : Word) (size : AccSize) (data : BitVec 64) (s : State) : Out := .next (s.store a addr.toNat size data).2

/-- A write to a bit alias (R50). -/
def execBitAliasWrite (a : Agent) (page : Fin 256) (w : Fin 128) (b : Fin 32) (data : Word) (s : State) : Out :=
  .next (s.regWrite a page.val (0x4000 + (w.val * 32 + b.val) * 4) data)

/-- A write of DRAIN_DISCARD = 1 (R44): BLK_CTRL as it stands with the bit set. -/
def execDrainDiscard (a : Agent) (page : Fin 256) (s : State) : Out := .next (s.regWrite a page.val 8 (s.reg page.val 8 ||| 2#32))

/-- A write of TOPOLOGY (R32). -/
def execTopologyWrite (a : Agent) (data : Word) (s : State) : Out := .next (s.regWrite a pgGlobal 0x100 data)

/-- A write of ENGINE_PROFILE (R32). -/
def execEngineProfileWrite (a : Agent) (data : Word) (s : State) : Out := .next (s.regWrite a pgGlobal 0x104 data)

/-- A write of a token to GLOBAL.FENCE (R60). -/
def execFenceWrite (a : Agent) (token : Word) (s : State) : Out := .next (s.regWrite a pgGlobal 0x1000 token)

/-- A write of a token to TABLES.FENCE (R223). -/
def execTablesFenceWrite (a : Agent) (token : Word) (s : State) : Out := .next (s.regWrite a pgTables 0x1000 token)

/-- Whether every access that an agent issued before it wrote a fence word has taken effect (R60, R223, R392): no relay from before it is left,
and no command that was accepted before it waits. -/
def State.fencePassed (s : State) (id p : Nat) : Bool :=
  let (relays, taken) := Store.get (0, 0) (fenceKey id p 0x1000) s.host.fenceAt
  !s.pair.relays.any (fun r => r.agent == id && decide (r.seq < relays))
    && !s.host.ordered.any (fun (d : Deferred) => d.rq.agent.id == id && decide (d.no < taken))

/-- Every earlier write of the agent has taken effect (R60, R392): on the lead, once the partner has acknowledged its relays. -/
def execFenceDone (a : Agent) (s : State) : Out :=
  if s.stands then .next s else
  .next (if s.fencePassed a.id pgGlobal then s.setFence a.id pgGlobal 0x1004 (s.fenceWord a.id pgGlobal 0x1000) else s)

/-- The agent's window commands and the lookups begun before have completed (R223, R392). -/
def execTablesFenceDone (a : Agent) (s : State) : Out :=
  if s.stands then .next s else
  .next (if !s.fencePassed a.id pgTables || s.tab.busyWin.any (fun e => e.2.id == a.id) then s
    else s.setFence a.id pgTables 0x1004 (s.fenceWord a.id pgTables 0x1000))

/-- An agent writes its own ID to a lock word (R56). -/
def execLockAcquire (a : Agent) (k : Fin 64) (s : State) : Out := .next (s.regWrite a pgLocks (0x1000 + 4 * k.val) (word a.id))

/-- An agent writes 0 to a lock word (R56). -/
def execLockRelease (a : Agent) (k : Fin 64) (s : State) : Out := .next (s.regWrite a pgLocks (0x1000 + 4 * k.val) 0)

/-- An application exception (R66): the core enters the firmware's handler. Whether an access fault or a misaligned access was a fetch, a
load or a store is not given, so mcause is free there (log entry 127). -/
def execAppFault (k : Fin 4) (cause : AppCause) (faultAddr : Word) (s : State) : Out :=
  if s.stands then .next s else
  if !s.appOn k.val then .next s else
  match cause with
  | .illegalInstr => .next (s.appTrap 2 k.val excIllegal faultAddr)
  | .accessFault => let (n, s) := s.fresh; .next (s.appTrap 1 k.val (Config.openWord n).toNat faultAddr)
  | .misaligned => let (n, s) := s.fresh; .next (s.appTrap 3 k.val (Config.openWord n).toNat faultAddr)

/-- An application exceeds APP_CPU_LIMIT, where there is a limit (R66, R96). -/
def execAppCpuLimit (k : Fin 4) (s : State) : Out :=
  if s.stands then .next s else
  .next (if s.appOn k.val && s.cfgFld pgCpctl 0x120 15 0 != 0 then s.appStopped 4 k.val 0 else s)

/-- A write to WDT_KICK (R67). -/
def execWdtKick (a : Agent) (data : Word) (s : State) : Out := .next (s.regWrite a pgCpctl 0x1004 data)

/-- A write of 1 to CORE_RESET bit 0 (R67). -/
def execCoreResetAll (a : Agent) (s : State) : Out := .next (s.regWrite a pgCpctl 0x1000 1#32)

/-- A write of 1 to CORE_RESET bit k, from 1 to 3 (R67). -/
def execCoreResetOne (a : Agent) (k : Fin 3) (s : State) : Out := .next (s.regWrite a pgCpctl 0x1000 (oneBit (k.val + 1)))

/-- A write of KEY_CTRL with COMMIT = 1 (R108). -/
def execKeyCommit (a : Agent) (role : BitVec 2) (s : State) : Out := .next (s.regWrite a pgRoles 0x1020 (word (role.toNat + 0x100)))

end Sys2Proof.Machine
end

