-- ==== Sys2Proof/Machine/LongOps.lean ====
section
/-! DEFINITION. Long operations (R87-R91, R116, R117, R221, R244, R271, R397, R403, R483): the checks of OP_START, how an operation
begins, and the work it does, unit by unit. -/
namespace Sys2Proof.Machine

/-! ### OP_START (R87, R90) -/

/-- The right that a type needs (R90): 1 operator, 2 installer. -/
def OpKind.right : OpKind → Nat
  | .epochCommit | .tableLoad | .tableFlush => 1
  | _ => 2

/-- The first failure of a list of checks. -/
def firstFault (l : List (Bool × Status)) : Option Status := (l.find? (fun c => c.1)).map Prod.snd

/-- Words of one TABLE_LOAD record (R221). -/
def recordWords (tab : Nat) : Nat := 2 + (loadWords tab).1 + (loadWords tab).2

/-- The partner of a joined pair refuses what its lead drives (R391). -/
def State.ledCheck (s : State) : Bool × Status := (s.partnerJoined, .cfgLocked)

/-- The bytes of a firmware slot of a target (R115). -/
abbrev slotBytes (target : Nat) : Nat := (slotPlace target 0).2

/-- The type's own checks of OP_START in the order of R87; the words are those of the payload, TYPE first. -/
def State.opCheck (s : State) (k : OpKind) (ws : List Word) : Option Status :=
  let n := ws.length
  let w := fun i => (ws.getD i 0)
  let v := fun i => (w i).toNat
  match k with
  | .epochCommit =>
    let mode := fld (w 1) 1 0
    firstFault [(decide (2 ≤ mode), .badOpcode), (n != (if mode = 1 then 5 else 2), .badLength),
      (mode == 1 && decide (1000000000 ≤ v 4), .badOpcode), s.ledCheck, (s.role == 2 && (s.sync == 1 || s.sync == 2), .cfgLocked),
      (!s.enabled pgEpoch, .cfgLocked), (bit (w 1) 3 && fld (w 1) 31 16 != s.pendingNo, .opState)]
  | .tableLoad =>
    firstFault [(n != 5, .badLength), (v 2 % 4 != 0 || !inDram (v 2) 4, .accessFault), (v 3 == 0 || decide (16777216 < v 3), .badLength),
      (!inDram (v 2) (4 * recordWords (fld (w 1) 3 0) * v 3), .accessFault), s.ledCheck]
  | .tableFlush => firstFault [(n != 4, .badLength), (fld (w 1) 3 0 != 0, .badOpcode), s.ledCheck]
  | .snapshotSave => firstFault [(n != 1, .badLength)]
  | .snapshotRestore =>
    firstFault [(n != 1 && n != 2, .badLength), s.ledCheck, (!bit (s.reg pgPstore 0x2000) 8, .opState)]
  | .stateSync => firstFault [(n != 1, .badLength), (s.role != 1, .cfgLocked)]
  | .memTest =>
    let st := fld (w 1) 1 0
    let first := fld (w 2) 21 0
    let count := fld (w 3) 21 0
    firstFault [(n != 4, .badLength), (count == 0, .badLength),
      (decide (3145728 < first + count) || (st == 0 && decide (first < 139264)), .accessFault), (!bit (s.reg (pgStack + st) 0x2000) 0, .cfgLocked)]
  | .fwUpdate =>
    firstFault [(n != 4, .badLength), (v 2 % 4 != 0 || !inDram (v 2) 4, .accessFault), (decide (slotBytes (fld (w 1) 0 0) < v 3), .badLength),
      (!inDram (v 2) (v 3), .accessFault)]
  | .twicelRejoin => firstFault [(n != 1, .badLength), (s.topo == 1 && s.ownDev == 1, .cfgLocked), (s.twicel != 3, .opState)]

/-! ### How an operation begins -/

/-- The next page that a snapshot saves, the last of them once all are saved (R116). -/
abbrev pageInHand (l : List Nat) (n : Nat) : BitVec 8 := BitVec.ofNat 8 (l.getD n (l.getLast?.getD 0))

/-- The pages that a snapshot holds (R116). -/
def savePages : List Nat :=
  (pageRows.flatMap (fun r => List.range' r.first (r.last + 1 - r.first))).filter
    (fun p => !([pgBellows, pgClocks, pgRoles, pgHostif, pgPstore, pgLocks, pgDebug].contains p))

/-- Where a snapshot copy lies in the store (R115). -/
def copyAt (b : Bool) : Nat := if b then 0x1600000 else 0x1200000

/-- Bytes of one page record (R116). -/
abbrev recordBytes : Nat := 7944

/-- SLOT_STATUS.SNAP_CURRENT_B. -/
abbrev State.currentB (s : State) : Bool := bit (s.reg pgPstore 0x2000) 9

/-- Word `i` of a snapshot copy's header, in the order of R6 (R116). -/
def State.copyWord (s : State) (b : Bool) (i : Nat) : Nat := beNat (s.storeBytes (copyAt b + 4 * i) 4)

/-- SAVE_SEQ of the copy being written: one more than that of the current one, or 1. -/
def State.nextSave (s : State) : Word := if bit (s.reg pgPstore 0x2000) 8 then word (s.copyWord s.currentB 3 + 1) else 1

/-- A MEM_TEST's next range (R271): its ingots leave F_G as they become free. -/
def OpRec.testRange (r : OpRec) : List Nat :=
  let first := fld (r.params.getD 1 0) 21 0 + r.progress.toNat
  (List.range (min 1024 (r.total.toNat - r.progress.toNat))).map (fun i => fld (r.params.getD 0 0) 1 0 * 2 ^ 22 + first + i)

/-- A page number that names no page in the details of a restore (R117). -/
abbrev noPage : Word := 0xFF#32

/-- A RUNNING operation starts (R89). -/
def State.opBegin (s : State) (slot : Nat) : State :=
  match s.opRec slot with
  | none => s
  | some r0 =>
    let r := { r0 with state := .running }
    match r.kind with
    | .epochCommit =>
      if !s.enabled pgEpoch then s.endOp slot .failed .cfgLocked
      else
        let s := s.setOp slot { r with phase := phWait, total := word (s.ovlCount .pending) }
        { s with tab := { s.tab with commit := some slot } }
    | .tableLoad => s.setOp slot { r with total := r.params.getD 2 0 }
    | .tableFlush => s.setOp slot { r with total := word (s.range 0).2 }
    | .snapshotSave =>
      let stamp := [word (s.nowSec / 2 ^ 32 % 65536), word s.nowSec, word s.nowSub, word s.timeValid.toNat]
      s.setOp slot ((({ r with total := word savePages.length, params := stamp, phase := pageInHand savePages 0 }.setDetail 4 s.nextSave)).setDetail 5
        (word (recordBytes * savePages.length)))
    | .snapshotRestore =>
      ({ s with ops := { s.ops with rest := none } }).setOp slot ((r.setDetail 6 noPage).setDetail 7 noPage)
    | .stateSync => s.syncBegin slot r
    | .memTest =>
      let r := { r with total := word (fld (r.params.getD 2 0) 21 0), phase := 1 }
      (s.setOp slot r).setTesting r.testRange
    | .fwUpdate => s.setOp slot { r with total := r.params.getD 2 0 }
    | .twicelRejoin => s.setOp slot r

/-- OP_START for an agent with the rights of its session (R87, R102). -/
def opStart (a : Agent) (rights session : Nat) (ws : List Word) (s : State) : Reply :=
  match OpKind.ofCode (fld (ws.getD 0 0) 7 0) with
  | none => s.answer .badOpcode
  | some k =>
    if !rightOk rights k.right then s.deny.answer .denied
    else match s.opCheck k ws with
      | some st => s.answer st
      | none => match s.freeOp with
        | none => s.answer .busy
        | some slot =>
          let (r, s) := s.opCreate slot k a.id rights session (s.locksOf a.id) (ws.drop 1)
          (.ok, [r.handle slot], if r.state == .running then s.opBegin slot else s)

/-! ### TABLE_LOAD and TABLE_FLUSH (R221, R393, R402) -/

/-- The window through which the records of a load reach another device, TW3 (log entry 24). -/
abbrev loadWin : Nat := 0x40538600

/-- The window writes that have the effect of a load record: index, key, data, then the command. -/
def loadWrites (tab : Nat) (l : List Word) : List (Nat × List Word) :=
  let (k, d) := loadWords tab
  let body := [(loadWin + 8, [l.getD 1 0]), (loadWin + 0x40, (l.drop 2).take k), (loadWin + 0x80, (l.drop (2 + k)).take d)]
  body.filter (fun e => !e.2.isEmpty) ++ [(loadWin, [word (fld (l.getD 0 0) 3 0 + 16 * tab)])]

/-- Record an applied load record for the standby, as the window writes of the same effect (R402). -/
def State.journalLoad (s : State) (tab : Nat) (l : List Word) : State :=
  if bit (s.cfg pgPair 0x100) 1 then
    (loadWrites tab l).foldl (fun s e => s.journal 2 e.2.length ([word e.1, 0xFFFFFFFF#32] ++ e.2)) s
  else s

/-- The word to which the relay of a load record goes (log entry 24). -/
abbrev loadAddr : Nat := 0x40533000

/-- A load ends FAILED at record `i` with a window RESULT, on this device or, with `dev` = 1, on the partner (R221, R393). -/
def State.failLoad (s : State) (slot i res dev : Nat) : State :=
  let s := s.updOp slot (fun r => ((r.setDetail 4 (word i)).setDetail 5 (word res)).setDetail 7 (word dev))
  s.endOp slot .failed (if res = 3 ∨ res = 6 then .tableFull else .internal)

/-- The outcome of a record with RESULT `res`: skipped under CONTINUE, or the end of the load. -/
def State.badRecord (s : State) (slot : Nat) (r : OpRec) (res dev : Nat) : Bool × State :=
  if bit (r.params.getD 3 0) 0 && (res == 1 || res == 2) then
    (true, s.setOp slot ({ r with progress := r.progress + 1 }.setDetail 6 (r.detail.getD 2 0 + 1)))
  else (false, s.failLoad slot r.progress.toNat res dev)

/-- Whether a relay of an agent to `addr` that is no write has not been acknowledged. -/
def State.asking (s : State) (addr : Nat) : Bool := s.pair.relays.any (fun x => x.addr == word addr && x.mask == some 0)

/-- Apply up to `n` records of a load (R221). On a joined lead each goes to the partner too, and the next waits for its acknowledgement (R393);
the record that only this device has applied is held as the fifth parameter, its number plus one. -/
def State.loadRun (s : State) (slot : Nat) : Nat → State
  | 0 => s
  | n + 1 =>
    match s.opRec slot with
    | none => s
    | some r =>
      let tab := r.table
      let i := r.progress.toNat
      if s.asking loadAddr then s
      else if r.params.getD 4 0 = word (i + 1) then (s.setOp slot { r with progress := r.progress + 1 }).loadRun slot n
      else
        let src := (r.params.getD 1 0).toNat + 4 * recordWords tab * i
        let l := (List.range (recordWords tab)).map (fun j => s.memWord (src + 4 * j))
        let (res, t) := s.loadRecord tab l
        if res ≠ 0 then
          let (on, t) := t.badRecord slot r res 0
          if on then t.loadRun slot n else t
        else
          let t := t.journalLoad tab l
          if t.leadJoined then
            (t.setOp slot { r with params := r.params.take 4 ++ [word (i + 1)] }).relayTold r.starter loadAddr (word slot :: word tab :: l)
          else (t.setOp slot { r with progress := r.progress + 1 }).loadRun slot n

/-- The words to which a relay of a flush goes (log entry 24). -/
abbrev flushAddr : Nat := 0x40532004

/-- The removals of a flush for a standby: DELETE commands of TW3 (R402). -/
def State.journalDeletes (s : State) (gone : List MacEnt) : State :=
  if !bit (s.cfg pgPair 0x100) 1 then s
  else gone.foldl (fun s e =>
    (s.journal 2 3 ([word (loadWin + 0x40), 0xFFFFFFFF#32] ++ macKeyWords e)).journal 2 1 [word loadWin, 0xFFFFFFFF#32, 3#32]) s

/-- Flush the banks from PROGRESS up to `upto` (R221): a stash entry goes with the last bank. -/
def State.flushRun (s : State) (slot : Nat) (r : OpRec) (upto : Nat) : State :=
  let banks := (s.range 0).2
  let mine := fun (i : Nat) => decide (r.progress.toNat ≤ min (i / 8192) (banks - 1)) && decide (min (i / 8192) (banks - 1) < upto)
  let t := s.flushMac (r.params.getD 1 0) (r.params.getD 2 0)
  let keep := fun (e : Nat × MacEnt) => !mine e.1 || t.tab.mac.contains e
  let gone := s.tab.mac.filter (fun e => !keep e)
  let s := if s.leadJoined && r.progress == 0 then
      s.relayTold r.starter flushAddr [r.params.getD 1 0, r.params.getD 2 0] else s
  ((s.setMac (s.tab.mac.filter keep)).journalDeletes (gone.map Prod.snd)).setOp slot { r with progress := word upto }

/-! ### SNAPSHOT_SAVE (R116) -/

/-- A live word as a snapshot holds it: WO, W1C and W1S bits as 0. -/
def State.savedLive (s : State) (id p o : Nat) : Word :=
  match pageRow p with
  | none => 0
  | some pr => match regRow pr.kind o with
    | none => 0
    | some r => if r.wo then 0 else s.regView id p o &&& ~~~(word r.w1c ||| word r.w1s)

/-- The words of a page record (R116). -/
def State.pageRecord (s : State) (id p : Nat) : List Word :=
  let layout := match pageRow p with | some r => pageId r p % 256 | none => 0
  [word (p + layout * 256), s.cfgSignature p] ++ (List.range 960).map (fun i => s.reg p (0x100 + 4 * i))
    ++ (List.range 1024).map (fun i => s.savedLive id p (0x1000 + 4 * i))

/-- Save the pages from PROGRESS on, `n` of them, into the copy that is not current; PHASE names the page in hand. -/
def State.saveRun (s : State) (slot : Nat) : Nat → State
  | 0 => s
  | n + 1 =>
    match s.opRec slot with
    | none => s
    | some r =>
      let i := r.progress.toNat
      match savePages[i]? with
      | none => s
      | some p =>
        let at_ := copyAt (!s.currentB) + 64 + recordBytes * i
        let t := s.putStoreBytes at_ ((s.pageRecord r.starter p).flatMap wordBytes)
        let t := if i = 0 then t.noteWear (if s.currentB then 10 else 11) else t
        (t.setOp slot { r with progress := r.progress + 1, phase := pageInHand savePages (i + 1) }).saveRun slot n

/-- The header of the copy (R116). -/
def State.copyHeader (s : State) (r : OpRec) (b : Bool) : List Byte :=
  let len := recordBytes * savePages.length
  let w := fun i => (r.params.getD i 0).toNat
  [0x534E5031, 1, (s.reg 0 0x2008).toNat, (r.detail.getD 0 0).toNat].flatMap (beBytes 4) ++ beBytes 6 (w 0 * 2 ^ 32 + w 1) ++ beBytes 4 (w 2)
    ++ [BitVec.ofNat 8 (w 3), 0] ++ beBytes 4 savePages.length ++ beBytes 4 len
    ++ beBytes 4 (crc32 (s.storeBytes (copyAt b + 64) len)).toNat ++ List.replicate 24 0

/-- The save ends (R116): the header is written; a copy that reads back as written becomes valid and current. -/
def State.saveEnd (s : State) (slot : Nat) (r : OpRec) (good : Bool) : State :=
  let b := !s.currentB
  let s := s.putStoreBytes (copyAt b) (s.copyHeader r b)
  if good then (s.updReg pgPstore 0x2000 (fun w => putBit (putBit w 8 true) 9 b)).endOp slot .done .ok
  else s.endOp slot .failed .internal

/-! ### SNAPSHOT_RESTORE (R117) -/

/-- The copy that a restore reads. -/
def State.restoreCopy (s : State) (r : OpRec) : Bool := s.currentB != bit (r.params.getD 0 0) 0

/-- What step 1 of R117 finds wrong with a copy. -/
def State.copyCheck (s : State) (b : Bool) : Option Status :=
  let len := s.copyWord b 8
  if s.copyWord b 0 != 0x534E5031 || s.copyWord b 1 != 1 || len != recordBytes * s.copyWord b 7 || decide (0x400000 - 64 < len)
      || s.copyWord b 9 != (crc32 (s.storeBytes (copyAt b + 64) len)).toNat then some .internal
  else if s.copyWord b 2 != (s.reg 0 0x2008).toNat then some .cfgLocked else none

/-- Word `j` of record `i` of a copy. -/
def State.recordWord (s : State) (b : Bool) (i j : Nat) : Word := word (beNat (s.storeBytes (copyAt b + 64 + recordBytes * i + 4 * j) 4))

/-- One word of a restore (R117): a write of its starter; a field that needs a right the starter lacks keeps its value. -/
def State.restoreWord (s : State) (a : Agent) (rights p o : Nat) (v : Word) : Status × State :=
  let v := if p = pgCpctl ∧ o = 0x1008 ∧ rights &&& 4 = 0 then putBit v 16 (bit (s.reg p o) 16) else v
  let (st, t) := s.busWrite ⟨a, rights, .restore, none⟩ (regAddr p o) 0xFFFFFFFF#32 v
  (st, if st = .ok then t.mirrorWrite a.id (regAddr p o) 0xFFFFFFFF#32 v else t)

/-- Whether a restore writes a word: one that has writable bits and is not write-only. -/
def restores (k : Kind) (o : Nat) : Bool := match regRow k o with | some r => r.rw != 0 && !r.wo | none => false

/-- Restore one page from a record: configuration words, then live words; the audit record of the writes counts the words of the
configuration region that took effect (R112). -/
def State.restorePage (s : State) (a : Agent) (r : OpRec) (b : Bool) (i : Nat) (pr : PageRow) (p : Nat) : State :=
  let offs := ((List.range 960).map (fun j => (0x100 + 4 * j, 2 + j)) ++ (List.range 1024).map (fun j => (0x1000 + 4 * j, 962 + j))).filter
    (fun (e : Nat × Nat) => restores pr.kind e.1)
  let (t, lost) := offs.foldl (fun (acc : State × Nat) (e : Nat × Nat) =>
    let (st, t) := acc.1.restoreWord a r.rights.toNat p e.1 (s.recordWord b i e.2)
    (t, if st ≠ .ok ∧ e.1 < 0x1000 then acc.2 + 1 else acc.2)) (s, 0)
  if s.audited (regAddr p 0x100) then
    t.audit (t.auditRec a.id r.rights.toNat r.session.toNat 0x04 0 p (word (regAddr p 0x100)) (s.recordWord b i 2) (960 - lost))
  else t

/-- The agent of an owner ID. -/
def ownerAgent (n : Nat) : Agent :=
  if n = 1 then .i3c else if n = 2 then .mgmt else if n = 8 then .debug else if n = 9 then .bellows else .core (Fin.ofNat 4 n)

/-- The next page of a restore is taken in hand (R117): checked and written, to be compared after the next scrub pass. -/
def State.restoreNext (s : State) (slot : Nat) (r : OpRec) : State :=
  let b := s.restoreCopy r
  let i := r.progress.toNat
  let w0 := s.recordWord b i 0
  let p := fld w0 7 0
  let r := { r with phase := BitVec.ofNat 8 p }
  if r.total.toNat ≤ i ∨ s.ops.rest.isSome then s
  else match pageRow p with
    | some pr =>
      if pageId pr p % 256 ≠ fld w0 15 8 ∨ s.blk p ≠ 0 then (s.setOp slot (r.setDetail 7 (word p))).endOp slot .failed .cfgLocked
      else
        let t := (s.restorePage (ownerAgent r.starter) r b i pr p).setOp slot r
        { t with ops := { t.ops with rest := some ⟨slot, p, s.recordWord b i 1, t.pair.relayNext, false⟩ } }
    | none => (s.setOp slot (r.setDetail 7 (word p))).endOp slot .failed .cfgLocked

/-- A restored page is complete (R117): it has been compared and the partner has acknowledged the relays of its writes. The operation is DONE
after the last page; else it takes the next one in hand, unless it is suspended. -/
def State.restoreSettle (s : State) : State :=
  match s.ops.rest with
  | none => s
  | some x =>
    match s.opRec x.slot with
    | none => s
    | some r =>
      if r.kind != .snapshotRestore || r.state.terminal then { s with ops := { s.ops with rest := none } }
      else if !x.compared || s.pair.relays.any (fun q => q.agent == r.starter && decide (q.seq < x.relays)) then s
      else
        let r := { r with progress := r.progress + 1 }.setDetail 6 (word x.page)
        let t := { s with ops := { s.ops with rest := none } }.setOp x.slot r
        if r.progress = r.total then t.endOp x.slot .done .ok
        else if r.state == .running then t.restoreNext x.slot r else t

/-- A scrub pass has given the page in hand its new signature, which is compared with the saved one (R117). -/
def State.restoreCompare (s : State) : State :=
  match s.ops.rest with
  | none => s
  | some x =>
    let differs := s.cfgSignature x.page != x.saved
    let t := if x.compared || !differs then s
      else s.updOp x.slot (fun r => (r.setDetail 5 (r.detail.getD 1 0 + 1)).setDetail 7 (if r.detail.getD 3 0 = noPage then word x.page else r.detail.getD 3 0))
    ({ t with ops := { t.ops with rest := some { x with compared := true } } }).restoreSettle

/-- A scrub pass ends (R41, R47): `upsets` are the words, by address less 0x4000_0000, and the bits in them that an upset has struck since the
last pass. A restore goes on with it (R117). -/
def execScrubPass (upsets : List (Word × Fin 32)) (s : State) : Out :=
  if s.stands then .next s else
  .next ((upsets.foldl (fun (s : State) (u : Word × Fin 32) => s.strike (u.1.toNat / 4 * 4) u.2.val) s).scrubEnd).restoreCompare

/-- Step 1 of a restore, once: TOTAL and SAVE_SEQ of the copy, or its failure. -/
def State.restoreOpen (s : State) (slot : Nat) (r : OpRec) : State :=
  let b := s.restoreCopy r
  if r.total ≠ 0 then s
  else match s.copyCheck b with
    | some st => s.endOp slot .failed st
    | none => s.setOp slot ({ r with total := word (s.copyWord b 7) }.setDetail 4 (word (s.copyWord b 3)))

/-! ### MEM_TEST (R271) -/

/-- The outcome of one ingot, named as in `retired`: skipped while in use, failing, or sound. -/
def State.testIngot (s : State) (slot : Nat) (bad : Bool) (place : Nat) : State :=
  let put := fun (s : State) (f : OpRec → OpRec) => s.updOp slot (fun r => f { r with progress := r.progress + 1 })
  if s.usedPlaces.contains place then put s (fun r => r.setDetail 5 (r.detail.getD 1 0 + 1))
  else if bad then
    put (s.retireIngot place) (fun r =>
      let r := if r.detail.getD 0 0 = 0 then r.setDetail 6 (word (place % 2 ^ 22)) else r
      r.setDetail 4 (r.detail.getD 0 0 + 1))
  else if s.buf.retired.contains place then
    let s := { s with buf := { s.buf with retired := s.buf.retired.filter (fun k => k != place) } }
    put ((s.updReg (pgStack + place / 2 ^ 22) 0x2010 (· - 1)).updReg pgIngot 0x2004 (· - 1)) id
  else put s id

/-- Test the range in hand, once every ingot of it is free or 10 ms have passed; `found` are the stack-local numbers that fail. The next range
is then taken. -/
def State.testRun (s : State) (slot : Nat) (found : List Word) : State :=
  if s.testWaits then s
  else
    let l := s.buf.testing
    let s := l.foldl (fun s k => s.testIngot slot (found.contains (word (k % 2 ^ 22))) k) { s with buf := { s.buf with testing := [] } }
    match s.opRec slot with
    | some r => if r.progress = r.total then s.reserveEval.endOp slot .done .ok else s.setTesting r.testRange
    | none => s

/-! ### FW_UPDATE (R483) -/

/-- The target of an update and its inactive slot. -/
def State.updateSlot (s : State) (r : OpRec) : Nat × Nat :=
  let t := fld (r.params.getD 0 0) 0 0
  (t, 1 - s.activeSlot t)

/-- The image of an update in the STACK0 region. -/
def State.updateImage (s : State) (r : OpRec) : List Byte :=
  (List.range (r.params.getD 2 0).toNat).map (fun i => s.memByte ((r.params.getD 1 0).toNat + i))

/-- One phase of an update: VERIFY, WRITE, CHECK, MARK. -/
def State.updatePhase (s : State) (slot : Nat) (r : OpRec) (good : Bool) : State :=
  let (t, k) := s.updateSlot r
  let f := s.updateImage r
  if r.phase = 0 then
    if imageOk t (slotBytes t) f then s.setOp slot ({ r with phase := 1 }.setDetail 4 (word (headerWord f 3)))
    else s.endOp slot .failed .denied
  else if r.phase = 1 then
    let s := if bit (s.reg pgPstore 0x2000) (validBit t k) then (s.clrReg pgPstore 0x2000 (oneBit (validBit t k))).auditSlot r.starter t k else s
    (((s.putStoreBytes (slotPlace t k).1 f).noteWear (1 + 2 * t + k))).setOp slot { r with phase := 2, progress := r.total }
  else if r.phase = 2 then
    if good then s.setOp slot { r with phase := 3 } else s.endOp slot .failed .internal
  else
    let act := bit (r.params.getD 0 0) 1
    let s := s.updReg pgPstore 0x2000 (fun w =>
      let w := putBit w (validBit t k) true
      if act then putBit w (activeBit t) (k == 1) else w)
    (s.auditSlot r.starter t k).endOp slot .done .ok

/-- Whether an operation's next work writes the store, which takes no write while PSTORE is SAFE (R38): the operation then ends FAILED with
CFG_LOCKED (log entry 124). -/
def State.storeShut (s : State) (r : OpRec) : Bool :=
  s.safe pgPstore && (r.kind == .snapshotSave || (r.kind == .fwUpdate && (r.phase == 1 || r.phase == 3)))

/-- Up to `n` phases of an update. -/
def State.updateRun (s : State) (slot : Nat) (good : Bool) : Nat → State
  | 0 => s
  | n + 1 => match s.opRec slot with
    | some r =>
      if r.state != .running then s
      else if s.storeShut r then s.endOp slot .failed .cfgLocked else (s.updatePhase slot r good).updateRun slot good n
    | none => s

/-! ### TWICEL_REJOIN on the lead (R397, R398) -/

/-- The words to which relays of a rejoin go: its questions, and the entries that it merges or compares (log entry 24). -/
abbrev rejoinAddr : Nat := 0x400E2000
abbrev entryAddr : Nat := 0x40532000
abbrev compareAddr : Nat := 0x40534000

/-- The learn time of an entry in ns (R394). -/
def State.learnTime (s : State) (e : MacEnt) : Nat := s.nowNs - (s.tick - e.seen.toNat) * 62500000

/-- Send dynamic entries that a test picks as ADD (R395, R398). -/
def State.sendEntries (s : State) (sel : MacEnt → Bool) : State :=
  let l := (s.tab.mac.map Prod.snd).filter (fun e => !e.static && sel e)
  let out := l.map (fun e => (1, (s.learnTime e, (⟨e.mac, e.vid, e.dest.toNat⟩ : LearnReq))))
  { s with tab := { s.tab with learnOut := s.tab.learnOut ++ out } }

/-- What a domain clock will hold `ns` nanoseconds from now, in 2^-64 ns. -/
def State.domAt (s : State) (d ns : Nat) : Nat :=
  let f := if d = 0 then s.time.fA else s.time.fB
  clkAdd (s.domClk d) ((ns : Int) * 2 ^ 64 + (ns : Int) * 2 ^ 64 * f / 2 ^ 40)

/-- The partner is asked question `k` of a rejoin (R397, log entry 24): 0 whether it is SPLIT, 1 whether its servo is LOCKED, 2 whether no commit
and no retiring epoch is left, 3 to begin the merge, 4 to end it, 5 for the differing keys and its overlay slots. -/
def State.rejoinAsk (s : State) (ag : Nat) (k : Word) (l : List Word) : State :=
  { s with pair := { s.pair with told := Store.erase k.toNat s.pair.told } }.relayTold ag rejoinAddr (k :: 0 :: l)

/-- The words of the partner's answer OK to a question, if it has given one. -/
def State.rejoinTold (s : State) (k : Nat) : Option (List Word) :=
  match s.pair.told.find? (fun e => e.1 == k) with
  | some (_, 0, l) => some l
  | _ => none

/-- Phase TIME (R397): the frequencies at once, the values of the domains at T, 100 µs from now. -/
def State.rejoinTime (s : State) (ag : Nat) : State :=
  [0, 1].foldl (fun (t : State) d =>
    let b := regAddr pgTime (0x1040 + 0x20 * d)
    let v := s.domAt d 100000 / 2 ^ 64
    let t := t.relayWords ag false false false b (some 0xFFFFFFFF#32) (s.reg pgTime (0x1040 + 0x20 * d) :: dueWords s.nowNs)
    let t := t.relayWords ag false false false (b + 12) none (dueWords v)
    t.relayWords ag false false false (b + 0x18) (some 0xFFFFFFFF#32) (2#32 :: dueWords (s.nowNs + 100000))) s

/-- A key of a table as five words. -/
def keyWords (k : Nat) : List Word := (List.range 5).map (fun i => word (k / 2 ^ (32 * (4 - i))))

/-- Every versioned entry as its pending view reads (R237, R397). -/
def State.rejoinEntries (s : State) : List (Nat × (Nat × List Word)) :=
  [1, 2, 3, 4, 5].flatMap (fun tab => (s.verAll .pending tab).map (fun e => (tab, e)))

/-- Send every versioned entry, to be compared or merged. -/
def State.sendVersioned (s : State) (ag addr : Nat) : State :=
  s.rejoinEntries.foldl (fun (t : State) e => t.relayTold ag addr (word e.1 :: keyWords e.2.1 ++ e.2.2)) s

/-- The pages whose signatures a rejoin compares, in the order of their bits (R397). -/
def rejoinPages : List Nat := [pgGlobal, pgParse, pgClassify, pgEpoch, pgTables, pgLearn, pgMcast, pgPolice]

/-- The windows of the mirror set: page, bank select word, banks, first offset, words (R389). -/
def mirrorWindows : List (Nat × Option Nat × Nat × Nat × Nat) :=
  [(pgParse, none, 1, 0x8000, 3888), (pgTables, none, 1, 0xC000, 4096), (pgPolice, some 0x1000, 1024, 0x8000, 8192),
   (pgMcast, some 0x1004, 256, 0x8000, 4096), (pgMcast, some 0x1000, 16, 0xC000, 4096)]

/-- Copy the mirror set's windows to the partner, bank by bank. -/
def State.copyWindows (s : State) (ag : Nat) : State :=
  mirrorWindows.foldl (fun (t : State) e =>
    match pageKind e.1 with
    | none => t
    | some k => (List.range e.2.2.1).foldl (fun (t : State) b =>
      let v := match e.2.1 with | some sel => s.setReg e.1 sel (word b) | none => s
      let t := match e.2.1 with | some sel => t.relayWords ag false false false (regAddr e.1 sel) none [word b] | none => t
      t.relayWords ag false false false (regAddr e.1 e.2.2.2.1) none
        ((List.range e.2.2.2.2).map (fun i => v.winView k e.1 (e.2.2.2.1 + 4 * i)))) t) s

/-- Copy the mirror set's live words to the partner. -/
def State.copyLive (s : State) (ag : Nat) : State :=
  mirrorPages.foldl (fun (t : State) p =>
    match pageKind p with
    | none => t
    | some k => (List.range 1024).foldl (fun (t : State) i =>
      let o := 0x1000 + 4 * i
      if restores k o && mirrorWord p o then t.relayWords ag false false false (regAddr p o) none [s.savedLive 4 p o] else t) t) s

/-- The dynamic MAC entries, which a merge exchanges (R398). -/
def State.learnedCount (s : State) : Nat := (s.tab.mac.filter (fun e => !e.2.static)).length

/-- Phase MERGE begins (R397, R398): the pair is REJOINING; entries, static MAC entries, windows, live words and learned entries are sent, and then
the signatures, with which the partner ends its merge. -/
def State.rejoinMerge (s : State) (slot : Nat) (r : OpRec) (differing : Word) : State :=
  let ag := r.starter
  let t := ((s.setTwicel 4).rejoinAsk ag 3 []).sendVersioned ag entryAddr
  let t := (s.tab.mac.map Prod.snd).foldl (fun (t : State) e =>
    if e.static then t.relayTold ag entryAddr (0#32 :: macKeyWords e ++ [0, 0] ++ macData e) else t) t
  let t := ((t.copyWindows ag).copyLive ag).sendEntries (fun _ => true)
  let t := t.rejoinAsk ag 4 (rejoinPages.map s.cfgSignature)
  t.setOp slot ((({ r with phase := 3, progress := 0, total := word s.rejoinEntries.length, params := [] }).setDetail 4 differing).setDetail 5 (word s.learnedCount))

/-- The rejoin is DONE (R397): the pages whose signatures differ set CFG_DIVERGED. -/
def State.rejoinDone (s : State) (slot : Nat) (r : OpRec) (mask : Word) : State :=
  let s := s.setOp slot ((r.setDetail 5 (r.detail.getD 1 0 + ((s.rejoinTold 3).getD []).getD 0 0)).setDetail 6 mask)
  let s := if mask = 0 then s else s.orReg pgPair 0x2000 0x1000#32
  ((s.setTwicel 2).incReg pgPair 0x2058).endOp slot .done .ok

/-- The rejoin goes on (R397), once no relay is outstanding: each phase waits for the partner's answer, and its work for their acknowledgement. -/
def State.rejoinRun (s : State) (slot : Nat) (r : OpRec) : State :=
  let ag := r.starter
  if !s.pair.relays.isEmpty then s
  else if r.phase = 3 then
    match s.rejoinTold 4 with
    | some l => s.rejoinDone slot r (l.getD 0 0)
    | none => s
  else if !s.jointUp || s.twicel != 3 then s.setOp slot { r with phase := 0 }
  else if r.phase = 0 then
    if (s.rejoinTold 0).isSome then (s.setOp slot { r with phase := 1, params := [] }).rejoinAsk ag 1 [] else s.rejoinAsk ag 0 []
  else if r.phase = 1 then
    if (s.rejoinTold 1).isSome then ((s.setOp slot { r with phase := 2 }).rejoinTime ag).rejoinAsk ag 2 [] else s.rejoinAsk ag 1 []
  else if r.params.isEmpty then
    if (s.rejoinTold 2).isSome then
      ((s.setOp slot { r with progress := 0, total := word s.rejoinEntries.length, params := [1] }).sendVersioned ag compareAddr).rejoinAsk ag 5 []
    else s.rejoinAsk ag 2 []
  else match s.rejoinTold 5 with
    | none => s
    | some l =>
      if (l.getD 1 0).toNat < (l.getD 0 0).toNat then (s.setOp slot (r.setDetail 4 (l.getD 0 0))).endOp slot .failed .tableFull
      else s.rejoinMerge slot r (l.getD 0 0)

/-! ### The work of an operation -/

/-- An operation whose relays the partner has acknowledged is DONE (R117, R393). -/
def State.sharedDone (s : State) (slot : Nat) (r : OpRec) : State :=
  if s.leadJoined && (s.lastRelay r.starter).isSome then s else s.endOp slot .done .ok

/-- Up to `n` units of a load: batches of 256 records. -/
def State.loadWork (s : State) (slot : Nat) (r : OpRec) (n : Nat) : State :=
  let t := s.loadRun slot (min (256 * n) (r.total.toNat - r.progress.toNat))
  match t.opRec slot with
  | some r => if r.state == .running && r.progress == r.total then t.sharedDone slot r else t
  | none => t

/-- Up to `n` pages of a save. -/
def State.saveWork (s : State) (slot n : Nat) (good : Bool) : State :=
  let t := s.saveRun slot n
  match t.opRec slot with
  | some r => if r.progress = r.total then t.saveEnd slot r good else t
  | none => t

/-- A restore begins with its first page, or goes on (R117): scrub passes take it from page to page. A copy without pages is DONE. -/
def State.restoreWork (s : State) (slot : Nat) (r : OpRec) : State :=
  let s := s.restoreOpen slot r
  match s.opRec slot with
  | some r =>
    if r.state != .running then s
    else if r.total = 0 then s.endOp slot .done .ok
    else
      let t := s.restoreSettle
      match t.opRec slot with
      | some r => if r.state == .running then t.restoreNext slot r else t
      | none => t
  | none => s

/-- Up to `n` ranges of a test. -/
def State.testWork (s : State) (slot n : Nat) (found : List Word) : State :=
  (List.range n).foldl (fun s _ =>
    match s.opRec slot with | some r => if r.state == .running then s.testRun slot found else s | none => s) s

/-- Up to `n` units of work of a running operation: batches of a load, banks of a flush, pages, ranges, phases of an update. A commit and a
synchronisation go on by events of their own; a restore by scrub passes; a rejoin does what it can. -/
def State.opWork (s : State) (slot n : Nat) (good : Bool) (found : List Word) : State :=
  match s.opRec slot with
  | none => s
  | some r =>
    if r.state != .running then s
    else if s.storeShut r then s.endOp slot .failed .cfgLocked
    else match r.kind with
      | .epochCommit | .stateSync => s
      | .tableLoad => s.loadWork slot r n
      | .tableFlush =>
        if !s.working pgTables then s else
        let upto := min (r.progress.toNat + n) r.total.toNat
        let t := s.flushRun slot r upto
        if upto = r.total.toNat then (match t.opRec slot with | some r => t.sharedDone slot r | none => t) else t
      | .snapshotSave => s.saveWork slot n good
      | .snapshotRestore => s.restoreWork slot r
      | .memTest => s.testWork slot n found
      | .fwUpdate => s.updateRun slot good n
      | .twicelRejoin => s.rejoinRun slot r

/-- The partner has applied a load record, or not (R393): the record is processed on both devices, and the load goes on. -/
def State.loadAnswered (s : State) (slot res : Nat) : State :=
  match s.opRec slot with
  | none => s
  | some r0 =>
    if r0.kind != .tableLoad || r0.state.terminal then s
    else
      let r := { r0 with params := r0.params.take 4 }
      if res = 0 then s.setOp slot { r with progress := r.progress + 1 } else (s.badRecord slot r res 1).2

/-- An entry of a rejoin has been compared or merged (R397). -/
def State.entryAnswered (s : State) : State :=
  match s.rejoinSlot with
  | some k => s.updOp k (fun r => { r with progress := r.progress + 1 })
  | none => s

/-- The partner has answered (R393, R397): what waited for it goes on. -/
def State.opAnswered (s : State) (addr : Nat) (l : List Word) (status : Nat) (data : List Word) : State :=
  let k := (l.getD 0 0).toNat
  if addr = loadAddr then
    let s := s.loadAnswered k status
    s.opWork k 65536 true []
  else if addr = entryAddr ∨ addr = compareAddr then (if k = 0 then s else s.entryAnswered)
  else if addr = rejoinAddr then
    let s := { s with pair := { s.pair with told := Store.insert k (status, data) s.pair.told } }
    match s.rejoinSlot with
    | some slot => if status = 0 then s.opWork slot 1 true [] else s
    | none => s
  else if addr = flushAddr then
    match s.ops.recs.find? (fun e => e.2.kind == .tableFlush && e.2.state == .running && e.2.progress == e.2.total) with
    | some (slot, r) => s.sharedDone slot r
    | none => s
  else s

/-! ### The rows of R89 and R91 that no command makes -/

/-- A QUEUED operation starts once no earlier conflicting one is left (R89). -/
def execOpQueuedStart (slot : Fin 16) (s : State) : Out :=
  if s.stands then .next s else
  match s.opRec slot.val with
  | some r => if r.state == .queued && !s.opBlocked r then .next (s.opBegin slot.val) else .next s
  | none => .next s

/-- A running operation does the rest of its work (R89): `good` tells whether what was written reads back, `found` what the work found. -/
def execOpComplete (slot : Fin 16) (good : Bool) (found : List Word) (s : State) : Out :=
  if s.stands then .next s else
  .next (s.opWork slot.val 16777216 good found)

/-- A terminal record is freed 60 s after its end (R91). -/
def execOpRecordExpire (slot : Fin 16) (s : State) : Out :=
  if s.stands then .next s else
  match s.opRec slot.val with
  | some r => if r.state.terminal then .next { s with ops := { s.ops with recs := Store.erase slot.val s.ops.recs } } else .next s
  | none => .next s

end Sys2Proof.Machine
end

