-- ==== Sys2Proof/Machine/Commands.lean ====
section
/-! DEFINITION. The command path (R73-R91, R387, R388, R445, R454): the checks of a request, what each opcode does, and how a response is
given at once or once relays have been acknowledged. -/
namespace Sys2Proof.Machine

/-! ### Opcodes (R77, R445) -/

abbrev opREAD : Nat := 0x01
abbrev opWRITE : Nat := 0x02
abbrev opMASKED : Nat := 0x03
abbrev opFENCE : Nat := 0x04
abbrev opCHALLENGE : Nat := 0x08
abbrev opRESPONSE : Nat := 0x09
abbrev opLOGOUT : Nat := 0x0A
abbrev opSTART : Nat := 0x10
abbrev opSUSPEND : Nat := 0x11
abbrev opRESUME : Nat := 0x12
abbrev opCANCEL : Nat := 0x13
abbrev opSTATUS : Nat := 0x14
abbrev opLOG : Nat := 0x30
abbrev opECHO : Nat := 0x3F
abbrev opHALT : Nat := 0x40
abbrev opRUN : Nat := 0x41
abbrev opSTEP : Nat := 0x42
abbrev opREGREAD : Nat := 0x43
abbrev opREGWRITE : Nat := 0x44
abbrev opTRIGGER : Nat := 0x45
abbrev opQUENCH : Nat := 0x48
abbrev opQINFO : Nat := 0x49
abbrev opQREAD : Nat := 0x4A
abbrev opTHAW : Nat := 0x4B
abbrev opDETACH : Nat := 0x4C

/-- The opcodes of every command path (R77). -/
def hostOps : List Nat :=
  [opREAD, opWRITE, opMASKED, opFENCE, opCHALLENGE, opRESPONSE, opLOGOUT, opSTART, opSUSPEND, opRESUME, opCANCEL, opSTATUS, opLOG, opECHO]

/-- The opcodes of the debug port alone (R445). -/
def debugOps : List Nat := [opHALT, opRUN, opSTEP, opREGREAD, opREGWRITE, opTRIGGER, opQUENCH, opQINFO, opQREAD, opTHAW, opDETACH]

/-- The LENGTH that an opcode allows (R77, R103, R104, R114, R445). -/
def lengthOk (op n : Nat) : Bool :=
  if op = opREAD then n == 2
  else if op = opWRITE then decide (2 ≤ n)
  else if op = opMASKED then n == 3
  else if op = opRESPONSE then n == 9
  else if op = opSTART then decide (1 ≤ n)
  else if op = opECHO then decide (n ≤ 256)
  else if op = opLOG then n == 2
  else if [opCHALLENGE, opSUSPEND, opRESUME, opCANCEL, opSTATUS, opHALT, opRUN, opSTEP].contains op then n == 1
  else if op = opREGREAD ∨ op = opQREAD then n == 3
  else if op = opREGWRITE then decide (4 ≤ n) && decide (n ≤ 130) && n % 2 == 0
  else if op = opTRIGGER then n == 4
  else n == 0

/-- CTL of READ and WRITE (R77). -/
def ctlCount (w : Word) : Nat := fld w 15 0

/-- The COUNT that READ and WRITE allow (R77): 1 to 256, and of a WRITE the number of its data words. -/
def countOk (op n : Nat) (ctl : Word) : Bool :=
  if op = opREAD ∨ op = opWRITE then
    decide (1 ≤ ctlCount ctl) && decide (ctlCount ctl ≤ 256) && (op == opREAD || n == 2 + ctlCount ctl)
  else true

/-- What the environment decides of a command: the units of work that an operation had done when it arrived, where a stepped core stands
and what its instruction wrote, how long a Quench lasted. -/
structure CmdEnv where
  units : Nat
  pc : BitVec 64
  effects : List (BitVec 16 × BitVec 64)
  us : Nat
  bad : Option Nat
  deriving DecidableEq, Repr

/-- No contribution of the environment. -/
abbrev CmdEnv.none : CmdEnv := ⟨0, 0, [], 0, Option.none⟩

/-! ### What a command may address -/

/-- Addresses that a READ or WRITE names: `n` of them, in steps of 4 or all the same (R78). -/
def cmdAddrs (addr n : Nat) (fixed : Bool) : List Nat := (List.range n).map (fun i => (addr + if fixed then 0 else 4 * i) % 2 ^ 32)

/-- A word in the range of a joined partner (R387), or in that of aggregate counters (R388). -/
def partnerAddr (addr : Nat) : Bool := decide (0x41000000 ≤ addr) && decide (addr < 0x42000000)
def sumAddr (addr : Nat) : Bool := decide (0x42000000 ≤ addr) && decide (addr < 0x43000000)

/-- What refuses a word of the partner's range on this device (R387). -/
def State.partnerRefusal (s : State) (addr : Nat) : Option Status :=
  let p := (addr - 0x41000000) / 0x10000
  if s.topo != 1 || s.ownDev != 0 then some .accessFault
  else if s.twicel != 2 then some .partnerDown
  else if p == pgLocks || p == pgDebug then some .accessFault else none

/-- What refuses a word of the aggregate range (R388). -/
def State.sumRefusal (s : State) (addr : Nat) (wr : Bool) : Option Status :=
  let o := addr - 0x420C8000
  if wr || addr < 0x420C8000 || 0x8000 ≤ o || addr % 4 != 0 || 4 ≤ o / 4 % 8 || s.topo != 1 || s.ownDev != 0 then some .accessFault
  else if s.twicel != 2 then some .partnerDown else none

/-- Record a refusal of a word that addresses no page of this device (R78). -/
def State.refused (s : State) (a : Agent) (addr : Nat) (wr : Bool) (st : Status) : State :=
  if st = .accessFault then s.accessFault a addr wr 2 none else s

/-- Whether the lead lets a partner access pass by its own page of the same number (R387): a read needs a right in the PSTORE window
only, a write as on the lead itself. -/
def State.leadAllows (s : State) (rights addr : Nat) (write : Option (Word × Word)) : Bool :=
  let p := (addr - 0x41000000) / 0x10000
  let o := addr % 0x10000
  match pageRow p with
  | none => true
  | some _ =>
    if p = pgPstore ∧ 0x8000 ≤ o then
      match s.storeWindow with
      | none => true
      | some b =>
        let g := storeRegion (b + (o - 0x8000))
        (match write with | none => rightOk rights (readRight g) | some _ => g == .calibration && rightOk rights 4)
    else match write with | none => true | some (m, d) => s.mayWrite rights p o m d

/-! ### READ (R78, R387, R388, R454) -/

/-- The outcome of a READ or WRITE so far: the first status other than OK, the parts of the response, words of the lead that took effect. -/
structure Work where
  st : Status
  parts : List RespPart
  done : Nat
  deriving DecidableEq, Repr

/-- Add a word to the parts. -/
def Work.word (w : Work) (v : Word) : Work :=
  match w.parts.reverse with
  | .words l :: rest => { w with parts := rest.reverse ++ [.words (l ++ [v])] }
  | _ => { w with parts := w.parts ++ [.words [v]] }

/-- The key under which an agent's latch of an aggregate is held (R388). -/
abbrev sumKey (id : Nat) : Nat := 0x20000 + id

/-- A counter pair of this device that a STATS window offset shows. -/
def State.windowPair (s : State) (o : Nat) : Nat := 1024 * s.regFld pgStats 0x1000 11 0 + o / 32 % 1024

/-- One word of an aggregate (R388): the high word of the pair just read, where it is latched; else a relay reads the partner's pair. -/
def State.readSum (s : State) (a : Agent) (addr : Nat) (w : Work) : Work × State :=
  let o := addr - 0x420C8000
  let i := s.windowPair o
  let last := Store.get 0 (sumKey a.id) s.lastLow
  match w.parts.getLast? with
  | some (.sum q o' f b) =>
    if o' + 4 = o ∧ o % 8 = 4 then ({ w with parts := w.parts ++ [.sum q o f b] }, s)
    else
      let (l, s) := s.readPair i false
      let n := s.pair.relayNext
      let v := fun k => ((l.getD k 0).toNat + (l.getD (k + 1) 0).toNat * 2 ^ 32)
      ({ w with parts := w.parts ++ [.sum n o (v 0) (v 2)] }, s.relayWords a.id false true false (0x400C8000 + o / 32 * 32) none [0, 0, 0, 0])
  | _ =>
    if o % 8 = 4 ∧ last = o - 3 then (w.word (Store.get 0 (sumKey a.id) s.readLatch), s)
    else
      let (l, s) := s.readPair i false
      let n := s.pair.relayNext
      let v := fun k => ((l.getD k 0).toNat + (l.getD (k + 1) 0).toNat * 2 ^ 32)
      ({ w with parts := w.parts ++ [.sum n o (v 0) (v 2)] }, s.relayWords a.id false true false (0x400C8000 + o / 32 * 32) none [0, 0, 0, 0])

/-- A word read while the device is quenched (R454): from the frozen state, a counter pair as its partial count, nothing changed. -/
def State.readFrozen (s : State) (a : Agent) (rights addr : Nat) : Status × Word :=
  let o := addr % 0x10000
  if addr / 0x10000 = 0x400C ∧ 0x8000 ≤ o ∧ addr % 4 = 0 then
    let (f, b) := s.partOf (s.windowPair (o - 0x8000))
    (.ok, (pairWords f b 0 0).getD ((o - 0x8000) / 4 % 8) 0)
  else
    let r := if inPages addr then s.readBus ⟨a, rights, .own, none⟩ addr else s.readOutside a addr
    (r.1, r.2.1)

/-- A word of the device itself, with the rights of the session that the command names (R101). -/
def State.readLocal (s : State) (a : Agent) (rights addr : Nat) : Status × Word × State :=
  if s.quenched then
    let (st, v) := s.readFrozen a rights addr
    (st, v, s)
  else if inPages addr then s.readBus ⟨a, rights, .own, none⟩ addr else s.readOutside a addr

/-- Words of the partner that one relay reads: at most 56 of one page, as far as the lead lets them pass. -/
def State.chunkLen (s : State) (rights : Nat) (addrs : List Nat) (write : Option Word) (data : List Word) : Nat :=
  let first := addrs.headD 0
  let ok := fun (e : Nat × Word) => e.1 / 0x10000 == first / 0x10000 && s.leadAllows rights e.1 (write.map (fun m => (m, e.2)))
  (((addrs.zip data).take 56).takeWhile ok).length

/-- The READ of a list of words. -/
def State.readWords (s : State) (a : Agent) (rights : Nat) (fixed : Bool) : Nat → List Nat → Work → Work × State
  | 0, _, w => (w, s)
  | _, [], w => (w, s)
  | n + 1, addr :: rest, w =>
    if a != .debug && partnerAddr addr then
      match s.partnerRefusal addr with
      | some st => ({ w with st := st }, s.refused a addr false st)
      | none =>
        let k := s.chunkLen rights (addr :: rest) none (List.replicate (rest.length + 1) 0)
        if k = 0 then ({ w with st := .denied }, s.deny)
        else
          let q := s.pair.relayNext
          let s := s.relayWords a.id false true fixed (addr - 0x1000000) none (List.replicate k 0)
          s.readWords a rights fixed n ((addr :: rest).drop k) { w with parts := w.parts ++ [.remote q] }
    else if a != .debug && sumAddr addr then
      match s.sumRefusal addr false with
      | some st => ({ w with st := st }, s.refused a addr false st)
      | none => let (w, s) := s.readSum a addr w; s.readWords a rights fixed n rest w
    else
      match s.readLocal a rights addr with
      | (.ok, v, s) => s.readWords a rights fixed n rest (w.word v)
      | (st, _, s) => ({ w with st := st }, s)

/-- READ (R77, R78). -/
def State.cmdRead (s : State) (a : Agent) (rights : Nat) (ws : List Word) : Work × State :=
  let ctl := ws.getD 1 0
  let n := ctlCount ctl
  s.readWords a rights (bit ctl 16) n (cmdAddrs (ws.getD 0 0).toNat n (bit ctl 16)) ⟨.ok, [], 0⟩

/-! ### WRITE and WRITE_MASKED (R78, R79, R387, R389) -/

/-- What a WRITE has done: its outcome, the words that this device took, and whether one of them, or the refused one, is audited (R112). -/
structure Written where
  st : Status
  done : List (Nat × Word)
  sent : Nat
  hit : Bool
  deriving DecidableEq, Repr

/-- Whether a word that a command writes is audited, on the lead's own page for the partner's. -/
def State.auditedCmd (s : State) (addr : Nat) : Bool := s.audited (if partnerAddr addr then addr - 0x1000000 else addr)

/-- Whether a refused write of a word is audited where no word before it took effect (R112). -/
def State.deniedHit (s : State) (w : Written) (addr : Nat) : Bool :=
  if w.done.isEmpty && w.sent == 0 then s.auditedPage (if partnerAddr addr then addr - 0x1000000 else addr) else w.hit

/-- A word that a relay may carry beside its neighbours: a mirror-set word that is neither an alias nor a domain control. -/
def plainMirror (addr : Nat) : Bool :=
  let p := (addr - 0x40000000) / 0x10000
  let o := addr % 0x10000
  inPages addr && mirrorWord p o && !(decide (0x4000 ≤ o) && decide (o < 0x8000)) && !domWord p o

/-- The first words of a list that one relay carries: consecutive, or all at one address. -/
def runLen (fixed : Bool) : List (Nat × Word) → Nat
  | (a, _) :: (b, w) :: t => if plainMirror b && b == (if fixed then a else a + 4) then 1 + runLen fixed ((b, w) :: t) else 1
  | [_] => 1
  | [] => 0

/-- Relay the mirror-set words that a WRITE of the lead has written (R389, R390). -/
def State.mirrorRun (s : State) (agent : Nat) (fixed : Bool) : Nat → List (Nat × Word) → State
  | 0, _ => s
  | _, [] => s
  | n + 1, (a, d) :: t =>
    if !s.leadJoined then s
    else if plainMirror a then
      let k := runLen fixed ((a, d) :: t)
      (s.relayWords agent true false (fixed && decide (1 < k)) a none ((((a, d) :: t).take k).map Prod.snd)).mirrorRun agent fixed n (((a, d) :: t).drop k)
    else (s.mirrorWrite agent a 0xFFFFFFFF#32 d).mirrorRun agent fixed n t

/-- The WRITE of a list of words, each under a bit mask. -/
def State.writeWords (s : State) (a : Agent) (rights : Nat) (fixed : Bool) (mask : Word) (masked : Bool) :
    Nat → List (Nat × Word) → Written → Written × State
  | 0, _, w => (w, s)
  | _, [], w => (w, s)
  | n + 1, (addr, d) :: rest, w =>
    if a != .debug && partnerAddr addr then
      match s.partnerRefusal addr with
      | some st => ({ w with st := st }, s.refused a addr true st)
      | none =>
        let l := (addr, d) :: rest
        let k := s.chunkLen rights (l.map Prod.fst) (some mask) (l.map Prod.snd)
        let hit := w.hit || s.auditedCmd addr
        if k = 0 then ({ w with st := .denied, hit := s.deniedHit w addr }, s.deny)
        else
          let s := s.relayWords a.id false false fixed (addr - 0x1000000) (if masked then some mask else none) ((l.take k).map Prod.snd)
          s.writeWords a rights fixed mask masked n (l.drop k) { w with sent := w.sent + k, hit := hit }
    else if a != .debug && sumAddr addr then ({ w with st := .accessFault }, s.refused a addr true .accessFault)
    else
      match s.writeAddr ⟨a, rights, .own, none⟩ addr mask d with
      | (.ok, s) => s.writeWords a rights fixed mask masked n rest { w with done := w.done ++ [(addr, d)], hit := w.hit || s.auditedCmd addr }
      | (st, s) => ({ w with st := st, hit := s.deniedHit w addr }, s)

/-- The audit record and the response of a WRITE. -/
def State.writeEnd (s : State) (a : Agent) (w : Written) (first : Nat) (data : Word) : Work × State :=
  let s := s.auditWrite a w.st first data (w.done.length + w.sent) w.hit
  (⟨w.st, [.written], w.done.length⟩, s)

/-- WRITE (R77, R78). -/
def State.cmdWrite (s : State) (a : Agent) (rights : Nat) (ws : List Word) : Work × State :=
  let ctl := ws.getD 1 0
  let n := ctlCount ctl
  let fixed := bit ctl 16
  let addr := (ws.getD 0 0).toNat
  let (w, s) := s.writeWords a rights fixed 0xFFFFFFFF#32 false n ((cmdAddrs addr n fixed).zip (ws.drop 2)) ⟨.ok, [], 0, false⟩
  (s.mirrorRun a.id fixed n w.done).writeEnd a w addr (ws.getD 2 0)

/-- WRITE_MASKED (R79): with no bit selected nothing is written. -/
def State.cmdMasked (s : State) (a : Agent) (rights : Nat) (ws : List Word) : Work × State :=
  let addr := (ws.getD 0 0).toNat
  let m := ws.getD 1 0
  let d := ws.getD 2 0
  if m = 0 then (⟨.ok, [.words [0]], 0⟩, s)
  else
    let (w, s) := s.writeWords a rights false m true 1 [(addr, d)] ⟨.ok, [], 0, false⟩
    let s := if w.done.isEmpty then s else s.mirrorWrite a.id addr m d
    s.writeEnd a w addr d

/-! ### Operations under command (R87-R91) -/

/-- The record that a HANDLE names. -/
def State.byHandle (s : State) (h : Word) : Option (Nat × OpRec) :=
  let slot := fld h 3 0
  match s.opRec slot with
  | some r => if fld h 15 4 = r.serial.toNat then some (slot, r) else none
  | none => none

/-- Units of work that the operation had done before the command (R89): completion prevails over a suspend or a cancel. -/
def State.workBefore (s : State) (slot units : Nat) : State := if units = 0 then s else s.opWork slot units true []

/-- OP_SUSPEND (R89, R90, R248). -/
def State.opSuspend (s : State) (rights : Nat) (h : Word) (units : Nat) : Reply :=
  match s.byHandle h with
  | none => s.answer .noSuchOp
  | some (slot, r) =>
    if !rightOk rights r.kind.right then s.deny.answer .denied
    else
      let s := s.workBefore slot units
      let s := if r.kind == .epochCommit then s.dueSwitch else s
      match s.opRec slot with
      | some r =>
        if r.state == .running && r.suspendable then
          let s := if r.kind == .epochCommit then s.relayAbort r else s
          let s := if r.kind == .epochCommit && r.phase == phArmed then { s with tab := { s.tab with switchAt := none, switchNo := none } } else s
          let s := if r.kind == .memTest then s.setTesting [] else s
          (s.setOp slot { r with state := .suspended, phase := if r.kind == .epochCommit && r.phase == phArmed then phWait else r.phase }).answer .ok
        else s.answer .opState
      | none => s.answer .opState

/-- OP_RESUME (R89, R248). -/
def State.opResume (s : State) (rights : Nat) (h : Word) : Reply :=
  match s.byHandle h with
  | none => s.answer .noSuchOp
  | some (slot, r) =>
    if !rightOk rights r.kind.right then s.deny.answer .denied
    else if r.state == .suspended then
      let s := s.setOp slot { r with state := .running }
      (if r.kind == .memTest then s.setTesting r.testRange else s).answer .ok
    else s.answer .opState

/-- OP_CANCEL (R89, R90). -/
def State.opCancelCmd (s : State) (rights : Nat) (h : Word) (units : Nat) : Reply :=
  match s.byHandle h with
  | none => s.answer .noSuchOp
  | some (slot, r) =>
    if !rightOk rights r.kind.right then s.deny.answer .denied
    else
      let s := s.workBefore slot units
      match s.opRec slot with
      | some r => let (st, s) := s.opCancel slot r false; s.answer st
      | none => s.answer .opState

/-- The eight words of OP_STATUS (R88). -/
def OpRec.words (r : OpRec) (slot : Nat) : List Word :=
  [word ((r.handle slot).toNat + r.kind.code * 0x10000 + r.state.code * 0x1000000 + r.lockLost.toNat * 2 ^ 27 + r.broken.toNat * 2 ^ 28),
   word (r.result.code + r.phase.toNat * 0x100), r.progress, r.total] ++ (List.range 4).map (fun i => r.detail.getD i 0)

/-- OP_STATUS (R88, R91): its starter's read of a terminal record frees it. -/
def State.opStatus (s : State) (a : Agent) (h : Word) (units : Nat) : Reply :=
  match s.byHandle h with
  | none => s.answer .noSuchOp
  | some (slot, _) =>
    let s := s.workBefore slot units
    match s.opRec slot with
    | none => s.answer .noSuchOp
    | some r =>
      let s' := if r.state.terminal && r.starter == a.id then { s with ops := { s.ops with recs := Store.erase slot s.ops.recs } } else s
      (.ok, (s.opShown r).words slot, s')

/-! ### The debug port's own commands (R445-R447, R454) -/

/-- Whether REGNO names a register (R447). -/
def regnoOk (n : Nat) : Bool := decide (n ≤ 0x40) || (decide (0x1000 ≤ n) && decide (n ≤ 0x1FFF))

/-- Whether the port holds a core. -/
def State.coreHeld (s : State) (k : Nat) : Bool := s.cp.halted.any (fun e => e.1 == k)

/-- CORE_HALT (R446). -/
def State.cmdHalt (s : State) (ws : List Word) : State :=
  (List.range 4).foldl (fun s k => if bit (ws.getD 0 0) k && !s.coreHeld k then s.haltCore k .coreHalt else s) s

/-- CORE_RESUME (R446). -/
def State.cmdResume (s : State) (ws : List Word) : State :=
  s.setHalted (s.cp.halted.filter (fun e => !bit (ws.getD 0 0) e.1))

/-- CORE_STEP (R446): the core stands where its instruction left it; what the instruction wrote to registers is the environment's. -/
def State.cmdStep (s : State) (ws : List Word) (env : CmdEnv) : Reply :=
  let k := fld (ws.getD 0 0) 1 0
  if !s.coreHeld k then s.answer .opState
  else
    let s := env.effects.foldl (fun s e => s.setCoreReg k e.1.toNat e.2) s
    ((s.setCoreReg k 0x40 env.pc).haltCore k .step).answer .ok

/-- CORE_REG_READ (R445, R447). -/
def State.cmdRegRead (s : State) (ws : List Word) : Reply :=
  let k := fld (ws.getD 0 0) 1 0
  let n := fld (ws.getD 1 0) 15 0
  let c := (ws.getD 2 0).toNat
  if c = 0 ∨ 64 < c then s.answer .badLength
  else if !s.coreHeld k then s.answer .opState
  else
    let good := ((List.range c).takeWhile (fun i => regnoOk (n + i))).length
    let out := (List.range good).flatMap (fun i => [(s.coreReg k (n + i)).setWidth 32, (s.coreReg k (n + i) >>> 32).setWidth 32])
    (if good = c then .ok else .accessFault, out, s)

/-- CORE_REG_WRITE (R445, R447). -/
def State.cmdRegWrite (s : State) (ws : List Word) : Reply :=
  let k := fld (ws.getD 0 0) 1 0
  let n := fld (ws.getD 1 0) 15 0
  let c := (ws.length - 2) / 2
  if !s.coreHeld k then s.answer .opState
  else
    let good := ((List.range c).takeWhile (fun i => regnoOk (n + i))).length
    let v := fun i => BitVec.ofNat 64 ((ws.getD (2 + 2 * i) 0).toNat + (ws.getD (3 + 2 * i) 0).toNat * 2 ^ 32)
    let s := (List.range good).foldl (fun s i => s.setCoreReg k (n + i) (v i)) s
    (if good = c then .ok else .accessFault, [word good], s)

/-- TRIGGER_SET (R447): types 5 to 7 act as off. -/
def State.cmdTrigger (s : State) (ws : List Word) : State :=
  let w := fun i => ws.getD i 0
  let key := fld (w 0) 1 0 * 4 + fld (w 0) 3 2
  let kind := fld (w 1) 2 0
  let t : Trigger := ⟨BitVec.ofNat 3 kind, bit (w 1) 3, w 2, w 3⟩
  let l := if kind = 0 ∨ 4 < kind then Store.erase key s.cp.triggers else Store.insert key t s.cp.triggers
  { s with cp := { s.cp with triggers := l } }

/-- The eight words of QINFO (R454): the source bits and Q of the current or last Quench. -/
def State.qinfo (s : State) : List Word :=
  [word (s.regFld pgDebug 0x2000 18 16), s.reg pgDebug 0x200C, s.reg pgDebug 0x2010, s.reg pgDebug 0x2014, word s.ingotsAsked,
   word s.pipe.inside.length, s.reg pgDebug 0x2004, word (s.regFld pgDebug 0x2000 7 4)]

/-- The right that a word of a QREAD space needs, as a test (R454). -/
def State.spaceOpen (s : State) (space addr : Nat) : Bool :=
  let strong := rightOk (s.agentRights .debug pgDebug) 6
  match space with
  | 0 => true
  | 3 => if addr % 2 ^ 33 < 0x10000000 ∧ addr / 2 ^ 33 = 0 then s.coreDebug else strong
  | 5 | 6 => s.coreDebug
  | _ => strong

/-- A word of the statistics backing region (R267, R419): of pair `w` div 4, the frames and then the bytes, low words first. -/
def State.backWord (s : State) (w : Nat) : Word :=
  let (f, b) := s.backOf (w / 4)
  [word f, word (f / 2 ^ 32), word b, word (b / 2 ^ 32)].getD (w % 4) 0

/-- One word of a QREAD space, none beyond it (R454). The layout of table rows, of physical cells and of stack data outside the reserved
regions is not given, so those words are free (log entry 2). -/
def State.spaceWord (s : State) (space addr : Nat) : Option (Status × Word) :=
  let free := some (Status.ok, Config.openWord s.freeCtr)
  match space with
  | 0 => if addr < 0x40000000 then some (s.readFrozen .debug (s.agentRights .debug ((4 * addr - 0x40000000) / 0x10000)) (4 * addr)) else none
  | 1 => if addr < 1280 * 2048 * 16 then free else none
  | 2 => if addr / 64 < 786432 then free else none
  | 3 =>
    if 4 ≤ addr / 2 ^ 33 ∨ 0x180000000 ≤ addr % 2 ^ 33 then none
    else if addr < 0x10000000 then some (.ok, s.memWord (0x80000000 + 4 * addr))
    else if addr < 0x11000000 then some (.ok, s.backWord (addr - 0x10000000)) else free
  | 4 => if addr < 96 * 16 then some (.ok, s.stageView (addr / 16) (addr % 16)) else none
  | 5 =>
    let n := addr % 0x4000 / 2
    if 4 ≤ addr / 0x4000 ∨ !regnoOk n then none
    else some (.ok, ((s.coreReg (addr / 0x4000) n) >>> (32 * (addr % 2))).setWidth 32)
  | 6 => if addr < 0x200000 then some (.ok, s.memWord (0x10000000 + 4 * addr)) else none
  | _ => none

/-- Whether a QREAD space is memory with an error code (R254, R454). -/
def spaceEcc (space : Nat) : Bool := space == 1 || space == 2 || space == 3 || space == 6

/-- The words of a QREAD from an address on; `bad` is the place of the first uncorrectable word, which ends it. -/
def State.spaceWords (s : State) (space : Nat) (bad : Option Nat) : Nat → Nat → List Word → Reply
  | 0, _, l => (.ok, l, s)
  | n + 1, addr, l =>
    if !s.spaceOpen space addr then (.denied, l, s.deny)
    else match s.spaceWord space addr with
      | none => (.accessFault, l, s)
      | some (.ok, v) =>
        if bad = some l.length ∧ spaceEcc space then (.internal, l, s) else s.fresh.2.spaceWords space bad n (addr + 1) (l ++ [v])
      | some (st, _) => (st, l, s)

/-- QREAD (R454), while the device is quenched. -/
def State.cmdQread (s : State) (ws : List Word) (bad : Option Nat) : Reply :=
  let w0 := ws.getD 0 0
  let c := (ws.getD 2 0).toNat
  if c = 0 ∨ 256 < c then s.answer .badLength
  else if !s.quenched then s.answer .opState
  else s.spaceWords (fld w0 2 0) bad c (fld w0 15 8 * 2 ^ 32 + (ws.getD 1 0).toNat) []

/-- The debug port's own commands (R445). -/
def State.debugCmd (s : State) (op : Nat) (ws : List Word) (env : CmdEnv) : Reply :=
  let strong := rightOk (s.agentRights .debug pgDebug) 6
  if [opHALT, opRUN, opSTEP, opREGREAD, opREGWRITE, opTRIGGER].contains op && !s.coreDebug then s.deny.answer .denied
  else if [opQUENCH, opQINFO, opTHAW].contains op && !strong then s.deny.answer .denied
  else if op = opHALT then (s.cmdHalt ws).answer .ok
  else if op = opRUN then (s.cmdResume ws).answer .ok
  else if op = opSTEP then s.cmdStep ws env
  else if op = opREGREAD then s.cmdRegRead ws
  else if op = opREGWRITE then s.cmdRegWrite ws
  else if op = opTRIGGER then (s.cmdTrigger ws).answer .ok
  else if op = opQUENCH then (s.quench 1).answer .ok
  else if op = opQINFO then (.ok, s.qinfo, s)
  else if op = opQREAD then s.cmdQread ws env.bad
  else if op = opTHAW then (if s.quenched then (s.thaw env.us).answer .ok else s.answer .opState)
  else s.debugDetach.answer .ok

/-! ### One command -/

/-- An answer with its words at hand. -/
def Reply.work (r : Reply) : Work × State := (⟨r.1, if r.2.1.isEmpty then [] else [.words r.2.1], 0⟩, r.2.2)

/-- Execute an accepted command (R77, R445). -/
def State.runCmd (s : State) (a : Agent) (op : Nat) (rights session : Nat) (ws : List Word) (env : CmdEnv) : Work × State :=
  if op = opREAD then s.cmdRead a rights ws
  else if op = opWRITE then s.cmdWrite a rights ws
  else if op = opMASKED then s.cmdMasked a rights ws
  else if op = opFENCE then (s.answer .ok).work
  else if op = opECHO then Reply.work (.ok, ws, s)
  else if op = opCHALLENGE then (loginChallenge a ws s).work
  else if op = opRESPONSE then (loginResponse a ws s).work
  else if op = opLOGOUT then (logoutCmd a session s).work
  else if op = opSTART then (opStart a rights session ws s).work
  else if op = opSUSPEND then (s.opSuspend rights (ws.getD 0 0) env.units).work
  else if op = opRESUME then (s.opResume rights (ws.getD 0 0)).work
  else if op = opCANCEL then (s.opCancelCmd rights (ws.getD 0 0) env.units).work
  else if op = opSTATUS then (s.opStatus a (ws.getD 0 0) env.units).work
  else if op = opLOG then (logReadCmd rights ws s).work
  else (s.debugCmd op ws env).work

/-! ### Responses (R75, R82, R387-R390) -/

/-- The response's part that relays have answered. -/
def Waiting.part (w : Waiting) : RespPart → List Word
  | .words l => l
  | .remote q => (Store.get (0, 0, []) q w.got).2.2
  | .written => [word (w.got.foldl (fun n e => n + e.2.2.1) (w.resp.payload.getD 0 0).toNat)]
  | .sum q off f b =>
    let l := (Store.get (0, 0, []) q w.got).2.2
    let v := fun k => (l.getD k 0).toNat + (l.getD (k + 1) 0).toNat * 2 ^ 32
    let t := if off / 4 % 8 < 2 then (v 0 + f) % 2 ^ 64 else (v 2 + b) % 2 ^ 64
    [word (if off % 8 = 0 then t else t / 2 ^ 32)]

/-- The status of a code. -/
def Status.ofCode (n : Nat) : Status :=
  ([Status.ok, .busy, .badCrc, .badOpcode, .badLength, .accessFault, .denied, .cfgLocked, .writeOnce, .lockHeld, .noSuchOp, .opState, .tooLate,
    .tableFull, .partnerDown] : List Status).getD n .internal

/-- The whole response once every relay has been answered (R389): the lead's status before the first of the partner's. -/
def Waiting.final (w : Waiting) : Response :=
  let far := (w.got.map (fun e => e.2.1)).find? (fun c => c != 0)
  let st := if w.resp.status ≠ .ok then w.resp.status else match far with | some c => Status.ofCode c | none => .ok
  ⟨w.resp.tag, st, w.parts.flatMap w.part⟩

/-- The high word of an aggregate whose low word was read stays at hand for its agent (R388). -/
def State.latchSum (s : State) (w : Waiting) : State :=
  match w.parts.getLast? with
  | some (.sum q off f b) =>
    if off % 8 = 0 then
      { s with readLatch := Store.insert (sumKey w.agent.id) ((w.part (.sum q (off + 4) f b)).getD 0 0) s.readLatch
               lastLow := Store.insert (sumKey w.agent.id) (off + 1) s.lastLow }
    else s
  | _ => s

/-- Answer a command: a READ or WRITE once the relays it has issued are acknowledged, a FENCE once every relay of its agent is (R86, R392),
any other at once. -/
def State.finish (s : State) (a : Agent) (route : Route) (op : Nat) (rq : Request) (first : Nat) (w : Work) : State :=
  let nr := bit (rq.flags.setWidth 32) 1
  let last := if op = opFENCE then s.lastRelay a.id else if [opREAD, opWRITE, opMASKED].contains op && decide (first < s.pair.relayNext) then some (s.pair.relayNext - 1) else none
  let resp : Response := ⟨rq.tag, w.st, [word w.done]⟩
  let x : Waiting := ⟨a, route, nr, if op = opFENCE then 0 else first, last.getD 0, resp, w.parts, []⟩
  let s := if w.st = .busy then s.incReg pgHostif 0x2014 else s
  match last with
  | some _ => { s with host := { s.host with waiting := s.host.waiting ++ [x] } }
  | none => s.respond a route nr { x.final with status := w.st }

/-- The rights that a command acts with (R101, R444): those of the session it names, of the debug port as granted, or of the firmware. -/
def State.cmdRights (s : State) (a : Agent) (session : Nat) : Nat :=
  match a with
  | .debug => s.agentRights .debug pgDebug
  | .core _ => 3
  | _ => if session = 0 then 0 else s.sessionRights a

/-- Execute a command with the rights it was accepted with (R105) and answer it. -/
def State.execute (s : State) (a : Agent) (rights : Nat) (route : Route) (op : Nat) (rq : Request) (env : CmdEnv) : State :=
  let first := s.pair.relayNext
  let (w, s) := s.runCmd a op rights rq.session.toNat (reqWords rq) env
  s.finish a route op rq first w

/-! ### The checks of a request (R76, R80, R81, R480) -/

/-- Commands of an agent that are outstanding (R80). -/
def State.outstanding (s : State) (a : Agent) : Nat :=
  (s.host.waiting.filter (fun (w : Waiting) => w.agent == a)).length + (s.host.ordered.filter (fun (d : Deferred) => d.rq.agent == a)).length

/-- How many an agent may have (R80, R441). -/
def queueLimit : Agent → Nat
  | .i3c => 4 | .mgmt => 32 | _ => 1

/-- A word that is served before the firmware is ready (R81). -/
def earlyWord (addr : Nat) : Bool :=
  inPages addr && (decide (addr % 0x10000 < 0x100)
    || ((addr / 0x10000 == 0x4000 || addr / 0x10000 == 0x4004) && decide (0x2000 ≤ addr % 0x10000) && decide (addr % 0x10000 < 0x4000)))

/-- Every word that a READ or WRITE addresses passes a test. -/
def allAddrs (op : Nat) (ws : List Word) (f : Nat → Bool) : Bool :=
  let ctl := ws.getD 1 0
  if op = opMASKED then f (ws.getD 0 0).toNat
  else (cmdAddrs (ws.getD 0 0).toNat (min 256 (ctlCount ctl)) (bit ctl 16)).all f

/-- Whether the recovery image accepts a command (R480). -/
def recoveryOk (op : Nat) (ws : List Word) : Bool :=
  if [opECHO, opREAD, opCHALLENGE, opRESPONSE, opLOGOUT, opSTATUS, opCANCEL, opLOG].contains op then true
  else if op = opWRITE ∨ op = opMASKED then
    allAddrs op ws (fun a => inPages a && [pgGlobal, pgHostif, pgRoles, pgPstore, pgCpctl, pgLocks].contains ((a - 0x40000000) / 0x10000))
  else if op = opSTART then fld (ws.getD 0 0) 7 0 == 8 else decide (opHALT ≤ op)

/-- Whether a request is answered BUSY (R76, R80, R81, R38, R480). -/
def State.refusesNow (s : State) (a : Agent) (op : Nat) (ws : List Word) : Bool :=
  decide (queueLimit a ≤ s.outstanding a)
    || (!bit (s.reg pgHostif 0x2000) 0 && op != opECHO && !(op == opREAD && allAddrs op ws earlyWord))
    || (bit (s.reg 0 0x2068) 0 && !recoveryOk op ws)
    || (s.safe pgHostif && !([opREAD, opECHO, opSTATUS, opLOG].contains op))

/-- What a quenched device still serves (R445, R454). -/
def quenchOk (a : Agent) (op : Nat) (ws : List Word) : Bool :=
  if a = .debug then [opECHO, opREAD, opCHALLENGE, opRESPONSE, opQINFO, opQREAD, opTHAW, opDETACH].contains op
  else [opECHO, opREAD].contains op || (op == opWRITE && allAddrs op ws (fun x => x == 0x400D1008))

/-- The first check of R76 that a request fails. -/
def State.reqCheck (s : State) (a : Agent) (op : Nat) (rq : Request) : Option Status :=
  let n := rq.length.toNat
  let bytes := reqHeader op rq ++ rq.body
  firstFault [(reqByteCount rq != 8 + 4 * n + 2 || decide (258 < n), .badLength), (rq.crc != crc16 bytes, .badCrc),
    (rq.byte3 != 0 || decide (4 ≤ rq.flags.toNat) || !(hostOps.contains op || (a == .debug && debugOps.contains op)), .badOpcode),
    (!(lengthOk op n && countOk op n ((reqWords rq).getD 1 0)), .badLength), (rq.session != 0 && rq.session.toNat != s.sessionOf a, .denied),
    (s.refusesNow a op (reqWords rq), .busy)]

/-- Whether a failure ignores NO_RESPONSE (R76): a byte count that does not fit, and BAD_CRC. -/
def alwaysAnswered (rq : Request) (st : Status) : Bool :=
  st == .badCrc || (st == .badLength && (reqByteCount rq != 8 + 4 * rq.length.toNat + 2 || decide (258 < rq.length.toNat)))

/-- Answer a request that fails a check of R76, or that a Quench keeps out. -/
def State.reject (s : State) (a : Agent) (route : Route) (rq : Request) (st : Status) (check : Bool) : State :=
  let s := if st = .busy then s.incReg pgHostif 0x2014 else if st = .badCrc then s.incReg pgHostif 0x2010 else s
  let s := if a = .debug ∧ check then s.incReg pgDebug 0x2020 else s
  s.respond a route (bit (rq.flags.setWidth 32) 1 && !alwaysAnswered rq st) ⟨rq.tag, st, []⟩

/-- Count a request on the path it came by (R97). -/
def State.countCmd (s : State) (a : Agent) : State :=
  match a with
  | .i3c => s.incReg pgHostif 0x2008
  | .mgmt => s.incReg pgHostif 0x200C
  | _ => s

/-! ### The order of an agent's commands (R58, R84-R86) -/

/-- The login commands and those about long operations (R84). -/
def orderedOp (op : Nat) : Bool :=
  [opCHALLENGE, opRESPONSE, opLOGOUT, opSTART, opSUSPEND, opRESUME, opCANCEL, opSTATUS].contains op

/-- Whether an opcode writes register words, or accesses them. -/
def writesWords (op : Nat) : Bool := op == opWRITE || op == opMASKED
def accessesWords (op : Nat) : Bool := op == opREAD || writesWords op

/-- The first and the last page that a READ or WRITE names. -/
def pageSpan (op : Nat) (ws : List Word) : Nat × Nat :=
  let a := (ws.getD 0 0).toNat
  let ctl := ws.getD 1 0
  (a / 0x10000, (if op = opMASKED ∨ bit ctl 16 then a else a + 4 * (ctlCount ctl - 1)) / 0x10000)

/-- Whether a command keeps its place behind an earlier one of its agent (R58, R84, R86): an access behind a write of the same page, login and
operation commands among themselves and against accesses, FENCE behind any write. -/
def keepsBehind (op : Nat) (ws : List Word) (before : Nat) (wb : List Word) : Bool :=
  let (lo, hi) := pageSpan op ws
  let (lo', hi') := pageSpan before wb
  (orderedOp op && (orderedOp before || accessesWords before)) || (accessesWords op && orderedOp before)
    || (accessesWords op && writesWords before && decide (lo ≤ hi') && decide (lo' ≤ hi)) || (op == opFENCE && writesWords before)

/-- Whether a command must wait behind one that waits already. -/
def Deferred.holds (d : Deferred) (a : Agent) (op : Nat) (ws : List Word) : Bool := d.rq.agent == a && keepsBehind op ws d.op (reqWords d.rq)

/-- Put an accepted command among those that have not started: an ORDERED one waits for the relays issued so far. -/
def State.defer (s : State) (a : Agent) (route : Route) (op : Nat) (rq : Request) (ordered : Bool) : State :=
  let after := if ordered then some s.pair.relayNext else none
  let d : Deferred := ⟨s.host.taken, op, { rq with agent := a }, route, s.cmdRights a rq.session.toNat, after⟩
  { s with host := { s.host with ordered := s.host.ordered ++ [d], taken := s.host.taken + 1 } }

/-- A request frame arrives (R59, R76, R84, R85). -/
def State.hostCommand (s : State) (a : Agent) (route : Route) (op : Nat) (rq : Request) (env : CmdEnv) : State :=
  let s := s.countCmd a
  match s.reqCheck a op rq with
  | some st => s.reject a route rq st true
  | none =>
    if s.quenched && !quenchOk a op (reqWords rq) then s.reject a route rq .busy false
    else
      let behind := s.host.ordered.any (fun (d : Deferred) => d.rq.agent == a)
      let ordered := bit (rq.flags.setWidth 32) 0
      if (ordered && ((s.lastRelay a.id).isSome || behind)) || s.host.ordered.any (fun (d : Deferred) => d.holds a op (reqWords rq)) then
        s.defer a route op rq ordered
      else s.execute a (s.cmdRights a rq.session.toNat) route op rq env

/-- A private write of the I3C controller (R70): NACKed while eight responses are unread. -/
def State.i3cWrite (s : State) (op : Nat) (rq : Request) (env : CmdEnv) : State :=
  if 8 ≤ s.host.resp.length then { s with host := { s.host with reply := .nack } }
  else ({ s with host := { s.host with reply := .ack } }).hostCommand .i3c .i3c op rq env

/-- A command by the path of its agent: I3C, the management port (answered to MAC address 0), the attached debug port. The resident
firmware's own commands about long operations need no frame (R57); other agents send none. -/
def State.command (s : State) (op : Nat) (rq : Request) (env : CmdEnv) : State :=
  if s.inReset then s
  else match rq.agent with
  | .i3c => s.i3cWrite op rq env
  | .mgmt => s.hostCommand .mgmt (.mgmt 0 none) op rq env
  | .debug => if s.attached then s.hostCommand .debug .debug op rq env else s
  | .core k => if !s.stands ∧ opSTART ≤ op ∧ op ≤ opSTATUS then s.execute (.core k) 3 .nowhere op rq env else s
  | _ => s

/-! ### The rows -/

/-- READ (R78): the command of a host or the debug port, or the load by which a core reads (log entry 127). -/
def execReadWords (r : ReadAct) (s : State) : Out :=
  match r with
  | .command rq => .next (s.command opREAD rq .none)
  | .load l => .next (s.load l)

/-- WRITE (R78). -/
def execWriteWords (rq : Request) (s : State) : Out := .next (s.command opWRITE rq .none)

/-- WRITE_MASKED (R79). -/
def execWriteMasked (rq : Request) (s : State) : Out := .next (s.command opMASKED rq .none)

/-- FENCE (R86). -/
def execFence (rq : Request) (s : State) : Out := .next (s.command opFENCE rq .none)

/-- ECHO (R77). -/
def execEcho (rq : Request) (s : State) : Out := .next (s.command opECHO rq .none)

/-- LOGIN_CHALLENGE (R103). -/
def execLoginChallenge (rq : Request) (s : State) : Out := .next (s.command opCHALLENGE rq .none)

/-- LOGIN_RESPONSE (R104). -/
def execLoginResponse (rq : Request) (s : State) : Out := .next (s.command opRESPONSE rq .none)

/-- LOGOUT (R105). -/
def execLogout (rq : Request) (s : State) : Out := .next (s.command opLOGOUT rq .none)

/-- OP_SUSPEND (R89): `units` is the work that the operation has done by then. -/
def execOpSuspend (rq : Request) (units : Nat) (s : State) : Out := .next (s.command opSUSPEND rq { CmdEnv.none with units := units })

/-- OP_RESUME (R89). -/
def execOpResume (rq : Request) (s : State) : Out := .next (s.command opRESUME rq .none)

/-- OP_CANCEL (R89): `units` as for OP_SUSPEND. -/
def execOpCancel (rq : Request) (units : Nat) (s : State) : Out := .next (s.command opCANCEL rq { CmdEnv.none with units := units })

/-- OP_STATUS (R88): `units` as for OP_SUSPEND. -/
def execOpStatus (rq : Request) (units : Nat) (s : State) : Out := .next (s.command opSTATUS rq { CmdEnv.none with units := units })

/-- LOG_READ (R114). -/
def execLogRead (rq : Request) (s : State) : Out := .next (s.command opLOG rq .none)

/-- OP_START of EPOCH_COMMIT (R244). -/
def execEpochCommit (rq : Request) (s : State) : Out := .next (s.command opSTART rq .none)

/-- OP_START of TABLE_LOAD (R221). -/
def execTableLoad (rq : Request) (s : State) : Out := .next (s.command opSTART rq .none)

/-- OP_START of TABLE_FLUSH (R221). -/
def execTableFlush (rq : Request) (s : State) : Out := .next (s.command opSTART rq .none)

/-- OP_START of SNAPSHOT_SAVE (R116). -/
def execSnapshotSave (rq : Request) (s : State) : Out := .next (s.command opSTART rq .none)

/-- OP_START of SNAPSHOT_RESTORE (R117). -/
def execSnapshotRestore (rq : Request) (s : State) : Out := .next (s.command opSTART rq .none)

/-- OP_START of STATE_SYNC (R403). -/
def execStateSync (rq : Request) (s : State) : Out := .next (s.command opSTART rq .none)

/-- OP_START of MEM_TEST (R271). -/
def execMemTest (rq : Request) (s : State) : Out := .next (s.command opSTART rq .none)

/-- OP_START of FW_UPDATE (R483). -/
def execFwUpdate (rq : Request) (s : State) : Out := .next (s.command opSTART rq .none)

/-- OP_START of TWICEL_REJOIN (R397). -/
def execTwicelRejoin (rq : Request) (s : State) : Out := .next (s.command opSTART rq .none)

/-- CORE_HALT (R446). -/
def execCoreHalt (rq : Request) (s : State) : Out := .next (s.command opHALT rq .none)

/-- CORE_RESUME (R446). -/
def execCoreResume (rq : Request) (s : State) : Out := .next (s.command opRUN rq .none)

/-- CORE_STEP (R446). -/
def execCoreStep (rq : Request) (pc : BitVec 64) (effects : List (BitVec 16 × BitVec 64)) (s : State) : Out :=
  .next (s.command opSTEP rq { CmdEnv.none with pc := pc, effects := effects })

/-- CORE_REG_READ (R445). -/
def execCoreRegRead (rq : Request) (s : State) : Out := .next (s.command opREGREAD rq .none)

/-- CORE_REG_WRITE (R445). -/
def execCoreRegWrite (rq : Request) (s : State) : Out := .next (s.command opREGWRITE rq .none)

/-- TRIGGER_SET (R447). -/
def execTriggerSet (rq : Request) (s : State) : Out := .next (s.command opTRIGGER rq .none)

/-- QUENCH (R452). -/
def execQuench (rq : Request) (s : State) : Out := .next (s.command opQUENCH rq .none)

/-- QINFO (R454). -/
def execQinfo (rq : Request) (s : State) : Out := .next (s.command opQINFO rq .none)

/-- QREAD (R454); `uncorr` is the place of the first uncorrectable word. -/
def execQread (rq : Request) (s : State) (uncorr : Option (BitVec 8) := none) : Out :=
  .next (s.command opQREAD rq { CmdEnv.none with bad := uncorr.map BitVec.toNat })

/-- THAW (R455): `us` is how long the Quench lasted. -/
def execThaw (rq : Request) (us : Word) (s : State) : Out := .next (s.command opTHAW rq { CmdEnv.none with us := us.toNat })

/-- DETACH (R443). -/
def execDetach (rq : Request) (s : State) : Out := .next (s.command opDETACH rq .none)

end Sys2Proof.Machine
end

