-- ==== Sys2Proof/Machine/Joint.lean ====
section
/-! DEFINITION. The joint between the lead and its partner (R385-R398): joining, relays and their acknowledgements, learning across the
joint, the partner's side of a commit, a flush and a rejoin. -/
namespace Sys2Proof.Machine

/-! ### Joining (R385, R386) -/

/-- A link-local cell on the joint with a SRC (R385): the device's own index puts it in CONFLICT, the other index takes it out. -/
def State.jointCell (s : State) (src : Nat) : State :=
  if s.topo ≠ 1 ∨ s.twicel = 0 then s
  else if src = s.ownDev then s.setTwicel 5
  else if s.twicel = 5 ∧ src = s.otherDev then (s.setTwicel 1).relaysRestart
  else s

/-- A link-local cell is received on the joint. -/
def execConflictDetect (src : BitVec 12) (s : State) : Out := if s.stands then .next s else .next (s.jointCell src.toNat)

/-- The probe is outstanding. -/
def State.probing (s : State) : Bool := s.pair.relays.any Relay.probe

/-- The joint is UP in FORMING (R386): the lead sends its probe, once to each rise of UP. -/
def execJoinProbe (s : State) : Out :=
  if s.stands then .next s else
  if s.topo = 1 ∧ s.ownDev = 0 ∧ s.twicel = 1 ∧ s.jointUp ∧ !s.probing ∧ !s.pair.probed then
    .next (s.putRelay ⟨0, 4, false, false, true, false, 0, some (word s.profile), 1, [s.cfgSignature pgTables], 0⟩)
  else .next s

/-- What an answer of the probe does to a device in FORMING (R386). -/
def State.joinAnswer (s : State) (code : Nat) : State :=
  if s.twicel ≠ 1 then s
  else if code = 0 then s.setTwicel 2
  else if code = Status.tableFull.code then s.setTwicel 3
  else { s with pair := { s.pair with probed := true } }.orReg pgPair 0x2000 0x100#32

/-- The probe's answer reaches the lead. -/
def State.probeAnswered (s : State) (code : Nat) : State :=
  { s with pair := { s.pair with relays := s.pair.relays.filter (fun r => !r.probe) } }.joinAnswer code

/-- The answer of the probe arrives (R386). -/
def execJoinProbeAnswer (status : Byte) (s : State) : Out :=
  if s.stands then .next s else
  if s.probing then .next (s.probeAnswered status.toNat) else .next s

/-- Whether a device holds no entry in any table and no overlay slot (R386). -/
def State.tablesEmpty (s : State) : Bool := s.tab.mac.isEmpty && s.tab.base.all (fun e => e.2.isEmpty) && s.tab.slots.isEmpty

/-- The partner's answer to the probe (R386). -/
def State.probeCode (s : State) (profile sig : Word) : Nat :=
  if profile ≠ word s.profile ∨ sig ≠ s.cfgSignature pgTables then Status.cfgLocked.code
  else if s.tablesEmpty then 0 else Status.tableFull.code

/-! ### What the lead tells its partner (R251, R393, R397, R398) -/

/-- A time that words carry, in ns. -/
def dueOf (l : List Word) : Nat := (fld (l.getD 0 0) 15 0 * 2 ^ 32 + (l.getD 1 0).toNat) * 1000000000 + (l.getD 2 0).toNat

/-- The partner's side of a commit (R245, R251): the lead names T and the number, asks whether the mirror commit is in WAIT without a retiring epoch
(1) or has merged (2), or withdraws them, with the pending slots where its commit is cancelled. -/
def State.partnerCommit (s : State) (l : List Word) : Nat × State :=
  if l.length = 4 then
    let no := fld (l.getD 3 0) 15 0
    (0, { s with tab := { s.tab with switchAt := some (dueOf l), switchNo := some no } }.journal 4 0 (word no :: dueWords (dueOf l)))
  else if l.getD 0 0 = 1 then (if s.retiring.isSome then Status.busy.code else 0, s)
  else if l.getD 0 0 = 2 then (if s.ovlCount .unmerged ≠ 0 then Status.busy.code else 0, s)
  else
    let s := { s with tab := { s.tab with switchAt := none, switchNo := none } }
    (0, if l.getD 1 0 = 1 then s.freePending else s)

/-- A key of five words. -/
def entryKey (l : List Word) : Nat := (l.take 5).foldl (fun n w => n * 2 ^ 32 + w.toNat) 0

/-- A versioned entry of the lead (R397): written into the pending epoch where it differs from the standing view. -/
def State.mergeEntry (s : State) (tab key : Nat) (val : List Word) : Nat × State :=
  let s := { s with pair := { s.pair with rejoinKeys := (tab, key) :: s.pair.rejoinKeys } }
  if s.ver .standing tab key = val then (0, s)
  else match s.verWrite tab key val with
    | (0, t) => (0, t)
    | (_, t) => (Status.tableFull.code, t)

/-- A static MAC entry of the lead (R398). -/
def State.mergeStatic (s : State) (key data : List Word) : Nat × State :=
  let (mac, vid) := twMac key
  let d := data.getD 0 0
  let e : MacEnt := ⟨mac, vid, bit d 30, bit d 20, BitVec.ofNat 20 (fld d 19 0), word s.tick⟩
  match s.macFind mac vid with
  | some (ix, _) => (0, s.setMac (Store.insert ix e s.tab.mac))
  | none => match s.macInsert e with
    | some (_, t) => (0, t)
    | none => (Status.tableFull.code, s)

/-- A versioned entry of the lead is compared (R397). -/
def State.compareEntry (s : State) (tab key : Nat) (val : List Word) : State :=
  let n := if s.ver .standing tab key = val then 0 else 1
  { s with pair := { s.pair with rejoinKeys := (tab, key) :: s.pair.rejoinKeys, rejoinDiff := s.pair.rejoinDiff + n } }

/-- The standing entries of the partner whose key no entry of the lead has brought (R397). -/
def State.ownKeys (s : State) : List (Nat × Nat) :=
  [1, 2, 3, 4, 5].flatMap (fun tab =>
    ((s.verAll .standing tab).map (fun e => (tab, e.1))).filter (fun k => !s.pair.rejoinKeys.contains k))

/-- The merge begins on the partner (R397, R398): its pending slots and static MAC entries go, and its learned entries are sent. -/
def State.mergeBegin (s : State) : State :=
  let s := s.freePending
  let s := s.setMac (s.tab.mac.filter (fun e => !e.2.static))
  let s := ({ s with pair := { s.pair with rejoinKeys := [] } }.setTwicel 4).orReg pgPair 0x2000 8#32
  s.sendEntries (fun _ => true)

/-- The merge ends on the partner (R397): a key that only it holds is written as a delete. -/
def State.mergeEnd (s : State) : State :=
  let s := s.ownKeys.foldl (fun (t : State) k => (t.verWrite k.1 k.2 []).2) s
  { s with pair := { s.pair with rejoinKeys := [] } }.setTwicel 2

/-- The pages whose signatures differ from the lead's, a bit each (R397). -/
def State.signaturesDiffer (s : State) (l : List Word) : Word :=
  word ((rejoinPages.zipIdx.filter (fun e => s.cfgSignature e.1 != l.getD e.2 0)).foldl (fun n e => n + 2 ^ e.2) 0)

/-- The partner answers a question of a rejoin (R397): STATUS, words, the state after. -/
def State.rejoinAnswer (s : State) (k : Nat) (l : List Word) : (Nat × List Word) × State :=
  let tell := fun (ok : Bool) (s : State) => (((if ok then 0 else Status.busy.code), ([] : List Word)), s)
  match k with
  | 0 => tell (s.twicel == 3) s
  | 1 => tell (s.regFld pgTime 0x2010 4 3 == 2) s
  | 2 =>
    let free := !s.ops.recs.any (fun e => e.2.kind == .epochCommit && !e.2.state.terminal) && s.retiring.isNone
    tell free (if free then { s with pair := { s.pair with rejoinKeys := [], rejoinDiff := 0 } } else s)
  | 3 => ((0, [word s.learnedCount]), s.mergeBegin)
  | 4 => let t := s.mergeEnd; ((0, [t.signaturesDiffer l]), t)
  | _ => ((0, [word (s.pair.rejoinDiff + s.ownKeys.length), word (s.ovlFree + s.ovlCount .pending)]), s)

/-- Words that are no write of a register, on the partner (log entry 24): a STATUS, words in answer and the state after. -/
def State.partnerTold (s : State) (addr : Nat) (l : List Word) : (Nat × List Word) × State :=
  let plain := fun (x : Nat × State) => ((x.1, ([] : List Word)), x.2)
  if addr = commitAddr then plain (s.partnerCommit l)
  else if addr = flushAddr then
    let t := s.flushMac (l.getD 0 0) (l.getD 1 0)
    plain (0, t.journalDeletes ((s.tab.mac.filter (fun e => !t.tab.mac.contains e)).map Prod.snd))
  else if addr = loadAddr then
    let tab := (l.getD 1 0).toNat
    let (res, t) := s.loadRecord tab (l.drop 2)
    plain (res, if res = 0 then t.journalLoad tab (l.drop 2) else t)
  else if addr = rejoinAddr then s.rejoinAnswer (l.getD 0 0).toNat (l.drop 2)
  else if addr = compareAddr then plain (0, s.compareEntry (fld (l.getD 0 0) 3 0) (entryKey (l.drop 1)) (l.drop 6))
  else if addr = entryAddr then
    plain (if l.getD 0 0 = 0 then s.mergeStatic ((l.drop 1).take 3) (l.drop 6)
      else s.mergeEntry (fld (l.getD 0 0) 3 0) (entryKey (l.drop 1)) (l.drop 6))
  else plain (0, s)

/-! ### The partner applies a relay (R387, R389, R390) -/

/-- The maker of a relayed access (R387, log entry 24). -/
def relayWho (due : Option Nat) : Who := ⟨.core 0, 7, .relay, due⟩

/-- Write words at rising addresses, or at one where `step` is 0, up to the first refusal: the STATUS, the words that took effect, the
state. -/
def State.relayWrite (s : State) (w : Who) (addr step : Nat) (mask : Word) (n : Nat) : List Word → Nat × Nat × State
  | [] => (0, n, s)
  | d :: t => match s.busWrite w addr mask d with
    | (.ok, s) => s.relayWrite w (addr + step) step mask (n + 1) t
    | (st, s) => (st.code, n, s)

/-- Read `n` words likewise. -/
def State.relayRead (s : State) (addr step : Nat) (l : List Word) : Nat → Nat × List Word × State
  | 0 => (0, l, s)
  | n + 1 => match s.busRead (relayWho none) addr with
    | (.ok, v, s) => s.relayRead (addr + step) step (l ++ [v]) n
    | (st, _, s) => (st.code, l, s)

/-- A relayed domain control names its instant (R334). -/
def namesDue (addr : Nat) (data : List Word) : Bool :=
  inPages addr && domWord ((addr - 0x40000000) / 0x10000) (addr % 0x10000) && (addr % 0x20 == 0 || addr % 0x20 == 0x18) && data.length == 4

/-- Apply a relay (R390): STATUS, words that took effect, words read. In FORMING the partner takes the probe alone. -/
def State.applyRelay (s : State) (flags : Nat) (addr mask : Word) (data : List Word) : (Nat × Nat × List Word) × State :=
  let masked := flags.testBit 1
  let step := if flags.testBit 4 then 0 else 4
  let a := addr.toNat
  if flags.testBit 3 then
    let c := s.probeCode mask (data.getD 0 0)
    ((c, 0, []), s.joinAnswer c)
  else if s.twicel < 2 ∨ s.twicel = 5 then ((Status.partnerDown.code, 0, []), s)
  else if flags.testBit 2 then
    let (c, l, s) := s.relayRead a step [] data.length
    ((c, l.length, l), s)
  else if masked && mask == 0 && decide (2 ≤ data.length) then
    let (x, s) := s.partnerTold a data
    ((x.1, 0, x.2), s)
  else if masked && namesDue a data then
    let (st, s) := s.busWrite (relayWho (some (dueOf (data.drop 1)))) a mask (data.getD 0 0)
    ((st.code, if st = .ok then 1 else 0, []), s)
  else
    let (c, n, s) := s.relayWrite (relayWho none) a step (if masked then mask else 0xFFFFFFFF#32) 0 data
    ((c, n, []), s)

/-- Acknowledge a relay (R390). -/
def State.sendAck (s : State) (seq : Nat) (x : Nat × Nat × List Word) : State :=
  s.sendRelayCell 1 seq 0 (word (x.1 + x.2.1 * 256)) x.2.2

/-- A relay reaches the partner (R390): the next in order is applied, one applied already is acknowledged again, one ahead is discarded. -/
def State.relayIn (s : State) (flags seq : Nat) (addr mask : Word) (data : List Word) : State :=
  if s.topo ≠ 1 ∨ s.ownDev ≠ 1 then s
  else
    let d := (seq + 65536 - s.pair.relayWant % 65536) % 65536
    if d = 0 then
      let (x, s) := s.applyRelay flags addr mask data
      let p := s.pair
      ({ s with pair := { p with relayWant := p.relayWant + 1, acks := (seq, x) :: p.acks.take 63 } }).sendAck seq x
    else if 32768 ≤ d then
      match s.pair.acks.find? (fun e => e.1 == seq) with
      | some e => s.sendAck seq e.2
      | none => s
    else s

/-! ### Acknowledgements on the lead (R387-R392) -/

/-- A command that waits takes the answer of one of its relays. -/
def Waiting.take (w : Waiting) (r : Relay) (status words : Nat) (data : List Word) : Waiting :=
  if w.agent.id = r.agent ∧ w.firstSeq ≤ r.seq ∧ r.seq ≤ w.lastSeq ∧ !w.parts.isEmpty then
    { w with got := w.got ++ [(r.seq, (status, if r.mirror then 0 else words, data))] }
  else w

/-- Whether every relay of a waiting command has been acknowledged. -/
def State.answered (s : State) (w : Waiting) : Bool :=
  !s.pair.relays.any (fun r => r.agent == w.agent.id && decide (w.firstSeq ≤ r.seq) && decide (r.seq ≤ w.lastSeq))

/-- Answer the commands whose relays have all been acknowledged. -/
def State.answerReady (s : State) : State :=
  let (go, stay) := s.host.waiting.partition s.answered
  go.foldl (fun (s : State) w => (s.latchSum w).respond w.agent w.route w.noResponse w.final) { s with host := { s.host with waiting := stay } }

/-- Whether a waiting command may start (R84, R85, R392): an ORDERED one once it is its agent's oldest and no relay that it waits for is
outstanding, another once no earlier one is left that it keeps behind. -/
def State.mayStart (s : State) (d : Deferred) : Bool :=
  let before := s.host.ordered.filter (fun (e : Deferred) => e.rq.agent == d.rq.agent && decide (e.no < d.no))
  match d.after with
  | some n => before.isEmpty && !s.pair.relays.any (fun r => r.agent == d.rq.agent.id && decide (r.seq < n))
  | none => !before.any (fun (e : Deferred) => e.holds d.rq.agent d.op (reqWords d.rq))

/-- What a started command has relayed is waited for by the later ORDERED ones of its agent and by a fence written after its acceptance. -/
def State.relaysOf (s : State) (d : Deferred) : State :=
  let id := d.rq.agent.id
  let raise := fun (e : Deferred) => if e.rq.agent = d.rq.agent then { e with after := e.after.map (fun _ => s.pair.relayNext) } else e
  let mark := fun (e : Nat × (Nat × Nat)) => if e.1 / 4 = id ∧ d.no < e.2.2 then (e.1, (s.pair.relayNext, e.2.2)) else e
  { s with host := { s.host with ordered := s.host.ordered.map raise, fenceAt := s.host.fenceAt.map mark } }

/-- Start waiting commands that may, at most `n`. -/
def State.releaseOrdered (s : State) : Nat → State
  | 0 => s
  | n + 1 =>
    match s.host.ordered.find? s.mayStart with
    | none => s
    | some d =>
      let s := { s with host := { s.host with ordered := s.host.ordered.erase d } }
      ((s.execute d.rq.agent d.rights d.route d.op d.rq .none).relaysOf d).releaseOrdered n

/-- Start every waiting command that may. -/
def State.orderedNow (s : State) : State := s.releaseOrdered s.host.ordered.length

/-- A relay has been acknowledged: what it means for the lead itself. -/
def State.relayDone (s : State) (r : Relay) (status words : Nat) (data : List Word) : State :=
  if r.addr = word commitAddr ∧ r.mask = some 0 ∧ r.data.length = 4 then
    match s.tab.switchAt with
    | some t => if status = 0 ∧ s.nowNs + 10000 ≤ t then { s with tab := { s.tab with switchNo := some s.pendingNo } } else s
    | none => s
  else if r.addr = word commitAddr ∧ r.mask = some 0 then
    if status = 0 ∧ s.tab.commit.isSome ∧ r.data.getD 0 0 ≠ 0 then { s with tab := { s.tab with mirror := (r.data.getD 0 0).toNat } } else s
  else if r.mask = some 0 ∧ 2 ≤ r.data.length then s.opAnswered r.addr.toNat r.data status data
  else if r.mirror ∧ status ≠ 0 then
    (s.orReg pgPair 0x2000 0x800#32).setReg pgPair 0x201C (r.addr + word (if r.fixed then 0 else 4 * words))
  else s

/-- An acknowledgement reaches the lead (R390). -/
def State.ackIn (s : State) (seq status words : Nat) (data : List Word) : State :=
  match (s.pair.relays.take 64).find? (fun r => r.seq % 65536 == seq && r.tries != 0) with
  | none => s
  | some r =>
    if r.probe then s.probeAnswered status
    else
      let s := { s with pair := { s.pair with relays := s.pair.relays.filter (fun x => x.seq != r.seq) }, host := { s.host with waiting := s.host.waiting.map (fun (w : Waiting) => w.take r status words data) } }
      ((s.relayDone r status words data).pumpRelays.answerReady).orderedNow.restoreSettle

/-- A CONFIG_RELAY cell is received (R158, R390). -/
def State.configRelayIn (s : State) (flags seq : Nat) (addr mask : Word) (data : List Word) : State :=
  if flags.testBit 0 then s.ackIn seq (fld mask 7 0) (fld mask 15 8) data else s.relayIn flags seq addr mask data

/-- A CONFIG_RELAY cell is received. -/
def execConfigRelayRx (flags : Byte) (seq : BitVec 16) (addr mask : Word) (data : List Word) (s : State) : Out :=
  if s.stands then .next s else
  .next (s.configRelayIn flags.toNat seq.toNat addr mask data)

/-- A relay acknowledgement is received: STATUS, words that took effect, words read. -/
def execRelayAckRx (seq : BitVec 16) (status words : Byte) (data : List Word) (s : State) : Out :=
  if s.stands then .next s else
  .next (s.ackIn seq.toNat status.toNat words.toNat data)

/-- A relay has been sent eight times (R390): RELAY_FAIL, and the commands that wait on it draw PARTNER_DOWN. -/
def State.relayFail (s : State) (r : Relay) : State :=
  let (gone, rest) := s.host.waiting.partition (fun (w : Waiting) => w.agent.id == r.agent && decide (w.firstSeq ≤ r.seq) && decide (r.seq ≤ w.lastSeq))
  let s := ({ s with host := { s.host with waiting := rest } }.orReg pgPair 0x2000 0x400#32).raise pgPair 21
  gone.foldl (fun s w => s.respond w.agent w.route w.noResponse ⟨w.resp.tag, .partnerDown, []⟩) s

/-- RELAY_RETX passes without an acknowledgement (R390): every sent relay is sent again, from the oldest; one that has been sent eight times
fails first. -/
def execRelayRetx (s : State) : Out :=
  if s.stands then .next s else
  match s.pair.relays with
  | [] => .next s
  | r :: _ =>
    let s := if r.tries = 8 then s.relayFail r else s
    let sent := (s.pair.relays.take 64).filter (fun r => r.tries != 0)
    let l := s.pair.relays.map (fun (r : Relay) => if r.tries = 0 then r else { r with tries := r.tries + 1 })
    .next (sent.foldl (fun (s : State) r => (s.sendRelay r).incReg pgPair 0x2030) { s with pair := { s.pair with relays := l } })

/-! ### Learning across the joint (R394, R395) -/

/-- A batch is full, or 1 µs has passed since its first entry (R394). -/
def execLearnBatchSend (s : State) : Out :=
  if s.stands then .next s else
  let l := s.tab.learnOut.take 15
  if l.isEmpty || !(s.twicel == 2 || s.twicel == 4) then .next s
  else
    let es := l.flatMap (fun e => (learnWords e.1 e.2.2 e.2.2.port e.2.1).flatMap wordBytes)
    match s.sendControl s.jointGroups s.otherDev (4 + 16 * l.length) ([6, BitVec.ofNat 8 l.length] ++ beBytes 2 (s.pair.batchOut % 65536) ++ es) with
    | none => .next s
    | some s =>
      let s := { s with tab := { s.tab with learnOut := s.tab.learnOut.drop 15 }, pair := { s.pair with batchOut := s.pair.batchOut + 1 } }
      .next (s.addReg pgPair 0x2034 l.length)

/-- A LEARN entry (R158): the key, OP, PORT, and the learn time as seconds mod 2^16 and nanoseconds. -/
structure LearnEnt where
  mac : BitVec 48
  vid : BitVec 12
  op : Nat
  port : Nat
  sec : Nat
  ns : Nat
  deriving DecidableEq, Repr

/-- The fields of the 16 bytes of an entry. -/
def LearnEnt.of (b : BitVec 128) : LearnEnt :=
  let n := b.toNat
  ⟨BitVec.ofNat 48 (n / 2 ^ 80), BitVec.ofNat 12 (n / 2 ^ 64), n / 2 ^ 76 % 16, n / 2 ^ 48 % 65536, n / 2 ^ 32 % 65536, n % 2 ^ 32⟩

/-- Whether learn time `a` is newer than `b` (R394), as seconds mod 2^16 and nanoseconds. -/
def newer (a b : Nat × Nat) : Bool :=
  let d := (a.1 + 65536 - b.1 % 65536) % 65536
  (decide (1 ≤ d) && decide (d < 32768)) || (d == 0 && decide (b.2 < a.2))

/-- Insert or move a dynamic entry to a PORT, LAST_SEEN at the current tick. -/
def State.putLearned (s : State) (e : LearnEnt) : Option State :=
  let port := BitVec.ofNat 20 e.port
  match s.macFind e.mac e.vid with
  | none =>
    let x : MacEnt := ⟨e.mac, e.vid, false, false, port, word s.tick⟩
    (s.macInsert x).map (fun r => r.2.entryCame x)
  | some (ix, x) =>
    let y := { x with isNh := false, dest := port, seen := word s.tick }
    some ((s.setMac (Store.insert ix y s.tab.mac)).entryCame y)

/-- Whether an ADD or MOVE prevails over a dynamic entry (R394): the newer learn time does, and in a tie the lead's. -/
def State.learnWins (s : State) (e : LearnEnt) (x : MacEnt) : Bool :=
  let t := s.learnTime x
  let mine := (t / 1000000000 % 65536, t % 1000000000)
  newer (e.sec, e.ns) mine || (!newer mine (e.sec, e.ns) && s.ownDev == 1)

/-- An applied entry is counted, and journalled to a standby (R394, R403, R413). -/
def State.learnApplied (s : State) (e : LearnEnt) : State :=
  (s.incReg pgPair 0x2038).journal 3 1 (learnWords e.op ⟨e.mac, e.vid, e.port⟩ e.port (e.sec * 1000000000 + e.ns))

/-- Apply one entry (R394). -/
def State.learnIn (s : State) (e : LearnEnt) : State :=
  if e.op = 1 ∨ e.op = 2 then
    let wins := match s.macFind e.mac e.vid with
      | none => true
      | some (_, x) => !x.static && s.learnWins e x
    if wins then (match s.putLearned e with | some t => t.learnApplied e | none => s) else s
  else if e.op = 4 then
    match s.macFind e.mac e.vid with
    | some (ix, x) =>
      if !x.static && !x.isNh && x.dest.toNat == e.port then (s.setMac (Store.erase ix s.tab.mac)).learnApplied e else s
    | none => s
  else s

/-- A LEARN batch is received (R38, R394, R401) while TABLES has its maintenance port: batches are applied in order, a gap is counted, one from before is not applied again. -/
def State.learnBatch (s : State) (seq : Nat) (es : List LearnEnt) : State :=
  if !(s.twicel == 2 || s.twicel == 4) || s.role == 2 || !s.working pgTables then s
  else
    let want := s.pair.batchIn.getD seq
    let d := (seq + 65536 - want % 65536) % 65536
    if 32768 ≤ d then s
    else
      let s := if d = 0 then s else (s.addReg pgPair 0x203C d).raise pgPair 22
      es.foldl (fun (s : State) e => s.learnIn e) { s with pair := { s.pair with batchIn := some ((seq + 1) % 65536) } }

/-- A LEARN batch is received. -/
def execLearnRx (seq : BitVec 16) (entries : List (BitVec 128)) (s : State) : Out :=
  if s.stands then .next s else
  .next (s.learnBatch seq.toNat (entries.map LearnEnt.of))

/-- SYNC_WALK passes (R395): the dynamic entries of the device's own ports are sent again. -/
def execSyncWalk (s : State) : Out :=
  if s.stands then .next s else
  if s.twicel = 2 ∧ s.role ≠ 2 then .next (s.sendEntries (fun e => !e.isNh && e.dest.toNat / 256 == s.ownDev)) else .next s

end Sys2Proof.Machine
end

