-- ==== Sys2Proof/Machine/Protect.lean ====
section
/-! DEFINITION. Protected pairs (R399-R415): the role and its change, the pins, the journal between the active and its standby. -/
namespace Sys2Proof.Machine

/-! ### Switchover (R408, R409, R411, R412, R414) -/

/-- 1 µs in core cycles: the filter of ACT_IN (R399). -/
abbrev filterCycles : Nat := 1563

/-- The filtered ACT_IN falls (R399, R408, R412): an ACTIVE device winds down, at once where it was taking over. -/
def execActInFall (s : State) : Out :=
  if s.stands then .next s else
  if !bit (s.reg pgPair 0x2004) 8 then .next s
  else
    let s := s.clrReg pgPair 0x2004 0x100#32
    if s.role ≠ 1 then .next s
    else
      let p := s.pair
      let s := { s with pair := { p with promoting := false, windAt := s.time.cyc - filterCycles, takeLeft := 0 } }.orReg pgPair 0x2004 4#32
      .next (s.setRole 2)

/-- Pause state is dropped (R34, R408): a device that stops or starts to forward has no class paused. -/
def State.dropPause (s : State) : State :=
  (List.range 240).foldl (fun (s : State) p => s.clrReg pgLadle (0x2500 + 4 * p) 0xFFFF#32) s

/-- 30 µs after the fall at the ball (R408): every frame still queued is discarded and counted, and gating begins. -/
def execWindDownEnd (s : State) : Out :=
  if s.stands then .next s else
  if !s.winding then .next s
  else .next (((((s.discardWork pgTm).discardWork pgVoq).dropPause.journalEnd.clrReg pgPair 0x2004 4#32).setSync 0).pinsEval)

/-- The filtered ACT_IN rises (R399, R409, R411, R412): it ends a wind-down, or promotes a STANDBY, which forwards once it is ungated. -/
def execActInRise (s : State) : Out :=
  if s.stands then .next s else
  if bit (s.reg pgPair 0x2004) 8 then .next s
  else
    let s := s.orReg pgPair 0x2004 0x100#32
    if s.role ≠ 2 then .next s
    else if s.winding then .next ((s.clrReg pgPair 0x2004 4#32).setRole 1)
    else
      let s := s.dropPause
      let w := s.sync
      let stale := w == 3 && s.pair.remember == 1
      let s := (s.setRegFld pgPair 0x2004 14 12 w).setReg pgPair 0x2020 (s.reg pgPair 0x200C)
      let s := if w < 2 ∨ stale then s.orReg pgPair 0x2004 0x10000#32 else s
      let s := { s.journalEnd with pair := { s.journalEnd.pair with promoting := true } }.incReg pgPair 0x2050
      .next (s.setRole 1)

/-- The physical IDs that other logical IDs' VALID alias entries name (R414). -/
def State.aliasTargets (s : State) : List Nat :=
  (((List.range 256).filter (fun l => l != s.ownDev && bit (s.winA pgVoq l) 31)).map (fun l => fld (s.winA pgVoq l) 11 0)).eraseDups

/-- Send the TAKEOVER cell of the present takeover to every other device (R158, R414). -/
def State.sendTakeover (s : State) : State :=
  let b := [8, 0] ++ beBytes 2 s.ownDev ++ beBytes 2 s.ownId ++ beBytes 2 (s.cfgFld pgPair 0x100 27 16) ++ beBytes 4 (s.pair.takeSeq % 2 ^ 32)
  s.aliasTargets.foldl (fun (s : State) d =>
    match s.sendControl (s.routeGroups d) d 12 b with
    | some s => s.incReg pgPair 0x2054
    | none => s) s

/-- A promoted device starts to forward (R403, R409, R414). -/
def execTakeoverForwardStart (s : State) : Out :=
  if s.stands then .next s else
  if !s.pair.promoting then .next s
  else
    let s := { s with pair := { s.pair with promoting := false } }.dropPause
    let s := if s.topo = 2 then
        { s with pair := { s.pair with takeSeq := s.pair.takeSeq + 1, takeLeft := 2 } }.sendTakeover else s
    .next s.autoSync

/-- 10 µs after the last sending (R414). -/
def execTakeoverRepeat (s : State) : Out :=
  if s.stands then .next s else
  if s.pair.takeLeft = 0 then .next s
  else .next { s with pair := { s.pair with takeLeft := s.pair.takeLeft - 1 } }.sendTakeover

/-- 500 µs have passed (R400): HB_OUT toggles while its conditions hold. -/
def execHbToggle (s : State) : Out :=
  if s.stands then .next s else
  let kicked := match s.pair.kick with | some c => decide (s.time.cyc ≤ c + 3125000) | none => false
  let on := bit (s.reg pgCpctl 0x2000) 8 && kicked && !s.pair.wdtHit
  let s := s.updReg pgPair 0x2004 (fun w => putBit w 11 on)
  .next (if on then { s with pair := { s.pair with hbOut := !s.pair.hbOut } } else s)

/-! ### JOURNAL cells (R158, R404) -/

/-- The payload of a JOURNAL cell. -/
def journalBytes (flags seq gen : Nat) (r : List Word) : List Byte :=
  let b := [7, BitVec.ofNat 8 flags] ++ beBytes 2 (4 * r.length) ++ beBytes 8 (seq % 2 ^ 64) ++ beBytes 4 gen ++ r.flatMap wordBytes
  b ++ wordBytes (crc32 b)

/-- The pair group as a list of groups. -/
def State.pairGroups (s : State) : List Nat := match s.groupOfUse 2 with | some g => [g] | none => []

/-- The device at the other end of the pair group (R414). -/
def State.peerId (s : State) : Nat := if s.topo = 2 then s.cfgFld pgPair 0x100 27 16 else s.ownId

/-- Send a JOURNAL cell; none where no member can carry it. -/
def State.sendJournalCell (s : State) (flags seq gen : Nat) (r : List Word) : Option State :=
  s.sendControl s.pairGroups s.peerId (20 + 4 * r.length) (journalBytes flags seq gen r)

/-- SYNC_GEN. -/
abbrev State.syncGen (s : State) : Nat := (s.reg pgPair 0x200C).toNat

/-! ### The bulk of a STATE_SYNC (R403, R404) -/

/-- The node of an index of 0 to 147,697: queues, groups, ports. -/
def nodeAt (i : Nat) : Nat × Nat := if i < 131072 then (0, i) else if i < 147456 then (1, i - 131072) else (2, i - 147456)

/-- The key of a node. -/
def nodeKey (lvl n : Nat) : Nat := 0x100000 * lvl + n

/-- Token item `i` of the copy: policers C, policers E or P, nodes C, nodes P, each as BUCKET, LEVEL and INDEX with its tokens. -/
def State.tokenItem (s : State) (i : Nat) : List Word :=
  let w := fun (b lvl ix : Nat) (x : Bucket) => [word (b * 2 ^ 30 + lvl * 2 ^ 28 + ix), BitVec.ofInt 32 x.bytes]
  if i < policerCount then w 0 0 i (s.polBuckets i).1
  else if i < 2 * policerCount then w 1 0 (i - policerCount) (s.polBuckets (i - policerCount)).2
  else if i < 2 * policerCount + nodeCount then
    let (l, n) := nodeAt (i - 2 * policerCount)
    w 2 l n (s.bucketC (nodeKey l n))
  else
    let (l, n) := nodeAt (i - 2 * policerCount - nodeCount)
    w 3 l n (s.bucketP (nodeKey l n))

/-- All the token items. -/
abbrev tokenCount : Nat := 2 * policerCount + 2 * nodeCount

/-- Append a TOKENS record of the items from `i` on: its items and the state. -/
def State.putTokens (s : State) (i : Nat) : Nat × State :=
  let n := min 26 (tokenCount - i)
  (n, s.journalPut 6 n ((List.range' i n).flatMap s.tokenItem))

/-- Append a COUNTERS record of the pairs from `i` on. -/
def State.putCounters (s : State) (i : Nat) : Nat × State :=
  let n := min 13 (pairCount - i)
  let w := fun k =>
    let (l, _) := s.readPair k false
    [l.getD 1 0, l.getD 0 0, l.getD 3 0, l.getD 2 0]
  (n, s.journalPut 7 n (word i :: (List.range' i n).flatMap w))

/-- Append a MAC record of the dynamic entries from slot `i` on: the next slot, its items, the state. -/
def State.putMacs (s : State) (i : Nat) : Nat × Nat × State :=
  let l := (s.tab.mac.filter (fun e => !e.2.static && decide (i ≤ e.1))).take 13
  let next := match l.getLast? with | some e => e.1 + 1 | none => i
  (next, l.length, s.journalPut 3 l.length
    (l.flatMap (fun e => learnWords 1 ⟨e.2.mac, e.2.vid, e.2.dest.toNat⟩ e.2.dest.toNat (s.learnTime e.2))))

/-- The next bulk record of a STATE_SYNC (R403): the operation goes on to its next phase where one is complete. Its parameters hold the next
item and the number of BULK_END. -/
def State.bulkRecord (s : State) (slot : Nat) (r : OpRec) : State :=
  let i := (r.params.getD 0 0).toNat
  let step := fun (s : State) (ph : Byte) (next n : Nat) => s.setOp slot { r with phase := ph, progress := r.progress + word n, params := [word next] }
  if r.phase = 1 then step (s.journalPut 8 0 [s.reg pgEpoch 0x2000]) 2 0 1
  else if r.phase = 2 ∧ s.tab.mac.any (fun e => !e.2.static && decide (i ≤ e.1)) then
    let (next, n, t) := s.putMacs i
    step t 2 next n
  else if r.phase = 2 then
    let (n, t) := s.putTokens 0
    step t 3 n n
  else if r.phase = 3 ∧ i < tokenCount then
    let (n, t) := s.putTokens i
    step t 3 (i + n) n
  else if r.phase = 3 then
    let (n, t) := s.putCounters 0
    step t 4 n n
  else if r.phase = 4 ∧ i < pairCount then
    let (n, t) := s.putCounters i
    step t 4 (i + n) n
  else if r.phase = 4 then
    let t := (s.journalPut 10 0 []).setOp slot { r with phase := 5, params := [0, word s.pair.jNext] }
    { t with pair := { t.pair with jBulk := true } }
  else s

/-- The STATE_SYNC that runs. -/
def State.syncRunning (s : State) : Option (Nat × OpRec) :=
  s.ops.recs.find? (fun e => e.2.kind == .stateSync && e.2.state == .running)

/-- Append what the active sends next where no record waits (R403, R405): RESYNC_NEEDED of a broken journal, a bulk record, a record of the
sweep. -/
def State.nextRecord (s : State) : State :=
  if s.pair.jUnsent ≠ 0 ∨ 65536 ≤ s.pair.jSent.length then s
  else if s.pair.jResync then { s with pair := { s.pair with jResync := false } }.journalPut 11 0 []
  else match s.syncRunning with
    | some (slot, r) => if r.phase = 0 ∨ r.phase = 5 then s else s.bulkRecord slot r
    | none => match s.pair.sweep with
      | none => s
      | some i =>
        let (n, t) := if i < pairCount then s.putCounters i else s.putTokens (i - pairCount)
        { t with pair := { t.pair with sweep := if pairCount + tokenCount ≤ i + n then none else some (i + n) } }

/-- Send one record (R404): counted, and shown in JOURNAL_SEQ. -/
def State.sendRecord (s : State) (r : Nat × List Word) : Option State :=
  (s.sendJournalCell 0 r.1 s.syncGen r.2).map (fun (t : State) => (t.setReg pgPair 0x2010 (word r.1)).incReg pgPair 0x2040)

/-- Whether the active's journal runs (R38, R399). -/
def State.journalUp (s : State) : Bool := s.role == 1 && s.enabled pgPair && s.pairUp

/-- The active sends its next record (R402-R404). -/
def State.recordSend (s : State) : State :=
  if !s.journalUp || !s.pair.jOn then s
  else
    let s := s.nextRecord
    match s.pair.jSent.drop (s.pair.jSent.length - s.pair.jUnsent) with
    | [] => s
    | r :: _ => match s.sendRecord r with
      | none => s
      | some t =>
        let t := { t with pair := { t.pair with jUnsent := t.pair.jUnsent - 1 } }
        match t.syncRunning with
        | some (slot, o) => t.setOp slot (o.setDetail 5 (o.detail.getD 1 0 + 1))
        | none => t

/-- A record leaves. -/
def execJournalRecordSend (s : State) : Out := if s.stands then .next s else .next s.recordSend

/-- RETX_TIME passes without progress (R405): the sent records go out again, from the oldest. -/
def execJournalRetx (s : State) : Out :=
  if s.stands then .next s else
  if !s.journalUp then .next s
  else .next ((s.pair.jSent.take (s.pair.jSent.length - s.pair.jUnsent)).foldl (fun (s : State) r =>
    match s.sendJournalCell 0 r.1 s.syncGen r.2 with
    | some t => t.incReg pgPair 0x2044
    | none => s) s)

/-- The standby acknowledges what it has applied in sequence (R404, R405). -/
def State.journalAck (s : State) (gen : Nat) (refuse : Bool) : State :=
  (s.sendJournalCell refuse.toNat (s.pair.jNext - 1) gen []).getD s

/-- 100 µs without a record (R404, R405): the active sends a HEARTBEAT, the standby its acknowledgement. -/
def execJournalHeartbeat (s : State) : Out :=
  if s.stands then .next s else
  if s.role = 2 ∧ s.enabled pgPair ∧ s.pair.jOn ∧ 0 < s.pair.jNext then .next (s.journalAck s.syncGen false)
  else if s.journalUp && s.pair.jOn && s.pair.jUnsent == 0 && decide (s.pair.jSent.length < 65536) then .next (s.journalPut 1 0 []).recordSend
  else .next s

/-- SWEEP_PERIOD passes (R403): counters and buckets are journalled anew, once the bulk has been sent. -/
def execJournalSweep (s : State) : Out :=
  if s.stands then .next s else
  if s.role = 1 ∧ s.pair.jOn ∧ s.pair.jBulk then .next { s with pair := { s.pair with sweep := some 0 } } else .next s

/-- An acknowledgement reaches the active (R403, R405): the records up to it are done; REFUSE ends the STATE_SYNC. -/
def State.journalAcked (s : State) (gen ack : Nat) (refuse : Bool) : State :=
  if s.role ≠ 1 ∨ !s.enabled pgPair ∨ gen ≠ s.syncGen ∨ !s.pair.jOn then s
  else if refuse then
    let s := { s with pair := { s.pair with jOn := false, jSent := [], jUnsent := 0, sweep := none } }
    match s.ops.recs.find? (fun e => e.2.kind == .stateSync && !e.2.state.terminal) with
    | some e => s.endOp e.1 .failed .cfgLocked
    | none => s
  else
    let n := s.pair.jSent.length - s.pair.jUnsent
    let sent := (s.pair.jSent.take n).filter (fun r => decide (ack < r.1))
    let s := { s with pair := { s.pair with jSent := sent ++ s.pair.jSent.drop n } }.setReg pgPair 0x2014 (word ack)
    match s.ops.recs.find? (fun e => e.2.kind == .stateSync && !e.2.state.terminal) with
    | none => s
    | some (slot, r) =>
      if r.phase = 0 ∧ r.state ≠ .queued then s.setOp slot { r with phase := 1 }
      else if r.phase = 5 ∧ (r.params.getD 1 0).toNat ≤ ack then s.endOp slot .done .ok else s

/-- A journal acknowledgement is received. -/
def execJournalAckRx (generation ack : Word) (refuse : Bool) (s : State) : Out :=
  if s.stands then .next s else
  .next (s.journalAcked generation.toNat ack.toNat refuse)

/-! ### The standby applies a record (R402, R404-R407) -/

/-- A refused write of the journal (R402): RELAY_REJECT, and its address. -/
def State.journalRefused (s : State) (addr : Nat) : State := (s.orReg pgPair 0x2000 0x800#32).setReg pgPair 0x201C (word addr)

/-- Apply a CONFIG_WRITE: each word as a WRITE_MASKED at consecutive addresses. -/
def State.applyWrites (s : State) (addr : Nat) (mask : Word) : List Word → State
  | [] => s
  | d :: t =>
    let (st, s) := s.busWrite ⟨.core 0, 7, .journal, none⟩ addr mask d
    (if st = .ok then s else s.journalRefused addr).applyWrites (addr + 4) mask t

/-- Apply an entry of a MAC record: a removal for DELETE and AGE, else the entry as the active has it; STATIC entries stay. -/
def State.applyMac (s : State) (l : List Word) : State :=
  let e := LearnEnt.of (BitVec.ofNat 128 (l.foldl (fun n w => n * 2 ^ 32 + w.toNat) 0))
  match s.macFind e.mac e.vid with
  | some (ix, x) =>
    if x.static then s
    else if e.op = 3 ∨ e.op = 4 then s.setMac (Store.erase ix s.tab.mac)
    else (s.putLearned e).getD s
  | none => if e.op = 3 ∨ e.op = 4 then s else (s.putLearned e).getD s

/-- Apply a pair of a TOKENS record. -/
def State.applyToken (s : State) (l : List Word) : State :=
  let w := l.getD 0 0
  let b : Bucket := ⟨(l.getD 1 0).toInt * (byteUnit : Int), s.time.cyc⟩
  let ix := fld w 18 0
  let k := nodeKey (fld w 29 28) ix
  match fld w 31 30 with
  | 0 => s.setPol ix (b, (s.polBuckets ix).2)
  | 1 => s.setPol ix ((s.polBuckets ix).1, b)
  | 2 => s.setBuckets k b (s.bucketP k)
  | _ => s.setBuckets k (s.bucketC k) b

/-- Apply the pairs of a COUNTERS record from index `i` on. -/
def State.applyCounters (s : State) (i : Nat) : List (List Word) → State
  | [] => s
  | l :: t =>
    let v := fun k => (l.getD k 0).toNat * 2 ^ 32 + (l.getD (k + 1) 0).toNat
    (s.setPair i (v 0) (v 2)).applyCounters (i + 1) t

/-- The active has switched its epoch (R407): a standby that has not takes the number now. -/
def State.followSwitch (s : State) (no : Nat) : State :=
  let s := if s.standing = no then s else s.drivenSwitch no
  { s with tab := { s.tab with switchAt := none, switchNo := none } }

/-- Apply the body of a record (R404, R407). -/
def State.applyRecord (s : State) (r : List Word) : State :=
  let items := fld (r.getD 0 0) 15 0
  let b := r.drop 2
  let w := fun i => b.getD i 0
  match fld (r.getD 0 0) 31 24 with
  | 2 => s.applyWrites (w 0).toNat (w 1) ((b.drop 2).take items)
  | 3 => (pieces 4 items b).foldl (fun (s : State) l => s.applyMac l) s
  | 4 => { s with tab := { s.tab with switchAt := some (dueOf (b.drop 1)), switchNo := some (fld (w 0) 15 0) } }
  | 5 => s.followSwitch (fld (w 0) 15 0)
  | 6 => (pieces 2 items b).foldl (fun (s : State) l => s.applyToken l) s
  | 7 => s.applyCounters (w 0).toNat (pieces 4 items (b.drop 1))
  | 8 => s.setReg pgEpoch 0x2000 (w 0)
  | 10 => { s with pair := { s.pair with jBulk := true } }
  | 11 => s.setSync 0
  | _ => s

/-- SYNC after a record has been applied in sequence (R406). -/
def State.syncAfter (s : State) : State :=
  let s := if s.sync = 3 ∧ s.pairUp then s.setSync s.pair.remember else s
  if s.sync = 1 ∧ s.pair.jBulk ∧ s.lagNs ≤ 1000000 then s.setSync 2 else s

/-- A record has been applied: JOURNAL_SEQ, JOURNAL_RECORDS, CREATED, SYNC, the pins, the acknowledgement. -/
def State.recordApplied (s : State) (gen seq : Nat) (r : List Word) : State :=
  let s := { s with pair := { s.pair with jNext := seq + 1, jCreated := (r.getD 1 0).toNat } }
  let s := (s.setReg pgPair 0x2010 (word seq)).incReg pgPair 0x2040
  s.syncAfter.rdyEval.journalAck gen false

/-- SYNC_START with sequence 0 (R34, R405, R406): a new generation, refused where profile or topology differ. -/
def State.syncStart (s : State) (gen : Nat) (r : List Word) : State :=
  let w := r.getD 2 0
  if fld w 2 0 ≠ s.profile ∨ fld w 9 8 ≠ s.topo then (s.sendJournalCell 1 0 gen []).getD s
  else
    let s := { s with pair := { s.pair with jOn := true, jBulk := false } }.setReg pgPair 0x200C (word gen)
    (s.setSync 1).recordApplied gen 0 r

/-- A record reaches this device (R405, R412). -/
def State.journalIn (s : State) (gen seq : Nat) (r : List Word) : State :=
  if !s.enabled pgPair || s.role == 0 then s
  else if s.role = 1 then (s.incReg pgPair 0x2048).orReg pgPair 0x2004 0x40000#32
  else if s.winding then s
  else if fld (r.getD 0 0) 31 24 = 9 ∧ seq = 0 ∧ (gen ≠ s.syncGen ∨ !s.pair.jOn) then s.syncStart gen r
  else if gen ≠ s.syncGen ∨ !s.pair.jOn then s
  else if seq ≠ s.pair.jNext then s.journalAck gen false
  else (s.applyRecord r).recordApplied gen seq r

/-- A JOURNAL cell is received: a record, or with no words an acknowledgement (R404). -/
def execJournalRx (generation seq : Word) (records : List Word) (s : State) : Out :=
  if s.stands then .next s else
  .next (if records.isEmpty then s.journalAcked generation.toNat seq.toNat false else s.journalIn generation.toNat seq.toNat records)

end Sys2Proof.Machine
end

