-- ==== Sys2Proof/Machine/CellRx.lean ====
section
/-! DEFINITION. A cell that arrives on a member lane (R153, R154, R157, R158, R164): the checks in their order, and what a delivered cell
does. -/
namespace Sys2Proof.Machine

/-- The number in `n` bytes of a payload from byte `i` on. -/
abbrev cellNum (p : List Byte) (i n : Nat) : Nat := beNat (bytesAt p i n)

/-- Types that travel on one link (R150, R157). -/
def linkLocal (ty : Nat) : Bool := ty == 1 || ty == 2 || ty == 4 || ty == 5

/-- The LEN that the layout of a control cell needs (R157, R158); none where a COUNT or RECORD_LEN is outside its range. -/
def layoutLen (p : List Byte) : Option Nat :=
  let n := byteAt p 1
  let l := half p 2
  let c := half p 4
  match byteAt p 0 with
  | 1 => some 8
  | 2 => some 16
  | 3 => if 1 ≤ n ∧ n ≤ 20 then some (4 + 8 * n) else none
  | 4 => if 1 ≤ n ∧ n ≤ 60 then some (4 + 4 * n) else none
  | 5 => some 40
  | 6 => if 1 ≤ n ∧ n ≤ 15 then some (4 + 16 * n) else none
  | 7 => if l ≤ 224 ∧ l % 4 = 0 then some (20 + l) else none
  | 8 => some 12
  | _ => if c ≤ 56 then some (20 + 4 * c) else none

/-- Whether the CRC-32 that follows `n` bytes of a payload is right (R158). -/
def cellCrcOk (p : List Byte) (n : Nat) : Bool := cellNum p n 4 == (crc32 (p.take n)).toNat

/-- Words of a payload from byte `i` on. -/
def cellWords (p : List Byte) (i n : Nat) : List Word := (List.range n).map (fun k => word (cellNum p (i + 4 * k) 4))

/-- A SEQ gap among the control cells of a lane, or of a source (R153); the first cell makes none. -/
def State.seqGap (s : State) (g k seq : Nat) : State :=
  let d := match s.sprue.seqIn.find? (fun e => e.1 == k) with
    | some e => (seq + 65536 - e.2) % 65536
    | none => 0
  let s := { s with sprue := { s.sprue with seqIn := Store.insert k ((seq + 1) % 65536) s.sprue.seqIn } }
  if d < 32768 then s.addReg (sprPage g) 0x2024 d else s

/-- A TIME cell (R158). -/
def State.timeCellIn (s : State) (g m : Nat) (p : List Byte) : State :=
  let t := fun i => ofTod96 (BitVec.ofNat 96 (cellNum p i 12))
  if byteAt p 1 % 4 = 0 then s.timeRequest g m (half p 2) (t 4)
  else if byteAt p 1 % 4 = 1 then s.timeResponse g m (half p 2) (t 4) (t 16) (t 28) else s

/-- A CREDIT_GRANT cell from a source (R158, R374). -/
def State.grantCellIn (s : State) (src : Nat) (p : List Byte) : State :=
  (List.range (byteAt p 1)).foldl (fun (s : State) k =>
    let e := cellNum p (4 + 8 * k) 8
    s.creditIn src (e / 2 ^ 48) (e / 2 ^ 45 % 8) (e / 65536 % 65536)) s

/-- A JOURNAL cell (R404). -/
def State.journalCellIn (s : State) (p : List Byte) : State :=
  let n := half p 2 / 4
  let seq := cellNum p 4 8
  let gen := cellNum p 12 4
  if n = 0 then s.journalAcked gen seq (byteAt p 1 % 2 == 1) else s.journalIn gen seq (cellWords p 16 n)

/-- A delivered control cell acts by its type (R158). The joint's cells act on the lowest JOINT group alone (R385). -/
def State.controlCell (s : State) (g m : Nat) (h : CellHdr) (p : List Byte) : State :=
  let n := byteAt p 1
  let s := if linkLocal (byteAt p 0) && s.isJoint g then s.jointCell h.src else s
  match byteAt p 0 with
  | 1 => s.rdiIn g m (n % 2 == 1)
  | 2 => s.markerIn g m (n % 2 == 1) (half p 2) (byteAt p 4 % 16) (cellNum p 8 4) (half p 12) (half p 14)
  | 3 => s.grantCellIn h.src p
  | 4 => s.flowIn g m ((List.range n).map (fun k => (cellNum p (4 + 4 * k) 4 / 2 ^ 20, byteAt p (7 + 4 * k))))
  | 5 => s.timeCellIn g m p
  | 6 => if s.isJoint g then s.learnBatch (half p 2) ((List.range n).map (fun k => LearnEnt.of (BitVec.ofNat 128 (cellNum p (4 + 16 * k) 16)))) else s
  | 7 => if s.groupOfUse 2 == some g then s.journalCellIn p else s
  | 8 => s.takeoverIn (half p 2 % 4096) (half p 4 % 4096) (half p 6 % 4096)
  | _ =>
    if s.isJoint g then
      s.configRelayIn n (half p 2) (word (cellNum p 8 4)) (word (cellNum p 12 4)) (cellWords p 16 (half p 4))
    else s

/-! ### Deskew and the order of delivery (R164, R165) -/

/-- A cell of the group's data, or an addressed control cell, is delivered in its place: a SEQ gap, its count, its effect. -/
def State.deliver (s : State) (g m : Nat) (c : WaitCell) : State :=
  let h := c.hdr
  if h.ctl then ((s.seqGap g (1000 + h.src) h.seq).countCell g true true true h.len).controlCell g m h c.payload
  else (s.countCell g false h.first true h.len).dataCell h.src h.cls ⟨h.seq, h.first, h.last, c.payload.take h.len⟩

/-- Whether a member can still bring a cell that comes before slot `n` of member `m`: it is read, in SYNC, aligned by a MARKER, and has not come so
far. -/
def State.mayPrecede (s : State) (g m n m' : Nat) : Bool :=
  m' != m && (s.readMask g).testBit m' && s.memberLive g m' && s.delin g m' == 2 && bit (s.memStatus g m') 2
    && decide (Store.get 0 (laneKey g m') s.sprue.rxSlot < (if m' < m then n + 1 else n))

/-- The next cell of a group that may be delivered, of the members that hold one: the earliest slot, then the lowest member, once no other member can
precede it; a member not aligned by a MARKER, or a cell held for 2 µs, 3,125 cycles, waits for none. -/
def State.nextHeld (s : State) (g : Nat) : Option (Nat × WaitCell) :=
  let heads := (List.range 16).filterMap (fun m => ((Store.get [] (laneKey g m) s.sprue.held).head?).map (fun c => (m, c)))
  let first := heads.foldl (fun (b : Option (Nat × WaitCell)) e =>
    match b with
    | some (_, c) => if e.2.slot < c.slot then some e else b
    | none => some e) none
  let free := fun (e : Nat × WaitCell) => !bit (s.memStatus g e.1) 2 || decide (e.2.cyc + 3125 ≤ s.time.cyc)
  match first with
  | some e => if free e || !(List.range 16).any (s.mayPrecede g e.1 e.2.slot) then some e else heads.find? free
  | none => none

/-- Deliver what a group holds as far as its order allows (R164). -/
def State.deskew (s : State) (g : Nat) : Nat → State
  | 0 => s
  | n + 1 => match s.nextHeld g with
    | none => s
    | some (m, c) =>
      let k := laneKey g m
      ({ s with sprue := { s.sprue with held := Store.set [] k (Store.get [] k s.sprue.held).tail s.sprue.held } }.deliver g m c).deskew g n

/-- Cells that a group holds for deskew. -/
def State.heldCells (s : State) (g : Nat) : Nat := (List.range 16).foldl (fun n m => n + (Store.get [] (laneKey g m) s.sprue.held).length) 0

/-- Every group delivers what it may. -/
def State.deskewAll (s : State) : State := (List.range 16).foldl (fun (s : State) g => s.deskew g (s.heldCells g)) s

/-- Hold a cell of the present slot of a member for its place in the group's order. -/
def State.holdCell (s : State) (g m : Nat) (h : CellHdr) (p : List Byte) : State :=
  let k := laneKey g m
  { s with sprue := { s.sprue with held := Store.upd [] k (· ++ [⟨h, p, Store.get 0 k s.sprue.rxSlot, s.time.cyc⟩]) s.sprue.held } }

/-! ### A received cell -/

/-- The checks of R153 on a control cell; one of the link acts at once, an addressed one in its place. -/
def State.controlIn (s : State) (g m : Nat) (h : CellHdr) (p : List Byte) : State :=
  let pg := sprPage g
  let ty := byteAt p 0
  let local_ := h.dst == 0xFFF
  if ty = 0 ∨ 9 < ty ∨ linkLocal ty ≠ local_ then s.incReg pg 0x201C
  else match layoutLen p with
    | none => s.incReg pg 0x2018
    | some n =>
      if h.len < n then s.incReg pg 0x2018
      else if (ty = 7 ∨ ty = 9) ∧ !cellCrcOk p (n - 4) then s.incReg pg 0x2020
      else if local_ then ((s.seqGap g (laneKey g m) h.seq).countCell g true true true h.len).controlCell g m h p
      else if (s.readMask g).testBit m then s.holdCell g m h p else s

/-- The checks of R153, in their order, on a cell whose HEC is correct: the slots of members outside the mask in force are not read (R164). -/
def State.cellIn (s : State) (g m : Nat) (h : CellHdr) (p : List Byte) (fecBad : Bool) : State :=
  let pg := sprPage g
  if fecBad then ((s.incReg pg (memReg m 0x0C)).cellErr g m 1).slotLost g m
  else if h.rsvd ≠ 0 ∨ h.len = 0 ∨ 248 < h.len ∨ (!h.ctl && !h.last && h.len ≠ 248) then s.incReg pg 0x2018
  else if h.dst = 0xFFF ∧ !h.ctl then s
  else if h.dst ≠ 0xFFF ∧ h.dst ≠ s.ownId then s.incReg pg 0x2014
  else if h.ctl then s.controlIn g m h p
  else if (s.readMask g).testBit m then s.holdCell g m h p else s

/-- A cell arrives at the expected position of a member in SYNC (R153, R154): header, payload as on the lane, whether a byte of it lies in an
uncorrectable codeword, and the places of control blocks in it, whose bytes are 0x00 (R147). DEDUCED: a control block discards its cell and counts it in
FEC_CELL_DISCARD as an uncorrectable codeword does; where it makes the header wrong, the cell counts in HEC_ERR as well (log entry 134). -/
def execCellRx (g m : Fin 16) (hdr : BitVec 64) (payload : List Byte) (fecBad : Bool) (ctlBlocks : List (Nat × Nat)) (s : State) : Out :=
  if s.stands then .next s else
  let g := g.val
  let m := m.val
  let k := laneKey g m
  let l := (s.memberLane g m).getD 0
  if !s.memberLive g m || s.delin g m != 2 then .next s
  else
    let cell := zeroBlocks (beBytes 8 hdr.toNat ++ payload) ctlBlocks
    let hdr := BitVec.ofNat 64 (beNat (cell.take 8))
    let (p, hist) := scrRun descrambleByte (Store.get 0 l s.sprue.descr) (cell.drop 8)
    let s := { s with sprue := { s.sprue with descr := Store.set 0 l hist s.sprue.descr } }
    let block := !ctlBlocks.isEmpty
    let s := if !hecOk hdr then (if block then (s.incReg (sprPage g) (memReg m 0x0C)).cellErr g m 1 else s).badHeader g m
      else { s with sprue := { s.sprue with good := Store.set 0 k 0 s.sprue.good } }.cellIn g m (CellHdr.ofBits hdr) p (fecBad || block)
    .next ((s.rxStep g m).deskewAll)

end Sys2Proof.Machine
end

