-- ==== Sys2Proof/Machine/Clock.lean ====
section
/-! DEFINITION. One CORE_CLK cycle (R25, R335): the clocks advance, and what follows the cycle count with them. -/
namespace Sys2Proof.Machine

/-- Cell slots are 16 cycles long (R148): cells held for deskew are delivered as far as their order allows (R164), and the pins follow the journal lag
as often (R400). -/
def State.slotTick (s : State) : State := if s.time.cyc % 16 = 0 then (s.sprueSlot.deskewAll).pinsEval else s

/-- CYCLES (R425): the cycle is an event, of no frame and no instruction. -/
def State.cycleEvent (s : State) : State := s.pmuCount ⟨0x01, none, [], none, none⟩

/-- The clocks advance by a cycle; a step of the time base acts on gates, a commit, launch slots and bins (R170, R247, R317, R354). -/
def State.clockRun (s : State) : State := if s.clockNext.2.1 then s.clockTick.afterStep s.nowNs else s.clockTick

/-- A cycle passes (R333-R335): the time base and the domain clocks advance, relayed domain controls whose instant has come take effect
(R334), a range set goes on (R423), cell slots end (R159), ORDERED commands that may do start (R85), and the cycle is counted (R425). No clock runs before the root PLL
has locked (R462). -/
def execTimeBaseTick (s : State) : Out :=
  if s.stands then .next s else
  if s.pow.phase < 4 then .next s else .next s.clockRun.domTick.setTick.slotTick.orderedNow.cycleEvent

end Sys2Proof.Machine
end

