-- ==== Sys2Proof/Machine/I3c.lean ====
section
/-! DEFINITION. The I3C target (R57, R68-R71, R93) and the frames of the management lane (R72, R146). -/
namespace Sys2Proof.Machine

/-! ### Addresses and replies -/

/-- HOST_STATUS.DYN_VALID and DYN_ADDR. -/
abbrev State.dynValid (s : State) : Bool := bit (s.reg pgHostif 0x2000) 8
abbrev State.dynAddr (s : State) : Nat := s.regFld pgHostif 0x2000 7 1

/-- STATIC_ADDR. -/
abbrev State.staticAddr (s : State) : Nat := s.regFld pgHostif 0x2004 6 0

/-- What the device did in the transfer. -/
def State.i3cReply (s : State) (r : BusReply) : State := { s with host := { s.host with reply := r } }

/-- Take a dynamic address. -/
def State.setDyn (s : State) (a : BitVec 7) : State := s.setRegFld pgHostif 0x2000 8 1 (a.toNat + 0x80)

/-- Whether a directed CCC names this device. -/
def State.i3cMine (s : State) (target : BitVec 7) : Bool := s.dynValid && s.dynAddr == target.toNat

/-- The provisional ID: manufacturer 0x2D4E, part 0x2880, instance from the address straps (R68). -/
def State.pid (s : State) : Nat := 0x2D4E * 2 ^ 33 + 0x2880 * 2 ^ 16 + s.regFld 0 0x2064 2 1 * 2 ^ 12

/-- BCR: HDR capability, IBI payload, IBI requests (R68). -/
abbrev bcr : Byte := 0x26

/-! ### CCCs (R68) -/

/-- ENTDAA: a target without a dynamic address gives its provisional ID, BCR and DCR, and takes the address. -/
def execEntdaa (addr : BitVec 7) (s : State) : Out :=
  if s.inReset then .next s else
  .next (if s.dynValid then s.i3cReply .silent else (s.setDyn addr).i3cReply (.data (beBytes 6 s.pid ++ [bcr, Config.dcr])))

/-- SETDASA, to the static address. -/
def execSetdasa (target addr : BitVec 7) (s : State) : Out :=
  if s.inReset then .next s else
  .next (if !s.dynValid && s.staticAddr == target.toNat then (s.setDyn addr).i3cReply .ack else s.i3cReply .silent)

/-- SETNEWDA. -/
def execSetnewda (target addr : BitVec 7) (s : State) : Out :=
  if s.inReset then .next s else
  .next (if s.i3cMine target then (s.setDyn addr).i3cReply .ack else s.i3cReply .silent)

/-- RSTDAA, a broadcast. -/
def execRstdaa (s : State) : Out := if s.inReset then .next s else .next ((s.setRegFld pgHostif 0x2000 8 1 0).i3cReply .ack)

/-- A directed read that returns bytes. -/
def State.cccRead (s : State) (target : BitVec 7) (bytes : List Byte) : State :=
  s.i3cReply (if s.i3cMine target then .data bytes else .silent)

/-- GETPID. -/
def execGetpid (target : BitVec 7) (s : State) : Out := if s.inReset then .next s else .next (s.cccRead target (beBytes 6 s.pid))

/-- GETBCR. -/
def execGetbcr (target : BitVec 7) (s : State) : Out := if s.inReset then .next s else .next (s.cccRead target [bcr])

/-- GETDCR: the spec gives no value (log entry 2). -/
def execGetdcr (target : BitVec 7) (s : State) : Out := if s.inReset then .next s else .next (s.cccRead target [Config.dcr])

/-- GETSTATUS: the content is not stated, a free value at each read (log entry 2). -/
def execGetstatus (target : BitVec 7) (s : State) : Out :=
  if s.inReset then .next s else
  let (n, s) := s.fresh
  .next (s.cccRead target (beBytes 2 (Config.i3cStatus n).toNat))

/-- GETMXDS: the content is not stated (log entry 2). -/
def execGetmxds (target : BitVec 7) (s : State) : Out := if s.inReset then .next s else .next (s.cccRead target (beBytes 2 Config.i3cMaxSpeed.toNat))

/-- Whether a CCC reaches this device: a broadcast, or one directed at it. -/
def State.cccReaches (s : State) (target : Option (BitVec 7)) : Bool := match target with | none => true | some t => s.i3cMine t

/-- Allow or forbid in-band interrupts (R93). -/
def State.setIbiOff (s : State) (target : Option (BitVec 7)) (off : Bool) : State :=
  if s.cccReaches target then { s with host := { s.host with ibiOff := off, reply := .ack } } else s.i3cReply .silent

/-- ENEC (R93): events that arose meanwhile are requested from now on. -/
def execEnec (target : Option (BitVec 7)) (s : State) : Out := if s.inReset then .next s else .next (s.setIbiOff target false)

/-- DISEC (R93). -/
def execDisec (target : Option (BitVec 7)) (s : State) : Out := if s.inReset then .next s else .next (s.setIbiOff target true)

/-- ENTHDR0 while HDR_EN = 1. -/
def execEnthdr0 (s : State) : Out :=
  if s.inReset then .next s else
  .next (if bit (s.cfg pgHostif 0x100) 0 then { s with host := { s.host with hdr := true, reply := .ack } } else s.i3cReply .silent)

/-- Another CCC: NACKed where directed at the device, ignored as a broadcast. -/
def execUnsupportedCcc (_code : Byte) (target : Option (BitVec 7)) (s : State) : Out :=
  if s.inReset then .next s else
  .next (s.i3cReply (match target with | some t => if s.i3cMine t then .nack else .silent | none => .silent))

/-! ### Resets of the I3C logic (R57, R69) -/

/-- The I3C logic is reset: an owner reset of owner 1; the dynamic address is kept. -/
def State.i3cReset (s : State) : State :=
  let s := s.ownerReset .i3c
  { s with host := { s.host with hdr := false, ibiOff := false, reply := .silent } }

/-- A target reset pattern, or RSTACT 0x01 (R69). -/
def execI3cTargetReset (s : State) : Out := if s.inReset then .next s else .next s.i3cReset

/-- RSTACT 0x02 (R69, R476): also a warm reset where WHOLE_RST_EN = 1. -/
def execRstactWholeReset (s : State) : Out :=
  if s.inReset then .next s else
  .next (if bit (s.cfg pgHostif 0x100) 1 then s.i3cReset.warmRequest 8 else s.i3cReset)

/-- An I3C bus reset (R57). -/
def execI3cBusReset (s : State) : Out :=
  if s.inReset then .next s else .next (({ s with host := { s.host with hdr := false, reply := .silent } }).ownerReset .i3c)

/-! ### Private transfers (R70, R71) -/

/-- A private read: the oldest response, or a NACK. -/
def State.i3cRead (s : State) : State :=
  match s.host.resp with
  | [] => s.i3cReply .nack
  | r :: rest => { s with host := { s.host with resp := rest, reply := .data r } }

/-- A private read (R70). -/
def execPrivateRead (s : State) : Out := if s.inReset then .next s else .next s.i3cRead

/-- A request frame as received; one too short for its header and CRC fails the byte count (R76). -/
def receivedRequest (a : Agent) (f : List Byte) : Nat × Request :=
  (parseRequest a f).getD ((f.headD 0).toNat, ⟨a, f.getD 1 0, 0, 0, 1, 0, [], 0⟩)

/-- An I2C transfer at the static address (R71), while no dynamic address is assigned or I2C_EN = 1. -/
def execI2cTransfer (addr : BitVec 7) (dir : I2cDir) (s : State) : Out :=
  if s.inReset then .next s else
  if addr.toNat ≠ s.staticAddr ∨ (s.dynValid ∧ !bit (s.cfg pgHostif 0x100) 2) then .next (s.i3cReply .silent)
  else match dir with
    | .read => .next s.i3cRead
    | .write bytes =>
      let (op, rq) := receivedRequest .i3c bytes
      .next (s.i3cWrite op rq .none)

/-! ### In-band interrupts (R93) -/

/-- The group that has become pending and is routed here. -/
def State.newGroup (s : State) : Option (Nat × Nat) :=
  (List.range 6).findSome? (fun g =>
    if s.routed g 1 && !s.host.groupSeen.getLsbD g then (s.groupLowest g).map (fun p => (g, p)) else none)

/-- The device requests an in-band interrupt: the oldest event, else a group that became pending. `acked` is the controller's answer; a
refused request is retried. -/
def execIbiRequest (acked : Bool) (s : State) : Out :=
  if s.inReset then .next s else
  let s := s.forgetGroups
  if s.host.ibiOff || !s.dynValid || !acked then .next s
  else match s.host.ibis with
    | e :: rest => .next { s with host := { s.host with ibis := rest, ibiLast := some e } }
    | [] => match s.newGroup with
      | some (g, p) =>
        let e : Byte × Byte := (BitVec.ofNat 8 (8 + g), BitVec.ofNat 8 p)
        .next { s with host := { s.host with ibiLast := some e, groupSeen := s.host.groupSeen ||| (1#6 <<< g) } }
      | none => .next s

/-! ### The management lane (R72, R146) -/

/-- A frame ends on the management lane (R72, R131, R146): counted; discarded, handled as a command, or passed to the data path, to which the
first 256 bytes of a longer one may have been offered already (R174). DESIGN CHOICE, unsafe: a PFC frame, which the lane does not know, counts as
RX_PAUSE_DISCARD (log entry 131). -/
def execMgmtFrameRx (frame : List Byte) (fcsOk : Bool) (s : State) (fifoFull : Bool := false) : Out :=
  if s.stands then .next s else
  if s.port.arriving.any (fun e => e.1 == 241) then .next (s.rxEnd 241 (frame.drop 256) fcsOk)
  else if !s.macTakes 241 then .next s
  else
    let s := s.incReg pgMgmt 0x2004
    let r := s.macRow 241 frame fcsOk
    if r ≠ 5 then .next (s.macCount 241 (min r 3))
    else match s.mgmtFrameKind frame with
      | .data => .next (s.rxWhole 241 frame true fifoFull)
      | .discard => .next (s.incReg pgHostif 0x2018)
      | .command mac vlan bytes =>
        let (op, rq) := receivedRequest .mgmt bytes
        .next (s.hostCommand .mgmt (.mgmt mac vlan) op rq .none)

end Sys2Proof.Machine
end

