-- ==== Sys2Proof/Machine/Launch.lean ====
section
/-! DEFINITION. The launch engine (R352-R358): placement, application and loss of the slots that the window writes armed. -/
namespace Sys2Proof.Machine

/-- SLOT_CTRL.LATE_OK. -/
abbrev State.lateOk (s : State) (k : Nat) : Bool := bit (s.slotW k 3) 8

/-- A step has carried the time base past the slot's T (R354). -/
abbrev State.slotStepped (s : State) (k : Nat) : Bool := s.launch.stepped.contains k

/-- Forget what the engine holds of a slot that ends. -/
def State.slotDone (s : State) (k : Nat) : State :=
  { s with launch := { stepped := s.launch.stepped.filter (fun x => x != k), armers := Store.erase k s.launch.armers } }

/-- Who armed a slot. -/
def State.slotArmer (s : State) (k : Nat) : Agent := Store.get (.core 0) k s.launch.armers

/-- One launched write (R352, R355). -/
def State.launchWrite (s : State) (a : Agent) (k i : Nat) : State :=
  let addr := (s.slotW k (64 + 4 * i)).toNat
  let m := s.slotW k (66 + 4 * i)
  let d := s.slotW k (65 + 4 * i)
  let (st, t) := s.busWrite ⟨a, 0, .launch, none⟩ addr m d
  if st = .ok then t.mirrorWrite a.id addr m d else t

/-- A slot applies (R354, R355): its writes in entry order, all in this cycle, then the Quench that it asks for. -/
def State.applySlot (s : State) (k : Nat) (late : Bool) : State :=
  let c := fld (s.slotW k 3) 6 0
  let quench := bit (s.slotW k 3) 9
  let a := s.slotArmer k
  let s := (List.range c).foldl (fun s i => s.launchWrite a k i) s
  let s := ((s.setSlotState k 3).updWin pgLaunch ((k * 512 + 4) / 64) ((k * 512 + 4) % 64) (fun w => putBit w 3 late)).slotDone k
  let s := (s.incReg pgLaunch 0x2004).raise pgLaunch 16
  let s := if late then (s.incReg pgLaunch 0x2008).raise pgLaunch 18 else s
  let s := ((s.setSlotW k 5 (word (s.nowSec / 2 ^ 32 % 65536))).setSlotW k 6 (word s.nowSec)).setSlotW k 7 (word s.nowSub)
  if quench then s.quench 2 else s

/-- A slot is MISSED (R354). -/
def State.missSlot (s : State) (k : Nat) : State := (((s.setSlotState k 4).slotDone k).incReg pgLaunch 0x200C).raise pgLaunch 17

/-- A slot's placement completes (R354). -/
def execLaunchPlaced (k : BitVec 8) (s : State) : Out :=
  if s.stands then .next s else
  let k := k.toNat
  if s.slotState k ≠ 1 then .next s
  else if !s.slotDue k then .next (s.setSlotState k 2)
  else if s.lateOk k && !s.safe pgLaunch then .next (s.applySlot k true)
  else .next (s.missSlot k)

/-- Whether slot `j` goes before slot `k` where both are due (R354, R356): in one cycle the lower number. -/
def State.slotFirst (s : State) (j k : Nat) : Bool :=
  if s.slotStepped j || s.slotT j == s.slotT k then decide (j < k) else decide (s.slotT j < s.slotT k)

/-- The time base reaches T of an ARMED slot (R354, R355); a slot that goes first is applied by an event of its own. -/
def execLaunchApply (k : BitVec 8) (s : State) : Out :=
  if s.stands then .next s else
  let k := k.toNat
  if s.slotApplying k && !(List.range 256).any (fun j => j != k && s.slotApplying j && s.slotFirst j k) then
    .next (s.applySlot k (s.slotStepped k))
  else .next s

/-- T passes and the slot is not applied (R38, R354): LAUNCH is SAFE, or a step passed T or placement ended late without LATE_OK. -/
def execLaunchMissed (k : BitVec 8) (s : State) : Out :=
  if s.stands then .next s else
  let k := k.toNat
  let late := s.slotState k == 1 || (s.slotState k == 2 && s.slotStepped k)
  if (s.slotState k == 1 || s.slotState k == 2) && s.slotDue k && (s.safe pgLaunch || (late && !s.lateOk k)) then .next (s.missSlot k)
  else .next s

end Sys2Proof.Machine
end

