-- ==== Sys2Proof/Machine/Power.lean ====
section
/-! DEFINITION. Power, clocks, boot and Bellows (R457-R486, R502): the order of power-up, the reference clock, adaptive voltage, temperature
levels and regulator faults. -/
namespace Sys2Proof.Machine

/-- Hold the boot phase (R458). -/
def State.setPhase (s : State) (n : Nat) : State := { s with pow := { s.pow with phase := n } }

/-- A page is enabled by firmware of the device (R44, R481). -/
def State.bringUp (s : State) (p : Nat) : State := ((s.orReg p 8 1#32).blockEnable p).blockReady p

/-! ### Cold reset (R459, R460, R471, R475, R476) -/

/-- RESET_N falls for at least 1 µs (R460): the rails stay on. -/
def execResetNFall (s : State) : Out := .next (s.coldReset 2)

/-- PWRGOOD falls (R459): the board removes the rails, THERM_TRIP_N is released. -/
def State.powerLost (s : State) : State :=
  let s := s.coldReset 1
  { s with pow := { s.pow with rails := [], trip := false } }

/-- PWRGOOD falls. -/
def execPwrgoodFall (s : State) : Out := .next s.powerLost

/-- VDD_AUX or VDD_IO leaves its range (R502): as at a fall of PWRGOOD. -/
def execSupplyOutOfRange (s : State) : Out := .next s.powerLost

/-- Bellows ends the run and turns the rails off (R458, R470, R474, R476). -/
def State.endRun (s : State) (cause : Nat) : State :=
  let s := s.coldReset cause
  { s with pow := { s.pow with rails := [] } }

/-- The straps as sampled (R68, R464): LEAD, ADDR0, ADDR1, SAFE. -/
def State.sampleStraps (s : State) (straps : Nat) : State :=
  (s.setReg pgGlobal 0x2064 (word straps)).setReg pgHostif 0x2004 (word (0x58 + 2 * (straps / 4 % 2) + straps / 2 % 2))

/-- PWRGOOD and RESET_N are both high (R458, R464): `rise` tells whether one has just risen, which a device that was to stay off asks for; `hot`
whether a reading lies within 15 °C of its shutdown threshold (R470). A trip holds the device (R471). -/
def execColdResetRelease (rise : Bool) (straps : BitVec 4) (hot : Bool) (s : State) : Out :=
  if s.pow.phase ≠ 0 ∨ s.pow.trip ∨ (s.pow.off && !rise) then .next s
  else
    let cause := if s.pow.ended = 0 then 1 else s.pow.ended
    let s := (s.updReg pgGlobal 0x2060 (fun w => setFld w 3 0 cause)).sampleStraps straps.toNat
    .next { s with pow := { s.pow with phase := 1, ended := 0, off := false, hotOff := hot && cause == 4 } }

/-! ### Boot (R458, R462, R479-R482) -/

/-- The order in which rails are commanded on (R458). -/
def railOrder : List Nat := [0, 1, 2, 3, 6, 4, 5]

/-- The rail that follows another. -/
def railAfter (r : Nat) : Option Nat := (railOrder.drop (railOrder.idxOf r + 1)).head?

/-- Hold VDD_CORE's set point, in tenths of a millivolt (R485). -/
def State.setVcore (s : State) (v : Nat) : State :=
  { s with pow := { s.pow with vcore := v } }.setReg pgBellows 0x2004 (word (v / 10))

/-- Bellows copies REF_LVDS from the calibration data (R509), whose place and form the spec does not give: both are free (log entry 2). -/
def State.loadLvds (s : State) : State :=
  match Config.refLvds (s.storeByte (0x1080000 + Config.lvdsPlace % 0x100000)) with
  | some v => s.setReg pgClocks 0x100 (if v then 1 else 0)
  | none => s

/-- Bellows commands the first rail on, VDD_CORE at 0.850 V (R458), once it has taken REF_LVDS. -/
def State.startRails (s : State) : State := { s.loadLvds with pow := { s.pow with railWait := some 0 } }.setVcore 8500

/-- Bellows has verified its image (R479, R480); the rails follow unless the device is still too hot (R470). -/
def execBellowsImageVerify (s : State) : Out :=
  if s.inReset then .next s else
  if s.pow.phase ≠ 1 then .next s
  else
    let s := s.bellowsLoad.setPhase 2
    .next (if s.pow.hotOff then s else s.startRails)

/-- 1 s after the last check (R470): the rails follow once every reading is 15 °C below its shutdown threshold. -/
def execThermalRecheck (hot : Bool) (s : State) : Out :=
  if s.inReset then .next s else
  if !s.pow.hotOff || hot then .next s
  else
    let s := { s with pow := { s.pow with hotOff := false } }
    .next (if s.pow.phase = 2 then s.startRails else s)

/-- The commanded rail reads within ±3 % (R458): the next one is commanded, or after the last the root PLL is awaited. -/
def execRailInRange (s : State) : Out :=
  if s.inReset then .next s else
  match s.pow.railWait with
  | none => .next s
  | some r =>
    if s.pow.phase ≠ 2 then .next s
    else
      let rails := if s.pow.rails.contains r then s.pow.rails else s.pow.rails ++ [r]
      .next { s with pow := { s.pow with rails := rails, railWait := railAfter r, phase := if (railAfter r).isNone then 3 else 2 } }

/-- A commanded rail is not within ±3 % after 2 ms (R458). -/
def execRailStartTimeout (s : State) : Out := if s.inReset then .next s else .next (if s.pow.phase = 2 ∧ s.pow.railWait.isSome then s.endRun 5 else s)

/-- The root PLL locks (R458, R462, R482): SVC_CLK leaves the oscillator, BELLOWS and CLOCKS are ENABLED, STACK0 is powered; `cold` tells whether
a stack reads below −10 °C, so that a warm-up begins. -/
def execRootPllLock (cold : Bool) (s : State) : Out :=
  if s.inReset then .next s else
  if s.pow.phase ≠ 3 then .next s
  else
    let s := ((s.updReg pgClocks 0x2000 (fun w => (w &&& ~~~8#32) ||| 3#32)).raise pgClocks 17).orReg pgStack 0x2000 1#32
    let s := (s.bringUp pgBellows).bringUp pgClocks
    .next (if cold then (s.orReg pgGlobal 0x2068 2#32).setPhase 4 else s.setPhase 5)

/-- The warm-up ends (R482): every stack has reached −10 °C, or 60 s have passed. -/
def execWarmUpEnd (reached : Bool) (s : State) : Out :=
  if s.inReset then .next s else
  if s.pow.phase ≠ 4 then .next s
  else
    let s := s.clrReg pgGlobal 0x2068 2#32
    .next ((if reached then s else s.orReg pgGlobal 0x2068 0x100#32).setPhase 5)

/-- Whether a stack is in training (R33, R458, R481): powered, and its page ENABLING or ENABLED, or STACK0 at its step of the bring-up. -/
def State.stackTrains (s : State) (n : Nat) : Bool :=
  let b := s.blk (pgStack + n)
  decide (5 ≤ s.pow.phase) && bit (s.reg (pgStack + n) 0x2000) 0 && (b == 1 || b == 2 || (n == 0 && s.pow.phase == 5))

/-- A stack's DRAM training completes (R458, R481). -/
def execStackTrained (n : Fin 4) (s : State) : Out :=
  if s.inReset then .next s else
  if !s.stackTrains n.val then .next s
  else
    let s := s.orReg (pgStack + n.val) 0x2000 2#32
    .next (if n.val = 0 ∧ s.pow.phase = 5 then s.setPhase 6 else s)

/-- The boot ROM starts the control processor's image (R476, R479-R481): the recovery image under STRAP_SAFE or where no slot verifies, which
raises FW_READY; else the resident firmware, which records BOOT after a cold reset. -/
def execCpBoot (s : State) : Out :=
  if s.inReset then .next s else
  if s.pow.phase ≠ 6 then .next s
  else
    let (k, s) := if bit (s.reg pgGlobal 0x2064) 3 then (none, s) else s.bootSlot 0
    let s := (s.orReg pgCpctl 0x2000 0xF#32).setPhase 7
    match k with
    | none => .next (s.orReg pgGlobal 0x2068 1#32)
    | some k =>
      let s := s.updReg pgCpctl 0x2000 (fun w => putBit w 11 (k == 1))
      let s := s.setReg pgCpctl 0x2004 (word (headerWord (s.storeBytes (slotPlace 0 k).1 16) 3))
      let c := s.regFld pgGlobal 0x2060 3 0
      .next (if c < 8 then s.audit (s.auditRec 0 0 0 0x0B 0 0 0 (word c) 0) else s)

/-- The resident firmware loads the management MAC address from the calibration data (R97). -/
def State.loadMac (s : State) : State :=
  if s.blk pgHostif ≠ 0 then s
  else
    let n := beNat (s.storeBytes (0x1080000 + Config.macPlace % 0x100000) 6)
    (s.setReg pgHostif 0x104 (word (n / 2 ^ 32))).setReg pgHostif 0x108 (word n)

/-- FW_READY rises (R81, R93, R400, R480, R481). -/
def State.firmwareReady (s : State) : State :=
  let s := (s.orReg pgHostif 0x2000 1#32).orReg pgCpctl 0x2000 0x100#32
  { s with pow := { s.pow with phase := 8 }, pair := { s.pair with wdtHit := false } }.ibi 0x01 0

/-- The firmware has finished its start-up work (R481): HOSTIF, ROLES, PSTORE, LOCKS and STACK0 are enabled; the recovery image enables no
page (R480). -/
def execFwReady (s : State) : Out :=
  if s.inReset then .next s else
  if s.pow.phase ≠ 7 then .next s
  else if bit (s.reg pgGlobal 0x2068) 0 then .next s.firmwareReady
  else .next ([pgHostif, pgRoles, pgPstore, pgLocks, pgStack].foldl (fun (s : State) p => s.bringUp p) s.loadMac).firmwareReady

/-- Bellows' watchdog expires (R465). -/
def execBellowsWdtExpire (s : State) : Out := if s.inReset then .next s else .next (if s.pow.phase < 2 then s else s.bellowsRestart)

/-! ### The reference clock (R463) -/

/-- No REFCLK edge for 2 µs (R463): the root PLL holds its last control word. -/
def execRefclkLoss (s : State) : Out :=
  if s.inReset then .next s else
  if !bit (s.reg pgClocks 0x2000) 1 then .next s
  else
    let s := s.updReg pgClocks 0x2000 (fun w => (w &&& ~~~3#32) ||| 0x104#32)
    .next (((s.incReg pgClocks 0x2004).raise pgClocks 16).raise pgClocks 17)

/-- REFCLK returns and the root PLL relocks (R463). -/
def execRefclkReturn (s : State) : Out :=
  if s.inReset then .next s else
  if !bit (s.reg pgClocks 0x2000) 2 then .next s
  else .next ((s.updReg pgClocks 0x2000 (fun w => (w &&& ~~~4#32) ||| 3#32)).raise pgClocks 17)

/-- The root PLL loses lock for another cause (R463): LOCK_LOST and its count go with the cold reset that follows. -/
def execRootLockLoss (s : State) : Out := if s.inReset then .next s else .next (if bit (s.reg pgClocks 0x2000) 0 then s.coldReset 5 else s)

/-! ### Adaptive voltage (R466) -/

/-- VMIN and VMAX in tenths of a millivolt (R485): values outside 720 to 900 act as the nearer limit. -/
def State.avsLimits (s : State) : Nat × Nat :=
  let lim := fun v => 10 * min 900 (max 720 v)
  (lim (s.cfgFld pgBellows 0x100 9 0), lim (s.cfgFld pgBellows 0x100 25 16))

/-- The slack target of the AVS point in force, in thousandths of a CORE_CLK cycle. -/
def State.avsTarget (s : State) : Int :=
  match s.regFld pgBellows 0x2000 1 0 with
  | 0 => 100
  | 1 => 70
  | _ => 40

/-- What a slack `x` does to the voltage `v` between its limits (R466). -/
def State.avsMove (s : State) (x : Int) (lo hi v : Nat) (held : Bool) : State :=
  if x < 0 then (s.setVcore hi).incReg pgBellows 0x2058
  else if x < s.avsTarget then
    let s := s.setVcore (min hi (v + 25))
    if held && decide (hi ≤ v) then (s.orReg pgBellows 0x2000 0x100#32).raise pgBellows 19 else s
  else if s.avsTarget + 20 < x then s.setVcore (max lo (v - 25))
  else s

/-- The timing monitors report their worst slack, in thousandths of a cycle; `held` tells that it has stood below its target at VMAX for
1 ms (R466); a target met lets GLOBAL go on (R467). Bellows' ROM image and a BELLOWS page that is SAFE move nothing (R38, R480). -/
def execAvsStep (slack : BitVec 16) (held : Bool) (s : State) : Out :=
  if s.stands then .next s else
  let v := s.pow.vcore
  let (lo, hi) := s.avsLimits
  let x := slack.toInt
  if s.pow.phase < 4 ∨ bit (s.reg pgGlobal 0x2068) 2 ∨ s.safe pgBellows then .next s
  else
    let s := if s.avsTarget ≤ x then { s with pow := { s.pow with avsWait := false } } else s
    .next (s.avsMove x lo hi v held)

/-! ### Temperature (R270, R469-R471) -/

/-- The thresholds in force (R485): WARN, THROTTLE, SHUT of the dies, WARN and LIMIT of the stacks. -/
def State.tWarn (s : State) : Int := s.cfgFld pgBellows 0x104 7 0
def State.tThrottle (s : State) : Int := s.cfgFld pgBellows 0x104 15 8
def State.tShut (s : State) : Int := min 122 (s.cfgFld pgBellows 0x104 23 16)
def State.dramLimit (s : State) : Int := min 95 (s.cfgFld pgBellows 0x104 31 24)
def State.dramWarn (s : State) : Int := s.cfgFld pgBellows 0x108 7 0

/-- One level's update (R470): entered at a threshold, cleared after 1,000 samples that stand 5 °C below; `cool` counts them by level. -/
def levelStep (on enter below : Bool) (n : Nat) : Bool × Nat :=
  if enter then (true, 0)
  else if !on then (false, 0)
  else if !below then (true, 0)
  else if 999 ≤ n then (false, 0) else (true, n + 1)

/-- Update level `k` and its count. -/
def State.levelAt (s : State) (k : Nat) (on enter below : Bool) : Bool × State :=
  let (v, n) := levelStep on enter below (Store.get 0 k s.pow.cool)
  (v, { s with pow := { s.pow with cool := Store.set 0 k n s.pow.cool } })

/-- A stack's reading (R270, R285): TEMP, REFRESH_2X at 85 °C, TEMP_HIGH. -/
def State.stackTemp (s : State) (n : Nat) (t : Byte) : State :=
  let p := pgStack + n
  let hot := decide (85 ≤ t.toInt)
  let was := bit (s.reg p 0x2000) 3
  let s := s.updReg p 0x2000 (fun w => putBit (setFld w 15 8 t.toNat) 3 hot)
  if hot && !was then s.raise p 17 else s

/-- DRAM_HOLD of each stack (R470): levels 4 to 7. -/
def State.holdStacks (s : State) (ts : List Byte) : State :=
  (List.range 4).foldl (fun (s : State) n =>
    let t := (ts.getD n 0).toInt
    let th := s.dramWarn + 4
    let (on, s) := s.levelAt (4 + n) (s.pow.dramHold.contains n) (decide (th ≤ t)) (decide (t ≤ th - 5))
    let l := s.pow.dramHold.filter (fun k => k != n)
    { s with pow := { s.pow with dramHold := if on then Store.addKey n l else l } }) s

/-- The readings of the sensors, every 1 ms (R469, R470): the greatest of the dies, and of each stack. -/
def execTempSample (logic t0 t1 t2 t3 : Byte) (s : State) : Out :=
  if s.inReset then .next s else
  if s.pow.phase < 2 then .next s
  else
    let ts := [t0, t1, t2, t3]
    let d := ts.foldl (fun (m : Int) t => max m t.toInt) t0.toInt
    let l := logic.toInt
    let s := (List.range 4).foldl (fun (s : State) n => s.stackTemp n (ts.getD n 0)) s
    let s := (s.setReg pgBellows 0x2008 (word logic.toNat)).setReg pgBellows 0x200C (word (BitVec.ofInt 8 d).toNat)
    let imp := s.regFld pgBellows 0x2000 6 4 == 3
    let warned := s.pow.warn
    let slow := s.pow.throttle
    let (w, s) := s.levelAt 1 warned (decide (s.tWarn ≤ l) || decide (s.dramWarn ≤ d)) (decide (l ≤ s.tWarn - 5) && decide (d ≤ s.dramWarn - 5))
    let (t, s) := s.levelAt 2 slow (decide (s.tThrottle ≤ l)) (decide (l ≤ s.tThrottle - 5))
    let (i, s) := s.levelAt 3 imp (decide (s.tShut - 3 ≤ l) || decide (s.dramLimit - 2 ≤ d)) (decide (l ≤ s.tShut - 8) && decide (d ≤ s.dramLimit - 7))
    let hot := decide (s.tShut ≤ l) || decide (s.dramLimit ≤ d)
    let s := { s with pow := { s.pow with warn := w, throttle := t, hot := hot } }.holdStacks ts
    let lv := if i then 3 else if t then 2 else if w then 1 else 0
    let s := s.updReg pgBellows 0x2000 (fun x => putBit (setFld x 6 4 lv) 7 (!s.pow.dramHold.isEmpty))
    let s := if w && !warned then s.raise pgBellows 16 else s
    let s := if t && !slow then (s.raise pgBellows 17).incReg pgBellows 0x205C else s
    .next (s.pipesEval.pinsEval)

/-- A shutdown threshold has held for 10 ms (R470): the device stays off until the next rise of RESET_N or PWRGOOD. -/
def execThermalShutdown (s : State) : Out :=
  if s.inReset then .next s else
  if s.pow.hot && decide (0 < s.pow.phase) then
    let t := s.endRun 4
    .next { t with pow := { t.pow with off := true } }
  else .next s

/-- The comparator finds a logic sensor at 125 °C (R471): THERM_TRIP_N is asserted, TRIP_SEEN set, and the device held in cold reset. -/
def execThermalTrip (s : State) : Out :=
  let t := s.coldReset 3
  .next ({ t with pow := { t.pow with trip := true } }.orReg pgGlobal 0x2060 0x100#32)

/-! ### Regulators (R472-R474) -/

/-- The set point of a rail in tenths of a millivolt (R466, R502). -/
def State.setPoint (s : State) (r : Nat) : Nat := if r = 0 then s.pow.vcore else [0, 9000, 9000, 12000, 10500, 7500, 18000].getD r 0

/-- A regulator fault (R474): on rail 2 or 3 the banks go SAFE and the rail awaits its cycle; on another the run ends. -/
def State.regulatorFault (s : State) (r : Nat) : State :=
  let s := (s.incReg pgBellows 0x2054).raise pgBellows 18
  if r = 2 ∨ r = 3 then
    let s := { s with pow := { s.pow with serdes := Store.addKey r s.pow.serdes } }
    (List.range 20).foldl (fun (s : State) n => if s.blk (pgBank + n) = 0 then s else s.toSafe (pgBank + n)) s
  else s.endRun 5

/-- Whether a READ_VOUT in millivolts lies outside ±5 % of its set point. -/
def State.voutBad (s : State) (r v : Nat) : Bool :=
  let p := s.setPoint r
  decide (200 * v < 19 * p) || decide (21 * p < 200 * v)

/-- POWER_W (R485): the sum of V × I over the rails. -/
def State.powerW (s : State) : Nat :=
  (List.range 7).foldl (fun n r => n + s.regFld pgBellows (0x2010 + 4 * r) 15 0 * s.regFld pgBellows (0x2030 + 4 * r) 15 0) 0 / 16000

/-- Every 10 ms (R472, R474): READ_VOUT in mV and READ_IOUT in 1/16 A of every rail that is on; `silent` are regulators that did not answer
three attempts. -/
def execPmbusPoll (vout iout : List (BitVec 16)) (silent : List (Fin 7)) (s : State) : Out :=
  if s.stands then .next s else
  if s.pow.phase < 3 then .next s
  else
    let rails := (List.range 7).filter (fun r => s.pow.rails.contains r)
    let mute := fun r => silent.any (fun k => k.val == r)
    let s := rails.foldl (fun (s : State) r =>
      if mute r then s
      else (s.setReg pgBellows (0x2010 + 4 * r) (word (vout.getD r 0).toNat)).setReg pgBellows (0x2030 + 4 * r) (word (iout.getD r 0).toNat)) s
    let s := s.setReg pgBellows 0x2050 (word (s.powerW % 65536))
    let bad := rails.filter (fun r => mute r || s.voutBad r (vout.getD r 0).toNat)
    .next (bad.foldl (fun (s : State) r => if s.pow.phase = 0 then s else s.regulatorFault r) s)

/-- PMB_ALERT_N falls (R472, R474): what STATUS_WORD of the responding regulator shows; an over-current warning is only counted. -/
def execPmbAlert (r : Fin 7) (voltage overCurrent : Bool) (s : State) : Out :=
  if s.stands then .next s else
  if s.pow.phase < 3 then .next s
  else if voltage then .next (s.regulatorFault r.val)
  else .next (if overCurrent then s.incReg pgBellows 0x2054 else s)

/-- 100 ms after a SerDes rail fault (R474): the rail is turned off and on once. -/
def execSerdesRailCycle (s : State) : Out := if s.stands then .next s else .next { s with pow := { s.pow with serdes := [] } }

end Sys2Proof.Machine
end

