-- ==== Sys2Proof/Machine/Triggers.lean ====
section
/-! DEFINITION. The rows that are one write of a trigger: window commands, rate sets, gate switches, domain controls, launch slots,
statistics and performance counters, breakpoints, heartbeat and fault pin, resets. Each is the register or window write by which an agent
makes it. -/
namespace Sys2Proof.Machine

/-! ### Window commands (R217, R219) -/

/-- A window command by an agent: the write of TW_CMD, and its whole effect where the window was free. -/
def State.windowCommand (s : State) (a : Agent) (w : Fin 4) (op : Nat) (tab : BitVec 4) (view : Bool) : State :=
  let cmd := word (op + 16 * tab.toNat + (if view then 256 else 0))
  let t := s.regWrite a pgTables (0x8000 + 0x200 * w.val) cmd
  if !bit (s.tw w.val 1) 0 && bit (t.tw w.val 1) 0 then t.twFinish w.val else t

/-- INSERT (R219). -/
def execInsert (a : Agent) (w : Fin 4) (tab : BitVec 4) (view : Bool) (s : State) : Out := .next (s.windowCommand a w 1 tab view)

/-- UPDATE (R219). -/
def execUpdate (a : Agent) (w : Fin 4) (tab : BitVec 4) (view : Bool) (s : State) : Out := .next (s.windowCommand a w 2 tab view)

/-- DELETE (R219). -/
def execDelete (a : Agent) (w : Fin 4) (tab : BitVec 4) (view : Bool) (s : State) : Out := .next (s.windowCommand a w 3 tab view)

/-- FIND (R219). -/
def execFind (a : Agent) (w : Fin 4) (tab : BitVec 4) (view : Bool) (s : State) : Out := .next (s.windowCommand a w 4 tab view)

/-- MATCH (R219). -/
def execMatchPrefix (a : Agent) (w : Fin 4) (tab : BitVec 4) (view : Bool) (s : State) : Out := .next (s.windowCommand a w 5 tab view)

/-- READ_INDEX (R211, R219). -/
def execReadIndex (a : Agent) (w : Fin 4) (tab : BitVec 4) (view : Bool) (s : State) : Out := .next (s.windowCommand a w 6 tab view)

/-- WRITE_INDEX (R219). -/
def execWriteIndex (a : Agent) (w : Fin 4) (tab : BitVec 4) (view : Bool) (s : State) : Out := .next (s.windowCommand a w 7 tab view)

/-- ADD (R219). -/
def execAddPrefix (a : Agent) (w : Fin 4) (tab : BitVec 4) (view : Bool) (s : State) : Out := .next (s.windowCommand a w 8 tab view)

/-- A write of PENDING_CTRL.DISCARD (R249). -/
def execPendingDiscard (a : Agent) (s : State) : Out := .next (s.regWrite a pgEpoch 0x1000 1#32)

/-! ### Queues, policers, gates, calendars, Sprue -/

/-- A write to word 0 of record `i` of the window (R289). -/
def execTmNodeWrite (a : Agent) (i : BitVec 9) (data : Word) (s : State) : Out := .next (s.regWrite a pgTm (0x8000 + 0x40 * i.toNat) data)

/-- A write of TM.RATE_APPLY (R302). -/
def execTmRateApply (a : Agent) (data : Word) (s : State) : Out := .next (s.regWrite a pgTm 0x1004 data)

/-- A write of POLICE.RATE_APPLY (R309). -/
def execPoliceRateApply (a : Agent) (data : Word) (s : State) : Out := .next (s.regWrite a pgPolice 0x1004 data)

/-- A write of PORT_CTRL with SWITCH_REQ = 1 (R319). -/
def execGateSwitchReq (a : Agent) (data : Word) (s : State) : Out := .next (s.regWrite a pgGates 0xC040 (data ||| 1#32))

/-- A write of PORT_CTRL with SWITCH_CANCEL = 1 (R321). -/
def execGateSwitchCancel (a : Agent) (data : Word) (s : State) : Out := .next (s.regWrite a pgGates 0xC040 (data ||| 2#32))

/-- A write of GROUP_CTRLg.SWITCH_REQ (R141). -/
def execCalendarSwitchReq (a : Agent) (g : Fin 16) (s : State) : Out := .next (s.regWrite a pgFlexe (0x1000 + 4 * g.val) 1#32)

/-- A write of TEST_CTRL with BAD_HEC = 1 (R172). -/
def execBadHecInject (a : Agent) (g : Fin 16) (data : Word) (s : State) : Out :=
  .next (s.regWrite a (sprPage g.val) 0x1004 (data ||| 0x100#32))

/-! ### Time and launch -/

/-- A write of DOM_CTRLd.STEP_GO (R334). -/
def execStepGo (a : Agent) (d : Fin 2) (s : State) : Out := .next (s.regWrite a pgTime (0x1058 + 0x20 * d.val) 1#32)

/-- A write of DOM_CTRLd.SET_GO (R334). -/
def execSetGo (a : Agent) (d : Fin 2) (s : State) : Out := .next (s.regWrite a pgTime (0x1058 + 0x20 * d.val) 2#32)

/-- A write of FREQd (R333, R334). -/
def execFreqWrite (a : Agent) (d : Fin 2) (data : Word) (s : State) : Out := .next (s.regWrite a pgTime (0x1040 + 0x20 * d.val) data)

/-- A write of TB_CTRL with SNAP = 1 (R337). -/
def execSnap (a : Agent) (s : State) : Out := .next (s.regWrite a pgTime 0x1000 (s.reg pgTime 0x1000 ||| 0x100#32))

/-- A write to TXTS_POP (R342). -/
def execTxtsPop (a : Agent) (port : Fin 242) (data : Word) (s : State) : Out := .next (s.regWrite a pgTime (0x8024 + 0x40 * port.val) data)

/-- A write of SLOT_CTRL with ARM = 1 (R353). -/
def execLaunchArm (a : Agent) (data : Word) (s : State) : Out := .next (s.regWrite a pgLaunch 0x800C (data ||| 0x10000#32))

/-- A write of SLOT_CTRL with CANCEL = 1 (R354, R356). -/
def execLaunchCancel (a : Agent) (data : Word) (s : State) : Out := .next (s.regWrite a pgLaunch 0x800C (data ||| 0x20000#32))

/-! ### Counters -/

/-- A read of FRAMES_LO of record `pair` of the window (R421); `uncorr` tells an uncorrectable error of its backing (R422). -/
def execStatsRead (a : Agent) (pair : Fin 1024) (uncorr : Bool) (s : State) : Out :=
  if s.stands then .next s else
  let o := 0x8000 + 32 * pair.val
  let go := fun (s : State) => ((s.readStats a o uncorr).2).noteAccess (s.ownWho a pgStats) (regAddr pgStats o) (regAddr pgStats o)
  match a with
  | .app k =>
    if !s.appOn k.val then .next s
    else if s.appMayLoad (regAddr pgStats o) then .next ((go s).retired a (some (regAddr pgStats o))) else .next (s.appTrap 1 k.val excLoadFault (word (regAddr pgStats o)))
  | .core k => if s.cp.halted.any (fun e => e.1 == k.val) then .next s else .next ((go s).retired a (some (regAddr pgStats o)))
  | .debug => if s.attached then .next (go s) else .next s
  | _ => .next (go s)

/-- A write of SET_CTRL with GO = 1 (R423). -/
def execStatsSet (a : Agent) (data : Word) (s : State) : Out := .next (s.regWrite a pgStats 0x101C (data ||| 1#32))

/-- A write of PMU_CTRL with RESET_ALL = 1 (R424). -/
def execPmuResetAll (a : Agent) (s : State) : Out := .next (s.regWrite a pgPmu 0x1000 (s.reg pgPmu 0x1000 ||| 2#32))

/-- A write of VALUEn_HI or VALUEn_LO (R427). -/
def execPmuValueWrite (a : Agent) (n : Fin 256) (high : Bool) (data : Word) (s : State) : Out :=
  .next (s.regWrite a pgPmu (pmuVal n.val + (if high then 4 else 0)) data)

/-- A write of RING_RD (R432). -/
def execRingRdWrite (a : Agent) (data : Word) (s : State) : Out := .next (s.regWrite a pgPmu 0x1004 data)

/-! ### Breakpoints and the thaw -/

/-- A write of PBP_CTRL with STEP = 1 (R449); the operands are what the frame's pass meets where its result is emitted. -/
def execPbpStep (a : Agent) (data : Word) (residence : BitVec 60) (banks : List (BitVec 11)) (ecc : Option (BitVec 11 × BitVec 11))
    (s : State) : Out :=
  let (st, t) := s.store a (regAddr pgDebug 0x1004) .word ((data &&& 0xF#32).setWidth 64)
  if st = .ok then
    let k := t.regFld pgDebug 0x1004 3 0
    let t := t.pbpStep k residence banks ecc
    .next (if bit data 9 then t.pbpRelease k else t)
  else .next t

/-- A write of PBP_CTRL with RELEASE = 1 (R449). -/
def execPbpRelease (a : Agent) (data : Word) (s : State) : Out := .next (s.regWrite a pgDebug 0x1004 ((data &&& 0xF#32) ||| 0x200#32))

/-- A write of Q_CTRL.THAW (R455); `us` is how long the Quench has lasted. -/
def execQCtrlThaw (a : Agent) (data us : Word) (s : State) : Out :=
  let (st, t) := s.store a (regAddr pgDebug 0x1008) .word ((data &&& ~~~1#32).setWidth 64)
  .next (if st = .ok then t.thaw us.toNat else t)

/-! ### Heartbeat and fault pin -/

/-- A write to HB_KICK (R400). -/
def execHbKick (a : Agent) (data : Word) (s : State) : Out := .next (s.regWrite a pgPair 0x1000 data)

/-- A write of FAULT_CTRL.ASSERT (R400). -/
def execFaultAssert (a : Agent) (s : State) : Out := .next (s.regWrite a pgPair 0x1004 1#32)

/-- A write of FAULT_CTRL.CLEAR (R400). -/
def execFaultClear (a : Agent) (s : State) : Out := .next (s.regWrite a pgPair 0x1004 2#32)

/-! ### Resets -/

/-- A write of RESET_CTRL.WARM (R477). -/
def execWarmReset (a : Agent) (s : State) : Out := .next (s.regWrite a pgGlobal 0x1008 1#32)

/-- A write of RESET_CTRL.POWER_OFF (R459). -/
def execPowerOff (a : Agent) (s : State) : Out := .next (s.regWrite a pgGlobal 0x1008 2#32)

/-- A write of BLOCK_RESET with GO = 1 (R478). -/
def execBlockReset (a : Agent) (page : BitVec 8) (s : State) : Out := .next (s.regWrite a pgGlobal 0x100C (word (page.toNat + 0x80000000)))

/-- A write of BELLOWS_CTRL.RESTART (R465). -/
def execBellowsRestart (a : Agent) (s : State) : Out := .next (s.regWrite a pgBellows 0x1000 1#32)

end Sys2Proof.Machine
end

