-- ==== Sys2Proof/Machine/Dispatch.lean ====
section
/-! DEFINITION. The dispatch: one arm per command, each one direct call of its meaning. -/
namespace Sys2Proof.Machine

/-- The effect of a command on everything but the queue. -/
def exec (i : Instr) (s : State) : Host.Outcome State Fault Refusal :=
  match i with
  | .registerWrite a addr size data => Sys2Proof.Machine.execRegisterWrite a addr size data s
  | .bitAliasWrite a page w b data => Sys2Proof.Machine.execBitAliasWrite a page w b data s
  | .blockEnable page => Sys2Proof.Machine.execBlockEnable page s
  | .blockReady page => Sys2Proof.Machine.execBlockReady page s
  | .blockDisable page => Sys2Proof.Machine.execBlockDisable page s
  | .drainComplete page => Sys2Proof.Machine.execDrainComplete page s
  | .drainTimeout page => Sys2Proof.Machine.execDrainTimeout page s
  | .drainDiscard a page => Sys2Proof.Machine.execDrainDiscard a page s
  | .scrubPass upsets => Sys2Proof.Machine.execScrubPass upsets s
  | .topologyWrite a data => Sys2Proof.Machine.execTopologyWrite a data s
  | .engineProfileWrite a data => Sys2Proof.Machine.execEngineProfileWrite a data s
  | .fenceWrite a token => Sys2Proof.Machine.execFenceWrite a token s
  | .fenceDone a => Sys2Proof.Machine.execFenceDone a s
  | .tablesFenceWrite a token => Sys2Proof.Machine.execTablesFenceWrite a token s
  | .tablesFenceDone a => Sys2Proof.Machine.execTablesFenceDone a s
  | .lockAcquire a k => Sys2Proof.Machine.execLockAcquire a k s
  | .lockRelease a k => Sys2Proof.Machine.execLockRelease a k s
  | .mgmtLinkLoss => Sys2Proof.Machine.execMgmtLinkLoss s
  | .fatalFaultEntry k => Sys2Proof.Machine.execFatalFaultEntry k s
  | .appFault k cause faultAddr => Sys2Proof.Machine.execAppFault k cause faultAddr s
  | .appCpuLimit k => Sys2Proof.Machine.execAppCpuLimit k s
  | .wdtKick a data => Sys2Proof.Machine.execWdtKick a data s
  | .wdtExpired => Sys2Proof.Machine.execWdtExpired s
  | .coreResetAll a => Sys2Proof.Machine.execCoreResetAll a s
  | .coreResetOne a k => Sys2Proof.Machine.execCoreResetOne a k s
  | .fwReady => Sys2Proof.Machine.execFwReady s
  | .entdaa addr => Sys2Proof.Machine.execEntdaa addr s
  | .setdasa target addr => Sys2Proof.Machine.execSetdasa target addr s
  | .setnewda target addr => Sys2Proof.Machine.execSetnewda target addr s
  | .rstdaa => Sys2Proof.Machine.execRstdaa s
  | .getpid target => Sys2Proof.Machine.execGetpid target s
  | .getbcr target => Sys2Proof.Machine.execGetbcr target s
  | .getdcr target => Sys2Proof.Machine.execGetdcr target s
  | .getstatus target => Sys2Proof.Machine.execGetstatus target s
  | .getmxds target => Sys2Proof.Machine.execGetmxds target s
  | .enec target => Sys2Proof.Machine.execEnec target s
  | .disec target => Sys2Proof.Machine.execDisec target s
  | .enthdr0 => Sys2Proof.Machine.execEnthdr0 s
  | .unsupportedCcc code target => Sys2Proof.Machine.execUnsupportedCcc code target s
  | .i3cTargetReset => Sys2Proof.Machine.execI3cTargetReset s
  | .rstactWholeReset => Sys2Proof.Machine.execRstactWholeReset s
  | .i3cBusReset => Sys2Proof.Machine.execI3cBusReset s
  | .privateRead => Sys2Proof.Machine.execPrivateRead s
  | .i2cTransfer addr dir => Sys2Proof.Machine.execI2cTransfer addr dir s
  | .ibiRequest acked => Sys2Proof.Machine.execIbiRequest acked s
  | .mgmtFrameRx frame fcsOk fifoFull => Sys2Proof.Machine.execMgmtFrameRx frame fcsOk s fifoFull
  | .readWords r => Sys2Proof.Machine.execReadWords r s
  | .writeWords rq => Sys2Proof.Machine.execWriteWords rq s
  | .writeMasked rq => Sys2Proof.Machine.execWriteMasked rq s
  | .fence rq => Sys2Proof.Machine.execFence rq s
  | .echo rq => Sys2Proof.Machine.execEcho rq s
  | .loginChallenge rq => Sys2Proof.Machine.execLoginChallenge rq s
  | .loginResponse rq => Sys2Proof.Machine.execLoginResponse rq s
  | .logout rq => Sys2Proof.Machine.execLogout rq s
  | .challengeExpire h => Sys2Proof.Machine.execChallengeExpire h s
  | .sessionIdleExpire h => Sys2Proof.Machine.execSessionIdleExpire h s
  | .lockoutExpire h => Sys2Proof.Machine.execLockoutExpire h s
  | .opSuspend rq units => Sys2Proof.Machine.execOpSuspend rq units s
  | .opResume rq => Sys2Proof.Machine.execOpResume rq s
  | .opCancel rq units => Sys2Proof.Machine.execOpCancel rq units s
  | .opStatus rq units => Sys2Proof.Machine.execOpStatus rq units s
  | .opQueuedStart slot => Sys2Proof.Machine.execOpQueuedStart slot s
  | .opComplete slot good found => Sys2Proof.Machine.execOpComplete slot good found s
  | .opRecordExpire slot => Sys2Proof.Machine.execOpRecordExpire slot s
  | .logRead rq => Sys2Proof.Machine.execLogRead rq s
  | .keyCommit a role => Sys2Proof.Machine.execKeyCommit a role s
  | .keyCommitDone => Sys2Proof.Machine.execKeyCommitDone s
  | .auditRecordWrite => Sys2Proof.Machine.execAuditRecordWrite s
  | .epochCommit rq => Sys2Proof.Machine.execEpochCommit rq s
  | .tableLoad rq => Sys2Proof.Machine.execTableLoad rq s
  | .tableFlush rq => Sys2Proof.Machine.execTableFlush rq s
  | .snapshotSave rq => Sys2Proof.Machine.execSnapshotSave rq s
  | .snapshotRestore rq => Sys2Proof.Machine.execSnapshotRestore rq s
  | .stateSync rq => Sys2Proof.Machine.execStateSync rq s
  | .memTest rq => Sys2Proof.Machine.execMemTest rq s
  | .fwUpdate rq => Sys2Proof.Machine.execFwUpdate rq s
  | .twicelRejoin rq => Sys2Proof.Machine.execTwicelRejoin rq s
  | .linkUp port => Sys2Proof.Machine.execLinkUp port s
  | .linkDown port localFault remoteFault noSignal noLock => Sys2Proof.Machine.execLinkDown port localFault remoteFault s noSignal noLock
  | .frameRx port bytes complete fcsOk fifoFull => Sys2Proof.Machine.execFrameRx port bytes complete fcsOk fifoFull s
  | .frameEndRx port rest fcsOk => Sys2Proof.Machine.execFrameEndRx port rest fcsOk s
  | .pfcRx port enable quanta => Sys2Proof.Machine.execPfcRx port enable quanta s
  | .pfcPauseExpire port cls => Sys2Proof.Machine.execPfcPauseExpire port cls s
  | .pfcXoffEval => Sys2Proof.Machine.execPfcXoffEval s
  | .pfcRefresh port => Sys2Proof.Machine.execPfcRefresh port s
  | .frameTxEnd port ecc => Sys2Proof.Machine.execFrameTxEnd port ecc s
  | .secondCommit u t => Sys2Proof.Machine.execSecondCommit u t s
  | .calendarSwitchReq a g => Sys2Proof.Machine.execCalendarSwitchReq a g s
  | .calendarSwitchAck g => Sys2Proof.Machine.execCalendarSwitchAck g s
  | .calendarSwitch g => Sys2Proof.Machine.execCalendarSwitch g s
  | .calendarSwitchTimeout g => Sys2Proof.Machine.execCalendarSwitchTimeout g s
  | .flexeOverheadRx g o => Sys2Proof.Machine.execFlexeOverheadRx g o s
  | .cellRx g m hdr payload fecBad ctlBlocks => Sys2Proof.Machine.execCellRx g m hdr payload fecBad ctlBlocks s
  | .markerTimeout g m => Sys2Proof.Machine.execMarkerTimeout g m s
  | .idleRx g m rdi => Sys2Proof.Machine.execIdleRx g m rdi s
  | .markerRx g m rdi gid mem seq active rx => Sys2Proof.Machine.execMarkerRx g m rdi gid mem seq active rx s
  | .markerTx g => Sys2Proof.Machine.execMarkerTx g s
  | .memberAccept g m => Sys2Proof.Machine.execMemberAccept g m s
  | .memberRemove g m cond => Sys2Proof.Machine.execMemberRemove g m cond s
  | .badHecInject a g data => Sys2Proof.Machine.execBadHecInject a g data s
  | .flowStatusRx g m entries => Sys2Proof.Machine.execFlowStatusRx g m entries s
  | .flowStatusExpire g m dev => Sys2Proof.Machine.execFlowStatusExpire g m dev s
  | .spray q stall first => Sys2Proof.Machine.execSpray q stall first s
  | .passResult pipe residence banks ecc => Sys2Proof.Machine.execPassResult pipe residence banks ecc s
  | .reorderRelease q => Sys2Proof.Machine.execReorderRelease q s
  | .reorderSkip stream => Sys2Proof.Machine.execReorderSkip stream s
  | .insert a w tab view => Sys2Proof.Machine.execInsert a w tab view s
  | .update a w tab view => Sys2Proof.Machine.execUpdate a w tab view s
  | .delete a w tab view => Sys2Proof.Machine.execDelete a w tab view s
  | .find a w tab view => Sys2Proof.Machine.execFind a w tab view s
  | .matchPrefix a w tab view => Sys2Proof.Machine.execMatchPrefix a w tab view s
  | .readIndex a w tab view => Sys2Proof.Machine.execReadIndex a w tab view s
  | .writeIndex a w tab view => Sys2Proof.Machine.execWriteIndex a w tab view s
  | .addPrefix a w tab view => Sys2Proof.Machine.execAddPrefix a w tab view s
  | .learnInsert => Sys2Proof.Machine.execLearnInsert s
  | .ageSweep row => Sys2Proof.Machine.execAgeSweep row s
  | .moveStorm port => Sys2Proof.Machine.execMoveStorm port s
  | .moveFreezeExpire port => Sys2Proof.Machine.execMoveFreezeExpire port s
  | .tableEccScrub bank row uncorr => Sys2Proof.Machine.execTableEccScrub bank row uncorr s
  | .maintArbRound bank requests => Sys2Proof.Machine.execMaintArbRound bank requests s
  | .epochSwitch => Sys2Proof.Machine.execEpochSwitch s
  | .epochMergeSlot => Sys2Proof.Machine.execEpochMergeSlot s
  | .mergeDone => Sys2Proof.Machine.execMergeDone s
  | .epochRetire => Sys2Proof.Machine.execEpochRetire s
  | .retireForced => Sys2Proof.Machine.execRetireForced s
  | .pendingDiscard a => Sys2Proof.Machine.execPendingDiscard a s
  | .admission => Sys2Proof.Machine.execAdmission s
  | .ingotWrite q ingot => Sys2Proof.Machine.execIngotWrite q ingot s
  | .stageHoldExpire q ingot => Sys2Proof.Machine.execStageHoldExpire q ingot s
  | .prefetchRequest q => Sys2Proof.Machine.execPrefetchRequest q s
  | .ingotReadComplete q latency uncorr => Sys2Proof.Machine.execIngotReadComplete q latency uncorr s
  | .channelArbRound ch requests outstanding => Sys2Proof.Machine.execChannelArbRound ch requests outstanding s
  | .ingotPatrolScrub stack j err => Sys2Proof.Machine.execIngotPatrolScrub stack j err s
  | .wdTrip port cls => Sys2Proof.Machine.execWdTrip port cls s
  | .wdRestore port cls => Sys2Proof.Machine.execWdRestore port cls s
  | .tmSelect port ringFull ecc => Sys2Proof.Machine.execTmSelect port ringFull ecc s
  | .tmNodeWrite a n data => Sys2Proof.Machine.execTmNodeWrite a n data s
  | .tmRateApply a data => Sys2Proof.Machine.execTmRateApply a data s
  | .policeRateApply a data => Sys2Proof.Machine.execPoliceRateApply a data s
  | .downHoldExpire port => Sys2Proof.Machine.execDownHoldExpire port s
  | .gateSwitchReq a data => Sys2Proof.Machine.execGateSwitchReq a data s
  | .gateSwitchCancel a data => Sys2Proof.Machine.execGateSwitchCancel a data s
  | .gateSwitch port => Sys2Proof.Machine.execGateSwitch port s
  | .gateTransition port => Sys2Proof.Machine.execGateTransition port s
  | .timeBaseTick => Sys2Proof.Machine.execTimeBaseTick s
  | .stepGo a d => Sys2Proof.Machine.execStepGo a d s
  | .setGo a d => Sys2Proof.Machine.execSetGo a d s
  | .freqWrite a d data => Sys2Proof.Machine.execFreqWrite a d data s
  | .snap a => Sys2Proof.Machine.execSnap a s
  | .txtsPop a port data => Sys2Proof.Machine.execTxtsPop a port data s
  | .ppsOutEdge => Sys2Proof.Machine.execPpsOutEdge s
  | .ppsIn => Sys2Proof.Machine.execPpsIn s
  | .rclkSquelch n signal => Sys2Proof.Machine.execRclkSquelch n signal s
  | .timeExchangeStart => Sys2Proof.Machine.execTimeExchangeStart s
  | .timeRequestRx g m id t1 => Sys2Proof.Machine.execTimeRequestRx g m id t1 s
  | .timeResponseRx g m id t1 t2 t3 => Sys2Proof.Machine.execTimeResponseRx g m id t1 t2 t3 s
  | .timeExchangeLost => Sys2Proof.Machine.execTimeExchangeLost s
  | .servoHoldover => Sys2Proof.Machine.execServoHoldover s
  | .launchArm a data => Sys2Proof.Machine.execLaunchArm a data s
  | .launchCancel a data => Sys2Proof.Machine.execLaunchCancel a data s
  | .launchPlaced k => Sys2Proof.Machine.execLaunchPlaced k s
  | .launchApply k => Sys2Proof.Machine.execLaunchApply k s
  | .launchMissed k => Sys2Proof.Machine.execLaunchMissed k s
  | .voqServe ecc => Sys2Proof.Machine.execVoqServe s ecc
  | .creditGrantRx src entries => Sys2Proof.Machine.execCreditGrantRx src entries s
  | .creditEarn port => Sys2Proof.Machine.execCreditEarn port s
  | .grantCellSend src => Sys2Proof.Machine.execGrantCellSend src s
  | .dataCellRx src cls seq first last payload => Sys2Proof.Machine.execDataCellRx src cls seq first last payload s
  | .reassemblyRelease => Sys2Proof.Machine.execReassemblyRelease s
  | .rbSkip src cls => Sys2Proof.Machine.execRbSkip src cls s
  | .contextSync src cls => Sys2Proof.Machine.execContextSync src cls s
  | .rbXoff => Sys2Proof.Machine.execRbXoff s
  | .flowStatusRepeat => Sys2Proof.Machine.execFlowStatusRepeat s
  | .voqFreeHoldExpire v => Sys2Proof.Machine.execVoqFreeHoldExpire v s
  | .unreachExpire phys => Sys2Proof.Machine.execUnreachExpire phys s
  | .takeoverRx logical new old => Sys2Proof.Machine.execTakeoverRx logical new old s
  | .conflictDetect src => Sys2Proof.Machine.execConflictDetect src s
  | .joinProbe => Sys2Proof.Machine.execJoinProbe s
  | .joinProbeAnswer status => Sys2Proof.Machine.execJoinProbeAnswer status s
  | .configRelayRx flags seq addr mask data => Sys2Proof.Machine.execConfigRelayRx flags seq addr mask data s
  | .relayAckRx seq status words data => Sys2Proof.Machine.execRelayAckRx seq status words data s
  | .relayRetx => Sys2Proof.Machine.execRelayRetx s
  | .learnBatchSend => Sys2Proof.Machine.execLearnBatchSend s
  | .learnRx seq entries => Sys2Proof.Machine.execLearnRx seq entries s
  | .syncWalk => Sys2Proof.Machine.execSyncWalk s
  | .actInFall => Sys2Proof.Machine.execActInFall s
  | .windDownEnd => Sys2Proof.Machine.execWindDownEnd s
  | .actInRise => Sys2Proof.Machine.execActInRise s
  | .takeoverForwardStart => Sys2Proof.Machine.execTakeoverForwardStart s
  | .takeoverRepeat => Sys2Proof.Machine.execTakeoverRepeat s
  | .hbKick a data => Sys2Proof.Machine.execHbKick a data s
  | .hbToggle => Sys2Proof.Machine.execHbToggle s
  | .faultAssert a => Sys2Proof.Machine.execFaultAssert a s
  | .faultClear a => Sys2Proof.Machine.execFaultClear a s
  | .journalRecordSend => Sys2Proof.Machine.execJournalRecordSend s
  | .journalRx generation seq records => Sys2Proof.Machine.execJournalRx generation seq records s
  | .journalAckRx generation ack refuse => Sys2Proof.Machine.execJournalAckRx generation ack refuse s
  | .journalRetx => Sys2Proof.Machine.execJournalRetx s
  | .journalHeartbeat => Sys2Proof.Machine.execJournalHeartbeat s
  | .journalSweep => Sys2Proof.Machine.execJournalSweep s
  | .statsFlush uncorr => Sys2Proof.Machine.execStatsFlush uncorr s
  | .statsPeriodicFlush => Sys2Proof.Machine.execStatsPeriodicFlush s
  | .statsRead a pair uncorr => Sys2Proof.Machine.execStatsRead a pair uncorr s
  | .statsSet a data => Sys2Proof.Machine.execStatsSet a data s
  | .pmuResetAll a => Sys2Proof.Machine.execPmuResetAll a s
  | .pmuValueWrite a n high data => Sys2Proof.Machine.execPmuValueWrite a n high data s
  | .sampleRecordWrite => Sys2Proof.Machine.execSampleRecordWrite s
  | .ringRdWrite a data => Sys2Proof.Machine.execRingRdWrite a data s
  | .debugAttach => Sys2Proof.Machine.execDebugAttach s
  | .debugDetach => Sys2Proof.Machine.execDebugDetach s
  | .detachIdleExpire => Sys2Proof.Machine.execDetachIdleExpire s
  | .debugLineReset => Sys2Proof.Machine.execDebugLineReset s
  | .coreHalt rq => Sys2Proof.Machine.execCoreHalt rq s
  | .coreResume rq => Sys2Proof.Machine.execCoreResume rq s
  | .coreStep rq pc effects => Sys2Proof.Machine.execCoreStep rq pc effects s
  | .coreRegRead rq => Sys2Proof.Machine.execCoreRegRead rq s
  | .coreRegWrite rq => Sys2Proof.Machine.execCoreRegWrite rq s
  | .triggerSet rq => Sys2Proof.Machine.execTriggerSet rq s
  | .triggerHit k t acc addr user => Sys2Proof.Machine.execTriggerHit k t acc addr user s
  | .pbpHit pipe => Sys2Proof.Machine.execPbpHit pipe s
  | .pbpStep a data residence banks ecc => Sys2Proof.Machine.execPbpStep a data residence banks ecc s
  | .pbpRelease a data => Sys2Proof.Machine.execPbpRelease a data s
  | .quench rq => Sys2Proof.Machine.execQuench rq s
  | .quenchPin => Sys2Proof.Machine.execQuenchPin s
  | .qinfo rq => Sys2Proof.Machine.execQinfo rq s
  | .qread rq uncorr => Sys2Proof.Machine.execQread rq s uncorr
  | .thaw rq us => Sys2Proof.Machine.execThaw rq us s
  | .qCtrlThaw a data us => Sys2Proof.Machine.execQCtrlThaw a data us s
  | .detach rq => Sys2Proof.Machine.execDetach rq s
  | .coldResetRelease rise straps hot => Sys2Proof.Machine.execColdResetRelease rise straps hot s
  | .resetNFall => Sys2Proof.Machine.execResetNFall s
  | .pwrgoodFall => Sys2Proof.Machine.execPwrgoodFall s
  | .supplyOutOfRange => Sys2Proof.Machine.execSupplyOutOfRange s
  | .bellowsImageVerify => Sys2Proof.Machine.execBellowsImageVerify s
  | .railInRange => Sys2Proof.Machine.execRailInRange s
  | .railStartTimeout => Sys2Proof.Machine.execRailStartTimeout s
  | .rootPllLock cold => Sys2Proof.Machine.execRootPllLock cold s
  | .warmUpEnd reached => Sys2Proof.Machine.execWarmUpEnd reached s
  | .stackTrained n => Sys2Proof.Machine.execStackTrained n s
  | .cpBoot => Sys2Proof.Machine.execCpBoot s
  | .warmReset a => Sys2Proof.Machine.execWarmReset a s
  | .powerOff a => Sys2Proof.Machine.execPowerOff a s
  | .blockReset a page => Sys2Proof.Machine.execBlockReset a page s
  | .blockResetComplete => Sys2Proof.Machine.execBlockResetComplete s
  | .bellowsWdtExpire => Sys2Proof.Machine.execBellowsWdtExpire s
  | .bellowsRestart a => Sys2Proof.Machine.execBellowsRestart a s
  | .avsStep slack held => Sys2Proof.Machine.execAvsStep slack held s
  | .tempSample logic t0 t1 t2 t3 => Sys2Proof.Machine.execTempSample logic t0 t1 t2 t3 s
  | .thermalShutdown => Sys2Proof.Machine.execThermalShutdown s
  | .thermalRecheck hot => Sys2Proof.Machine.execThermalRecheck hot s
  | .thermalTrip => Sys2Proof.Machine.execThermalTrip s
  | .pmbusPoll vout iout silent => Sys2Proof.Machine.execPmbusPoll vout iout silent s
  | .pmbAlert r voltage overCurrent => Sys2Proof.Machine.execPmbAlert r voltage overCurrent s
  | .serdesRailCycle => Sys2Proof.Machine.execSerdesRailCycle s
  | .refclkLoss => Sys2Proof.Machine.execRefclkLoss s
  | .refclkReturn => Sys2Proof.Machine.execRefclkReturn s
  | .rootLockLoss => Sys2Proof.Machine.execRootLockLoss s
  | .headerCandidate g m hdr payload expected => Sys2Proof.Machine.execHeaderCandidate g m hdr payload expected s
  | .lossOfSignal g m => Sys2Proof.Machine.execLossOfSignal g m s
  | .skewFail g m => Sys2Proof.Machine.execSkewFail g m s
  | .rclkResume n => Sys2Proof.Machine.execRclkResume n s

end Sys2Proof.Machine
end

