-- ==== Sys2Proof/WellFormed.lean ====
section
/-! DEFINITION. The checks of a command's operands: the shape that the sender, the wire or the sensor gives them by the spec. A meaning
answers on every operand; these checks say which terms spell a command that can arrive. -/
namespace Sys2Proof

/-- Agents that send request frames (R70, R72, R441). -/
def Agent.framed : Agent → Bool
  | .i3c | .mgmt | .debug => true
  | _ => false

/-- Agents that command long operations: hosts, and the resident firmware with no frame (R57, R87). -/
def Agent.operates : Agent → Bool
  | .core _ => true
  | a => a.framed

/-- Agents whose accesses have other widths than a word: the cores (R51, R52). -/
def Agent.isCore : Agent → Bool
  | .core _ | .app _ => true
  | _ => false

/-- A request frame of a host or the debug port. -/
def Request.framed (rq : Request) : Bool := rq.agent.framed

/-- A request of the debug port alone (R445, R446, R454). -/
def Request.byDebug (rq : Request) : Bool := rq.agent == .debug

/-- An OP_START request whose TYPE, bits [7:0] of its first payload word, is `code` (R87). -/
def Request.starts (rq : Request) (code : Byte) : Bool := rq.agent.operates && rq.body[3]? == some code

/-- The data of a store lie within its width (R51). -/
def AccSize.holds (z : AccSize) (d : BitVec 64) : Bool :=
  match z with
  | .byte => decide (d.toNat < 0x100)
  | .half => decide (d.toNat < 0x10000)
  | .word => decide (d.toNat < 0x100000000)
  | .dword => true

/-- A time on the wire: its nanoseconds lie below 10^9 (R158, R335). -/
def todOk (t : BitVec 96) : Bool := decide ((t.extractLsb' 16 32).toNat < 1000000000)

/-- The checks of a command's operands. -/
def Instr.wellFormed : Instr → Bool
  | .registerWrite a _ z d => (a.isCore || z == .word) && z.holds d
  | .readWords (.command rq) | .writeWords rq | .writeMasked rq | .fence rq | .echo rq | .loginChallenge rq | .loginResponse rq | .logout rq
  | .logRead rq => rq.framed
  | .opSuspend rq _ | .opResume rq | .opCancel rq _ | .opStatus rq _ => rq.agent.operates
  | .epochCommit rq => rq.starts 1
  | .tableLoad rq => rq.starts 2
  | .tableFlush rq => rq.starts 3
  | .snapshotSave rq => rq.starts 4
  | .snapshotRestore rq => rq.starts 5
  | .stateSync rq => rq.starts 6
  | .memTest rq => rq.starts 7
  | .fwUpdate rq => rq.starts 8
  | .twicelRejoin rq => rq.starts 9
  | .coreHalt rq | .coreResume rq | .coreStep rq _ _ | .coreRegRead rq | .coreRegWrite rq | .triggerSet rq | .quench rq | .qinfo rq
  | .qread rq _ | .thaw rq _ | .detach rq => rq.byDebug
  | .frameRx _ bytes complete _ _ => complete || bytes.length == 256
  | .pfcRx _ _ quanta => quanta.length == 8
  | .flexeOverheadRx _ o => o.calA.length == o.calB.length
  | .cellRx _ _ _ payload _ _ | .headerCandidate _ _ _ payload _ => payload.length == 248
  | .flowStatusRx _ _ entries => decide (1 ≤ entries.length) && decide (entries.length ≤ 60)
  | .creditGrantRx _ entries => decide (1 ≤ entries.length) && decide (entries.length ≤ 20)
  | .learnRx _ entries => decide (1 ≤ entries.length) && decide (entries.length ≤ 15)
  | .dataCellRx _ _ _ _ _ payload => decide (payload.length ≤ 248)
  | .configRelayRx _ _ _ _ data => decide (data.length ≤ 56)
  | .journalRx _ _ records => decide (records.length ≤ 56)
  | .timeRequestRx _ _ _ t1 => todOk t1
  | .timeResponseRx _ _ _ t1 t2 t3 => todOk t1 && todOk t2 && todOk t3
  | .pmbusPoll vout iout _ => vout.length == 7 && iout.length == 7
  | _ => true

end Sys2Proof
end

