-- ==== Sys2Proof/Safety.lean ====
section
/-! DEFINITION. The terms in which statements about the block are made: a command that completes, an access that is accepted, an answer
that has been sent, the canonical form of what the block stores, and what a command leaves alone. -/
namespace Sys2Proof.Machine

/-- Command `i` at state `s` answers a next state of which `P` holds. -/
def Leads (i : Instr) (s : State) (P : State → Prop) : Prop := ∃ t, exec i s = .next t ∧ P t

/-- The status that an agent's write of a whole register word ends with. -/
def State.writeStatus (s : State) (a : Agent) (p o : Nat) (data : Word) : Status := (s.store a (regAddr p o) .word (data.setWidth 64)).1

/-- An agent's write of a register word is accepted: its response or its store completes with OK. -/
abbrev State.accepts (s : State) (a : Agent) (p o : Nat) (data : Word) : Prop := s.writeStatus a p o data = .ok

/-- A whole-word write of an agent reaches a register word with the rights it needs: the device is not held in cold reset nor, but for Bellows,
quenched; a core runs, an application runs and its sandbox opens the word, the debug port is attached; the agent's rights allow the write. -/
abbrev State.reaches (s : State) (a : Agent) (p o : Nat) (data : Word) : Prop :=
  s.inReset = false ∧ (s.stands = false ∨ a = .bellows) ∧ (∀ k, a = .core k → s.cp.halted.any (fun e => e.1 == k.val) = false)
    ∧ (∀ k, a = .app k → s.appOn k.val = true ∧ s.appMayStore (regAddr p o) 0xFFFFFFFF#32 data = true) ∧ (a = .debug → s.attached = true)
    ∧ s.mayWrite (s.agentRights a p) p o 0xFFFFFFFF#32 data = true

/-- No joined lead owns a word (R391). -/
abbrev State.ownWord (s : State) (p o : Nat) : Prop := (s.partnerJoined && mirrorWord p o) = false

/-! ### Canonical storage -/

/-- Every sparse store that stands for registers, latched configuration, windows, memories and fence words is in canonical form: keys strictly rising, no
entry equal to what an unlisted key reads as. -/
abbrev State.Canonical (s : State) : Prop :=
  Store.wf regReset s.regs = true ∧ Store.wf regReset s.latched = true ∧ Store.wf winReset s.win = true
    ∧ Store.wf (fun _ => 0#8) s.cp.mem = true ∧ Store.wf shipped s.nvm.bytes = true ∧ Store.wf (fun _ => 0#32) s.fences = true

/-- The maps of the engines are in canonical form: the cores' registers, egress FIFOs, queues, spill, arrivals, FLOW_STATUS entries, expected and
transfer sequence numbers, table contents, VOQs, grants, transmit time stamps and counters, each with its keys strictly rising. -/
abbrev State.Keyed (s : State) : Prop :=
  Store.wf (fun _ => 0#64) s.cp.coreRegs = true ∧ Store.wf (fun _ => []) s.buf.fifo = true ∧ Store.wf (fun _ => []) s.buf.queues = true
    ∧ Store.setWf (s.buf.spill.map Prod.fst) = true ∧ Store.setWf (s.port.arriving.map Prod.fst) = true ∧ Store.wf (fun _ => 0) s.sprue.flow = true
    ∧ Store.wf (fun _ => 0) s.pipe.nextSeq = true ∧ Store.wf (fun _ => []) s.tab.base = true ∧ (∀ t, Store.wf (fun _ => []) (s.baseOf t) = true)
    ∧ Store.setWf (s.voq.voqs.map Prod.fst) = true ∧ Store.wf (fun _ => 0) s.voq.streams = true ∧ Store.wf (fun _ => []) s.voq.grants = true
    ∧ Store.wf (fun _ => []) s.time.txts = true ∧ Store.wf (fun _ => (0, 0)) s.stat.part = true ∧ Store.wf (fun _ => (0, 0)) s.stat.back = true
    ∧ Store.wf (fun _ => 0) s.stat.flags = true

/-! ### What a command leaves alone -/

/-- The registers of every page that `l` does not name are unchanged. -/
def RegsBut (l : List Nat) (s t : State) : Prop := ∀ p o, p < 256 → o < 0x10000 → p ∉ l → t.reg p o = s.reg p o

/-- Every configuration word, written and latched, is unchanged (R43). -/
def KeepsConfig (s t : State) : Prop := ∀ p o, 0x100 ≤ o → o < 0x1000 → t.reg p o = s.reg p o ∧ t.cfg p o = s.cfg p o

/-- The queue of commands, the control processor's memory and the bytes of the persistent store are unchanged. -/
abbrev KeepsMemory (s t : State) : Prop := t.pending = s.pending ∧ t.cp.mem = s.cp.mem ∧ t.nvm.bytes = s.nvm.bytes

/-- The rows that a clock of the device drives: frames, cells, engines, timers and journals, which stand still with the clocks (R453, R459). -/
def clocked : Instr → Bool
  | .blockEnable _ | .blockReady _ | .blockDisable _ | .drainComplete _ | .drainTimeout _ | .scrubPass _ | .fenceDone _ | .tablesFenceDone _ |
    .mgmtLinkLoss | .fatalFaultEntry _ | .appFault _ _ _ | .appCpuLimit _ | .wdtExpired | .mgmtFrameRx _ _ _ | .challengeExpire _ |
    .sessionIdleExpire _ | .lockoutExpire _ | .opQueuedStart _ | .opComplete _ _ _ | .opRecordExpire _ | .keyCommitDone | .auditRecordWrite |
    .linkUp _ | .linkDown _ _ _ _ _ | .frameRx _ _ _ _ _ | .frameEndRx _ _ _ | .pfcRx _ _ _ | .pfcPauseExpire _ _ | .pfcXoffEval | .pfcRefresh _ |
    .frameTxEnd _ _ | .secondCommit _ _ | .calendarSwitchAck _ | .calendarSwitch _ | .calendarSwitchTimeout _ | .flexeOverheadRx _ _ |
    .cellRx _ _ _ _ _ _ | .markerTimeout _ _ | .idleRx _ _ _ | .markerRx _ _ _ _ _ _ _ _ | .markerTx _ | .memberAccept _ _ | .memberRemove _ _ _ |
    .flowStatusRx _ _ _ | .flowStatusExpire _ _ _ | .spray _ _ _ | .passResult _ _ _ _ | .reorderRelease _ | .reorderSkip _ | .learnInsert |
    .ageSweep _ | .moveStorm _ | .moveFreezeExpire _ | .tableEccScrub _ _ _ | .maintArbRound _ _ | .epochSwitch | .epochMergeSlot | .mergeDone |
    .epochRetire | .retireForced | .admission | .ingotWrite _ _ | .stageHoldExpire _ _ | .prefetchRequest _ | .ingotReadComplete _ _ _ |
    .channelArbRound _ _ _ | .ingotPatrolScrub _ _ _ | .wdTrip _ _ | .wdRestore _ _ | .tmSelect _ _ _ | .downHoldExpire _ | .gateSwitch _ |
    .gateTransition _ | .timeBaseTick | .ppsOutEdge | .ppsIn | .rclkSquelch _ _ | .timeExchangeStart | .timeRequestRx _ _ _ _ |
    .timeResponseRx _ _ _ _ _ _ | .timeExchangeLost | .servoHoldover | .launchPlaced _ | .launchApply _ | .launchMissed _ | .voqServe _ |
    .creditGrantRx _ _ | .creditEarn _ | .grantCellSend _ | .dataCellRx _ _ _ _ _ _ | .reassemblyRelease | .rbSkip _ _ | .contextSync _ _ | .rbXoff |
    .flowStatusRepeat | .voqFreeHoldExpire _ | .unreachExpire _ | .takeoverRx _ _ _ | .conflictDetect _ | .joinProbe | .joinProbeAnswer _ |
    .configRelayRx _ _ _ _ _ | .relayAckRx _ _ _ _ | .relayRetx | .learnBatchSend | .learnRx _ _ | .syncWalk | .actInFall | .windDownEnd |
    .actInRise | .takeoverForwardStart | .takeoverRepeat | .hbToggle | .journalRecordSend | .journalRx _ _ _ | .journalAckRx _ _ _ | .journalRetx |
    .journalHeartbeat | .journalSweep | .statsFlush _ | .statsPeriodicFlush | .statsRead _ _ _ | .sampleRecordWrite | .triggerHit _ _ _ _ _ |
    .pbpHit _ | .blockResetComplete | .avsStep _ _ | .pmbusPoll _ _ _ | .pmbAlert _ _ _ | .serdesRailCycle | .headerCandidate _ _ _ _ _ |
    .lossOfSignal _ _ | .skewFail _ _ | .rclkResume _ => true
  | _ => false

/-- The events that act on a device held in cold reset: its release, and what puts it there (R458-R460, R471, R502). -/
def resetEvent : Instr → Bool
  | .coldResetRelease _ _ _ | .resetNFall | .pwrgoodFall | .supplyOutOfRange | .thermalTrip => true
  | _ => false

/-- What a cold reset leaves (R459, R460, R475-R477): the device is held, the registers of every page but GLOBAL, ROLES and PSTORE, which show
the causes and the store, are at their reset values, tables, buffers and the control processor's memory are empty; the persistent store and the
queue of commands stay. -/
def ColdBy (s : State) (cause : Nat) (t : State) : Prop :=
  t.pow.phase = 0 ∧ (s.pow.phase ≠ 0 → t.pow.ended = cause) ∧ t.nvm.bytes = s.nvm.bytes ∧ t.pending = s.pending ∧ t.cp.mem = [] ∧ t.tab.mac = []
    ∧ t.buf.queues = [] ∧ t.latched = [] ∧ t.win = [] ∧ ∀ p o, p < 256 → o < 0x10000 → p ∉ [pgGlobal, pgRoles, pgPstore] → t.reg p o = regReset (regKey p o)

/-! ### Commands and their answers -/

/-- What an agent has been sent: unread I3C responses, frames of the management port, responses of the debug port. -/
def State.outbox (s : State) : Agent → List (List Byte)
  | .i3c => s.host.resp
  | .mgmt => s.host.mgmtOut
  | .debug => s.host.dbgOut
  | _ => []

/-- A response as its agent's path carries it. -/
def State.carried (s : State) (a : Agent) (r : Response) : List Byte :=
  match a with
  | .mgmt => s.mgmtFrame 0 none r
  | _ => r.bytes

/-- The path of an agent's commands is open: the device is neither held in reset nor quenched, the debug port is attached, the management lane
is up, I3C holds fewer than eight unread responses. -/
abbrev State.listens (s : State) (a : Agent) : Prop :=
  s.stands = false ∧ a.framed = true ∧ (a = .debug → s.attached = true) ∧ (a = .mgmt → s.mgmtSends = true) ∧ (a = .i3c → s.host.resp.length < 8)

/-- Every word that a READ or WRITE names is a word of this device's own register pages (R36). -/
abbrev ownWords (ws : List Word) : Prop := ∀ x ∈ cmdAddrs (ws.getD 0 0).toNat (ctlCount (ws.getD 1 0)) (bit (ws.getD 1 0) 16), inPages x = true

/-- The response to a request waits for the acknowledgement of relays (R389). -/
def Waits (t : State) (rq : Request) : Prop := ∃ w : Waiting, t.host.waiting.getLast? = some w ∧ w.agent = rq.agent ∧ w.resp.tag = rq.tag

/-- The state in which an accepted command is executed: its arrival has been counted and its path has taken it. -/
def State.arrived (s : State) (a : Agent) : State :=
  let s := if a = .i3c then { s with host := { s.host with reply := .ack } } else s
  s.countCmd a

/-- No earlier command of its agent waits that a command must keep behind (R58, R84, R86). -/
abbrev State.clearFor (s : State) (op : Nat) (rq : Request) : Prop := s.host.ordered.any (fun d => d.holds rq.agent op (reqWords rq)) = false

/-- The path by which an agent's command is answered. -/
def agentRoute : Agent → Route
  | .i3c => .i3c
  | .mgmt => .mgmt 0 none
  | .debug => .debug
  | _ => .nowhere

/-- The opcode, the request and what the environment decides of a row that is a command (R77, R445). -/
def commandOf : Instr → Option (Nat × Request × CmdEnv)
  | .readWords (.command rq) => some (opREAD, rq, .none)
  | .writeWords rq => some (opWRITE, rq, .none)
  | .writeMasked rq => some (opMASKED, rq, .none)
  | .fence rq => some (opFENCE, rq, .none)
  | .echo rq => some (opECHO, rq, .none)
  | .loginChallenge rq => some (opCHALLENGE, rq, .none)
  | .loginResponse rq => some (opRESPONSE, rq, .none)
  | .logout rq => some (opLOGOUT, rq, .none)
  | .opSuspend rq n => some (opSUSPEND, rq, ⟨n, 0, [], 0, none⟩)
  | .opResume rq => some (opRESUME, rq, .none)
  | .opCancel rq n => some (opCANCEL, rq, ⟨n, 0, [], 0, none⟩)
  | .opStatus rq n => some (opSTATUS, rq, ⟨n, 0, [], 0, none⟩)
  | .logRead rq => some (opLOG, rq, .none)
  | .epochCommit rq | .tableLoad rq | .tableFlush rq | .snapshotSave rq | .snapshotRestore rq | .stateSync rq | .memTest rq | .fwUpdate rq
  | .twicelRejoin rq => some (opSTART, rq, .none)
  | .coreHalt rq => some (opHALT, rq, .none)
  | .coreResume rq => some (opRUN, rq, .none)
  | .coreStep rq pc l => some (opSTEP, rq, ⟨0, pc, l, 0, none⟩)
  | .coreRegRead rq => some (opREGREAD, rq, .none)
  | .coreRegWrite rq => some (opREGWRITE, rq, .none)
  | .triggerSet rq => some (opTRIGGER, rq, .none)
  | .quench rq => some (opQUENCH, rq, .none)
  | .qinfo rq => some (opQINFO, rq, .none)
  | .qread rq u => some (opQREAD, rq, ⟨0, 0, [], 0, u.map BitVec.toNat⟩)
  | .thaw rq us => some (opTHAW, rq, ⟨0, 0, [], us.toNat, none⟩)
  | .detach rq => some (opDETACH, rq, .none)
  | _ => none

/-- The rows that are OP_START with the type that each names (R87). -/
def startOf : Instr → Option (OpKind × Request)
  | .epochCommit rq => some (.epochCommit, rq)
  | .tableLoad rq => some (.tableLoad, rq)
  | .tableFlush rq => some (.tableFlush, rq)
  | .snapshotSave rq => some (.snapshotSave, rq)
  | .snapshotRestore rq => some (.snapshotRestore, rq)
  | .stateSync rq => some (.stateSync, rq)
  | .memTest rq => some (.memTest, rq)
  | .fwUpdate rq => some (.fwUpdate, rq)
  | .twicelRejoin rq => some (.twicelRejoin, rq)
  | _ => none

/-- The agent, window, operation, table and view of a row that is a table command (R217, R219). -/
def windowRow : Instr → Option (Agent × Fin 4 × Nat × BitVec 4 × Bool)
  | .insert a w tab view => some (a, w, 1, tab, view)
  | .update a w tab view => some (a, w, 2, tab, view)
  | .delete a w tab view => some (a, w, 3, tab, view)
  | .find a w tab view => some (a, w, 4, tab, view)
  | .matchPrefix a w tab view => some (a, w, 5, tab, view)
  | .readIndex a w tab view => some (a, w, 6, tab, view)
  | .writeIndex a w tab view => some (a, w, 7, tab, view)
  | .addPrefix a w tab view => some (a, w, 8, tab, view)
  | _ => none

/-- A request that passes every check of R76 on an open path, with neither ORDERED nor NO_RESPONSE, and need not wait behind another. -/
abbrev State.takes (s : State) (op : Nat) (rq : Request) : Prop :=
  s.listens rq.agent ∧ (s.arrived rq.agent).reqCheck rq.agent op rq = none ∧ rq.flags = 0 ∧ s.clearFor op rq

/-- State `t` follows `s` with one more response sent to the agent of a request. -/
abbrev Answers (s t : State) (rq : Request) (st : Status) (payload : List Word) : Prop :=
  t.outbox rq.agent = s.outbox rq.agent ++ [s.carried rq.agent ⟨rq.tag, st, payload⟩]

end Sys2Proof.Machine
end

