-- ==== Sys2Proof/Certificates/Slice0/Obligations.lean ====
section
/-! DEFINITION. The statements for the provers. -/
open Sys2Proof Sys2Proof.Machine

/-! ### The queue, reset, stored words -/

/-- A step runs the command at the front of the queue over the rest of the queue, and idles on an empty queue (log entry 1). -/
def Obligations.StepRunsFront : Prop :=
  (∀ (c : Instr) (q : List Instr) (s : State), step { s with pending := c :: q } = exec c { s with pending := q })
    ∧ ∀ s : State, s.pending = [] → step s = .next s

/-- State.reset reads every register, written and latched, at the reset value of its row, and has every block DISABLED; RESET_CAUSE shows the
power-on (values that the spec leaves open: log entry 4). -/
def Obligations.ResetState : Prop :=
  (∀ p o, p < 256 → o < 0x10000 → regKey p o ≠ 0x2060 → State.reset.reg p o = regReset (regKey p o) ∧ State.reset.cfg p o = regReset (regKey p o))
    ∧ (∀ p, State.reset.blk p = 0) ∧ State.reset.regFld pgGlobal 0x2060 3 0 = 1

/-- What reset leaves is in canonical form. -/
def Obligations.ResetCanonical : Prop := State.reset.Canonical ∧ State.reset.Keyed

/-- Every step keeps registers, latched configuration, windows, memories and the maps of the engines in canonical form. -/
def Obligations.StepKeepsCanonical : Prop := ∀ s t : State, s.Canonical → s.Keyed → step s = .next t → t.Canonical ∧ t.Keyed

/-- A register word written reads back, and every other word of the pages stays (R51); the control processor's memory reads back what was stored, and
every other byte stays. -/
def Obligations.StoredWordsReadBack : Prop :=
  (∀ (s : State) (p o q r : Nat) (v : Word), s.Canonical → o < 0x10000 → r < 0x10000 →
      (s.setReg p o v).reg p o = v ∧ ((p, o) ≠ (q, r) → (s.setReg p o v).reg q r = s.reg q r) ∧ (s.setReg p o v).Canonical)
    ∧ (∀ (s : State) (a b v : Nat), s.Canonical → ramAt a = true → ramAt b = true →
      (s.putMemBytes a 1 v).memByte a = BitVec.ofNat 8 v ∧ (a ≠ b → (s.putMemBytes a 1 v).memByte b = s.memByte b))

/-! ### Blocks (R43-R49, R478) -/

/-- ENABLE = 1 on a DISABLED block latches its configuration region, so that its latched words are those written: with sound parity the block is
ENABLING; with a mismatched word it is SAFE with the fault PARITY. The latched configuration of the other pages stays. -/
def Obligations.BlockEnableLatches : Prop :=
  ∀ (s : State) (page : Fin 256), s.Canonical → s.stands = false → (pageRow page.val).isSome → s.blk page.val = 0 → s.enableBit page.val = true →
    s.resetting page.val = false → (bit (s.reg pgGlobal 0x2068) 0 = false ∨ page.val < 0x10) →
    Leads (.blockEnable page) s (fun t =>
      (∀ o, 0x100 ≤ o → o < 0x1000 → t.cfg page.val o = s.reg page.val o)
        ∧ (∀ p o, p ≠ page.val → 0x100 ≤ o → o < 0x1000 → t.cfg p o = s.cfg p o)
        ∧ (s.upset.filter (cfgKey page.val) = [] → t.blk page.val = 1)
        ∧ (s.upset.filter (cfgKey page.val) ≠ [] → t.blk page.val = 4 ∧ bit (t.reg page.val 0x10) 0 = true))

/-- A ready block enters ENABLED. -/
def Obligations.BlockReadyEnables : Prop :=
  ∀ (s : State) (page : Fin 256), s.Canonical → s.stands = false → (pageRow page.val).isSome → s.blk page.val = 1 → s.enableBit page.val = true →
    s.heldEnabling page.val = false →
    Leads (.blockReady page) s (fun t => t.blk page.val = 2 ∧ KeepsConfig s t ∧ KeepsMemory s t)

/-- ENABLE = 0: an ENABLED block drains, or is DISABLED at once under DRAIN_DISCARD or a DRAIN_TIMEOUT of 0; one in ENABLING or SAFE is
DISABLED. A drain whose work is complete, whose timer ends or that is told to discard ends in DISABLED; what its timer finds left is counted in
DRAIN_DISCARDS, but on DEBUG, whose drain counts none. -/
def Obligations.BlockDisables : Prop :=
  ∀ (s : State) (page : Fin 256), s.Canonical → s.stands = false → (pageRow page.val).isSome →
    (s.enableBit page.val = false →
      (s.blk page.val = 2 → Leads (.blockDisable page) s (fun t =>
        t.blk page.val = (if bit (s.reg page.val 8) 1 ∨ s.regFld page.val 8 31 16 = 0 then 0 else 3) ∧ KeepsConfig s t))
      ∧ (s.blk page.val = 1 ∨ s.blk page.val = 4 → Leads (.blockDisable page) s (fun t => t.blk page.val = 0 ∧ KeepsConfig s t)))
    ∧ (s.blk page.val = 3 →
      (s.workCount page.val = 0 → Leads (.drainComplete page) s (fun t => t.blk page.val = 0 ∧ KeepsConfig s t))
      ∧ Leads (.drainTimeout page) s (fun t => t.blk page.val = 0 ∧ KeepsConfig s t
          ∧ t.reg page.val 0x30 = s.reg page.val 0x30 + (if page.val = pgDebug then 0 else word (s.workCount page.val)))
      ∧ ∀ a, s.reaches a page.val 8 (s.reg page.val 8 ||| 2#32) → s.ownWord page.val 8 → Leads (.drainDiscard a page) s (fun t => t.blk page.val = 0))

/-- A scrub pass without a restore under way (R41, R47, R48): it counts itself and takes the words of every configuration region as those that
CFG_SIGNATURE is computed from; a configuration word with an upset in a bit that it holds shows the bit flipped, its block has the fault PARITY
and is SAFE unless it is DISABLED. -/
def Obligations.ScrubFindsParity : Prop :=
  ∀ (s : State) (page o : Nat) (b : Fin 32), s.stands = false → s.Canonical → s.upset = [] → s.reported = [] → s.ops.rest = none →
    (Leads (.scrubPass []) s (fun t => t.regFld pgGlobal 0x2020 15 0 = (s.regFld pgGlobal 0x2020 15 0 + 1) % 65536
        ∧ (∀ p, p < 256 → t.cfgSignature p = cfgCrc (s.reg p)) ∧ RegsBut [pgGlobal] s t ∧ t = { s with regs := t.regs, sigWords := t.sigWords }))
    ∧ (page < 256 → (pageRow page).isSome → 0x100 ≤ o → o < 0x1000 → o % 4 = 0 →
      Leads (.scrubPass [(word (regKey page o), b)]) s (fun t => t.reg page o = s.reg page o ^^^ (oneBit b.val &&& fieldBits page o)
        ∧ bit (t.reg page 0x10) 0 = true ∧ (s.blk page ≠ 0 → t.blk page = 4)
        ∧ t.regFld pgGlobal 0x2020 15 0 = (s.regFld pgGlobal 0x2020 15 0 + 1) % 65536))

/-- A page reset that is accepted returns the configuration and live words of the DISABLED page to their reset values, and its end clears
GO and leaves every block state and the registers of other pages than GLOBAL and it. -/
def Obligations.PageResets : Prop :=
  ∀ (s : State), s.Canonical →
    (∀ (a : Agent) (page : BitVec 8), s.resetPage = none → 8 ≤ page.toNat → (pageRow page.toNat).isSome → s.blk page.toNat = 0 →
      s.reaches a pgGlobal 0x100C (word (page.toNat + 0x80000000)) →
      Leads (.blockReset a page) s (fun t => t.resetPage = some page.toNat ∧ bit (t.reg pgGlobal 0x100C) 31 = true
        ∧ ∀ o, 0x100 ≤ o → o < 0x2000 → t.reg page.toNat o = regReset (regKey page.toNat o)))
    ∧ ∀ p, s.stands = false → s.resetPage = some p →
      Leads .blockResetComplete s (fun t => t.resetPage = none ∧ bit (t.reg pgGlobal 0x100C) 31 = false ∧ (∀ q, t.blk q = s.blk q)
        ∧ RegsBut [pgGlobal, p] s t)

/-! ### Writes of registers (R12, R13, R32, R43, R50, R56, R60, R67, R223) -/

/-- A configuration word while its block is DISABLED takes a write that reaches it with the rights it needs and that no joined lead owns; an
accepted write of a whole word holds the data in the writable bits, clears the bits that clear on 1, and leaves the other bits and the latched
words. While the block is not DISABLED no write is accepted and the word stays. TOPOLOGY and ENGINE_PROFILE have checks of their own. -/
def Obligations.ConfigWordWrite : Prop :=
  ∀ (s : State) (a : Agent) (p o : Nat) (r : PageRow) (w : RegRow) (data : Word), s.Canonical → p < 256 → pageRow p = some r → 0x100 ≤ o → o < 0x1000 →
    o % 4 = 0 → regRow r.kind o = some w → (p, o) ≠ (pgGlobal, 0x100) → (p, o) ≠ (pgGlobal, 0x104) →
    (s.reaches a p o data → s.blk p = 0 → s.ownWord p o → s.accepts a p o data)
    ∧ (s.accepts a p o data →
      Leads (.registerWrite a (word (regAddr p o)) .word (data.setWidth 64)) s (fun t =>
        t.reg p o = blend (word w.rw) data (s.reg p o) &&& ~~~(data &&& word w.w1c) ∧ ∀ q, t.cfg p q = s.cfg p q))
    ∧ (s.blk p ≠ 0 → ¬ s.accepts a p o data ∧
      Leads (.registerWrite a (word (regAddr p o)) .word (data.setWidth 64)) s (fun t => t.reg p o = s.reg p o))

/-- A write to the alias of a live bit that reaches it, of a page that no joined lead owns, sets that bit, where it is writable, to bit 0 of the
data, and leaves the word's other bits (R50). Named for the pages none of whose live words does more than hold its data. -/
def Obligations.AliasWritesOneBit : Prop :=
  ∀ (s : State) (a : Agent) (page : Fin 256) (w : Fin 128) (b : Fin 32) (r : PageRow) (row : RegRow) (data : Word), s.Canonical →
    pageRow page.val = some r →
    r.kind ∈ [Kind.clocks, .launch, .skim, .pipe, .learn, .reorder, .ladle, .crucible, .ingot, .stack, .voq, .credit, .gates, .mcast, .pstore, .parse] →
    regRow r.kind (0x1000 + 4 * w.val) = some row → bit (word row.rw) b.val = true → bit (word row.w1c) b.val = false →
    s.reaches a page.val (0x4000 + (w.val * 32 + b.val) * 4) data → s.ownWord page.val (0x1000 + 4 * w.val) →
    Leads (.bitAliasWrite a page w b data) s (fun t =>
      t.reg page.val (0x1000 + 4 * w.val) = putBit (s.reg page.val (0x1000 + 4 * w.val)) b.val (bit data 0))

/-- TOPOLOGY and ENGINE_PROFILE (R32), written by an agent with the rights they need while GLOBAL is DISABLED and the device is no joined
partner: a value that R32 admits is held, and entering or leaving TRUNKED sets PROFILE to BALANCED or FULL; a value that it does not is ignored
and sets TOPOLOGY_REJECT or PROFILE_REJECT. While GLOBAL is not DISABLED both words stay. -/
def Obligations.TopologyAndProfile : Prop :=
  ∀ (s : State) (a : Agent) (data : Word), s.Canonical → s.partnerJoined = false →
    (s.reaches a pgGlobal 0x100 data → s.blk pgGlobal = 0 →
      (data &&& 3#32 ≠ 3#32 → Leads (.topologyWrite a data) s (fun t => t.reg pgGlobal 0x100 = data &&& 3#32
        ∧ t.reg pgGlobal 0x104 = (if data &&& 3#32 = 2 ∧ s.regFld pgGlobal 0x100 1 0 ≠ 2 then 4
            else if data &&& 3#32 ≠ 2 ∧ s.regFld pgGlobal 0x100 1 0 = 2 then 0 else s.reg pgGlobal 0x104)
        ∧ KeepsMemory s t ∧ ∀ p o, t.cfg p o = s.cfg p o))
      ∧ (data &&& 3#32 = 3#32 → Leads (.topologyWrite a data) s (fun t => t.reg pgGlobal 0x100 = s.reg pgGlobal 0x100
        ∧ t.reg pgGlobal 0x104 = s.reg pgGlobal 0x104 ∧ bit (t.reg pgGlobal 0x2000) 16 = true)))
    ∧ (s.reaches a pgGlobal 0x104 data → s.blk pgGlobal = 0 →
      let admitted := (data &&& 7#32).toNat ≤ 4 ∧ (data &&& 7#32 = 4#32 ↔ s.regFld pgGlobal 0x100 1 0 = 2)
      (admitted → Leads (.engineProfileWrite a data) s (fun t => t.reg pgGlobal 0x104 = data &&& 7#32 ∧ t.reg pgGlobal 0x100 = s.reg pgGlobal 0x100
        ∧ KeepsMemory s t ∧ ∀ p o, t.cfg p o = s.cfg p o))
      ∧ (¬ admitted → Leads (.engineProfileWrite a data) s (fun t => t.reg pgGlobal 0x104 = s.reg pgGlobal 0x104
        ∧ bit (t.reg pgGlobal 0x2000) 17 = true)))
    ∧ (s.blk pgGlobal ≠ 0 →
      Leads (.topologyWrite a data) s (fun t => t.reg pgGlobal 0x100 = s.reg pgGlobal 0x100 ∧ t.reg pgGlobal 0x104 = s.reg pgGlobal 0x104)
      ∧ Leads (.engineProfileWrite a data) s (fun t => t.reg pgGlobal 0x100 = s.reg pgGlobal 0x100 ∧ t.reg pgGlobal 0x104 = s.reg pgGlobal 0x104))

/-- The fences (R60): a token that an agent writes is held for it; FENCE_DONE takes it once every relayed or waiting write that the agent issued
before has taken effect, not before, and shows no other agent's token; nothing else changes then. Every other write takes effect with its
command. The FENCE command and a command with ORDERED start under the same condition: the relays of the agent are acknowledged and no write of
it waits. TABLES.FENCE waits for the agent's window commands too. -/
def Obligations.FencesComplete : Prop :=
  ∀ (s : State) (a : Agent) (token : Word), s.Canonical →
    (s.reaches a pgGlobal 0x1000 token → Leads (.fenceWrite a token) s (fun t => t.fenceWord a.id pgGlobal 0x1000 = token))
    ∧ (s.reaches a pgTables 0x1000 token → Leads (.tablesFenceWrite a token) s (fun t => t.fenceWord a.id pgTables 0x1000 = token))
    ∧ (∀ p, p = pgGlobal ∨ p = pgTables → (s.fencePassed a.id p = true ↔
        (∀ r ∈ s.pair.relays, r.agent = a.id → (Store.get (0, 0) (fenceKey a.id p 0x1000) s.host.fenceAt).1 ≤ r.seq)
          ∧ ∀ d ∈ s.host.ordered, d.rq.agent.id = a.id → (Store.get (0, 0) (fenceKey a.id p 0x1000) s.host.fenceAt).2 ≤ d.no))
    ∧ (s.stands = false →
      (s.fencePassed a.id pgGlobal = true → Leads (.fenceDone a) s (fun t => t.fenceWord a.id pgGlobal 0x1004 = s.fenceWord a.id pgGlobal 0x1000
          ∧ (∀ b : Agent, b.id ≠ a.id → t.fenceWord b.id pgGlobal 0x1004 = s.fenceWord b.id pgGlobal 0x1004) ∧ t = { s with fences := t.fences }))
      ∧ (s.fencePassed a.id pgGlobal = false → Leads (.fenceDone a) s (fun t => t = s))
      ∧ (s.fencePassed a.id pgTables = true → (∀ e ∈ s.tab.busyWin, e.2.id ≠ a.id) →
        Leads (.tablesFenceDone a) s (fun t => t.fenceWord a.id pgTables 0x1004 = s.fenceWord a.id pgTables 0x1000 ∧ t = { s with fences := t.fences }))
      ∧ (s.fencePassed a.id pgTables = false → Leads (.tablesFenceDone a) s (fun t => t = s))
      ∧ ∀ e ∈ s.tab.busyWin, e.2.id = a.id → Leads (.tablesFenceDone a) s (fun t => t = s))
    ∧ (∀ rq : Request, s.takes opFENCE rq →
      (s.lastRelay rq.agent.id = none → Leads (.fence rq) s (fun t => Answers s t rq .ok []))
      ∧ (s.lastRelay rq.agent.id ≠ none → Leads (.fence rq) s (fun t => t.outbox rq.agent = s.outbox rq.agent ∧ Waits t rq)))
    ∧ ∀ (i : Instr) (op : Nat) (rq : Request) (env : CmdEnv), commandOf i = some (op, rq, env) → s.listens rq.agent →
      (s.arrived rq.agent).reqCheck rq.agent op rq = none →
      let waits := Leads i s (fun t => (∃ d, t.host.ordered = s.host.ordered ++ [d] ∧ d.op = op ∧ d.rq = rq) ∧ t.outbox rq.agent = s.outbox rq.agent
        ∧ t.tab = s.tab ∧ KeepsMemory s t ∧ KeepsConfig s t)
      (rq.flags = 1 → s.lastRelay rq.agent.id = none → (∀ d ∈ s.host.ordered, d.rq.agent ≠ rq.agent) →
        exec i s = .next ((s.arrived rq.agent).execute rq.agent ((s.arrived rq.agent).cmdRights rq.agent rq.session.toNat) (agentRoute rq.agent) op rq env))
      ∧ (rq.flags = 1 → s.lastRelay rq.agent.id ≠ none → waits)
      ∧ (op = opFENCE → (∃ d ∈ s.host.ordered, d.rq.agent = rq.agent ∧ writesWords d.op = true) → waits)

/-- The locks (R55, R56), written by an agent with the rights they need: its own ID to a free lock takes it and counts it, but while LOCKS is
SAFE; 0 from the owner frees it; a lock that another agent holds stays its own. Every other lock stays. -/
def Obligations.LockOwnership : Prop :=
  ∀ (s : State) (a : Agent) (k : Fin 64), s.Canonical →
    (s.lockOwner k.val = 0 → s.reaches a pgLocks (0x1000 + 4 * k.val) (word a.id) →
      (s.safe pgLocks = false → Leads (.lockAcquire a k) s (fun t => t.lockOwner k.val = a.id
        ∧ fld (t.lockW k.val) 31 16 = (fld (s.lockW k.val) 31 16 + 1) % 65536 ∧ ∀ j, j < 64 → j ≠ k.val → t.lockW j = s.lockW j))
      ∧ (s.safe pgLocks = true → Leads (.lockAcquire a k) s (fun t => t.lockW k.val = s.lockW k.val)))
    ∧ (s.lockOwner k.val = a.id → s.reaches a pgLocks (0x1000 + 4 * k.val) 0 →
      Leads (.lockRelease a k) s (fun t => t.lockOwner k.val = 0 ∧ ∀ j, j < 64 → j ≠ k.val → t.lockW j = s.lockW j))
    ∧ (s.lockOwner k.val ≠ 0 → s.lockOwner k.val ≠ a.id →
      ¬ s.accepts a pgLocks (0x1000 + 4 * k.val) (word a.id) ∧ ¬ s.accepts a pgLocks (0x1000 + 4 * k.val) 0
        ∧ Leads (.lockAcquire a k) s (fun t => t.lockW k.val = s.lockW k.val)
        ∧ Leads (.lockRelease a k) s (fun t => t.lockW k.val = s.lockW k.val))

/-- An owner reset frees every lock of the owner, marks it broken, ends the owner's session, and leaves the locks of the others (R57). The
causes named here are loss of the management link, the fatal-fault handler, the resets of the I3C logic and bus, and a detach. RSTACT 0x02 also
warm-resets a running device where WHOLE_RST_EN = 1 (R69). -/
def Obligations.OwnerResets : Prop :=
  ∀ (s : State), s.Canonical → s.stands = false →
    let freed := fun (a : Agent) (t : State) =>
      (∀ k, k < 64 → t.lockOwner k = (if s.lockOwner k = a.id then 0 else s.lockOwner k) ∧ (s.lockOwner k = a.id → bit (t.lockW k) 8 = true))
        ∧ t.sessionOf a = 0
    (bit (s.reg pgMgmt 0x2000) 0 = false → Leads .mgmtLinkLoss s (freed .mgmt))
    ∧ (∀ k, Leads (.fatalFaultEntry k) s (freed (.core k)))
    ∧ Leads .i3cBusReset s (freed .i3c)
    ∧ Leads .i3cTargetReset s (fun t => freed .i3c t ∧ t.host.hdr = false ∧ t.regFld pgHostif 0x2000 8 1 = s.regFld pgHostif 0x2000 8 1)
    ∧ (bit (s.cfg pgHostif 0x100) 1 = false → Leads .rstactWholeReset s (fun t => freed .i3c t ∧ t.host.hdr = false))
    ∧ (bit (s.cfg pgHostif 0x100) 1 = true → 8 ≤ s.pow.phase → Leads .rstactWholeReset s (fun t => t.pow.phase = 6
        ∧ t.regFld pgGlobal 0x2060 3 0 = 8 ∧ t.host.hdr = false ∧ ∀ k, k < 64 → t.lockOwner k = 0))
    ∧ (s.attached = true →
      Leads .debugDetach s (fun t => freed .debug t ∧ t.attached = false ∧ t.cp.triggers = [] ∧ t.cp.halted = [])
      ∧ (s.cfgFld pgDebug 0x100 31 16 ≠ 0 → Leads .detachIdleExpire s (fun t => freed .debug t ∧ t.attached = false ∧ t.cp.halted = [])))

/-- The application (R66): an exception or the processor limit stops it as a whole, with cause, core and address captured, the fault
counted and the event raised; an exception takes the core to the handler, the address in mtval. The resets of all four cores (R67), by a write of
CORE_RESET or by the watchdog: FW_READY falls, no core keeps a lock and no operation is left but ended ones and commits; of one core: its own
locks alone are freed. A write to WDT_KICK leaves every CPCTL word. The watchdog's end sets WDT_EXPIRED; it does not
come under DISABLE, nor while a core is halted. -/
def Obligations.CoresAndApplications : Prop :=
  (∀ (s : State) (k : Fin 4), s.Canonical → s.Keyed → s.stands = false → s.appOn k.val = true →
      let stopped := fun (c : Nat) (addr : Word) (t : State) =>
        bit (t.reg pgCpctl 0x2000) 9 = false ∧ t.reg pgCpctl 0x2008 = word (c + 16 * k.val) ∧ t.reg pgCpctl 0x200C = addr
          ∧ t.reg pgCpctl 0x2010 = s.reg pgCpctl 0x2010 + 1 ∧ bit (t.reg pgCpctl 0x14) 16 = true ∧ RegsBut [pgCpctl] s t
      let trapped := fun (c : Nat) (addr : Word) (t : State) => stopped c addr t ∧ t.coreReg k.val 0x1343 = addr.setWidth 64
          ∧ t.coreReg k.val 0x1341 = s.coreReg k.val 0x40 ∧ t.coreReg k.val 0x40 = s.coreReg k.val 0x1305 &&& ~~~3#64
          ∧ t = { s with regs := t.regs, cp := { s.cp with coreRegs := t.cp.coreRegs }, freeCtr := t.freeCtr }
      (∀ addr, Leads (.appFault k .accessFault addr) s (trapped 1 addr) ∧ Leads (.appFault k .illegalInstr addr) s (trapped 2 addr)
        ∧ Leads (.appFault k .misaligned addr) s (trapped 3 addr))
      ∧ (s.cfgFld pgCpctl 0x120 15 0 ≠ 0 → Leads (.appCpuLimit k) s (fun t => stopped 4 0 t ∧ t = { s with regs := t.regs })))
    ∧ (∀ (s : State), s.Canonical →
      let all := fun (t : State) => bit (t.reg pgHostif 0x2000) 0 = false ∧ (∀ k, k < 64 → t.lockOwner k < 4 ∨ 7 < t.lockOwner k)
        ∧ (∀ slot r, t.opRec slot = some r → r.state.terminal = true ∨ r.kind = .epochCommit) ∧ t.cp.halted = []
      (∀ a, s.reaches a pgCpctl 0x1000 1#32 → Leads (.coreResetAll a) s all)
      ∧ (∀ (a : Agent) (k : Fin 3), s.reaches a pgCpctl 0x1000 (oneBit (k.val + 1)) →
        Leads (.coreResetOne a k) s (fun t => ∀ j, j < 64 → t.lockOwner j = (if s.lockOwner j = 5 + k.val then 0 else s.lockOwner j)))
      ∧ (∀ a data, s.reaches a pgCpctl 0x1004 data → Leads (.wdtKick a data) s (fun t => ∀ o, o < 0x10000 → t.reg pgCpctl o = s.reg pgCpctl o))
      ∧ (s.stands = false →
        let paused := bit (s.reg pgCpctl 0x1008) 16 = true ∨ s.cp.halted ≠ []
        (paused → Leads .wdtExpired s (fun t => t = s))
        ∧ (¬ paused → Leads .wdtExpired s (fun t => all t ∧ bit (t.reg pgCpctl 0x2000) 10 = true))))

/-! ### The I3C target and the management lane (R68-R72, R93) -/

/-- Dynamic addresses (R68): ENTDAA and SETDASA give one to a target that has none, SETNEWDA changes it, RSTDAA takes it away; one that is not
meant leaves the registers and is not answered; nothing but HOST_STATUS and the reply changes. The directed CCCs (R68, R93): a CCC that names the
device answers as R68 says, one that names another target is not answered; GETDCR, GETSTATUS and GETMXDS answer one, two and two bytes of values
that the spec leaves open (log entry 2). An unsupported CCC is NACKed where it names the device. ENEC and DISEC that reach the device open and
close in-band interrupts. ENTHDR0 enters HDR-DDR while HDR_EN = 1. -/
def Obligations.I3cTargetAnswers : Prop :=
  (∀ (s : State) (target addr : BitVec 7), s.Canonical → s.inReset = false →
      let took := fun (t : State) => t.dynValid = true ∧ t.dynAddr = addr.toNat
      let frame := fun (t : State) => RegsBut [pgHostif] s t ∧ t = { s with regs := t.regs, host := { s.host with reply := t.host.reply } }
      let silent := fun (t : State) => t = { s with host := { s.host with reply := .silent } }
      (s.dynValid = false → Leads (.entdaa addr) s (fun t => took t ∧ frame t ∧ t.host.reply = .data (beBytes 6 s.pid ++ [bcr, Config.dcr])))
      ∧ (s.dynValid = true → Leads (.entdaa addr) s silent)
      ∧ (s.dynValid = false → s.staticAddr = target.toNat → Leads (.setdasa target addr) s (fun t => took t ∧ frame t ∧ t.host.reply = .ack))
      ∧ (s.dynValid = true ∨ s.staticAddr ≠ target.toNat → Leads (.setdasa target addr) s silent)
      ∧ (s.dynValid = true → s.dynAddr = target.toNat → Leads (.setnewda target addr) s (fun t => took t ∧ frame t ∧ t.host.reply = .ack))
      ∧ (s.dynValid = false ∨ s.dynAddr ≠ target.toNat → Leads (.setnewda target addr) s silent)
      ∧ Leads .rstdaa s (fun t => t.dynValid = false ∧ frame t))
    ∧ (∀ (s : State) (target : BitVec 7), s.inReset = false →
      let answers := fun (i : Instr) (ok : List Byte → Prop) => Leads i s (fun t =>
        t = { s with freeCtr := t.freeCtr, host := { s.host with reply := t.host.reply } }
          ∧ (if s.i3cMine target then ∃ l, t.host.reply = .data l ∧ ok l else t.host.reply = .silent))
      answers (.getpid target) (fun l => l = beBytes 6 (0x2D4E * 2 ^ 33 + 0x2880 * 2 ^ 16 + s.regFld 0 0x2064 2 1 * 2 ^ 12))
      ∧ answers (.getbcr target) (fun l => l = [0x26#8])
      ∧ answers (.getdcr target) (fun l => l.length = 1)
      ∧ answers (.getstatus target) (fun l => l.length = 2)
      ∧ answers (.getmxds target) (fun l => l.length = 2)
      ∧ (∀ code, Leads (.unsupportedCcc code (some target)) s (fun t =>
          t = { s with host := { s.host with reply := if s.i3cMine target then .nack else .silent } })
        ∧ Leads (.unsupportedCcc code none) s (fun t => t = { s with host := { s.host with reply := .silent } }))
      ∧ (∀ o : Option (BitVec 7),
          (s.cccReaches o = true →
            Leads (.enec o) s (fun t => t = { s with host := { s.host with ibiOff := false, reply := .ack } })
            ∧ Leads (.disec o) s (fun t => t = { s with host := { s.host with ibiOff := true, reply := .ack } }))
          ∧ (s.cccReaches o = false → Leads (.enec o) s (fun t => t = { s with host := { s.host with reply := .silent } })
            ∧ Leads (.disec o) s (fun t => t = { s with host := { s.host with reply := .silent } })))
      ∧ Leads .enthdr0 s (fun t => if bit (s.cfg pgHostif 0x100) 0 then t = { s with host := { s.host with hdr := true, reply := .ack } }
          else t = { s with host := { s.host with reply := .silent } }))

/-- Private reads (R70, R71): the oldest response leaves, in the order of completion, or a NACK tells that none waits; an I2C read at the
static address does the same where I2C is open, and an I2C write there is a request, NACKed while eight responses are unread. In-band interrupts
(R93): an acknowledged request delivers the oldest event, or where none waits a group that has become pending; while DISEC holds, no address is
assigned or the controller refuses, every event waits. -/
def Obligations.ReadsAndInterrupts : Prop :=
  (∀ (s : State), s.inReset = false →
      let read := fun (t : State) => match s.host.resp with
        | [] => t = { s with host := { s.host with reply := .nack } }
        | r :: rest => t = { s with host := { s.host with resp := rest, reply := .data r } }
      Leads .privateRead s read
      ∧ ∀ addr : BitVec 7, addr.toNat = s.staticAddr → (s.dynValid = false ∨ bit (s.cfg pgHostif 0x100) 2 = true) →
        Leads (.i2cTransfer addr .read) s read
        ∧ ∀ bytes, Leads (.i2cTransfer addr (.write bytes)) s (fun t =>
            (8 ≤ s.host.resp.length → t = { s with host := { s.host with reply := .nack } }) ∧ (s.host.resp.length < 8 →
                t = ({ s with host := { s.host with reply := .ack } }).hostCommand .i3c .i3c (receivedRequest .i3c bytes).1 (receivedRequest .i3c bytes).2 .none)))
    ∧ (∀ (s : State), s.inReset = false →
      (∀ e rest, s.host.ibis = e :: rest → s.host.ibiOff = false → s.dynValid = true →
        Leads (.ibiRequest true) s (fun t => t.host.ibis = rest ∧ t.host.ibiLast = some e ∧ t.regs = s.regs ∧ t.host.resp = s.host.resp))
      ∧ (∀ g p, s.host.ibis = [] → s.forgetGroups.newGroup = some (g, p) → s.host.ibiOff = false → s.dynValid = true →
        Leads (.ibiRequest true) s (fun t => t.host.ibiLast = some (BitVec.ofNat 8 (8 + g), BitVec.ofNat 8 p) ∧ t.host.ibis = [] ∧ t.regs = s.regs))
      ∧ Leads (.ibiRequest false) s (fun t => t.host.ibis = s.host.ibis ∧ t.host.ibiLast = s.host.ibiLast ∧ t.regs = s.regs)
      ∧ (s.host.ibiOff = true ∨ s.dynValid = false → Leads (.ibiRequest true) s (fun t => t.host.ibis = s.host.ibis ∧ t.regs = s.regs)))

/-- A frame that ends on the management lane (R72, R146): one that a row of R131 discards is counted there; a good one is counted as received
and, by its EtherType and address, executed or refused as a command of the management port, discarded and counted, or passed to the data path; a
frame whose first 256 bytes were offered already ends there. -/
def Obligations.MgmtFrames : Prop :=
  ∀ (s : State) (frame : List Byte) (fcsOk full : Bool), s.Canonical → s.stands = false →
    let u := s.incReg pgMgmt 0x2004
    let early := s.port.arriving.any (fun e => e.1 == 241) = true
    (early → exec (.mgmtFrameRx frame fcsOk full) s = .next (s.rxEnd 241 (frame.drop 256) fcsOk))
    ∧ (¬ early → s.macTakes 241 = false → Leads (.mgmtFrameRx frame fcsOk full) s (fun t => t = s))
    ∧ (¬ early → s.macTakes 241 = true → u.macRow 241 frame fcsOk ≠ 5 →
      exec (.mgmtFrameRx frame fcsOk full) s = .next (u.macCount 241 (min (u.macRow 241 frame fcsOk) 3)))
    ∧ (¬ early → s.macTakes 241 = true → u.macRow 241 frame fcsOk = 5 →
      match u.mgmtFrameKind frame with
      | .discard => Leads (.mgmtFrameRx frame fcsOk full) s (fun t => t.reg pgHostif 0x2018 = s.reg pgHostif 0x2018 + 1 ∧ t = { s with regs := t.regs })
      | .data => exec (.mgmtFrameRx frame fcsOk full) s = .next (u.rxWhole 241 frame true full)
      | .command mac vlan bytes =>
        exec (.mgmtFrameRx frame fcsOk full) s
          = .next (u.hostCommand .mgmt (.mgmt mac vlan) (receivedRequest .mgmt bytes).1 (receivedRequest .mgmt bytes).2 .none))

/-! ### Commands and responses (R73-R91, R101-R114) -/

/-- A request that passes every check of R76, and is not kept behind an earlier command of its agent, is executed as the command of its opcode
with the rights of its session; one that fails a check is answered with the first that fails, or where NO_RESPONSE keeps the answer back is
captured in NR_ERROR; a quenched device answers BUSY to what R454 does not serve. -/
def Obligations.CommandChecks : Prop :=
  ∀ (i : Instr) (s : State) (op : Nat) (rq : Request) (env : CmdEnv), s.Canonical → commandOf i = some (op, rq, env) →
    let u := s.arrived rq.agent
    let quiet := bit (rq.flags.setWidth 32) 1 = true
    (s.takes op rq → exec i s = .next (u.execute rq.agent (u.cmdRights rq.agent rq.session.toNat) (agentRoute rq.agent) op rq env))
    ∧ (∀ st, s.listens rq.agent → u.reqCheck rq.agent op rq = some st →
      (¬ quiet ∨ alwaysAnswered rq st = true → Leads i s (fun t => Answers s t rq st [] ∧ KeepsMemory s t ∧ KeepsConfig s t))
      ∧ (quiet → alwaysAnswered rq st = false → Leads i s (fun t => t.outbox rq.agent = s.outbox rq.agent ∧ bit (t.reg pgHostif 0x201C) 31 = true
        ∧ KeepsMemory s t ∧ KeepsConfig s t)))
    ∧ (s.inReset = false → s.quenched = true → rq.agent.framed = true → (rq.agent = .debug → s.attached = true) →
      (rq.agent = .mgmt → s.mgmtSends = true) → (rq.agent = .i3c → s.host.resp.length < 8) → quenchOk rq.agent op (reqWords rq) = false →
      rq.flags = 0 → u.reqCheck rq.agent op rq = none → Leads i s (fun t => Answers s t rq .busy [] ∧ KeepsMemory s t ∧ KeepsConfig s t))

/-- READ, WRITE, WRITE_MASKED, FENCE and ECHO (R77-R79, R86): a READ of words of this device answers its status and the words read, COUNT of
them where all could be read; a WRITE answers how many words took effect, COUNT where none failed; a COUNT of 0 or above 256, or one that the
LENGTH of a WRITE does not fit, draws BAD_LENGTH whatever session it names; WRITE_MASKED of no bit writes nothing; FENCE answers once no relay
of the agent is outstanding; ECHO returns its payload. A command that has issued relays answers later. A load of a running core in machine mode
(R51-R53, R62, R63) gives its register the bytes at the address, or what the page shows there; one outside the map is a load access fault. -/
def Obligations.ReadWriteAnswers : Prop :=
  ∀ (s : State) (rq : Request) (l : CoreLoad), s.Canonical →
    let a := rq.agent
    let ws := reqWords rq
    let u := s.arrived a
    let n := ctlCount (ws.getD 1 0)
    let rights := u.cmdRights a rq.session.toNat
    let whole := fun (op : Nat) => s.listens a ∧ reqByteCount rq = 8 + 4 * rq.length.toNat + 2 ∧ rq.length.toNat ≤ 258
      ∧ rq.crc = crc16 (reqHeader op rq ++ rq.body) ∧ rq.byte3 = 0 ∧ rq.flags = 0
    let stillUp := fun (t : State) => a = .mgmt → t.mgmtSends = true
    (whole opREAD → n = 0 ∨ 256 < n → Leads (.readWords (.command rq)) s (fun t => Answers s t rq .badLength [] ∧ KeepsMemory s t ∧ KeepsConfig s t))
    ∧ (whole opWRITE → n = 0 ∨ 256 < n ∨ rq.length.toNat ≠ 2 + n →
      Leads (.writeWords rq) s (fun t => Answers s t rq .badLength [] ∧ KeepsMemory s t ∧ KeepsConfig s t))
    ∧ (s.takes opREAD rq →
      let r := u.cmdRead a rights ws
      (ownWords ws → r.2.pair.relayNext = s.pair.relayNext → Leads (.readWords (.command rq)) s (fun t =>
        ∃ l, Answers r.2 t rq r.1.st l ∧ (r.1.st = .ok → l.length = n)))
      ∧ (s.pair.relayNext < r.2.pair.relayNext → Leads (.readWords (.command rq)) s (fun t => t.outbox a = r.2.outbox a ∧ Waits t rq)))
    ∧ (s.takes opWRITE rq →
      let r := u.cmdWrite a rights ws
      (ownWords ws → r.2.pair.relayNext = s.pair.relayNext → stillUp r.2 → Leads (.writeWords rq) s (fun t =>
        ∃ l, Answers r.2 t rq r.1.st l ∧ (r.1.st = .ok → l = [word n])))
      ∧ (s.pair.relayNext < r.2.pair.relayNext → Leads (.writeWords rq) s (fun t => t.outbox a = r.2.outbox a ∧ Waits t rq)))
    ∧ (s.takes opMASKED rq → ws.getD 1 0 = 0 → Leads (.writeMasked rq) s (fun t => Answers s t rq .ok [0] ∧ KeepsMemory s t ∧ KeepsConfig s t))
    ∧ (s.takes opMASKED rq → ws.getD 1 0 ≠ 0 →
      let r := u.cmdMasked a rights ws
      (inPages (ws.getD 0 0).toNat = true → r.2.pair.relayNext = s.pair.relayNext → stillUp r.2 →
        Leads (.writeMasked rq) s (fun t => Answers r.2 t rq r.1.st [if r.1.st = .ok then 1 else 0]))
      ∧ (s.pair.relayNext < r.2.pair.relayNext → Leads (.writeMasked rq) s (fun t => t.outbox a = r.2.outbox a ∧ Waits t rq)))
    ∧ (s.takes opFENCE rq →
      (s.lastRelay a.id = none → Leads (.fence rq) s (fun t => Answers s t rq .ok [] ∧ KeepsMemory s t ∧ KeepsConfig s t))
      ∧ (s.lastRelay a.id ≠ none → Leads (.fence rq) s (fun t => t.outbox a = s.outbox a ∧ Waits t rq ∧ KeepsMemory s t ∧ KeepsConfig s t)))
    ∧ (s.takes opECHO rq → Leads (.echo rq) s (fun t => Answers s t rq .ok ws ∧ KeepsMemory s t ∧ KeepsConfig s t))
    ∧ (s.Keyed → s.stands = false → l.user = false → l.uncorr = false → s.cp.halted.any (fun e => e.1 == l.core.val) = false →
      let ad := l.addr.toNat
      let takes := fun (v : BitVec 64) (t : State) => t.coreReg l.core.val l.rd.toNat = (if l.rd.toNat = 0 then 0 else extend l.signed l.size v)
      (inPages ad = false → inMap ad (accBytes l.size) = true → Leads (.readWords (.load l)) s (fun t =>
        takes (BitVec.ofNat 64 (s.memNat ad (accBytes l.size))) t ∧ KeepsMemory s t ∧ KeepsConfig s t))
      ∧ (inPages ad = false → inMap ad (accBytes l.size) = false → Leads (.readWords (.load l)) s (fun t =>
        t.coreReg l.core.val 0x1342 = 5 ∧ t.coreReg l.core.val 0x1343 = BitVec.ofNat 64 ad ∧ t.coreReg l.core.val 0x1341 = s.coreReg l.core.val 0x40
          ∧ KeepsMemory s t ∧ KeepsConfig s t))
      ∧ (inPages ad = true → (pageRow ((ad - 0x40000000) / 0x10000)).isSome → accAligned l.size ad = true →
        (s.loadPages (.core l.core) ad l.size).1 = .ok →
        Leads (.readWords (.load l)) s (takes (s.loadPages (.core l.core) ad l.size).2.1)))

/-- Login (R103-R106): a challenge is issued unless the agent is locked out or the role has no key; a response that carries the right code
opens a session with the role's right or adds it to the one there is, and any other is refused and counted; LOGOUT ends the session; time ends
the challenge, an idle session unless SESSION_IDLE is 0, and the lockout. -/
def Obligations.LoginSessions : Prop :=
  (∀ (s : State) (rq : Request), s.Canonical →
      let a := rq.agent
      let ws := reqWords rq
      (s.takes opCHALLENGE rq → s.lockedOut a = false → s.safe pgRoles = false →
        s.keyBlank (fld (ws.getD 0 0) 1 0) = false →
        Leads (.loginChallenge rq) s (fun t => ∃ c : Challenge, t.host.challenges.find? (fun e => e.1 == a.id) = some (a.id, c)
          ∧ c.role.toNat = fld (ws.getD 0 0) 1 0 ∧ Answers s t rq .ok (word c.id.toNat :: toWords (beBytes 32 c.nonce.toNat))))
      ∧ (s.takes opCHALLENGE rq → s.lockedOut a = true ∨ (s.safe pgRoles = false ∧ s.keyBlank (fld (ws.getD 0 0) 1 0) = true) →
        Leads (.loginChallenge rq) s (fun t => Answers s t rq .denied [] ∧ t.reg pgRoles 0x2014 = s.reg pgRoles 0x2014 + 1 ∧ t.host.challenges = s.host.challenges))
      ∧ (∀ c : Challenge, s.takes opRESPONSE rq → s.safe pgRoles = false →
        s.host.challenges.find? (fun e => e.1 == a.id) = some (a.id, c) → c.id.toNat = fld (ws.getD 0 0) 15 0 → c.role.toNat = fld (ws.getD 0 0) 17 16 →
        c.role.toNat ≠ 3 →
        ((ws.drop 1).flatMap wordBytes = hmac256 (s.roleKey c.role.toNat) (loginMessage c a) →
          Leads (.loginResponse rq) s (fun t => t.sessionOf a ≠ 0 ∧ t.sessionRights a = (if s.sessionOf a = 0 then 0 else s.sessionRights a) ||| 2 ^ c.role.toNat
            ∧ (s.sessionOf a ≠ 0 → t.sessionOf a = s.sessionOf a) ∧ Answers s t rq .ok [word (t.sessionOf a + t.sessionRights a * 0x10000)]))
        ∧ ((ws.drop 1).flatMap wordBytes ≠ hmac256 (s.roleKey c.role.toNat) (loginMessage c a) →
          Leads (.loginResponse rq) s (fun t => t.sessionOf a = s.sessionOf a ∧ Answers s t rq .denied [] ∧ t.reg pgRoles 0x2014 = s.reg pgRoles 0x2014 + 1)))
      ∧ (s.takes opRESPONSE rq → (∀ e ∈ s.host.challenges, e.1 ≠ a.id) →
        Leads (.loginResponse rq) s (fun t => t.sessionOf a = s.sessionOf a ∧ Answers s t rq .denied [] ∧ t.reg pgRoles 0x2014 = s.reg pgRoles 0x2014 + 1))
      ∧ (s.takes opLOGOUT rq → rq.session ≠ 0 → Leads (.logout rq) s (fun t => t.sessionOf a = 0 ∧ Answers s t rq .ok [])))
    ∧ (∀ (s : State) (h : HostAgent), s.Canonical → s.stands = false →
      Leads (.challengeExpire h) s (fun t => t = { s with host := { s.host with challenges := Store.erase h.agent.id s.host.challenges } })
      ∧ (s.cfgFld pgRoles 0x100 15 0 ≠ 0 → Leads (.sessionIdleExpire h) s (fun t => t.sessionOf h.agent = 0 ∧ t.host.fails = s.host.fails))
      ∧ (s.cfgFld pgRoles 0x100 15 0 = 0 → Leads (.sessionIdleExpire h) s (fun t => t = s))
      ∧ Leads (.lockoutExpire h) s (fun t => t = { s with host := { s.host with lockedOut := Store.erase h.agent.id s.host.lockedOut } }))

/-- A key change (R108, R109): a commit of role 0 or 1 that reaches KEY_CTRL while no other runs makes ROLES busy, but one of an all-zero
installer key or over a running one is refused with REJECT; its completion makes the staged value the current key, counts KEY_GEN, clears the
staging words and BUSY, sets the role's blank flag by the key, leaves the other role's key, and no session but the committing one keeps the role's
right. -/
def Obligations.KeyChange : Prop :=
  ∀ (s : State) (a : Agent) (role : BitVec 2), s.Canonical → role.toNat < 2 →
    (s.reaches a pgRoles 0x1020 (word (role.toNat + 0x100)) →
      let refused := bit (s.reg pgRoles 0x2000) 0 = true ∨ (role.toNat = 1 ∧ s.stagedKey = 0)
      (¬ refused → Leads (.keyCommit a role) s (fun t => t.nvm.keyJob = some (a, s.sessionOf a, role) ∧ bit (t.reg pgRoles 0x2000) 0 = true))
      ∧ (refused → Leads (.keyCommit a role) s (fun t => t.nvm.keyJob = s.nvm.keyJob ∧ bit (t.reg pgRoles 0x2000) 8 = true)))
    ∧ (∀ ses, s.stands = false → s.safe pgPstore = false → s.nvm.keyJob = some (a, ses, role) →
      Leads .keyCommitDone s (fun t => t.roleKey role.toNat = s.stagedKey ∧ t.nvm.keyJob = none ∧ bit (t.reg pgRoles 0x2000) 0 = false
        ∧ t.regFld pgRoles 0x2000 31 16 = (s.regFld pgRoles 0x2000 31 16 + 1) % 65536 ∧ (∀ i, i < 8 → t.reg pgRoles (0x1000 + 4 * i) = 0)
        ∧ (t.keyBlank role.toNat = true ↔ s.stagedKey = 0)
        ∧ t.roleKey (1 - role.toNat) = s.roleKey (1 - role.toNat)
        ∧ ∀ b ∈ [Agent.i3c, .mgmt, .debug], (b, s.sessionOf b) ≠ (a, ses) → t.sessionOf b = 0 ∨ t.sessionRights b &&& 2 ^ role.toNat = 0))

/-- The audit log (R111-R114): unless PSTORE is SAFE the oldest pending record takes the next place of the ring under the next SEQ; LOG_READ needs
INSTALLER or MAKER and answers at most COUNT records of eight words, COUNT from 1 to 32. -/
def Obligations.AuditLog : Prop :=
  ∀ (s : State), s.Canonical →
    (∀ r rest, s.stands = false → s.safe pgPstore = false → s.nvm.auditPend = r :: rest → s.nvm.auditLost = 0 →
      Leads .auditRecordWrite s (fun t => t.reg pgRoles 0x201C = s.reg pgRoles 0x201C + 1 ∧ t.nvm.auditPend = rest
        ∧ t.nvm.ring.find? (fun e => e.1 == (s.reg pgRoles 0x201C).toNat % 4096)
          = some ((s.reg pgRoles 0x201C).toNat % 4096, { r with seq := s.reg pgRoles 0x201C })
        ∧ RegsBut [pgRoles, pgPstore] s t))
    ∧ ∀ rq : Request, s.takes opLOG rq →
      let n := fld ((reqWords rq).getD 1 0) 5 0
      let rights := (s.arrived rq.agent).cmdRights rq.agent rq.session.toNat
      (rights &&& 6 = 0 → Leads (.logRead rq) s (fun t => Answers s t rq .denied []))
      ∧ (rights &&& 6 ≠ 0 → n = 0 ∨ 32 < n → Leads (.logRead rq) s (fun t => Answers s t rq .badLength []))
      ∧ (rights &&& 6 ≠ 0 → 0 < n → n ≤ 32 → Leads (.logRead rq) s (fun t => ∃ l : List Word, l.length ≤ 8 * n ∧ l.length % 8 = 0 ∧ Answers s t rq .ok l))

/-! ### Long operations (R87-R91) -/

/-- OP_START of each of the nine types (R87, R89, R90): without the type's right it answers DENIED, a failed check is its answer, and with no
record free the answer is BUSY. Else a free record takes the operation under a new serial number, QUEUED where an earlier conflicting
operation has not ended and RUNNING else, but for a STATE_SYNC that finds the pair not up, which is FAILED; the response is its HANDLE, and
no other record changes. Which free record it takes is the model's choice (log entry 137). -/
def Obligations.OperationsStart : Prop :=
  ∀ (i : Instr) (s : State) (k : OpKind) (rq : Request), s.Canonical → startOf i = some (k, rq) → s.takes opSTART rq →
    OpKind.ofCode (fld ((reqWords rq).getD 0 0) 7 0) = some k →
    let a := rq.agent
    let u := s.arrived a
    let right := rightOk (u.cmdRights a rq.session.toNat) k.right
    (right = false → Leads i s (fun t => Answers s t rq .denied [] ∧ t.ops = s.ops))
    ∧ (∀ st, right = true → u.opCheck k (reqWords rq) = some st → Leads i s (fun t => Answers s t rq st [] ∧ t.ops = s.ops))
    ∧ (right = true → u.opCheck k (reqWords rq) = none → s.freeOp = none → Leads i s (fun t => Answers s t rq .busy [] ∧ t.ops = s.ops))
    ∧ (∀ slot, right = true → u.opCheck k (reqWords rq) = none → s.freeOp = some slot →
      Leads i s (fun t => ∃ r, t.opRec slot = some r ∧ r.kind = k ∧ r.serial = Store.get 0#12 slot s.ops.serials + 1 ∧ r.starter = a.id
        ∧ r.state = (if u.opBlocked r = true then .queued else if k = .stateSync ∧ u.pairUp = false then .failed else .running)
        ∧ Answers s t rq .ok [r.handle slot] ∧ ∀ j, j ≠ slot → t.opRec j = s.opRec j))

/-- Commands about an operation (R88-R91): a HANDLE that names no record is answered NO_SUCH_OP. OP_STATUS answers the record's eight words,
and frees a terminal record that its starter reads. With the type's right, OP_SUSPEND suspends a running operation of a type that can be
suspended, OP_RESUME continues a suspended one, and OP_CANCEL ends a queued one and, but for an armed commit, a running or suspended one
that can be cancelled; an operation other than a commit in no state for the command is left as it is with OP_STATE. -/
def Obligations.OperationCommands : Prop :=
  ∀ (s : State) (rq : Request), s.Canonical →
    let a := rq.agent
    let h := (reqWords rq).getD 0 0
    let u := s.arrived a
    let idle := ∀ e, s.commitRec = some e → e.2.phase ≠ phArmed
    (s.byHandle h = none →
      (s.takes opSTATUS rq → Leads (.opStatus rq 0) s (fun t => Answers s t rq .noSuchOp [] ∧ t.ops = s.ops))
      ∧ (s.takes opSUSPEND rq → Leads (.opSuspend rq 0) s (fun t => Answers s t rq .noSuchOp [] ∧ t.ops = s.ops))
      ∧ (s.takes opRESUME rq → Leads (.opResume rq) s (fun t => Answers s t rq .noSuchOp [] ∧ t.ops = s.ops))
      ∧ (s.takes opCANCEL rq → Leads (.opCancel rq 0) s (fun t => Answers s t rq .noSuchOp [] ∧ t.ops = s.ops)))
    ∧ (∀ e, s.byHandle h = some e →
      let slot := e.1
      let r := e.2
      let right := rightOk (u.cmdRights a rq.session.toNat) r.kind.right = true
      (s.takes opSTATUS rq → Leads (.opStatus rq 0) s (fun t => Answers s t rq .ok ((s.opShown r).words slot)
        ∧ t.ops.recs = (if r.state.terminal = true ∧ r.starter = a.id then Store.erase slot s.ops.recs else s.ops.recs)))
      ∧ (s.takes opSUSPEND rq → right → r.state = .running → r.suspendable = true → r.kind ≠ .epochCommit →
        Leads (.opSuspend rq 0) s (fun t => t.opRec slot = some { r with state := .suspended } ∧ Answers s t rq .ok []))
      ∧ (s.takes opSUSPEND rq → right → r.state = .running → r.kind = .epochCommit → idle → r.suspendable = true →
        Leads (.opSuspend rq 0) s (fun t => (∃ q, t.opRec slot = some q ∧ q.state = .suspended ∧ q.serial = r.serial) ∧ Answers s t rq .ok []))
      ∧ (s.takes opSUSPEND rq → right → r.state ≠ .running ∨ r.suspendable = false → r.kind ≠ .epochCommit →
        Leads (.opSuspend rq 0) s (fun t => t.ops = s.ops ∧ Answers s t rq .opState []))
      ∧ (s.takes opRESUME rq → right → Leads (.opResume rq) s (fun t =>
          if r.state = .suspended then t.opRec slot = some { r with state := .running } ∧ Answers s t rq .ok []
          else t.ops = s.ops ∧ Answers s t rq .opState []))
      ∧ (s.takes opCANCEL rq → right → r.state = .queued ∨ ((r.state = .running ∨ r.state = .suspended) ∧ r.cancellable = true) → r.kind ≠ .epochCommit ∨ idle →
        Leads (.opCancel rq 0) s (fun t => (∃ q, t.opRec slot = some q ∧ q.state = .cancelled ∧ q.result = .ok) ∧ Answers s t rq .ok []))
      ∧ (s.takes opCANCEL rq → right → r.state.terminal = true → r.kind ≠ .epochCommit →
        Leads (.opCancel rq 0) s (fun t => t.ops = s.ops ∧ Answers s t rq .opState [])))

/-- What ends by itself (R89, R91, R221, R271, R483): a queued operation starts once nothing earlier conflicts, a memory test whose range need
not wait and a flush with TABLES working are DONE with PROGRESS at TOTAL, an update that does not read back is FAILED and
leaves the store as it is, and a terminal record is freed. -/
def Obligations.OperationsEnd : Prop :=
  ∀ (s : State) (slot : Fin 16), s.Canonical → s.Keyed → s.stands = false → ∀ r, s.opRec slot.val = some r →
    (r.state = .queued → s.opBlocked r = false → r.kind ≠ .stateSync → r.kind ≠ .epochCommit ∨ s.enabled pgEpoch = true →
      Leads (.opQueuedStart slot) s (fun t => ∃ q, t.opRec slot.val = some q ∧ q.kind = r.kind ∧ q.serial = r.serial ∧ q.state = .running))
    ∧ (r.state = .queued → s.opBlocked r = false →
      Leads (.opQueuedStart slot) s (fun t => ∃ q, t.opRec slot.val = some q ∧ q.kind = r.kind ∧ q.serial = r.serial ∧ q.state ≠ .queued))
    ∧ (∀ good found, r.state = .running → r.kind = .memTest → r.progress.toNat ≤ r.total.toNat → r.total.toNat ≤ 3145728 →
        s.buf.testing = r.testRange → s.buf.spill = [] →
      Leads (.opComplete slot good found) s (fun t => ∃ q, t.opRec slot.val = some q ∧ q.state = .done ∧ q.result = .ok ∧ q.progress = q.total))
    ∧ (∀ good found, r.state = .running → r.kind = .tableFlush → s.working pgTables = true → s.leadJoined = false → r.total.toNat ≤ 16777216 →
      Leads (.opComplete slot good found) s (fun t => ∃ q, t.opRec slot.val = some q ∧ q.state = .done ∧ q.progress = q.total))
    ∧ (∀ found, r.state = .running → r.kind = .fwUpdate → r.phase = 2 →
      Leads (.opComplete slot false found) s (fun t => (∃ q, t.opRec slot.val = some q ∧ q.state = .failed) ∧ t.nvm.bytes = s.nvm.bytes
        ∧ t.reg pgPstore 0x2000 = s.reg pgPstore 0x2000))
    ∧ (r.state.terminal = true → Leads (.opRecordExpire slot) s (fun t => t = { s with ops := { s.ops with recs := Store.erase slot.val s.ops.recs } }))


/-! ### Ports and FlexE (R129-R141) -/

/-- LINK_UP (R129, R132, R146): it rises for an accepted port of a running bank with ADMIN_UP, and for the management lane likewise; it falls
with the fault that took it down, whose two bits it shows, and a frame that a line port was sending is counted as aborted. -/
def Obligations.LinksRiseAndFall : Prop :=
  ∀ (s : State) (port : Fin 242), s.Canonical → s.stands = false →
    (port.val < 160 →
      (s.portAccepted port.val = true → 2 ≤ s.blk (bankPage port.val) → s.adminUp port.val = true →
        Leads (.linkUp port) s (fun t => t.lineUp port.val = true ∧ KeepsConfig s t ∧ KeepsMemory s t
          ∧ (s.lineUp port.val = false → bit (t.reg (bankPage port.val) 0x14) 16 = true)))
      ∧ ∀ lf rf noSignal noLock, Leads (.linkDown port lf rf noSignal noLock) s (fun t => t.lineUp port.val = false ∧ KeepsConfig s t ∧ KeepsMemory s t
          ∧ bit (t.reg (bankPage port.val) 0x2004) (8 + port.val % 8) = lf ∧ bit (t.reg (bankPage port.val) 0x2004) (16 + port.val % 8) = rf
          ∧ (s.lineUp port.val = true → Store.get [] port.val s.buf.fifo ≠ [] →
              t.reg (bankPage port.val) (0x2100 + 0x40 * (port.val % 8) + 24) = s.reg (bankPage port.val) (0x2100 + 0x40 * (port.val % 8) + 24) + 1)))
    ∧ (port.val = 241 →
      (2 ≤ s.blk pgMgmt → s.adminUp 241 = true → Leads (.linkUp port) s (fun t => bit (t.reg pgMgmt 0x2000) 0 = true ∧ KeepsConfig s t ∧ KeepsMemory s t))
      ∧ ∀ lf rf noSignal noLock, Leads (.linkDown port lf rf noSignal noLock) s (fun t => bit (t.reg pgMgmt 0x2000) 0 = false ∧ KeepsConfig s t ∧ KeepsMemory s t
          ∧ bit (t.reg pgMgmt 0x2000) 1 = lf ∧ bit (t.reg pgMgmt 0x2000) 2 = rf))

/-- Reception (R131, R143, R174, R401): a whole frame is discarded and counted by the first row of R131 that applies, and nothing changes but
that counter and what a line port with all its lanes in far loopback sends back; a good frame enters its port's FIFO with the port's next sequence number, while the FIFO
has room, and a standby discards it, counted. A frame's bad end ends its arrival, counted; a MAC control frame is decided by the same rows at its end. A port
looped back inside its PMA takes nothing from outside. -/
def Obligations.FramesAreReceived : Prop :=
  ∀ (s : State) (port : Fin 242) (bytes : List Byte) (fcsOk : Bool), s.Canonical → s.Keyed → s.stands = false → port.val ≠ 241 →
    s.macTakes port.val = true →
    let u := if port.val < 160 then s.farFrame port.val bytes fcsOk else s
    (s.looped port.val = true → Leads (.frameRx port bytes true fcsOk false) s (fun t => t = u))
    ∧ (s.looped port.val = false → port.val ≠ 240 → s.macRow port.val bytes fcsOk < 4 →
      Leads (.frameRx port bytes true fcsOk false) s (fun t => t = u.macCount port.val (s.macRow port.val bytes fcsOk)))
    ∧ (s.looped port.val = false → port.val = 240 ∨ s.macRow port.val bytes fcsOk = 5 → port.val = 240 ∨ (s.standby = false ∧ s.winding = false) →
      Leads (.frameRx port bytes true fcsOk false) s (fun t => ∃ x : Frame, Store.get [] port.val t.port.fifos = Store.get [] port.val s.port.fifos ++ [x]
        ∧ x.bytes = bytes ∧ x.port = port.val ∧ x.seq = Store.get 0 port.val s.port.seqs ∧ x.pass = 1 ∧ x.ended = true ∧ KeepsConfig s t ∧ KeepsMemory s t))
    ∧ (s.looped port.val = false → s.macRow port.val bytes fcsOk = 5 → port.val ≠ 240 → s.standby = true →
      Leads (.frameRx port bytes true fcsOk false) s (fun t => t.port.fifos = s.port.fifos ∧ t.reg pgPair 0x204C = s.reg pgPair 0x204C + 1))
    ∧ (∀ rest e, s.port.ctlRx.find? (fun e => e.1 == port.val) = none → s.port.arriving.find? (fun e => e.1 == port.val) = some e →
      Leads (.frameEndRx port rest false) s (fun t => t.port.arriving.find? (fun e => e.1 == port.val) = none
        ∧ t.reg pgLadle 0x2028 = s.reg pgLadle 0x2028 + 1 ∧ KeepsConfig s t ∧ KeepsMemory s t))
    ∧ ∀ rest e, s.port.ctlRx.find? (fun e => e.1 == port.val) = some e → port.val ≠ 240 → s.macRow port.val (e.2 ++ rest) fcsOk < 4 →
      Leads (.frameEndRx port rest fcsOk) s (fun t => t.regs = (s.macCount port.val (s.macRow port.val (e.2 ++ rest) fcsOk)).regs ∧ t.port.fifos = s.port.fifos)

/-- PFC (R34, R133, R280): a received PFC frame is counted, and where PFC is on it stops each class that it enables with quanta, releases each that it
enables with none, and leaves the others; a standby only counts it. The end of the quanta releases the class; the watchdog trips a stopped
class with waiting frames, with its count and event, and its end restores the class. -/
def Obligations.PfcStopsClasses : Prop :=
  ∀ (s : State) (port : Fin 240) (cls : Fin 8), s.Canonical → s.stands = false →
    let o := 0x2500 + 4 * port.val
    (∀ (enable : Byte) (quanta : List (BitVec 16)), s.macTakes port.val = true → s.pfcOn port.val = true → s.standby = false →
      Leads (.pfcRx port enable quanta) s (fun t => bit (t.reg pgLadle o) (8 + cls.val)
          = (if enable.getLsbD cls.val then quanta.getD cls.val 0 != 0 else bit (s.reg pgLadle o) (8 + cls.val))
        ∧ (port.val < 160 → t.reg (bankPage port.val) (0x2100 + 0x40 * (port.val % 8) + 16) = s.reg (bankPage port.val) (0x2100 + 0x40 * (port.val % 8) + 16) + 1)
        ∧ t = { s with regs := t.regs }))
    ∧ (∀ (enable : Byte) (quanta : List (BitVec 16)), s.macTakes port.val = true → s.standby = true →
      Leads (.pfcRx port enable quanta) s (fun t => t = s.macCount port.val 4))
    ∧ Leads (.pfcPauseExpire port cls) s (fun t => bit (t.reg pgLadle o) (8 + cls.val) = false ∧ RegsBut [pgLadle] s t ∧ t = { s with regs := t.regs }
        ∧ ∀ i, i ≠ 8 + cls.val → i < 32 → bit (t.reg pgLadle o) i = bit (s.reg pgLadle o) i)
    ∧ (bit (s.reg pgLadle 0x1004) 0 = true → bit (s.reg pgLadle o) (8 + cls.val) = true → bit (s.reg pgLadle o) (16 + cls.val) = false →
        s.classWaits port.val cls.val = true → Leads (.wdTrip port cls) s (fun t => bit (t.reg pgLadle o) (16 + cls.val) = true
          ∧ t.reg pgLadle (0x2900 + 4 * port.val) = s.reg pgLadle (0x2900 + 4 * port.val) + 1 ∧ bit (t.reg pgLadle 0x14) 17 = true
          ∧ RegsBut [pgLadle] s t ∧ t = { s with regs := t.regs }))
    ∧ Leads (.wdRestore port cls) s (fun t => bit (t.reg pgLadle o) (16 + cls.val) = false ∧ RegsBut [pgLadle] s t ∧ t = { s with regs := t.regs })

/-- The calendar switch of a FlexE group (R141): a request while the group is up and none is pending is pending; its
acknowledgement is noted; at the boundary after it TX_ACTIVE_B toggles and SWITCH_PENDING falls; without it the switch is abandoned with
SWITCH_FAIL. A received overhead frame shows the receive calendar, the skew and a wrong group number, and a group with a deskew failure is not up (R139). -/
def Obligations.CalendarSwitches : Prop :=
  ∀ (s : State) (g : Fin 16), s.Canonical →
    let pend := fun (t : State) => bit (t.flexStatus g.val) 3
    (∀ a, s.reaches a pgFlexe (0x1000 + 4 * g.val) 1 → pend s = false → bit (s.flexStatus g.val) 0 = true →
      Leads (.calendarSwitchReq a g) s (fun t => pend t = true ∧ g.val ∉ t.port.calAcked))
    ∧ (s.stands = false → pend s = true →
      Leads (.calendarSwitchAck g) s (fun t => g.val ∈ t.port.calAcked ∧ t.regs = s.regs)
      ∧ (g.val ∈ s.port.calAcked → s.safe pgFlexe = false →
        Leads (.calendarSwitch g) s (fun t => pend t = false ∧ bit (t.flexStatus g.val) 1 = !bit (s.flexStatus g.val) 1
          ∧ bit (t.reg pgFlexe 0x14) 17 = true ∧ KeepsConfig s t ∧ KeepsMemory s t))
      ∧ (g.val ∉ s.port.calAcked →
        Leads (.calendarSwitchTimeout g) s (fun t => pend t = false ∧ bit (t.flexStatus g.val) 9 = true
          ∧ bit (t.flexStatus g.val) 1 = bit (s.flexStatus g.val) 1 ∧ RegsBut [pgFlexe] s t ∧ t = { s with regs := t.regs })))
    ∧ ∀ ov : FlexeOverhead, s.stands = false → 2 ≤ s.blk pgFlexe → bit (s.flexCfg g.val) 0 = true →
      Leads (.flexeOverheadRx g ov) s (fun t => bit (t.flexStatus g.val) 2 = ov.inUseB
        ∧ t.regFld pgFlexe (0x2004 + 16 * g.val) 15 0 = ov.skew.toNat ∧ bit (t.flexStatus g.val) 4 = decide (1000 < ov.skew.toNat)
        ∧ bit (t.flexStatus g.val) 6 = (ov.number.toNat != fld (s.flexCfg g.val) 27 8)
        ∧ (bit (t.flexStatus g.val) 4 = true → bit (t.flexStatus g.val) 0 = false) ∧ KeepsConfig s t ∧ KeepsMemory s t)

/-- What a MAC sends and counts by itself: the XOFF of every port with PFC is as its thresholds give it (R278), a PFC frame is repeated while
pause is needed (R133), the whole frame at the head of an egress FIFO leaves it, seen on the wire with a good FCS unless it was cut or an error was found
where the lanes carry the port's data (R132, R143, R254), and an ended second joins its line port's history, which commits the second that ended ten
seconds before (R142). That a second which does not count breaks a run of ten is the model's choice (log entry 132). -/
def Obligations.MacSends : Prop :=
  ∀ (s : State), s.Canonical → s.Keyed → s.stands = false →
    let off := fun (p : Nat) => 0x2500 + 4 * p
    Leads .pfcXoffEval s (fun t => KeepsConfig s t ∧ KeepsMemory s t ∧ t.buf = s.buf ∧ ∀ p c, p < 240 → c < 8 →
      bit (t.reg pgLadle (off p)) c = (if s.pfcOn p && !s.portAbsent p then s.lossless p c && s.xoffNext p c (bit (s.reg pgLadle (off p)) c)
          else bit (s.reg pgLadle (off p)) c)
        ∧ bit (t.reg pgLadle (off p)) (8 + c) = bit (s.reg pgLadle (off p)) (8 + c))
    ∧ (∀ port : Fin 240, s.pfcOn port.val = true → s.regFld pgLadle (off port.val) 7 0 ≠ 0 → s.portAbsent port.val = false →
        s.macSends port.val = true → s.carriesData port.val = true → s.standby = false →
      let on := fun c => s.lossless port.val c && bit (s.reg pgLadle (off port.val)) c
      Leads (.pfcRefresh port) s (fun t => t.port.txPfc.find? (fun e => e.1 == port.val)
          = some (port.val, s.pfcFrame port.val (fun c => if on c then 1 else 0) (fun c => if on c then s.xoffQuanta port.val else 0))
        ∧ KeepsConfig s t ∧ KeepsMemory s t ∧ RegsBut [portPage port.val] s t))
    ∧ (∀ (port : Fin 242) (ecc : Option Bool) (c : Copy) (rest : List Copy),
      Store.get [] port.val s.buf.fifo = c :: rest → c.frame.ended = true → s.macSends port.val = true →
      Leads (.frameTxEnd port ecc) s (fun t => Store.get [] port.val t.buf.fifo = rest
        ∧ (s.carriesData port.val = true →
            t.port.wire.find? (fun e => e.1 == port.val) = some (port.val, (s.wireBytes c, !(c.cut || ecc == some true))))
        ∧ t.reg pgCrucible 0x200C = s.reg pgCrucible 0x200C + (if ecc = some false then 1 else 0)
        ∧ t.reg pgCrucible 0x2010 = s.reg pgCrucible 0x2010 + (if ecc = some true then 1 else 0) ∧ KeepsConfig s t ∧ KeepsMemory s t))
    ∧ ∀ (p : Fin 160) (u : SecTally),
      let h := Store.get (⟨[], false⟩ : SecHist) (secKey (.port p)) s.port.secs
      let now : SecRec := ⟨decide (300 ≤ u.blocks) || u.defect, decide (1 ≤ u.blocks) || u.defect, s.adminUp p.val, s.sprue.susp.contains p.val⟩
      let o := 0x2100 + 0x40 * (p.val % 8)
      let plus := fun (t : State) (k n : Nat) => t.reg (bankPage p.val) (o + k) = s.reg (bankPage p.val) (o + k) + word n
      (h.ended.length < 10 → Leads (.secondCommit (.port p) u) s (fun t =>
        t.port.secs.find? (fun e => e.1 == secKey (.port p)) = some (secKey (.port p), { h with ended := h.ended ++ [now] })
          ∧ plus t 0x20 u.fecCorr ∧ plus t 0x24 u.fecUncorr ∧ plus t 0x28 0 ∧ plus t 0x2C 0 ∧ plus t 0x30 0 ∧ RegsBut [bankPage p.val] s t))
      ∧ (∀ e rest, h.ended = e :: rest → h.ended.length = 10 →
        let un := if h.unavail then !h.ended.all (fun x => x.counts && !x.ses) else h.ended.all (fun x => x.counts && x.ses)
        Leads (.secondCommit (.port p) u) s (fun t => plus t 0x28 (if e.counts && !un && e.es then 1 else 0)
          ∧ plus t 0x2C (if e.counts && !un && e.ses then 1 else 0) ∧ plus t 0x30 (if e.counts && un then 1 else 0)
          ∧ t.port.secs.find? (fun e => e.1 == secKey (.port p)) = some (secKey (.port p), ⟨rest ++ [now], un⟩)
          ∧ (un ≠ h.unavail → bit (t.reg (bankPage p.val) 0x14) 19 = true) ∧ RegsBut [bankPage p.val] s t))


/-! ### Sprue links (R147-R173) -/

/-- Delineation (R147, R153-R155, R162, R164, R165): a correct header takes a hunting lane to PRESYNC, the sixth further one to SYNC, a wrong one in
PRESYNC back to HUNT; in SYNC seven wrong headers in a row, 16,384 slots without a MARKER and a loss of signal take it to HUNT. A lane out of SYNC or
whose MARKER is missing leaves the receive rotation. While a group holds no cell, a cell in SYNC passes the checks in their order: a wrong header, an
uncorrectable codeword or a control block, a layout error and a foreign destination are each counted; a good data cell of the members that are
read reaches reassembly, or is held while another member's cell may come before it. -/
def Obligations.CellDelineation : Prop :=
  ∀ (s : State) (g m : Fin 16), s.Canonical → s.Keyed → s.stands = false →
    let k := laneKey g.val m.val
    let good := Store.get 0 k s.sprue.good
    let out := fun (t : State) => t.delin g.val m.val = 0 ∧ (t.rxOk g.val).testBit m.val = false
    let errs := fun (t : State) (o : Nat) => t.reg (sprPage g.val) o = s.reg (sprPage g.val) o + 1
    let keeps := fun (t : State) => KeepsConfig s t ∧ KeepsMemory s t
    (∀ hdr payload, s.memberLive g.val m.val = true →
      (s.delin g.val m.val = 0 → ∀ e, Leads (.headerCandidate g m hdr payload e) s (fun t =>
        t.delin g.val m.val = (if hecOk hdr then 1 else 0) ∧ keeps t))
      ∧ (s.delin g.val m.val = 1 → Leads (.headerCandidate g m hdr payload true) s (fun t =>
        t.delin g.val m.val = (if hecOk hdr then (if good = 5 then 2 else 1) else 0)
          ∧ (hecOk hdr = true → good ≠ 5 → Store.get 0 k t.sprue.good = good + 1) ∧ keeps t)))
    ∧ (s.delin g.val m.val = 2 → Leads (.markerTimeout g m) s (fun t => out t ∧ errs t (memReg m.val 0x10) ∧ keeps t))
    ∧ ((s.memberLane g.val m.val).isSome → Leads (.lossOfSignal g m) s (fun t => out t ∧ keeps t))
    ∧ (s.memberLive g.val m.val = true → s.markMissing g.val m.val = true → Leads (.skewFail g m) s (fun t =>
        bit (t.memStatus g.val m.val) 3 = true ∧ (t.rxOk g.val).testBit m.val = false ∧ keeps t))
    ∧ ∀ hdr payload fecBad, s.memberLive g.val m.val = true → s.delin g.val m.val = 2 → s.sprue.held = [] →
      let h := CellHdr.ofBits hdr
      let l := (s.memberLane g.val m.val).getD 0
      let r := scrRun descrambleByte (Store.get 0 l s.sprue.descr) payload
      let u := { s with sprue := { s.sprue with descr := Store.set 0 l r.2 s.sprue.descr, good := Store.set 0 k 0 s.sprue.good } }
      let c : WaitCell := ⟨h, r.1, Store.get 0 k s.sprue.rxSlot, s.time.cyc⟩
      let cell := fun (P : State → Prop) => Leads (.cellRx g m hdr payload fecBad []) s P
      (hecOk hdr = false → cell (fun t => errs t (memReg m.val 8) ∧ (if good = 6 then out t else t.delin g.val m.val = 2) ∧ keeps t))
      ∧ (hecOk hdr = true → fecBad = true → cell (fun t => errs t (memReg m.val 0xC) ∧ t.delin g.val m.val = 2 ∧ keeps t))
      ∧ (∀ b bs, Leads (.cellRx g m hdr payload fecBad (b :: bs)) s (fun t => errs t (memReg m.val 0xC) ∧ keeps t))
      ∧ (hecOk hdr = true → fecBad = false → h.rsvd ≠ 0 ∨ h.len = 0 ∨ 248 < h.len ∨ (h.ctl = false ∧ h.last = false ∧ h.len ≠ 248) →
        cell (fun t => t = (u.incReg (sprPage g.val) 0x2018).rxStep g.val m.val))
      ∧ (hecOk hdr = true → fecBad = false → h.rsvd = 0 → 0 < h.len → h.len ≤ 248 → h.last = true ∨ h.len = 248 → h.ctl = false →
        (h.dst ≠ 0xFFF → h.dst ≠ s.ownId → cell (fun t => t = (u.incReg (sprPage g.val) 0x2014).rxStep g.val m.val))
        ∧ (h.dst ≠ 0xFFF → h.dst = s.ownId → (s.readMask g.val).testBit m.val = true →
          let after := bit (s.memStatus g.val m.val) 2 && (List.range 16).any (s.mayPrecede g.val m.val c.slot)
          (after = false → cell (fun t => t = ((u.rxStep g.val m.val).countCell g.val false h.first true h.len).dataCell h.src h.cls ⟨h.seq, h.first, h.last, r.1.take h.len⟩))
          ∧ (after = true → cell (fun t => Store.get [] k t.sprue.held = [c] ∧ t.regs = s.regs))))

/-- Members of a group (R158, R160, R162, R163, R165, R166, R172): a MARKER with the right numbers locks the member, shows whether its lag is beyond the
limit and brings the far end's masks, one with wrong numbers unlocks it and shows which; RDI takes a member from the transmit rotation; a member that has
met its conditions for HOLDOFF enters RX_OK, one beyond ERR_LIMIT leaves it; a MARKER that is due is owed in the next slot; FLOW_STATUS entries
wait for the next slot, counted, and expire; BAD_HEC marks the member whose next cell it spoils. -/
def Obligations.SprueMembers : Prop :=
  ∀ (s : State) (g m : Fin 16), s.Canonical → s.Keyed → s.stands = false →
    let pg := sprPage g.val
    let keeps := fun (t : State) => KeepsConfig s t ∧ KeepsMemory s t
    let st := fun (t : State) (b : Nat) => bit (t.memStatus g.val m.val) b
    (s.memberLive g.val m.val = true → s.delin g.val m.val = 2 →
      (∀ rdi, Leads (.idleRx g m rdi) s (fun t => st t 8 = rdi ∧ (rdi = true → st s 8 = false → (t.txActive g.val).testBit m.val = false) ∧ keeps t))
      ∧ (∀ rdi (gid : BitVec 16) (mem : BitVec 4) (seq : BitVec 32) (act rx : BitVec 16),
        let good := gid.toNat = s.cfgFld pg 0x100 31 16 ∧ mem.toNat = m.val
        Leads (.markerRx g m rdi gid mem seq act rx) s (fun t => st t 8 = rdi ∧ (st t 2 = true ↔ good)
          ∧ (good → st t 6 = false ∧ st t 7 = false ∧ t.rxActive g.val = act.toNat ∧ t.farRxOk g.val = rx.toNat
            ∧ st t 3 = (match (s.markLag g.val m.val seq.toNat).1 with | some l => decide (s.skewLimit g.val < l) | none => true))
          ∧ (¬ good → st t 6 = (st s 6 || gid.toNat != s.cfgFld pg 0x100 31 16) ∧ st t 7 = (st s 7 || mem.toNat != m.val)
            ∧ t.rxActive g.val = s.rxActive g.val ∧ t.farRxOk g.val = s.farRxOk g.val) ∧ keeps t))
      ∧ (∀ es : List (BitVec 12 × Byte), Leads (.flowStatusRx g m es) s (fun t => t.reg pg 0x2028 = s.reg pg 0x2028 + 1
          ∧ t.sprue.flowNew = s.sprue.flowNew ++ es.map (fun e => (flowKey g.val m.val e.1.toNat, e.2.toNat))
          ∧ RegsBut [pg] s t ∧ t = { s with regs := t.regs, sprue := { s.sprue with flowNew := t.sprue.flowNew, rxSlot := t.sprue.rxSlot } })))
    ∧ (∀ dev : BitVec 12, Store.get 0 (flowKey g.val m.val dev.toNat) s.sprue.flow ≠ 0 →
      Leads (.flowStatusExpire g m dev) s (fun t => Store.get 0 (flowKey g.val m.val dev.toNat) t.sprue.flow = 0
        ∧ t.reg pg 0x202C = s.reg pg 0x202C + 1 ∧ RegsBut [pg] s t ∧ t = { s with regs := t.regs, sprue := { s.sprue with flow := t.sprue.flow } }))
    ∧ ((s.setMemBit g.val m.val 4 false).memberOk g.val m.val = true → s.groupSends g.val = true →
      Leads (.memberAccept g m) s (fun t => (t.rxOk g.val).testBit m.val = true ∧ st t 4 = false ∧ keeps t))
    ∧ (s.memberLive g.val m.val = true → Leads (.memberRemove g m .errLimit) s (fun t =>
        st t 4 = decide (s.cfgFld pg 0x114 15 0 < s.errsInMs g.val m.val)
          ∧ (s.cfgFld pg 0x114 15 0 < s.errsInMs g.val m.val → (t.rxOk g.val).testBit m.val = false) ∧ keeps t))
    ∧ (∀ c, c ≠ .errLimit → s.memberOk g.val m.val = false → Leads (.memberRemove g m c) s (fun t =>
        (t.rxOk g.val).testBit m.val = false ∧ st t 4 = st s 4 ∧ keeps t))
    ∧ (s.groupSends g.val = true → Leads (.markerTx g) s (fun t => (t.sprue.due.find? (fun e => e.1 == g.val)).isSome
        ∧ t = { s with sprue := { s.sprue with due := t.sprue.due } }))
    ∧ ∀ (a : Agent) (data : Word), s.reaches a pg 0x1004 (data ||| 0x100#32) →
      Leads (.badHecInject a g data) s (fun t => laneKey g.val (fld data 3 0) ∈ t.sprue.badHec ∧ t.regFld pg 0x1004 3 0 = fld data 3 0)

/-! ### Pipelines and the reorder stage (R174-R201) -/

/-- Spray, passes and release (R177, R178, R192, R193, R207, R240): under ingress halt a quadrant takes nothing, and a lookup stall is counted once for
the device; else the oldest recirculated frame, or with none the next port's, enters the next pipeline in rotation and carries an
epoch. A completed pass gives one result under the frame's stream and sequence number, which waits in the reorder memory, or is discarded where it lies
behind; results leave in sequence; a missing one is given up after TIMEOUT. How the turns of the ports go is the model's choice (log entry 54). -/
def Obligations.FramesPassInOrder : Prop :=
  ∀ (s : State), s.Canonical → s.Keyed → s.stands = false →
    let keeps := fun (t : State) => KeepsConfig s t ∧ KeepsMemory s t
    (∀ (q : Fin 4),
      let enters := fun (t : State) (k : Nat) (f : Frame) => ∃ x l, t.pipe.inside = s.pipe.inside ++ x :: l ∧ x.pipe = k ∧ x.frame.id = f.id
        ∧ x.frame.epoch = some (f.epoch.getD s.standing) ∧ x.since = s.time.cyc
      (s.ingressHalt = true → ∀ first, Leads (.spray q [] first) s (fun t => t = s))
      ∧ (∀ b bs, Leads (.spray q (b :: bs) true) s (fun t => t.reg pgTables 0x201C = s.reg pgTables 0x201C + 1 ∧ bit (t.reg pgTables 0x14) 19 = true ∧ t.pipe = s.pipe)
        ∧ Leads (.spray q (b :: bs) false) s (fun t => t = s))
      ∧ ∀ k ks first, s.ingressHalt = false → s.quadHeld q.val = false → s.rotation q.val = k :: ks →
        (∀ f rest, Store.get [] q.val s.pipe.streams = f :: rest → s.recFree q.val = true → f.ended = true →
          Leads (.spray q [] first) s (fun t => enters t k f ∧ keeps t))
        ∧ ∀ e f rest, Store.get [] q.val s.pipe.streams = [] → s.nextPort q.val = some e → Store.get [] e.1 s.port.fifos = f :: rest →
          Leads (.spray q [] first) s (fun t => enters t k f ∧ keeps t))
    ∧ (∀ (k : Fin 16) resid banks ecc (x : InPipe), s.pipe.inside.find? (fun y => y.pipe == k.val) = some x → s.pipeHeld k.val = none → x.frame.mark = none →
      let st := streamOf x.frame
      Leads (.passResult k resid banks ecc) s (fun t => t.pipe.inside = s.pipe.inside.filter (fun y => !(y == x)) ∧ keeps t
        ∧ ((x.frame.seq + 65536 - Store.get 0 st s.pipe.nextSeq) % 65536 < 32768 → ∃ h, t.pipe.held = s.pipe.held ++ [h] ∧ h.stream = st
            ∧ h.seq = x.frame.seq ∧ h.quad = k.val / 4 ∧ h.result.frame.id = x.frame.id ∧ h.since = s.time.cyc
            ∧ (ecc.isSome = true → h.result.act = .hole ∨ h.result.act = .mirrorOnly))
        ∧ (32768 ≤ (x.frame.seq + 65536 - Store.get 0 st s.pipe.nextSeq) % 65536 → t.pipe.held = s.pipe.held
            ∧ t.reg pgReorder (0x2004 + 0x10 * (k.val / 4)) = s.reg pgReorder (0x2004 + 0x10 * (k.val / 4)) + 1)))
    ∧ (∀ q : Fin 4,
      let due := s.pipe.held.find? (fun h => h.quad == q.val && h.seq == Store.get 0 h.stream s.pipe.nextSeq)
      (due = none → Leads (.reorderRelease q) s (fun t => t = s))
      ∧ ∀ h, due = some h → Leads (.reorderRelease q) s (fun t => h ∉ t.pipe.held ∧ keeps t
        ∧ ∀ out tc vid hash rw, h.result.act = .forward out tc vid hash rw →
          ∃ a l, t.buf.waiting = s.buf.waiting ++ a :: l ∧ a.frame = h.result.frame ∧ a.out = out ∧ a.tc = tc ∧ a.rw = rw))
    ∧ ∀ (st : Fin 1004),
      let mine := s.pipe.held.filter (fun x => x.stream == st.val)
      let next := Store.get 0 st.val s.pipe.nextSeq
      ∀ h, mine.find? (fun x => decide (x.since + s.reorderTimeout ≤ s.time.cyc)) = some h → mine.any (fun x => x.seq == next) = false → s.quadHeld h.quad = false → h.quad < 4 →
      Leads (.reorderSkip st) s (fun t => Store.get 0 st.val t.pipe.nextSeq = (next + 1) % 65536
        ∧ t.reg pgReorder (0x2000 + 0x10 * h.quad) = s.reg pgReorder (0x2000 + 0x10 * h.quad) + 1 ∧ t.pipe.held = s.pipe.held
        ∧ RegsBut [pgReorder] s t ∧ keeps t)

/-! ### Tables and learning (R202-R232) -/

/-- Table commands (R211, R214, R217-R219, R234-R237): a command over a busy window only sets CMD_OVERRUN; NOT_READY, a wrong operation, a blocked
version and a table without banks are refused in that order and change no table. On MAC, INSERT, UPDATE, DELETE and FIND answer and do what R219
gives them; MATCH on IPv4 finds the longest prefix of its view; READ_INDEX shows a NEXTHOP entry of its view; ADD of an IPv4 prefix and WRITE_INDEX of a
NEXTHOP go to the pending view and leave the standing one. -/
def Obligations.WindowCommands : Prop :=
  ∀ (i : Instr) (s : State) (a : Agent) (w : Fin 4) (op : Nat) (tab : BitVec 4) (view : Bool), s.Canonical → s.Keyed →
    windowRow i = some (a, w, op, tab, view) →
    let cmd := word (op + 16 * tab.toNat + (if view then 256 else 0))
    let at_ := 0x8000 + 0x200 * w.val
    s.reaches a pgTables at_ cmd → s.ownWord pgTables at_ →
    let res := fun (t : State) => fld (t.tw w.val 1) 7 4
    let busy := fun (t : State) => bit (t.tw w.val 1) 0
    let key := fun j => s.tw w.val (16 + j)
    let data := fun j => s.tw w.val (32 + j)
    let v : View := if view then .standing else .pending
    let ends := fun (r : Nat) (P : State → Prop) => Leads i s (fun t => busy t = false ∧ res t = r ∧ P t)
    let same := fun (t : State) => t.tab.mac = s.tab.mac ∧ t.tab.base = s.tab.base ∧ t.tab.slots = s.tab.slots ∧ t.tab.labelAt = s.tab.labelAt
    (busy s = true → Leads i s (fun t => t.tab = s.tab ∧ bit (t.tw w.val 1) 8 = true))
    ∧ (busy s = false → s.enabled pgTables = false → ends 7 same)
    ∧ (busy s = false → s.enabled pgTables = true → twAllowed op tab.toNat = false → ends 4 same)
    ∧ (busy s = false → s.enabled pgTables = true → twAllowed op tab.toNat = true → verWrites op tab.toNat = true → s.verBlocked = true → ends 7 same)
    ∧ (busy s = false → s.enabled pgTables = true → twAllowed op tab.toNat = true → (verWrites op tab.toNat = false ∨ s.verBlocked = false) →
      (s.range tab.toNat).2 = 0 → ends 5 same)
    ∧ (busy s = false → s.enabled pgTables = true → (s.range tab.toNat).2 ≠ 0 →
      (tab = 0 →
        let k := twMac [key 0, key 1, key 2]
        let ent : MacEnt := ⟨k.1, k.2, bit (data 0) 30, bit (data 0) 20, BitVec.ofNat 20 (fld (data 0) 19 0), word s.tick⟩
        (s.macFind k.1 k.2 = none →
          (op = 1 → Leads i s (fun t => busy t = false ∧ ((res t = 0 ∧ ∃ ix, (ix, ent) ∈ t.tab.mac ∧ t.tw w.val 2 = word ix) ∨ res t = 3)))
          ∧ (op = 2 ∨ op = 3 ∨ op = 4 → ends 1 same))
        ∧ ∀ e, s.macFind k.1 k.2 = some e →
          (op = 1 → ends 2 same)
          ∧ (op = 2 → ends 0 (fun t => t.tab.mac = Store.insert e.1 ent s.tab.mac))
          ∧ (op = 3 → ends 0 (fun t => t.tab.mac = Store.erase e.1 s.tab.mac))
          ∧ (op = 4 → ends 0 (fun t => same t ∧ t.tw w.val 2 = word e.1 ∧ t.tw w.val 32 = (macData e.2).getD 0 0 ∧ t.tw w.val 33 = e.2.seen)))
      ∧ (tab = 2 → op = 5 →
        (s.lpm v 2 (key 0).toNat = none → ends 1 same)
        ∧ ∀ e, s.lpm v 2 (key 0).toNat = some e → ends 0 (fun t => same t ∧ t.tw w.val 32 = e.2.getD 0 0))
      ∧ (tab = 2 → op = 8 → s.unversioned = false → s.verBlocked = false → s.ovlFree ≠ 0 → (s.verAll .pending 2).length < (s.range 2).2 / 40 * 524288 →
        let len := fld (key 1) 7 0
        len ≤ 32 → (key 0).toNat % 2 ^ (32 - len) = 0 →
        ends 0 (fun t => t.ver .pending 2 (lpmKey 2 len (key 0).toNat) = [word (fld (data 0) 19 0)] ∧ ∀ x, t.ver .standing 2 x = s.ver .standing 2 x))
      ∧ (tab = 5 → fld (s.tw w.val 2) 23 0 < (s.range 5).2 * 8192 →
        let ix := fld (s.tw w.val 2) 23 0
        (op = 6 → ends 0 (fun t => same t ∧ ∀ j, j < 4 → t.tw w.val (32 + j) = (s.ver v 5 ix).getD j 0))
        ∧ (op = 7 → s.unversioned = false → s.verBlocked = false → s.ovlFree ≠ 0 → (∃ j, j < 4 ∧ data j ≠ 0) →
          ends 0 (fun t => t.ver .pending 5 ix = [data 0, data 1, data 2, data 3] ∧ ∀ x, t.ver .standing 5 x = s.ver .standing 5 x)))
      ∧ (op = 6 → tab = 0 → (s.range 0).2 * 8192 + 4096 ≤ fld (s.tw w.val 2) 23 0 → ends 4 same))

/-- Learning and aging (R208, R225-R230, R238): the learning engine inserts, moves or refreshes as the request and the limits allow, and leaves
static entries; the sweep removes exactly the old dynamic entries of its row; a move storm raises its event and freezes its port under MOVE_FREEZE until FREEZE_TIME
ends; the scrubber clears an uncorrectable row of MAC; a maintenance grant completes the window command that waits, or is held for the merge. -/
def Obligations.LearningAndMaintenance : Prop :=
  ∀ (s : State), s.Canonical → s.Keyed → s.stands = false →
    let keeps := fun (t : State) => KeepsConfig s t ∧ KeepsMemory s t
    (∀ r rest, s.tab.learnQ = r :: rest → s.working pgLearn = true → s.working pgTables = true → s.role ≠ 2 →
      let u := { s with tab := { s.tab with learnQ := rest } }
      let dest := BitVec.ofNat 20 (s.sysPort r.port)
      let ent : MacEnt := ⟨r.mac, r.vid, false, false, dest, word s.tick⟩
      (s.macFind r.mac r.vid = none →
        (s.atLimit r.port = true → Leads .learnInsert s (fun t => t = u.updWin pgLearn r.port 2 (· + 1)))
        ∧ (s.atLimit r.port = false → (u.macInsert ent).isSome = true → Leads .learnInsert s (fun t => (∃ ix, (ix, ent) ∈ t.tab.mac)
            ∧ t.tab.learnQ = rest ∧ t.reg pgLearn 0x2004 = s.reg pgLearn 0x2004 + 1 ∧ keeps t)))
      ∧ ∀ x, s.macFind r.mac r.vid = some x →
        let e := x.2
        (e.static = true → Leads .learnInsert s (fun t => t = u))
        ∧ (e.static = false → e.isNh = false → e.dest = dest → Leads .learnInsert s (fun t => t.regs = s.regs ∧
            t.tab.mac = (if s.ageGrain ≤ (word s.tick - e.seen).toNat then Store.insert x.1 { e with seen := word s.tick } s.tab.mac else s.tab.mac)))
        ∧ (e.static = false → e.isNh = true ∨ e.dest ≠ dest → bit (s.winW pgLearn r.port 1) 31 = true →
          Leads .learnInsert s (fun t => t = u.incReg pgLearn 0x2018))
        ∧ (e.static = false → e.isNh = true ∨ e.dest ≠ dest → bit (s.winW pgLearn r.port 1) 31 = false → s.atLimit r.port = false →
          Leads .learnInsert s (fun t => t.tab.mac = Store.insert x.1 { e with isNh := false, dest := dest, seen := word s.tick } s.tab.mac
            ∧ t.reg pgLearn 0x2008 = s.reg pgLearn 0x2008 + 1 ∧ keeps t)))
    ∧ (∀ row : BitVec 22, s.enabled pgLearn = true → s.working pgTables = true → min 1000000 (s.regFld pgLearn 0x1000 19 0) ≠ 0 → s.role ≠ 2 →
      let old := fun (e : Nat × MacEnt) => e.1 / 4 == row.toNat && !e.2.static && s.aged (min 1000000 (s.regFld pgLearn 0x1000 19 0)) e.2
      Leads (.ageSweep row) s (fun t => t.tab.mac = s.tab.mac.filter (fun e => !old e)
        ∧ t.reg pgLearn 0x2010 = s.reg pgLearn 0x2010 + word (s.tab.mac.filter old).length ∧ keeps t))
    ∧ (∀ p : Fin 243,
      (let b := Store.get (0, 0) p.val s.tab.moveBase
       b.1 = s.tick / 16 → s.regFld pgLearn 0x1008 15 0 < (s.winW pgLearn p.val 3 - word b.2).toNat →
       Leads (.moveStorm p) s (fun t => bit (t.reg pgLearn 0x14) 16 = true
         ∧ bit (t.winW pgLearn p.val 1) 31 = (bit (s.reg pgLearn 0x1004) 1 || bit (s.winW pgLearn p.val 1) 31)
         ∧ RegsBut [pgLearn] s t ∧ t = { s with regs := t.regs, win := t.win }))
      ∧ Leads (.moveFreezeExpire p) s (fun t => bit (t.winW pgLearn p.val 1) 31 = false ∧ t = { s with win := t.win }))
    ∧ (s.working pgTables = true → ∀ bank row : BitVec 11,
      Leads (.tableEccScrub bank row none) s (fun t => t = s)
      ∧ Leads (.tableEccScrub bank row (some false)) s (fun t => t = s.incReg pgTables 0x2020)
      ∧ Leads (.tableEccScrub bank row (some true)) s (fun t => t.reg pgTables 0x2024 = s.reg pgTables 0x2024 + 1 ∧ bit (t.reg pgTables 0x14) 17 = true
          ∧ (∀ e ∈ s.tab.mac, e ∈ t.tab.mac ↔ ¬ ((s.range 0).1 ≤ bank.toNat ∧ bank.toNat < (s.range 0).1 + (s.range 0).2
              ∧ e.1 / 4 = (bank.toNat - (s.range 0).1) * 2048 + row.toNat))
          ∧ RegsBut [pgTables] s t ∧ KeepsConfig s t ∧ KeepsMemory s t))
    ∧ ∀ (bank : BitVec 11), s.working pgTables = true →
      (∀ e, (List.range 4).findSome? (fun i => s.tab.busyWin.find? (fun e => e.1 == i)) = some e →
        Leads (.maintArbRound bank 1#8) s (fun t => bit (t.tw e.1 1) 0 = false ∧ (∀ x ∈ t.tab.busyWin, x.1 ≠ e.1) ∧ keeps t))
      ∧ (s.tab.grants.find? (fun e => e.1 == bank.toNat) = none →
        Leads (.maintArbRound bank 16#8) s (fun t => t.tab.grants.find? (fun e => e.1 == bank.toNat) = some (bank.toNat, 4, (s.maintCfg 4).transfers) ∧ keeps t))

/-! ### Rule epochs (R233-R250) -/

/-- The switch, the merge and retirement (R229, R235-R239, R243, R245, R247-R249): a commit in WAIT is armed once no epoch is retiring, and a joined lead asks its
partner first; at its instant the pending epoch is standing, the former standing one retires and every pending slot is unmerged; a granted
transfer of the merge moves the oldest slot into the base, none while the commit is suspended, and a commit with none left is DONE; an epoch
whose frames are gone, or whose timeout ended with no frame held at a breakpoint, has retired with its shadows; DISCARD frees the pending slots
unless a commit is in progress. -/
def Obligations.EpochsSwitchAndRetire : Prop :=
  ∀ (s : State), s.Canonical → s.Keyed → s.stands = false →
    let keeps := fun (t : State) => KeepsConfig s t ∧ KeepsMemory s t
    (∀ e, s.commitRec = some e →
      let slot := e.1
      let r := e.2
      (s.enabled pgEpoch = true → r.state = .running → r.phase = phWait →
        (s.retiring.isSome = true → Leads .epochSwitch s (fun t => t = s))
        ∧ (s.retiring = none → s.leadJoined = true → s.tab.mirror ≠ 1 → Leads .epochSwitch s (fun t => t.tab = s.tab ∧ t.ops = s.ops ∧ keeps t))
        ∧ (s.retiring = none → r.atTime = false → s.leadJoined = false ∨ s.tab.mirror = 1 → Leads .epochSwitch s (fun t =>
          (∃ q, t.opRec slot = some q ∧ q.phase = phArmed ∧ q.state = .running)
            ∧ t.tab.slots = s.tab.slots ∧ t.reg pgEpoch 0x2000 = s.reg pgEpoch 0x2000 ∧ keeps t)))
      ∧ (s.enabled pgEpoch = true → r.state = .running → r.phase = phArmed → r.paired = false →
        (r.atTime = true → s.nowNs < r.commitT → Leads .epochSwitch s (fun t => t = s))
        ∧ (r.atTime = false ∨ r.commitT ≤ s.nowNs → Leads .epochSwitch s (fun t => t.standing = s.pendingNo ∧ t.pendingNo = (s.pendingNo + 1) % 65536
          ∧ t.retiring = some s.standing ∧ t.ovlCount .pending = 0 ∧ t.ovlCount .unmerged = s.ovlCount .unmerged + s.ovlCount .pending
          ∧ t.reg pgEpoch 0x2030 = s.reg pgEpoch 0x2030 + 1 ∧ bit (t.reg pgEpoch 0x14) 16 = true ∧ keeps t)))
      ∧ (r.phase = phMerge → s.ovlCount .unmerged = 0 → r.state.terminal = false → r.paired = false ∨ s.leadJoined = false ∨ s.tab.mirror = 2 →
        Leads .mergeDone s (fun t => (∃ q, t.opRec slot = some q ∧ q.state = .done ∧ q.result = .ok) ∧ t.tab.commit = none ∧ bit (t.reg pgEpoch 0x14) 18 = true
          ∧ t.tab.base = s.tab.base ∧ keeps t))
      ∧ (r.state = .suspended → s.unversioned = false → Leads .epochMergeSlot s (fun t => t.tab.slots = s.tab.slots ∧ t.tab.base = s.tab.base ∧ t.ops = s.ops)))
    ∧ (s.tab.grants.find? (fun e => e.2.1 == 4) = none → Leads .epochMergeSlot s (fun t => t = s))
    ∧ (∀ e, s.tab.grants.find? (fun e => e.2.1 == 4) = some e → s.working pgTables = true → s.commitRec = none →
      ∀ x, s.tab.slots.find? (fun y => y.kind == .unmerged) = some x → x.tab ≠ 1 →
      Leads .epochMergeSlot s (fun t => Store.get [] x.key (t.baseOf x.tab) = x.val ∧ x ∉ t.tab.slots
        ∧ (s.retiring.isSome = true → s.slotOf .shadow x.tab x.key = none → ⟨.shadow, x.tab, x.key, Store.get [] x.key (s.baseOf x.tab)⟩ ∈ t.tab.slots)
        ∧ (t.ovlCount .unmerged = 0 → bit (t.reg pgEpoch 0x14) 18 = true) ∧ keeps t))
    ∧ (∀ e, s.retiring = some e →
      let gone := fun (t : State) => t.retiring = none ∧ t.ovlCount .shadow = 0 ∧ t.standing = s.standing ∧ bit (t.reg pgEpoch 0x14) 17 = true
        ∧ RegsBut [pgEpoch] s t ∧ keeps t
      (s.refCount e = 0 → Leads .epochRetire s gone)
      ∧ (s.refCount e ≠ 0 → Leads .epochRetire s (fun t => t = s)
        ∧ (s.pipe.inside.any (fun x => x.stage.isSome) = true → Leads .retireForced s (fun t => t = s))
        ∧ (s.pipe.inside.any (fun x => x.stage.isSome) = false →
          Leads .retireForced s (fun t => gone t ∧ bit (t.reg pgEpoch 0x2020) 9 = true ∧ bit (t.reg pgEpoch 0x14) 20 = true))))
    ∧ ∀ a : Agent, s.reaches a pgEpoch 0x1000 1#32 → s.ownWord pgEpoch 0x1000 →
      let held := s.ops.recs.any (fun e => e.2.kind == .epochCommit && !e.2.state.terminal)
      (held = false → Leads (.pendingDiscard a) s (fun t => t.tab = { s.tab with slots := s.tab.slots.filter (fun x => x.kind != .pending) }))
      ∧ (held = true → Leads (.pendingDiscard a) s (fun t => t.tab = s.tab ∧ bit (t.reg pgEpoch 0x2020) 10 = true))


/-! ### The buffer and the Ingot store (R254-R286) -/

/-- Copies and ingots (R255-R269): the Ladle decides the oldest waiting copy, which joins the tail of its queue or is counted as refused; one
whose frame proved bad is not admitted. An ingot takes 32 filled cells of staging, or what is there after STAGE_HOLD. A queue whose head runs low asks
for its next ingot, or waits for cells, or has its staging cells relinked where it has no ingot. A read ends at the head, and an uncorrectable error retires its ingot, at once or once it is
free, as the patrol scrub does; a channel shows the greatest number of outstanding transactions. -/
def Obligations.CopiesAndIngots : Prop :=
  ∀ (s : State), s.Canonical → s.Keyed → s.stands = false →
    let keeps := fun (t : State) => KeepsConfig s t ∧ KeepsMemory s t
    (∀ a rest, s.buf.waiting = a :: rest →
      let u := { s with buf := { s.buf with waiting := rest } }
      (a.frame.late = true → Leads .admission s (fun t => t = u))
      ∧ ∀ p q, a.frame.late = false → a.out = .port p q → q < 1048576 → p < 256 → a.wrap.session.getD 0 < 16 →
        let c := if a.kind = .control then 8 else a.tc
        let n := u.copyCells a p
        let rule := u.admitRule a.kind q p p p c n (a.kind == .data && u.lossless a.frame.port a.tc)
        (∀ r, rule = .inr r → Leads .admission s (fun t => t.buf.queues = s.buf.queues ∧ t.buf.used = s.buf.used
            ∧ t.reg pgLadle r.off = s.reg pgLadle r.off + 1 ∧ t.reg pgLadle (0x2100 + 4 * p) = s.reg pgLadle (0x2100 + 4 * p) + 1 ∧ keeps t))
        ∧ ∀ x, rule = .inl x → Leads .admission s (fun t => ∃ k, t.queue q = s.queue q ++ [k] ∧ k.frame = a.frame ∧ k.rw = a.rw ∧ k.pool = x.pool
            ∧ k.charge = (if x.staged then 0 else n) ∧ k.need = (if x.staged then n else 0) ∧ t.buf.nextCopy = s.buf.nextCopy + 1 ∧ keeps t))
    ∧ (∀ (q : BitVec 21) (n : BitVec 24) (x : SpillQ), s.spillOf q.toNat = some x → s.ingotFree n.toNat = true →
      let filled := s.filledCells q.toNat x x.stage
      let takes := fun (t : State) (m : Nat) => (∃ y i, t.spillOf q.toNat = some y ∧ y.ingots = x.ingots ++ [i] ∧ i.num = n.toNat ∧ i.cells = m
          ∧ i.asked = false ∧ y.staged = x.staged - m)
        ∧ t.reg pgIngot 0x2008 = s.reg pgIngot 0x2008 + 1 ∧ keeps t
      (32 ≤ filled → Leads (.ingotWrite q n) s (fun t => takes t 32))
      ∧ (1 ≤ filled → filled < 32 → Leads (.stageHoldExpire q n) s (fun t => takes t filled ∧ t.reg pgIngot 0x2010 = s.reg pgIngot 0x2010 + 1)))
    ∧ (∀ (q : BitVec 21) (x : SpillQ), s.spillOf q.toNat = some x →
      (∀ i, s.headShort q.toNat = true → x.ingots.find? (fun i => !i.asked) = some i →
        (i.cells ≤ s.poolFree .prefetch 0 → Leads (.prefetchRequest q) s (fun t => ∃ y, t.spillOf q.toNat = some y ∧ y.stage = x.stage
          ∧ y.ingots = x.ingots.map (fun j => if j.num == i.num then { j with asked := true } else j)))
        ∧ (s.poolFree .prefetch 0 < i.cells → Leads (.prefetchRequest q) s (fun t => q.toNat ∈ t.buf.pfWait
          ∧ t = { s with buf := { s.buf with pfWait := t.buf.pfWait } })))
      ∧ (s.headShort q.toNat = true → x.ingots = [] → 1 ≤ x.staged → Leads (.prefetchRequest q) s (fun t => t.spillOf q.toNat = none
          ∧ t.reg pgIngot 0x2014 = s.reg pgIngot 0x2014 + 1 ∧ keeps t))
      ∧ ∀ i rest (lat : BitVec 16) (bad : Option (BitVec 7)), x.ingots = i :: rest → i.asked = true →
        Leads (.ingotReadComplete q lat bad) s (fun t => t.reg pgIngot 0x200C = s.reg pgIngot 0x200C + 1
          ∧ (∀ y, t.spillOf q.toNat = some y → y.ingots.map Ingot.num = rest.map Ingot.num ∧ y.stage = x.stage)
          ∧ (bad.isSome = true → s.ingotPlace i.num ∈ t.buf.retired ∨ s.ingotPlace i.num ∈ t.buf.retireDue) ∧ keeps t))
    ∧ ∀ n : Fin 4, s.regFld (pgStack + n.val) 0x2000 1 0 = 3 →
      (∀ (ch : BitVec 7) (req : BitVec 8) (out : BitVec 11), ch.toNat / 32 = n.val → Leads (.channelArbRound ch req out) s (fun t =>
        t.regFld (pgStack + n.val) 0x2014 10 0 = max (s.regFld (pgStack + n.val) 0x2014 10 0) out.toNat ∧ keeps t))
      ∧ ∀ j : BitVec 22, Leads (.ingotPatrolScrub n j none) s (fun t => t = s)
        ∧ Leads (.ingotPatrolScrub n j (some none)) s (fun t => t = s.incReg (pgStack + n.val) 0x2004)
        ∧ ∀ o,
          let place := n.val * 2 ^ 22 + j.toNat
          Leads (.ingotPatrolScrub n j (some (some o))) s (fun t => place ∈ (if s.usedPlaces.contains place then t.buf.retireDue else t.buf.retired)
            ∧ t.reg (pgStack + n.val) 0x2008 = s.reg (pgStack + n.val) 0x2008 + 1 ∧ bit (t.reg pgIngot 0x14) 17 = true ∧ keeps t)

/-! ### Queues, rate sets, gates (R287-R331) -/

/-- The traffic manager and the policers (R289, R296, R302, R303, R309): a port that is not served is left alone, and one whose egress FIFO is taken takes no
frame; a whole frame of the control queue that stands alone goes to an idle port that is up. Word 0 of a queue or group record holds what is
written, and a record with frames that loses VALID is CLOSING, but any other change of it is refused; RATE_APPLY takes the next rates of the
pending records of its sets. -/
def Obligations.TrafficManager : Prop :=
  ∀ (s : State), s.Canonical → s.Keyed →
    (∀ (p : Fin 242) (ring : Bool) (ecc : Option Bool), s.stands = false →
      (s.portServes p.val = false → Leads (.tmSelect p ring ecc) s (fun t => t = s))
      ∧ (s.portServes p.val = true → Store.get [] p.val s.buf.fifo ≠ [] → Leads (.tmSelect p ring ecc) s (fun t => t.buf.fifo = s.buf.fifo))
      ∧ (∀ c : Copy, s.portServes p.val = true → s.portUp p.val = true → s.portAbsent p.val = false → Store.get [] p.val s.buf.fifo = [] →
        s.buf.queues = [(ctlQueue p.val, [c])] → s.sched.inR = [] → c.queue = ctlQueue p.val → c.whole = true → c.spoilt = false →
        s.gateTooLong p.val 7 (s.sentLen c) = false → s.guardGo p.val 7 (s.sentLen c) = true → s.windOk p.val c = true → (p.val = 240 → ring = false) →
        ecc ≠ some true →
        Leads (.tmSelect p ring ecc) s (fun t => (∃ k, Store.get [] p.val t.buf.fifo = [k] ∧ k.id = c.id ∧ k.frame = c.frame) ∧ t.queue (ctlQueue p.val) = []))
      ∧ Leads (.downHoldExpire p) s (fun t => p.val ∉ t.sched.hold ∧ t = { s with sched := { s.sched with hold := t.sched.hold } }))
    ∧ (∀ (a : Agent) (n : BitVec 9) (data : Word),
      let lvl := s.regFld pgTm 0x1000 1 0
      let r := 512 * s.regFld pgTm 0x1000 15 8 + n.toNat
      let k := lvl * 0x100000 + r
      let v := data &&& (if lvl = 0 then 0x80773FFF#32 else 0x800700FF#32)
      let old := s.tmW k 0
      let refused := s.nodeLive k = true ∧ s.nodeEmpty k = false ∧ v ≠ old ∧ v ≠ old &&& 0x7FFFFFFF#32
      lvl < 2 → r < tmCount lvl → s.reaches a pgTm (0x8000 + 0x40 * n.toNat) data →
      (¬ refused → Leads (.tmNodeWrite a n data) s (fun t => t.tmW k 0 = v
        ∧ (bit old 31 = true → bit v 31 = false → s.nodeEmpty k = false → bit (t.tmW k 15) 28 = true)))
      ∧ (refused → ¬ s.accepts a pgTm (0x8000 + 0x40 * n.toNat) data ∧ Leads (.tmNodeWrite a n data) s (fun t => t.tmW k 0 = old)))
    ∧ ∀ (a : Agent) (data : Word),
      (s.reaches a pgTm 0x1004 data → Leads (.tmRateApply a data) s (fun t => ∀ k, k < 0x1000000 →
        let due := bit (s.tmW k 8) 8 && bit data (fld (s.tmW k 8) 4 0)
        t.tmW k 2 = (if due then s.tmW k 6 else s.tmW k 2) ∧ t.tmW k 3 = (if due then s.tmW k 7 else s.tmW k 3)
          ∧ (due = true → bit (t.tmW k 8) 8 = false)))
      ∧ (s.reaches a pgPolice 0x1004 data → s.ownWord pgPolice 0x1004 → Leads (.policeRateApply a data) s (fun t => ∀ k, k < 0x1000000 →
        let due := bit (s.polW k 7) 8 && bit data (fld (s.polW k 7) 4 0)
        t.polW k 0 = (if due then s.polW k 5 else s.polW k 0) ∧ t.polW k 1 = (if due then s.polW k 6 else s.polW k 1)
          ∧ (due = true → bit (t.polW k 7) 8 = false)))

/-- Gate lists (R316, R319-R321, R323, R329): a request with nothing pending is refused with its cause, or pends with a switch time at
least 10 µs away, on the list's own cycle; a cancel before that time at the port's plane takes it back; at the time the other list runs, or the switch is dropped
while GATES is SAFE; after a transition no queue of the port whose gate is closed is ready. -/
def Obligations.GateSwitches : Prop :=
  ∀ (s : State), s.Canonical → s.Keyed →
    (∀ (a : Agent) (data : Word),
      let p := s.regFld pgGates 0x1000 7 0
      let l := 1 - s.gateActive p
      let u := s.putWinA pgGates (p * 0x2000 + gwCtrl) 0x100#32 0xFFFFFFFF#32 (data ||| 1#32)
      let cause := u.gateCause p l
      let base := (s.gateList p l).base
      p ≤ 241 →
      (s.reaches a pgGates 0xC040 (data ||| 1#32) → s.gatePending p = false →
        (cause ≠ 0 → Leads (.gateSwitchReq a data) s (fun t => t.gatePending p = false ∧ bit (t.gw p gwStatus) 18 = true
          ∧ fld (t.gw p gwStatus) 26 24 = cause ∧ bit (t.reg pgGates 0x14) 17 = true))
        ∧ (cause = 0 → base + 2 ^ 33 < 2 ^ 48 * 1000000000 → s.nowCeil + 2 ^ 33 < 2 ^ 48 * 1000000000 →
          Leads (.gateSwitchReq a data) s (fun t => t.gatePending p = true ∧ t.gateActive p = s.gateActive p ∧ s.nowCeil + 10000 ≤ t.gateCt p
            ∧ base ≤ t.gateCt p ∧ (s.gateLen p l ≠ 0 → (t.gateCt p - base) % (s.gateList p l).cycle = 0))))
      ∧ (s.reaches a pgGates 0xC040 (data ||| 2#32) → bit data 0 = false → s.gatePending p = true → s.planeNs p < s.gateCt p →
        Leads (.gateSwitchCancel a data) s (fun t => t.gatePending p = false ∧ t.gateActive p = s.gateActive p ∧ bit (t.gw p gwStatus) 19 = true)))
    ∧ ∀ p : Fin 242, s.stands = false →
      (s.gatePending p.val = true → s.gateCt p.val ≤ s.planeNs p.val →
        (s.safe pgGates = true → Leads (.gateSwitch p) s (fun t => t.gatePending p.val = false ∧ t.gateActive p.val = s.gateActive p.val ∧ t = { s with win := t.win }))
        ∧ (s.safe pgGates = false → Leads (.gateSwitch p) s (fun t => t.gatePending p.val = false ∧ t.gateActive p.val = 1 - s.gateActive p.val
          ∧ bit (t.reg pgGates 0x14) 16 = true ∧ KeepsConfig s t ∧ KeepsMemory s t)))
      ∧ (s.planeNs p.val < s.gateCt p.val → Leads (.gateSwitch p) s (fun t => t = s))
      ∧ (s.gated p.val = true → s.portServes p.val = true → s.flushing p.val = false → Leads (.gateTransition p) s (fun t =>
          KeepsConfig s t ∧ KeepsMemory s t ∧ t.buf.fifo = s.buf.fifo
            ∧ ∀ q ∈ s.portQueues p.val, (s.gateNow p.val).testBit (gateClass (s.egressClass q)) = false → q ∉ t.sched.inR))

/-! ### Time (R331-R351) -/

/-- The clocks (R333-R337, R342): a cycle advances the domain clocks by their increments and the time base as its role and distance say; a
STEP_GO, SET_GO or FREQ write while TIME is ENABLED acts on its own domain alone, and a step waits 100 µs where it is relayed; SNAP captures the three clocks; a pop
removes the oldest transmit stamp. -/
def Obligations.ClocksAdvanceAndStep : Prop :=
  ∀ (s : State), s.Canonical → s.Keyed →
    (s.stands = false → 4 ≤ s.pow.phase → s.host.ordered = [] → s.time.domPend = [] → s.sprue.held = [] → Leads .timeBaseTick s (fun t =>
      t.time.cyc = s.time.cyc + 1 ∧ t.time.dA = clkAdd s.time.dA (s.incD 0) ∧ t.time.dB = clkAdd s.time.dB (s.incD 1)
        ∧ (s.follows = false → s.tbDelta = 0 → t.time.tb = clkAdd s.time.tb (s.incD s.tbSel))
        ∧ (s.follows = false → s.safe pgTime = false → s.tbSteps = true → t.time.tb = clkAdd (s.domClk s.tbSel) (s.incD s.tbSel)
            ∧ t.reg pgTime 0x2018 = s.reg pgTime 0x2018 + 1 ∧ bit (t.reg pgTime 0x2010) 0 = true)
        ∧ KeepsConfig s t ∧ KeepsMemory s t))
    ∧ (s.pow.phase < 4 → Leads .timeBaseTick s (fun t => t = s))
    ∧ (∀ (a : Agent) (d : Fin 2), s.enabled pgTime = true →
      let other := fun (t : State) => t.domClk (1 - d.val) = s.domClk (1 - d.val) ∧ t.time.tb = s.time.tb ∧ t.time.cyc = s.time.cyc
      let ctl := 0x1058 + 0x20 * d.val
      (s.reaches a pgTime ctl 1 → s.ownWord pgTime ctl →
        (s.domRelayed = false → Leads (.stepGo a d) s (fun t => t.domClk d.val = clkAdd (s.domClk d.val) (s.stepValue d.val) ∧ other t))
        ∧ (s.domRelayed = true → Leads (.stepGo a d) s (fun t => t.domClk d.val = s.domClk d.val ∧ other t
            ∧ t.time.domPend = s.time.domPend ++ [⟨d.val, 1, s.stepValue d.val, s.nowNs + 100000⟩])))
      ∧ (s.reaches a pgTime ctl 2 → s.ownWord pgTime ctl →
        (∀ v, s.setValue d.val = some v → s.domRelayed = false → Leads (.setGo a d) s (fun t => t.domClk d.val = v ∧ other t))
        ∧ (s.setValue d.val = none → Leads (.setGo a d) s (fun t => t.domClk d.val = s.domClk d.val ∧ other t ∧ bit (t.reg pgTime 0x2010) 12 = true)))
      ∧ ∀ data : Word, s.reaches a pgTime (0x1040 + 0x20 * d.val) data → s.ownWord pgTime (0x1040 + 0x20 * d.val) → s.domRelayed = false →
        Leads (.freqWrite a d data) s (fun t =>
        (if d.val = 0 then t.time.fA else t.time.fB) = freqClamp data.toInt ∧ (if d.val = 0 then t.time.fB else t.time.fA) = (if d.val = 0 then s.time.fB else s.time.fA)
          ∧ t.domClk d.val = s.domClk d.val ∧ other t ∧ t.reg pgTime (0x1040 + 0x20 * d.val) = data
          ∧ (freqClamp data.toInt ≠ data.toInt → bit (t.reg pgTime 0x2010) 11 = true)))
    ∧ (∀ a : Agent, s.reaches a pgTime 0x1000 (s.reg pgTime 0x1000 ||| 0x100#32) → Leads (.snap a) s (fun t =>
      (t.reg pgTime 0x2020, t.reg pgTime 0x2024, t.reg pgTime 0x2028) = clkWords s.time.tb
        ∧ (t.reg pgTime 0x2030, t.reg pgTime 0x2034, t.reg pgTime 0x2038) = clkWords s.time.dA
        ∧ (t.reg pgTime 0x2040, t.reg pgTime 0x2044, t.reg pgTime 0x2048) = clkWords s.time.dB ∧ t.time = s.time))
    ∧ ∀ (a : Agent) (port : Fin 242) (data : Word), s.reaches a pgTime (0x8024 + 0x40 * port.val) data →
      Leads (.txtsPop a port data) s (fun t => Store.get [] port.val t.time.txts = (Store.get [] port.val s.time.txts).tail
        ∧ t.time = { s.time with txts := t.time.txts })

/-- Pulses, recovered clocks and time transfer (R344-R350): PPS_OUT rises for WIDTH at a whole second of its clock, and not else; a PPS_IN edge is captured unless one came within 1 ms; a
squelched output is low until its source is back; a follower has a REQUEST put before its time member, and one outstanding is lost; a REQUEST has
its answer put before its member; the RESPONSE to the outstanding exchange within 100 µs is used once, any other is ignored; a LOCKED servo without exchanges holds over. -/
def Obligations.PulsesAndExchanges : Prop :=
  ∀ (s : State), s.Canonical → s.Keyed → s.stands = false →
    let sends := fun (t : State) (g m msg : Nat) => ∃ c : WaitCell, Store.get [] (laneKey g m) t.sprue.ctlQ = Store.get [] (laneKey g m) s.sprue.ctlQ ++ [c]
      ∧ c.hdr.dst = 0xFFF ∧ c.hdr.len = 40 ∧ byteAt c.payload 0 = 5 ∧ byteAt c.payload 1 = msg
    (s.enabled pgTime = true → bit (s.cfg pgTime 0x108) 0 = true → Leads .ppsOutEdge s (fun t =>
      if s.time.ppsDue then t.time.ppsEnd = some (s.time.cyc + min 500000 (orIfZero (s.cfgFld pgTime 0x108 31 12) 1) * 3125 / 2) ∧ t.ppsOut = true
        ∧ t = { s with time := { s.time with ppsEnd := t.time.ppsEnd, ppsDue := false } }
      else t = s))
    ∧ (let soon := match s.time.ppsIn with | some c => decide (s.time.cyc < c + 1562500) | none => false
       bit (s.cfg pgTime 0x108) 3 = true →
       (soon = true → Leads .ppsIn s (fun t => t = s))
       ∧ (soon = false → Leads .ppsIn s (fun t => t.reg pgTime 0x207C = s.reg pgTime 0x207C + 1 ∧ t.time.ppsIn = some s.time.cyc
          ∧ (t.reg pgTime 0x2050, t.reg pgTime 0x2054, t.reg pgTime 0x2058) = clkWords (clkAdd s.time.tb (-s.ppsInDelay))
          ∧ bit (t.reg pgTime 0x14) 17 = true ∧ RegsBut [pgTime] s t)))
    ∧ (∀ (n : Fin 2) (signal : Bool), bit (s.reg pgTime (0x1080 + 4 * n.val)) 10 = true → Leads (.rclkSquelch n signal) s (fun t =>
        t.rclkRuns n.val = false ∧ t.time = { s.time with squelched := t.time.squelched } ∧ KeepsConfig s t ∧ KeepsMemory s t))
    ∧ (∀ n : Fin 2,
      let src := fld (s.reg pgTime (0x1080 + 4 * n.val)) 7 0
      s.srcLocked src = true → Leads (.rclkResume n) s (fun t =>
        256 * n.val + src ∉ t.time.squelched ∧ t = { s with time := { s.time with squelched := t.time.squelched } }))
    ∧ (∀ g m, s.follows = true → s.enabled pgTime = true → s.followGroup = some g → s.timeMember g = some m → s.enabled (sprPage g) = true →
      Leads .timeExchangeStart s (fun t =>
        t.time.exch = some ((s.time.exchId + 1) % 65536, s.stampNow, m) ∧ sends t g m 0
          ∧ t.reg pgTime 0x2090 = s.reg pgTime 0x2090 + (if s.time.exch.isSome then 1 else 0) ∧ KeepsConfig s t ∧ KeepsMemory s t))
    ∧ (∀ (g m : Fin 16) (id : BitVec 16) (t1 : BitVec 96), s.enabled (sprPage g.val) = true → Leads (.timeRequestRx g m id t1) s (fun t =>
        t.reg pgTime 0x2094 = s.reg pgTime 0x2094 + 1 ∧ t.time = s.time ∧ sends t g.val m.val 1 ∧ KeepsConfig s t ∧ KeepsMemory s t))
    ∧ (∀ (g m : Fin 16) (id : BitVec 16) (t1 t2 t3 : BitVec 96),
      (s.time.exch ≠ some (id.toNat, ofTod96 t1, m.val) ∨ s.followGroup ≠ some g.val → Leads (.timeResponseRx g m id t1 t2 t3) s (fun t => t = s))
      ∧ (s.time.exch = some (id.toNat, ofTod96 t1, m.val) → s.followGroup = some g.val →
        (s.stampNow ≤ ofTod96 t1 + 6553600000 → Leads (.timeResponseRx g m id t1 t2 t3) s (fun t =>
          t.time.exch = none ∧ t.reg pgTime 0x208C = s.reg pgTime 0x208C + 1
            ∧ (s.safe pgTime = true → t.time = { s.time with exch := none } ∧ RegsBut [pgTime] s t)))
        ∧ (ofTod96 t1 + 6553600000 < s.stampNow → Leads (.timeResponseRx g m id t1 t2 t3) s (fun t => t.time = { s.time with exch := none }
          ∧ t.reg pgTime 0x2090 = s.reg pgTime 0x2090 + 1 ∧ RegsBut [pgTime] s t))))
    ∧ (∀ e, s.time.exch = some e → Leads .timeExchangeLost s (fun t => t.time = { s.time with exch := none }
        ∧ t.reg pgTime 0x2090 = s.reg pgTime 0x2090 + 1 ∧ RegsBut [pgTime] s t))
    ∧ (s.regFld pgTime 0x2010 4 3 = 2 → Leads .servoHoldover s (fun t => t.regFld pgTime 0x2010 4 3 = 3 ∧ bit (t.reg pgTime 0x2010) 10 = true
        ∧ t.reg pgTime 0x2088 = s.reg pgTime 0x2088 ∧ t.time = { s.time with phase := 0 } ∧ RegsBut [pgTime] s t))

/-! ### Timed launch (R352-R358) -/

/-- Launch slots (R352-R356): an ARM of a slot that is neither ARMING nor ARMED makes it ARMING where it passes the checks, and is refused with its
cause where it fails them; CANCEL takes an ARMING slot, or an ARMED one that is not applying, to CANCELLED; a slot placed before its T is ARMED, and one placed late without
LATE_OK is MISSED, as is one whose T passes in SAFE or by a step without LATE_OK; at its T the first due slot applies its writes in entry order and is APPLIED. -/
def Obligations.LaunchSlots : Prop :=
  ∀ (s : State), s.Canonical → s.Keyed →
    (∀ (a : Agent) (data : Word),
      let k := s.regFld pgLaunch 0x1000 7 0
      let new := blend 0x37F#32 data (s.slotW k 3)
      let u := s.setSlotW k 3 new
      let busy := s.slotState k = 1 ∨ s.slotState k = 2
      (s.reaches a pgLaunch 0x800C (data ||| 0x10000#32) → ¬ busy →
        (u.armCause (s.agentRights a pgLaunch) k = none → Leads (.launchArm a data) s (fun t => t.slotState k = 1 ∧ t.slotW k 3 = new
          ∧ t.slotArmer k = a))
        ∧ ∀ e, u.armCause (s.agentRights a pgLaunch) k = some e → Leads (.launchArm a data) s (fun t => t.slotState k = s.slotState k
          ∧ fld (t.slotW k 4) 7 4 = e.1 ∧ fld (t.slotW k 4) 13 8 = e.2 % 64 ∧ bit (t.reg pgLaunch 0x14) 19 = true))
      ∧ (s.reaches a pgLaunch 0x800C (data ||| 0x20000#32) → busy → s.slotApplying k = false → bit data 16 = false →
        Leads (.launchCancel a data) s (fun t => t.slotState k = 5 ∧ t.reg pgLaunch 0x2010 = s.reg pgLaunch 0x2010 + 1)))
    ∧ ∀ k : BitVec 8, s.stands = false →
      let missed := fun (t : State) => t.slotState k.toNat = 4 ∧ t.reg pgLaunch 0x200C = s.reg pgLaunch 0x200C + 1 ∧ bit (t.reg pgLaunch 0x14) 17 = true
        ∧ RegsBut [pgLaunch] s t ∧ t = { s with regs := t.regs, win := t.win, launch := t.launch }
      (s.slotState k.toNat = 1 → s.slotDue k.toNat = false → Leads (.launchPlaced k) s (fun t => t.slotState k.toNat = 2 ∧ t = { s with win := t.win }))
      ∧ (s.slotState k.toNat = 1 → s.slotDue k.toNat = true → s.lateOk k.toNat = false → Leads (.launchPlaced k) s missed)
      ∧ (s.slotState k.toNat = 2 → s.slotDue k.toNat = true → s.safe pgLaunch = true ∨ (s.slotStepped k.toNat = true ∧ s.lateOk k.toNat = false) →
        Leads (.launchMissed k) s missed)
      ∧ (s.slotApplying k.toNat = true → (∀ j, j < 256 → j ≠ k.toNat → s.slotApplying j = true → s.slotFirst j k.toNat = false) →
        bit (s.slotW k.toNat 3) 9 = false →
        let u := (List.range (fld (s.slotW k.toNat 3) 6 0)).foldl (fun s' i => s'.launchWrite (s.slotArmer k.toNat) k.toNat i) s
        Leads (.launchApply k) s (fun t => t.slotState k.toNat = 3 ∧ bit (t.slotW k.toNat 4) 3 = s.slotStepped k.toNat
          ∧ t.reg pgLaunch 0x2004 = u.reg pgLaunch 0x2004 + 1 ∧ RegsBut [pgLaunch] u t ∧ t.cp = u.cp ∧ t.nvm = u.nvm ∧ t.buf = u.buf))


/-! ### Trunked operation (R364-R382) -/

/-- The sending side (R366-R369, R372-R375): the ready VOQ of the highest class sends its whole frame against its credit or as a probe, and a frame
with an uncorrectable cell is discarded instead; a grant adds credit up to the cap; an egress port earns a grant for an eligible flow; gathered
grants wait in one cell of at most 20 entries for a slot; an empty VOQ is freed; an unreachable destination loses its frames and takes no more. -/
def Obligations.TrunkSending : Prop :=
  ∀ (s : State), s.Canonical → s.Keyed → s.stands = false →
    let keeps := fun (t : State) => KeepsConfig s t ∧ KeepsMemory s t
    (∀ ecc, s.pickVoq = none → Leads (.voqServe ecc) s (fun t => t = s))
    ∧ (∀ n v0 c l, ∀ ecc : Option Bool, 2 ≤ s.blk pgVoq → s.topo = 2 ∨ (s.topo = 1 ∧ s.twicel = 2) → s.standby = false → s.pickVoq = some (n, v0) →
      s.queue (voqKey n) = c :: l → c.queue = voqKey n →
      let v := s.voqNow v0
      let cells := transferCells (s.sentBytes c).length
      let st := v.phys * 8 + v.cls
      let serve := fun (P : State → Prop) => Leads (.voqServe ecc) s (fun t => (∀ x ∈ t.queue (voqKey n), x.id ≠ c.id) ∧ keeps t ∧ P t)
      (c.spoilt = true → serve (fun t => t.reg pgIngot 0x2018 = s.reg pgIngot 0x2018 + 1 ∧ t.voq.streams = s.voq.streams))
      ∧ (c.spoilt = false → ecc = some true → serve (fun t => t.reg pgCrucible 0x2014 = s.reg pgCrucible 0x2014 + 1
        ∧ t.reg pgCrucible 0x2010 = s.reg pgCrucible 0x2010 + 1 ∧ t.voq.streams = s.voq.streams))
      ∧ (c.spoilt = false → ecc ≠ some true → serve (fun t => Store.get 0 st t.voq.streams = (Store.get 0 st s.voq.streams + cells) % 65536
        ∧ (v.credit ≤ 0 → t.reg pgVoq 0x201C = s.reg pgVoq 0x201C + 1)
        ∧ (0 < v.credit → t.reg pgVoq 0x201C = s.reg pgVoq 0x201C
            ∧ ∀ x, t.voq.voqs.find? (fun e => e.1 == n) = some x → x.2.credit = v.credit - (256 * cells : Nat)))))
    ∧ (∀ (src : BitVec 12) (es : List (BitVec 16 × Fin 8 × BitVec 16)), Leads (.creditGrantRx src es) s (fun t =>
        t.reg pgVoq 0x2020 = s.reg pgVoq 0x2020 + word es.length ∧ RegsBut [pgVoq] s t ∧ keeps t
        ∧ ∀ e n v, es = [e] → s.voq.voqs.find? (fun x => x.2.port == e.1.toNat && x.2.cls == e.2.1.val && s.physOf x.2.dest == some src.toNat) = some (n, v) →
          ∃ x, t.voq.voqs.find? (fun y => y.1 == n) = some (n, x) ∧ x.lastProbe = some s.time.cyc
            ∧ x.credit = min ((s.voqNow v).credit + (e.2.2.toNat * s.creditUnit : Nat)) (s.cfgFld pgVoq 0x108 31 16 * s.creditUnit : Nat)))
    ∧ (∀ (p : Fin 242), (s.working pgCredit = false ∨ s.standby = true ∨ s.cfgFld pgCredit 0x104 19 0 < s.portCells p.val ∨ s.pickFlow p.val = none →
        Leads (.creditEarn p) s (fun t => t = s))
      ∧ ∀ k f, s.working pgCredit = true → s.standby = false → s.portCells p.val ≤ s.cfgFld pgCredit 0x104 19 0 → s.pickFlow p.val = some (k, f) →
        Leads (.creditEarn p) s (fun t => t.voq.flows.find? (fun e => e.1 == k) = some (k, { f with out := f.out + (s.creditUnit : Nat) }) ∧ keeps t
          ∧ ((addUnit (Store.get [] (k / 2048) s.voq.grants) (k % 2048)).length < 20 →
            Store.get [] (k / 2048) t.voq.grants = addUnit (Store.get [] (k / 2048) s.voq.grants) (k % 2048))))
    ∧ (∀ (src : BitVec 12),
      let l := Store.get [] src.toNat s.voq.grants
      let lanes := s.txLanes (s.routeGroups src.toNat)
      (s.blk pgCredit < 2 ∨ s.blk pgCredit = 4 ∨ l = [] ∨ lanes = [] → Leads (.grantCellSend src) s (fun t => t = s))
      ∧ (2 ≤ s.blk pgCredit → s.blk pgCredit ≠ 4 → l ≠ [] → lanes ≠ [] → Leads (.grantCellSend src) s (fun t =>
        Store.get [] src.toNat t.voq.grants = l.drop 20 ∧ t.reg pgCredit 0x200C = s.reg pgCredit 0x200C + 1
        ∧ t.reg pgCredit 0x2008 = s.reg pgCredit 0x2008 + word (min 20 l.length) ∧ RegsBut [pgCredit] s t ∧ keeps t
        ∧ ∃ x, Store.get [] (lanes.headD 0) t.sprue.ctlQ = Store.get [] (lanes.headD 0) s.sprue.ctlQ ++ [x] ∧ byteAt x.payload 0 = 3
          ∧ byteAt x.payload 1 = min 20 l.length)))
    ∧ (∀ v : BitVec 18, (s.queue (voqKey v.toNat) = [] → s.spillOf (voqKey v.toNat) = none →
        Leads (.voqFreeHoldExpire v) s (fun t => t = { s with voq := { s.voq with voqs := Store.erase v.toNat s.voq.voqs } }))
      ∧ (s.queue (voqKey v.toNat) ≠ [] → Leads (.voqFreeHoldExpire v) s (fun t => t = s)))
    ∧ ∀ ph : BitVec 12, (s.reachable ph.toNat = true ∨ s.topo = 0 → Leads (.unreachExpire ph) s (fun t => t = s))
      ∧ (s.reachable ph.toNat = false → s.topo ≠ 0 → Leads (.unreachExpire ph) s (fun t => ph.toNat ∈ t.voq.unreach
        ∧ bit (t.reg pgVoq 0x14) 17 = true ∧ keeps t
        ∧ ((∀ q ∈ s.buf.queues, ∀ c ∈ q.2, c.queue = q.1) → ∀ e ∈ s.voq.voqs, (s.voqNow e.2).phys = ph.toNat → t.queue (voqKey e.1) = [])))

/-- The receiving side (R367, R371, R376-R378): the first cell of a stream opens its context, a late one and one over a full buffer are
discarded and counted; cells in sequence pass to assembly and a complete frame goes to the Ladle, or is dropped where its queue does not map to
the port; a gap is given up after TIMEOUT, and an unsynced context starts at its earliest cell; XOFF goes out where the buffer fills and XON where
it drains; TAKEOVER changes an alias that it names right. -/
def Obligations.TrunkReceiving : Prop :=
  ∀ (s : State), s.Canonical → s.stands = false →
    let keeps := fun (t : State) => KeepsConfig s t ∧ KeepsMemory s t
    let ctxOf := fun (t : State) (k : Nat) => (t.voq.ctxs.find? (fun e => e.1 == k)).map Prod.snd
    let tells := fun (t : State) => ∀ g m, g ∈ s.dataGroups → s.enabled (sprPage g) = true → m < 16 → (s.memberLane g m).isSome → s.memberLive g m = true →
      ∃ x, Store.get [] (laneKey g m) t.sprue.ctlQ = Store.get [] (laneKey g m) s.sprue.ctlQ ++ [x] ∧ byteAt x.payload 0 = 4
    (∀ (src : BitVec 12) (cls : Fin 8) (seq : BitVec 16) (first last : Bool) (payload : List Byte),
      let k := src.toNat * 8 + cls.val
      let x : DataCell := ⟨seq.toNat, first, last, payload⟩
      let cell := fun (P : State → Prop) => Leads (.dataCellRx src cls seq first last payload) s P
      (s.standby = true ∨ s.winding = true → cell (fun t => t = s.incReg pgPair 0x204C))
      ∧ (s.standby = false → s.winding = false → s.working pgCredit = false ∨ s.topo = 0 → cell (fun t => t = s))
      ∧ (s.standby = false → s.winding = false → s.working pgCredit = true → s.topo = 2 ∨ (s.topo = 1 ∧ (s.twicel = 2 ∨ s.twicel = 4)) →
        (ctxOf s k = none →
          (4096 ≤ s.voq.ctxs.length → cell (fun t => t = s.incReg pgCredit 0x2020))
          ∧ (s.voq.ctxs.length < 4096 → 32768 ≤ s.rbUsed → cell (fun t => t = s.incReg pgCredit 0x201C))
          ∧ (s.voq.ctxs.length < 4096 → s.rbUsed < 32768 → cell (fun t => ctxOf t k
            = some ⟨if seq = 0 then some 0 else none, [(seq.toNat, x, s.time.cyc)], [], false, s.time.cyc⟩ ∧ t.regs = s.regs)))
        ∧ ∀ c, ctxOf s k = some c →
          let idle := decide (c.last + orIfZero (s.cfgFld pgCredit 0x108 31 16) 100 * 1562500 ≤ s.time.cyc)
          let next := if c.next = none ∨ idle = true then (if seq = 0 then some 0 else none) else c.next
          let c' := { c with next := next, last := s.time.cyc }
          let late := next.any (fun n => decide (32768 ≤ (seq.toNat + 65536 - n) % 65536))
          (late = true → cell (fun t => t.reg pgCredit 0x2018 = s.reg pgCredit 0x2018 + 1 ∧ RegsBut [pgCredit] s t ∧ ctxOf t k = some c'))
          ∧ (late = false → 32768 ≤ s.rbUsed → cell (fun t => t.reg pgCredit 0x201C = s.reg pgCredit 0x201C + 1 ∧ RegsBut [pgCredit] s t ∧ ctxOf t k = some c'))
          ∧ (late = false → s.rbUsed < 32768 → cell (fun t =>
            ctxOf t k = some { c' with held := Store.insert seq.toNat (x, s.time.cyc) c.held } ∧ t.regs = s.regs))))
    ∧ (s.voq.ctxs = [] → Leads .reassemblyRelease s (fun t => t = s))
    ∧ (∀ (k : Nat) (c : RxCtx) (q : Nat) (x : DataCell) (at_ : Nat), s.voq.ctxs = [(k, c)] → c.next = some q → c.held = [(q, x, at_)] → c.parts = [] →
      x.first = true → x.last = true → byteAt x.payload 0 = 1 → x.payload.length = 16 + half x.payload 6 → 0 < half x.payload 6 → half x.payload 6 ≤ 16000 →
      byteAt x.payload 1 ≤ 241 → Leads .reassemblyRelease s (fun t => t.reg pgCredit 0x2028 = s.reg pgCredit 0x2028 + 1
        ∧ ctxOf t k = some { c with next := some ((q + 1) % 65536), held := [], bad := false } ∧ RegsBut [pgCredit, pgTm, pgMcast] s t ∧ keeps t
        ∧ ∃ n, (s.mapOk (byteAt x.payload 1) n = true → ∃ a, t.buf.waiting = s.buf.waiting ++ [a] ∧ a.frame.bytes = x.payload.drop 16
            ∧ a.tc = byteAt x.payload 2 / 32 ∧ a.out = .port (byteAt x.payload 1) n)
          ∧ (s.mapOk (byteAt x.payload 1) n = false → t.buf.waiting = s.buf.waiting ∧ t.reg pgTm 0x2004 = s.reg pgTm 0x2004 + 1)))
    ∧ (∀ (src : BitVec 12) (cls : Fin 8),
      let k := src.toNat * 8 + cls.val
      (ctxOf s k = none → Leads (.rbSkip src cls) s (fun t => t = s) ∧ Leads (.contextSync src cls) s (fun t => t = s))
      ∧ ∀ c, ctxOf s k = some c →
        (s.heldTooLong c = false → Leads (.rbSkip src cls) s (fun t => t = s) ∧ Leads (.contextSync src cls) s (fun t => t = s))
        ∧ (s.heldTooLong c = true →
          (∀ n q, c.next = some n → c.held.any (fun e => e.1 == n) = false → firstHeld c n = some q → Leads (.rbSkip src cls) s (fun t =>
            ctxOf t k = some { c with next := some q, parts := [], bad := !c.parts.isEmpty || c.bad } ∧ t.reg pgCredit 0x2014 = s.reg pgCredit 0x2014 + 1
              ∧ bit (t.reg pgCredit 0x14) 16 = true ∧ RegsBut [pgCredit] s t ∧ keeps t))
          ∧ (c.next = none → c.held ≠ [] → Leads (.contextSync src cls) s (fun t => (∃ o ∈ c.held, (∀ e ∈ c.held, o.2.2 ≤ e.2.2)
              ∧ ctxOf t k = some { c with next := firstHeld c ((o.1 + 32768) % 65536) }) ∧ t = { s with voq := { s.voq with ctxs := t.voq.ctxs } }))))
    ∧ (s.voq.xoff = false → s.cfgFld pgCredit 0x10C 15 0 ≤ s.rbUsed → Leads .rbXoff s (fun t => t.voq.xoff = true
        ∧ t.reg pgCredit 0x202C = s.reg pgCredit 0x202C + 1 ∧ bit (t.reg pgCredit 0x14) 18 = true ∧ RegsBut [pgCredit] s t ∧ tells t ∧ keeps t))
    ∧ (s.voq.xoff = true → s.rbUsed < s.cfgFld pgCredit 0x10C 31 16 → Leads .rbXoff s (fun t => t.voq.xoff = false ∧ t.regs = s.regs ∧ tells t ∧ keeps t))
    ∧ (s.voq.xoff = false → s.rbUsed < s.cfgFld pgCredit 0x10C 15 0 → Leads .rbXoff s (fun t => t = s))
    ∧ (s.voq.xoff = false → Leads .flowStatusRepeat s (fun t => t = s))
    ∧ (s.voq.xoff = true → Leads .flowStatusRepeat s (fun t => t.voq = s.voq ∧ t.regs = s.regs ∧ tells t ∧ keeps t))
    ∧ ∀ (logical new old : BitVec 12),
      let w := s.winA pgVoq logical.toNat
      let right := s.topo = 2 ∧ logical.toNat < 256 ∧ bit w 31 = true ∧ fld w 11 0 = old.toNat
      (right → Leads (.takeoverRx logical new old) s (fun t => t.winA pgVoq logical.toNat = setFld w 11 0 new.toNat
        ∧ t.reg pgVoq 0x202C = s.reg pgVoq 0x202C + 1 ∧ bit (t.reg pgVoq 0x14) 16 = true ∧ RegsBut [pgVoq] s t ∧ keeps t))
      ∧ (¬ right → Leads (.takeoverRx logical new old) s (fun t => t = s.incReg pgVoq 0x2030))

/-! ### Twicel (R385-R398) -/

/-- The joint (R385, R386, R389, R390, R394, R395): a device that meets its own index is in CONFLICT; the lead probes once the joint is UP and
follows the answer; the partner applies the relay that is next in order and remembers what it answered; an acknowledged relay is done and a
refused mirror write is recorded; an unanswered one is sent again and fails after eight sendings; learned entries travel in batches while TABLES has
its maintenance port, newer ones prevail, and the walk sends a device's own ones again. -/
def Obligations.TwicelJoint : Prop :=
  ∀ (s : State), s.Canonical → s.Keyed → s.stands = false →
    let keeps := fun (t : State) => KeepsConfig s t ∧ KeepsMemory s t
    (∀ src : BitVec 12, let cell := fun (P : State → Prop) => Leads (.conflictDetect src) s P
      (s.topo = 1 → s.twicel ≠ 0 → src.toNat = s.ownDev → cell (fun t => t.twicel = 5 ∧ (s.twicel ≠ 5 → bit (t.reg pgPair 0x14) 16 = true)
        ∧ RegsBut [pgPair] s t ∧ t = { s with regs := t.regs }))
      ∧ (s.topo = 1 → s.twicel = 5 → src.toNat ≠ s.ownDev → src.toNat = s.otherDev → cell (fun t => t.twicel = 1 ∧ t.pair.relays = []
        ∧ RegsBut [pgPair] s t ∧ t = { s with regs := t.regs, pair := t.pair }))
      ∧ (s.topo ≠ 1 ∨ s.twicel = 0 ∨ (s.twicel ≠ 5 ∧ src.toNat ≠ s.ownDev) → cell (fun t => t = s)))
    ∧ (s.topo = 1 → s.ownDev = 0 → s.twicel = 1 → s.jointUp = true → s.probing = false → s.pair.probed = false → Leads .joinProbe s (fun t =>
        (∃ r, r ∈ t.pair.relays ∧ r.probe = true ∧ r.seq = s.pair.relayNext ∧ r.mask = some (word s.profile) ∧ r.data = [s.cfgSignature pgTables])
          ∧ t.pair.relayNext = s.pair.relayNext + 1 ∧ t.twicel = 1 ∧ keeps t))
    ∧ (s.twicel ≠ 1 ∨ s.jointUp = false ∨ s.pair.probed = true → Leads .joinProbe s (fun t => t = s))
    ∧ (∀ st : Byte, (s.probing = false → Leads (.joinProbeAnswer st) s (fun t => t = s))
      ∧ (s.probing = true → s.twicel = 1 → Leads (.joinProbeAnswer st) s (fun t => t.probing = false
          ∧ t.twicel = (if st.toNat = 0 then 2 else if st.toNat = Status.tableFull.code then 3 else 1)
          ∧ (st.toNat ≠ 0 → st.toNat ≠ Status.tableFull.code → bit (t.reg pgPair 0x2000) 8 = true) ∧ RegsBut [pgPair] s t
          ∧ t = { s with regs := t.regs, pair := t.pair })))
    ∧ (∀ (flags : Byte) (seq : BitVec 16) (addr mask : Word) (data : List Word),
      let cell := fun (P : State → Prop) => Leads (.configRelayRx flags seq addr mask data) s P
      let d := (seq.toNat + 65536 - s.pair.relayWant % 65536) % 65536
      (flags.getLsbD 0 = true → cell (fun t => exec (.relayAckRx seq (BitVec.ofNat 8 (fld mask 7 0)) (BitVec.ofNat 8 (fld mask 15 8)) data) s = .next t))
      ∧ (flags.getLsbD 0 = false →
        (s.topo ≠ 1 ∨ s.ownDev ≠ 1 → cell (fun t => t = s))
        ∧ (s.topo = 1 → s.ownDev = 1 → 0 < d → d < 32768 → cell (fun t => t = s))
        ∧ (s.topo = 1 → s.ownDev = 1 → 32768 ≤ d → cell (fun t => t.pair = s.pair ∧ t.tab = s.tab ∧ t.time = s.time ∧ t.regs = s.regs ∧ keeps t))
        ∧ (s.topo = 1 → s.ownDev = 1 → d = 0 → flags.getLsbD 3 = false → s.twicel < 2 ∨ s.twicel = 5 → cell (fun t =>
          t.pair.relayWant = s.pair.relayWant + 1 ∧ t.pair.acks.head? = some (seq.toNat, Status.partnerDown.code, 0, []) ∧ t.tab = s.tab ∧ keeps t))
        ∧ ∀ w st u, s.topo = 1 → s.ownDev = 1 → d = 0 → flags = 0 → data = [w] → 2 ≤ s.twicel → s.twicel ≠ 5 →
          s.busWrite (relayWho none) addr.toNat 0xFFFFFFFF#32 w = (st, u) → cell (fun t => t.pair.relayWant = u.pair.relayWant + 1
            ∧ t.pair.acks.head? = some (seq.toNat, st.code, (if st = .ok then 1 else 0), []) ∧ t.tab = u.tab ∧ t.regs = u.regs ∧ KeepsConfig u t ∧ KeepsMemory u t)))
    ∧ (∀ (seq : BitVec 16) (st words : Byte) (data : List Word),
      let ack := fun (P : State → Prop) => Leads (.relayAckRx seq st words data) s P
      ((∀ r ∈ s.pair.relays.take 64, r.seq % 65536 = seq.toNat → r.tries = 0) → ack (fun t => t = s))
      ∧ ∀ r, s.pair.relays = [r] → r.seq % 65536 = seq.toNat → r.tries ≠ 0 → r.probe = false → r.mask ≠ some 0 → s.host.ordered = [] → s.ops.recs = [] →
        (s.host.waiting = [] → ack (fun t => t.pair = { s.pair with relays := [] } ∧ RegsBut [pgPair] s t ∧ t = { s with regs := t.regs, pair := t.pair }
          ∧ (r.mirror = true → st ≠ 0 → bit (t.reg pgPair 0x2000) 11 = true ∧ t.reg pgPair 0x201C = r.addr + word (if r.fixed then 0 else 4 * words.toNat))
          ∧ (r.mirror = false ∨ st = 0 → t.regs = s.regs)))
        ∧ ∀ w, s.host.waiting = [w] → w.agent = .i3c → w.route = .i3c → w.noResponse = false → r.agent = Agent.i3c.id → w.firstSeq ≤ r.seq → r.seq ≤ w.lastSeq →
          w.parts ≠ [] → ack (fun t => t.host.waiting = [] ∧ t.pair.relays = []
            ∧ t.outbox .i3c = s.outbox .i3c ++ [(w.take r st.toNat words.toNat data).final.bytes] ∧ keeps t))
    ∧ (s.pair.relays = [] → Leads .relayRetx s (fun t => t = s))
    ∧ (∀ r l, s.pair.relays = r :: l →
      (r.tries ≠ 8 → Leads .relayRetx s (fun t => t.pair.relays = s.pair.relays.map (fun x => if x.tries = 0 then x else { x with tries := x.tries + 1 })
        ∧ t.reg pgPair 0x2030 = s.reg pgPair 0x2030 + word ((s.pair.relays.take 64).filter (fun x => x.tries != 0)).length ∧ t.host = s.host ∧ keeps t))
      ∧ (r.tries = 8 → Leads .relayRetx s (fun t => bit (t.reg pgPair 0x2000) 10 = true ∧ bit (t.reg pgPair 0x14) 21 = true
        ∧ (∀ w ∈ t.host.waiting, ¬ (w.agent.id = r.agent ∧ w.firstSeq ≤ r.seq ∧ r.seq ≤ w.lastSeq)) ∧ keeps t)))
    ∧ (let l := s.tab.learnOut.take 15
       (l = [] ∨ (s.twicel ≠ 2 ∧ s.twicel ≠ 4) → Leads .learnBatchSend s (fun t => t = s))
       ∧ (l ≠ [] → s.twicel = 2 ∨ s.twicel = 4 → s.txLanes s.jointGroups ≠ [] → Leads .learnBatchSend s (fun t => t.tab.learnOut = s.tab.learnOut.drop 15
          ∧ t.pair.batchOut = s.pair.batchOut + 1 ∧ t.reg pgPair 0x2034 = s.reg pgPair 0x2034 + word l.length ∧ keeps t)))
    ∧ (∀ seq : BitVec 16,
      (∀ es, (s.twicel ≠ 2 ∧ s.twicel ≠ 4) ∨ s.role = 2 ∨ s.working pgTables = false → Leads (.learnRx seq es) s (fun t => t = s))
      ∧ (s.twicel = 2 ∨ s.twicel = 4 → s.role ≠ 2 → s.working pgTables = true →
        let d := (seq.toNat + 65536 - s.pair.batchIn.getD seq.toNat % 65536) % 65536
        (∀ es, 32768 ≤ d → Leads (.learnRx seq es) s (fun t => t = s))
        ∧ (∀ es, 0 < d → d < 32768 → Leads (.learnRx seq es) s (fun t => t.reg pgPair 0x203C = s.reg pgPair 0x203C + word d ∧ bit (t.reg pgPair 0x14) 22 = true
            ∧ t.pair.batchIn = some ((seq.toNat + 1) % 65536) ∧ keeps t))
        ∧ ∀ b, d = 0 →
          let e := LearnEnt.of b
          let u := { s with pair := { s.pair with batchIn := some ((seq.toNat + 1) % 65536) } }
          let ent : MacEnt := ⟨e.mac, e.vid, false, false, BitVec.ofNat 20 e.port, word s.tick⟩
          let got := fun (P : State → Prop) => Leads (.learnRx seq [b]) s P
          let done := fun (t : State) => t.reg pgPair 0x2038 = s.reg pgPair 0x2038 + 1 ∧ t.pair.batchIn = u.pair.batchIn ∧ keeps t
          (e.op = 1 ∨ e.op = 2 → s.macFind e.mac e.vid = none → (u.macInsert ent).isSome = true → got (fun t => (∃ ix, (ix, ent) ∈ t.tab.mac) ∧ done t))
          ∧ (e.op = 4 → s.macFind e.mac e.vid = none → got (fun t => t = u))
          ∧ ∀ ix x, s.macFind e.mac e.vid = some (ix, x) →
            (x.static = true → got (fun t => t = u))
            ∧ (e.op = 1 ∨ e.op = 2 → x.static = false → s.learnWins e x = false → got (fun t => t = u))
            ∧ (e.op = 1 ∨ e.op = 2 → x.static = false → s.learnWins e x = true → got (fun t =>
              t.tab.mac = Store.insert ix { x with isNh := false, dest := BitVec.ofNat 20 e.port, seen := word s.tick } s.tab.mac ∧ done t))
            ∧ (e.op = 4 → x.static = false → x.isNh = false → x.dest.toNat = e.port → got (fun t => t.tab.mac = Store.erase ix s.tab.mac ∧ done t))))
    ∧ (s.twicel = 2 → s.role ≠ 2 → Leads .syncWalk s (fun t => t = { s with tab := { s.tab with learnOut := t.tab.learnOut } }
        ∧ (∃ l, t.tab.learnOut = s.tab.learnOut ++ l ∧ ∀ e ∈ l, e.1 = 1 ∧ e.2.2.port / 256 = s.ownDev)
        ∧ ∀ e ∈ s.tab.mac, e.2.static = false → e.2.isNh = false → e.2.dest.toNat / 256 = s.ownDev → ∃ x ∈ t.tab.learnOut, x.2.2.mac = e.2.mac ∧ x.2.2.vid = e.2.vid))
    ∧ (s.twicel ≠ 2 ∨ s.role = 2 → Leads .syncWalk s (fun t => t = s))

/-- Switchover and the pins (R399-R401, R408-R414): a filtered fall of ACT_IN makes an ACTIVE device a winding-down STANDBY; at the end of the
wind-down its queues are empty and its journal has ended; a rise ends a wind-down, or promotes a STANDBY, recording the generation and the SYNC
state that it had; a promoted device that starts to forward has no class paused, and in TRUNKED sends TAKEOVER to every other device, twice more
after it; AUTO_SYNC starts a STATE_SYNC; HB_OUT toggles only while firmware kicks it; FAULT_N follows its causes. -/
def Obligations.Switchover : Prop :=
  ∀ (s : State), s.Canonical → s.Keyed →
    let keeps := fun (t : State) => KeepsConfig s t ∧ KeepsMemory s t
    let pin := bit (s.reg pgPair 0x2004) 8
    let st := fun (t : State) (b : Nat) => bit (t.reg pgPair 0x2004) b
    let told := fun (t : State) => t.reg pgPair 0x2054 = s.reg pgPair 0x2054 + word (s.aliasTargets.filter (fun d => !(s.txLanes (s.routeGroups d)).isEmpty)).length
      ∧ ∀ d ∈ s.aliasTargets, ∀ k, (s.txLanes (s.routeGroups d)).head? = some k → ∃ l, Store.get [] k t.sprue.ctlQ = Store.get [] k s.sprue.ctlQ ++ l
        ∧ ∃ x ∈ l, x.hdr.dst = d ∧ byteAt x.payload 0 = 8
    (s.stands = false →
      (pin = false → Leads .actInFall s (fun t => t = s))
      ∧ (pin = true → s.role ≠ 1 → Leads .actInFall s (fun t => t = s.clrReg pgPair 0x2004 0x100#32))
      ∧ (pin = true → s.role = 1 → Leads .actInFall s (fun t => t.role = 2 ∧ t.winding = true ∧ st t 8 = false ∧ t.pair.promoting = false ∧ t.pair.takeLeft = 0
          ∧ bit (t.reg pgPair 0x14) 17 = true ∧ t.buf = s.buf ∧ t.tab = s.tab ∧ RegsBut [pgPair, pgTime] s t ∧ keeps t))
      ∧ (s.winding = false → Leads .windDownEnd s (fun t => t = s))
      ∧ (s.winding = true → Leads .windDownEnd s (fun t => t.winding = false ∧ t.role = s.role ∧ t.sync = 0 ∧ t.pair.jOn = false ∧ t.pair.jSent = []
          ∧ t.reg pgTm 0x30 = s.reg pgTm 0x30 + word (s.workCount pgTm) ∧ keeps t
          ∧ ((∀ e ∈ s.buf.queues, ∀ c ∈ e.2, c.queue = e.1) → t.buf.queues = [])))
      ∧ (pin = true → Leads .actInRise s (fun t => t = s))
      ∧ (pin = false → s.role ≠ 2 → Leads .actInRise s (fun t => t = s.orReg pgPair 0x2004 0x100#32))
      ∧ (pin = false → s.role = 2 → s.winding = true → Leads .actInRise s (fun t => t.role = 1 ∧ t.winding = false ∧ st t 8 = true
          ∧ t.reg pgPair 0x2050 = s.reg pgPair 0x2050 ∧ t.buf = s.buf ∧ keeps t))
      ∧ (pin = false → s.role = 2 → s.winding = false → Leads .actInRise s (fun t => t.role = 1 ∧ st t 8 = true ∧ t.pair.promoting = true ∧ t.pair.jOn = false
          ∧ t.regFld pgPair 0x2004 14 12 = s.sync ∧ t.reg pgPair 0x2020 = s.reg pgPair 0x200C ∧ t.reg pgPair 0x2050 = s.reg pgPair 0x2050 + 1
          ∧ (s.sync < 2 → st t 16 = true) ∧ bit (t.reg pgPair 0x14) 17 = true ∧ t.buf = s.buf ∧ t.tab = s.tab ∧ keeps t))
      ∧ (s.pair.promoting = false → Leads .takeoverForwardStart s (fun t => t = s))
      ∧ (s.pair.promoting = true → Leads .takeoverForwardStart s (fun t => t.pair.promoting = false
          ∧ (∀ p, p < 240 → fld (t.reg pgLadle (0x2500 + 4 * p)) 15 0 = 0) ∧ t.buf = s.buf ∧ keeps t
          ∧ (s.topo = 2 → t.pair.takeSeq = s.pair.takeSeq + 1 ∧ t.pair.takeLeft = 2 ∧ told t)
          ∧ ∀ k, s.role = 1 → bit (s.cfg pgPair 0x100) 2 = true → bit (s.reg pgCpctl 0x2000) 8 = true → s.freeOp = some k →
            ∃ r, t.opRec k = some r ∧ r.kind = .stateSync))
      ∧ (s.pair.takeLeft = 0 → Leads .takeoverRepeat s (fun t => t = s))
      ∧ (s.pair.takeLeft ≠ 0 → Leads .takeoverRepeat s (fun t => t.pair = { s.pair with takeLeft := s.pair.takeLeft - 1 } ∧ t.buf = s.buf
          ∧ RegsBut [pgPair] s t ∧ told t ∧ keeps t))
      ∧ (let on := bit (s.reg pgCpctl 0x2000) 8 && (match s.pair.kick with | some c => decide (s.time.cyc ≤ c + 3125000) | none => false) && !s.pair.wdtHit
         Leads .hbToggle s (fun t => t.pair.hbOut = (s.pair.hbOut != on) ∧ st t 11 = on ∧ RegsBut [pgPair] s t
           ∧ t = { s with regs := t.regs, pair := { s.pair with hbOut := t.pair.hbOut } })))
    ∧ ∀ a : Agent,
      (∀ data : Word, s.reaches a pgPair 0x1000 data → Leads (.hbKick a data) s (fun t => t.pair.kick = some s.time.cyc
        ∧ t.pair.hbOut = s.pair.hbOut ∧ RegsBut [pgPair, pgPmu] s t))
      ∧ (s.reaches a pgPair 0x1004 1#32 → Leads (.faultAssert a) s (fun t => bit (t.reg pgPair 0x2008) 4 = true ∧ st t 10 = true
        ∧ (st s 10 = false → bit (t.reg pgPair 0x14) 20 = true)))
      ∧ (s.reaches a pgPair 0x1004 2#32 → Leads (.faultClear a) s (fun t => t.reg pgPair 0x1004 = 0 ∧ bit (t.reg pgPair 0x2008) 2 = false
        ∧ bit (t.reg pgPair 0x2008) 4 = false ∧ st t 10 = (t.reg pgPair 0x2008 != 0)))

/-- The journal (R402-R407, R412): the active sends its oldest unsent record under the generation and its number, or one of the sweep; a standby
applies the record that is next in sequence, shows its number and acknowledges it, and acknowledges any other without applying it; an active device
that receives one reports two actives; acknowledged records are done and a refusal ends the generation; without progress all go out again; a
quiet journal is kept alive; the sweep begins once the bulk has been sent. -/
def Obligations.Journalling : Prop :=
  ∀ (s : State), s.Canonical → s.Keyed → s.stands = false →
    let keeps := fun (t : State) => KeepsConfig s t ∧ KeepsMemory s t
    let lanes := s.txLanes s.pairGroups
    let syncOp := s.ops.recs.find? (fun e => e.2.kind == .stateSync && !e.2.state.terminal)
    let p := s.pair
    let cell := fun (t : State) (b : List Byte) => ∃ x, Store.get [] (lanes.headD 0) t.sprue.ctlQ = Store.get [] (lanes.headD 0) s.sprue.ctlQ ++ [x] ∧ x.payload = b
    let sends := fun (n : Nat) (r : List Word) (t : State) => t.reg pgPair 0x2010 = word n ∧ t.reg pgPair 0x2040 = s.reg pgPair 0x2040 + 1
      ∧ RegsBut [pgPair] s t ∧ cell t (journalBytes 0 n s.syncGen r) ∧ keeps t
    (s.journalUp = false ∨ p.jOn = false → Leads .journalRecordSend s (fun t => t = s))
    ∧ (s.journalUp = true → p.jOn = true → lanes ≠ [] →
      (∀ r, 0 < p.jUnsent → p.jUnsent ≤ p.jSent.length → p.jSent[p.jSent.length - p.jUnsent]? = some r → Leads .journalRecordSend s (fun t => sends r.1 r.2 t
        ∧ t.pair = { p with jUnsent := p.jUnsent - 1 }))
      ∧ (p.jUnsent = 0 → p.jSent.length < 65536 →
        (p.jResync = true → Leads .journalRecordSend s (fun t => sends p.jNext (s.recHead 11 0) t
          ∧ t.pair = { p with jResync := false, jNext := p.jNext + 1, jSent := p.jSent ++ [(p.jNext, s.recHead 11 0)] }))
        ∧ (p.jResync = false → s.syncRunning = none → p.sweep = none → Leads .journalRecordSend s (fun t => t = s))
        ∧ (∀ i, p.jResync = false → s.syncRunning = none → p.sweep = some i → i < pairCount → Leads .journalRecordSend s (fun t => ∃ b, fld (b.headD 0) 31 24 = 7
          ∧ b.getD 2 0 = word i ∧ sends p.jNext b t ∧ t.pair.jSent = p.jSent ++ [(p.jNext, b)] ∧ t.pair.sweep = some (i + min 13 (pairCount - i))))
        ∧ (p.jResync = false → Leads .journalHeartbeat s (fun t => sends p.jNext (s.recHead 1 0) t
          ∧ t.pair = { p with jNext := p.jNext + 1, jSent := p.jSent ++ [(p.jNext, s.recHead 1 0)] })))
      ∧ Leads .journalRetx s (fun t => t.pair = p ∧ t.reg pgPair 0x2044 = s.reg pgPair 0x2044 + word (p.jSent.length - p.jUnsent) ∧ RegsBut [pgPair] s t ∧ keeps t))
    ∧ (s.journalUp = false → Leads .journalRetx s (fun t => t = s))
    ∧ (s.role = 2 → s.enabled pgPair = true → p.jOn = true → 0 < p.jNext → lanes ≠ [] → Leads .journalHeartbeat s (fun t => t.pair = p ∧ t.regs = s.regs
        ∧ cell t (journalBytes 0 (p.jNext - 1) s.syncGen []) ∧ keeps t))
    ∧ (s.role = 0 ∨ p.jOn = false → Leads .journalHeartbeat s (fun t => t = s))
    ∧ (s.role = 1 → p.jOn = true → p.jBulk = true → Leads .journalSweep s (fun t => t = { s with pair := { p with sweep := some 0 } }))
    ∧ (s.role ≠ 1 ∨ p.jOn = false ∨ p.jBulk = false → Leads .journalSweep s (fun t => t = s))
    ∧ (∀ gen seq : Word, Leads (.journalRx gen seq []) s (fun t => exec (.journalAckRx gen seq false) s = .next t))
    ∧ (∀ (gen ack : Word),
      (∀ refuse, s.role ≠ 1 ∨ s.enabled pgPair = false ∨ gen.toNat ≠ s.syncGen ∨ p.jOn = false → Leads (.journalAckRx gen ack refuse) s (fun t => t = s))
      ∧ (s.role = 1 → s.enabled pgPair = true → gen.toNat = s.syncGen → p.jOn = true → syncOp = none →
        Leads (.journalAckRx gen ack true) s (fun t => t = { s with pair := { p with jOn := false, jSent := [], jUnsent := 0, sweep := none } })
        ∧ (p.jUnsent ≤ p.jSent.length → Leads (.journalAckRx gen ack false) s (fun t => t.reg pgPair 0x2014 = ack ∧ RegsBut [pgPair] s t
          ∧ t = { s with regs := t.regs, pair := { p with jSent := t.pair.jSent } }
          ∧ t.pair.jSent = (p.jSent.take (p.jSent.length - p.jUnsent)).filter (fun r => decide (ack.toNat < r.1)) ++ p.jSent.drop (p.jSent.length - p.jUnsent))))
      ∧ ∀ slot r, s.role = 1 → s.enabled pgPair = true → gen.toNat = s.syncGen → p.jOn = true → syncOp = some (slot, r) → s.opRec slot = some r →
        Leads (.journalAckRx gen ack true) s (fun t => ∃ q, t.opRec slot = some q ∧ q.state = .failed ∧ q.result = .cfgLocked)
        ∧ (r.phase = 0 → r.state ≠ .queued → Leads (.journalAckRx gen ack false) s (fun t => t.opRec slot = some { r with phase := 1 }))
        ∧ (r.phase = 5 → (r.params.getD 1 0).toNat ≤ ack.toNat → Leads (.journalAckRx gen ack false) s (fun t => ∃ q, t.opRec slot = some q
          ∧ q.state = .done ∧ q.result = .ok)))
    ∧ ∀ (gen seq : Word) (r : List Word), r ≠ [] →
      let rx := fun (P : State → Prop) => Leads (.journalRx gen seq r) s P
      let h := r.getD 0 0
      let kind := fld h 31 24
      let w := fun i => r.getD (2 + i) 0
      (s.enabled pgPair = false ∨ s.role = 0 → rx (fun t => t = s))
      ∧ (s.enabled pgPair = true → s.role = 1 → rx (fun t => t.reg pgPair 0x2048 = s.reg pgPair 0x2048 + 1 ∧ bit (t.reg pgPair 0x2004) 18 = true
        ∧ RegsBut [pgPair] s t ∧ t = { s with regs := t.regs }))
      ∧ (s.enabled pgPair = true → s.role = 2 → s.winding = true → rx (fun t => t = s))
      ∧ (s.enabled pgPair = true → s.role = 2 → s.winding = false →
        (kind ≠ 9 ∨ seq ≠ 0 → gen.toNat ≠ s.syncGen ∨ p.jOn = false → rx (fun t => t = s))
        ∧ (kind = 9 → seq = 0 → gen.toNat ≠ s.syncGen ∨ p.jOn = false →
          let same := fld (w 0) 2 0 = s.profile ∧ fld (w 0) 9 8 = s.topo
          (same → rx (fun t => t.reg pgPair 0x200C = gen ∧ t.pair.jOn = true ∧ t.pair.jBulk = false ∧ t.pair.jNext = 1 ∧ t.sync = 1 ∧ keeps t))
          ∧ (¬ same → rx (fun t => t.pair = p ∧ t.regs = s.regs ∧ (lanes ≠ [] → cell t (journalBytes 1 0 gen.toNat [])) ∧ keeps t)))
        ∧ (gen.toNat = s.syncGen → p.jOn = true →
          (seq.toNat ≠ p.jNext → rx (fun t => t.pair = p ∧ t.tab = s.tab ∧ t.regs = s.regs ∧ (lanes ≠ [] → cell t (journalBytes 0 (p.jNext - 1) gen.toNat [])) ∧ keeps t))
          ∧ (seq.toNat = p.jNext →
            let u := s.applyRecord r
            rx (fun t => t.pair.jNext = seq.toNat + 1 ∧ t.pair.jCreated = (r.getD 1 0).toNat ∧ t.reg pgPair 0x2010 = seq
              ∧ t.reg pgPair 0x2040 = u.reg pgPair 0x2040 + 1 ∧ t.tab = u.tab ∧ t.buf = u.buf ∧ t.sched = u.sched ∧ t.win = u.win ∧ RegsBut [pgPair] u t
              ∧ KeepsConfig u t ∧ KeepsMemory u t
              ∧ (kind = 1 → u = s)
              ∧ (kind = 3 → fld h 15 0 = 1 → ∀ ix x, s.macFind (LearnEnt.of (BitVec.ofNat 128 (((r.drop 2).take 4).foldl (fun n w => n * 2 ^ 32 + w.toNat) 0))).mac
                  (LearnEnt.of (BitVec.ofNat 128 (((r.drop 2).take 4).foldl (fun n w => n * 2 ^ 32 + w.toNat) 0))).vid = some (ix, x) →
                  (x.static = true → u = s)
                  ∧ (x.static = false → fld (w 1) 15 12 = 3 ∨ fld (w 1) 15 12 = 4 → t.tab.mac = Store.erase ix s.tab.mac))
              ∧ (kind = 4 → t.tab = { s.tab with switchAt := some (dueOf [w 1, w 2, w 3]), switchNo := some (fld (w 0) 15 0) })
              ∧ (kind = 5 → t.standing = fld (w 0) 15 0 ∧ t.tab.switchAt = none)
              ∧ (kind = 7 → fld h 15 0 = 1 → r.length = 7 → (w 0).toNat < 4194304 →
                t.backOf (w 0).toNat = ((w 1).toNat * 2 ^ 32 + (w 2).toNat, (w 3).toNat * 2 ^ 32 + (w 4).toNat) ∧ t.partOf (w 0).toNat = (0, 0))
              ∧ (kind = 8 → t.reg pgEpoch 0x2000 = w 0)
              ∧ (kind = 10 → t.pair.jBulk = true)
              ∧ (kind = 11 → t.sync = 0)))))


/-! ### Counters, performance monitor and samples (R417-R432) -/

/-- Statistics (R417-R423): a flush adds the partial count to the backing value modulo 2^64, notes a wrap and an uncorrectable error, and
empties the partial count; the periodic flush queues every pair that has one; a read latches the sum's other words for its agent and changes no
pair's counts, and an application without access to the page takes a load fault instead; SET_CTRL sets one pair at once, starts a range, or is refused
while one runs. -/
def Obligations.Statistics : Prop :=
  ∀ (s : State), s.Canonical → s.Keyed →
    (s.stands = false →
      (s.stat.flushQ = [] → ∀ u, Leads (.statsFlush u) s (fun t => t = s))
      ∧ (∀ i rest (u : Bool), s.stat.flushQ = i :: rest →
        let x := if u then (0, 0) else s.backOf i
        let y := s.partOf i
        let wf := decide (2 ^ 64 ≤ x.1 + y.1)
        let wb := decide (2 ^ 64 ≤ x.2 + y.2)
        Leads (.statsFlush u) s (fun t => t.stat.flushQ = rest ∧ t.partOf i = (0, 0) ∧ t.backOf i = ((x.1 + y.1) % 2 ^ 64, (x.2 + y.2) % 2 ^ 64)
          ∧ t.pairFlags i = s.pairFlags i ||| (if u then 4 else 0) ||| (if wf then 1 else 0) ||| (if wb then 2 else 0)
          ∧ (∀ j, j ≠ i → t.partOf j = s.partOf j ∧ t.backOf j = s.backOf j ∧ t.pairFlags j = s.pairFlags j)
          ∧ t.reg pgStats 0x2004 = s.reg pgStats 0x2004 + 1 ∧ t.reg pgStats 0x2008 = s.reg pgStats 0x2008 + (if u then 1 else 0)
          ∧ (u = true → bit (t.reg pgStats 0x14) 18 = true) ∧ (wf = true ∨ wb = true → bit (t.reg pgStats 0x14) 17 = true)
          ∧ RegsBut [pgStats] s t ∧ t = { s with regs := t.regs, stat := { t.stat with flushQ := rest } }))
      ∧ Leads .statsPeriodicFlush s (fun t => (∃ l, t.stat.flushQ = s.stat.flushQ ++ l) ∧ (∀ e ∈ s.stat.part, t.stat.flushQ.length < 4096 → e.1 ∈ t.stat.flushQ)
          ∧ RegsBut [pgStats] s t ∧ t = { s with regs := t.regs, stat := { s.stat with flushQ := t.stat.flushQ } })
      ∧ (∀ (a : Agent) (pair : Fin 1024) (u : Bool), (∀ k, a = .core k → s.coreHeld k.val = false) → (∀ k, a = .app k → s.appOn k.val = true) →
        (a = .debug → s.attached = true) →
        let o := 0x8000 + 32 * pair.val
        let i := 1024 * s.regFld pgStats 0x1000 11 0 + pair.val
        let x := if u then (0, 0) else s.backOf i
        let f := (x.1 + (s.partOf i).1) % 2 ^ 64
        let b := (x.2 + (s.partOf i).2) % 2 ^ 64
        ((∀ k, a = .app k → s.appMayLoad (regAddr pgStats o) = true) → Leads (.statsRead a pair u) s (fun t =>
          t.stat.latch.find? (fun e => e.1 == a.id)
            = some (a.id, i, [word (f / 2 ^ 32), word b, word (b / 2 ^ 32), word s.nowSub, word (s.pairFlags i ||| (if u then 4 else 0))])
          ∧ t.stat.part = s.stat.part ∧ t.stat.back = s.stat.back
          ∧ (u = true → bit (t.reg pgStats 0x14) 18 = true ∧ t.reg pgStats 0x2008 = s.reg pgStats 0x2008 + 1) ∧ KeepsConfig s t ∧ KeepsMemory s t))
        ∧ ∀ k, a = .app k → s.appMayLoad (regAddr pgStats o) = false → Leads (.statsRead a pair u) s (fun t =>
          t = s.appTrap 1 k.val excLoadFault (word (regAddr pgStats o)) ∧ t.stat = s.stat)))
    ∧ ∀ (a : Agent) (data : Word), s.reaches a pgStats 0x101C (data ||| 1#32) →
      let first := s.regFld pgStats 0x1004 21 0
      let f := (s.reg pgStats 0x1010).toNat * 2 ^ 32 + (s.reg pgStats 0x100C).toNat
      let b := (s.reg pgStats 0x1018).toNat * 2 ^ 32 + (s.reg pgStats 0x1014).toNat
      (bit (s.reg pgStats 0x2000) 0 = true → Leads (.statsSet a data) s (fun t => bit (t.reg pgStats 0x2000) 11 = true ∧ t.stat.part = s.stat.part
        ∧ t.stat.back = s.stat.back ∧ t.stat.job = s.stat.job))
      ∧ (bit (s.reg pgStats 0x2000) 0 = false → bit data 1 = false → Leads (.statsSet a data) s (fun t => t.partOf first = (0, 0)
        ∧ t.backOf first = (f, b) ∧ t.pairFlags first = 0 ∧ bit (t.reg pgStats 0x14) 16 = true ∧ t.stat.job = s.stat.job))
      ∧ (bit (s.reg pgStats 0x2000) 0 = false → bit data 1 = true → Leads (.statsSet a data) s (fun t => bit (t.reg pgStats 0x2000) 0 = true
        ∧ t.stat.part = s.stat.part ∧ t.stat.job = some ⟨first, orIfZero (s.regFld pgStats 0x1008 22 0) 1, 0, f, b, s.time.cyc⟩))

/-- The performance monitor and the sample ring (R424, R427, R432): RESET_ALL clears every value that does not count the write itself; a high
word is held for its agent until the low word writes both; a waiting record goes to the ring at RING_WR with its CRC, or is lost where the ring
is full; RING_RD moves unless the ring would hold more than 4,096 records. -/
def Obligations.MonitorAndSamples : Prop :=
  ∀ (s : State), s.Canonical →
    (∀ a : Agent,
      (s.reaches a pgPmu 0x1000 (s.reg pgPmu 0x1000 ||| 2#32) → Leads (.pmuResetAll a) s (fun t => RegsBut [pgPmu, pgPair] s t
        ∧ ∀ n : Fin 256, s.pmuRuns = false ∨ bit (s.winW pgPmu n.val 0) 8 = false → t.reg pgPmu (pmuVal n.val) = 0 ∧ t.reg pgPmu (pmuVal n.val + 4) = 0))
      ∧ ∀ (n : Fin 256) (data : Word),
        (s.reaches a pgPmu (pmuVal n.val + 4) data → Leads (.pmuValueWrite a n true data) s (fun t =>
          t.stat.hold = Store.insert a.id (n.val, data) s.stat.hold ∧ RegsBut [pgPmu, pgPair] s t
            ∧ (s.pmuRuns = false → ∀ m : Fin 256, t.reg pgPmu (pmuVal m.val) = s.reg pgPmu (pmuVal m.val))))
        ∧ (s.reaches a pgPmu (pmuVal n.val) data → Leads (.pmuValueWrite a n false data) s (fun t => RegsBut [pgPmu, pgPair] s t
          ∧ (s.pmuRuns = false ∨ bit (s.winW pgPmu n.val 0) 8 = false → t.reg pgPmu (pmuVal n.val) = data
            ∧ t.reg pgPmu (pmuVal n.val + 4) = (match s.stat.hold.find? (fun e => e.1 == a.id && e.2.1 == n.val) with
                | some (_, _, h) => h &&& 0x8000FFFF#32 | none => 0)))))
    ∧ (s.stands = false → s.stat.waiting = [] → Leads .sampleRecordWrite s (fun t => t = s))
    ∧ (∀ r rest, s.stands = false → s.stat.waiting = r :: rest →
      (s.working pgPmu = false → Leads .sampleRecordWrite s (fun t => t = s))
      ∧ (s.working pgPmu = true → 4096 ≤ s.ringFill → Leads .sampleRecordWrite s (fun t => t.stat = { s.stat with waiting := rest, lost := true }
        ∧ t.reg pgPmu 0x2008 = s.reg pgPmu 0x2008 + 1 ∧ bit (t.reg pgPmu 0x14) 18 = true ∧ RegsBut [pgPmu] s t ∧ t = { s with regs := t.regs, stat := t.stat }))
      ∧ (s.working pgPmu = true → s.ringFill < 4096 →
        let b := if s.stat.lost then r.set 3 (r.getD 3 0 ||| 1) else r
        let ring := Store.insert (s.regFld pgPmu 0x2000 12 0 % 4096) (b ++ beBytes 2 (crc16 b).toNat) s.stat.ring
        Leads .sampleRecordWrite s (fun t => t.stat = { s.stat with waiting := rest, lost := false, ring := ring }
          ∧ t.regFld pgPmu 0x2000 12 0 = (s.regFld pgPmu 0x2000 12 0 + 1) % 8192 ∧ t.reg pgPmu 0x2004 = s.reg pgPmu 0x2004 + 1
          ∧ (t.ringFill = s.regFld pgPmu 0x1008 12 0 → bit (t.reg pgPmu 0x14) 17 = true) ∧ RegsBut [pgPmu] s t ∧ t = { s with regs := t.regs, stat := t.stat })))
    ∧ ∀ (a : Agent) (data : Word), s.reaches a pgPmu 0x1004 data → Leads (.ringRdWrite a data) s (fun t => t.stat.ring = s.stat.ring
        ∧ t.regFld pgPmu 0x2000 12 0 = s.regFld pgPmu 0x2000 12 0 ∧ RegsBut [pgPmu, pgPair] s t
        ∧ t.regFld pgPmu 0x1004 12 0 = (if 4096 < (s.regFld pgPmu 0x2000 12 0 + 8192 - fld data 12 0) % 8192 then s.regFld pgPmu 0x1004 12 0 else fld data 12 0))

/-! ### Debug and Quench (R440-R455) -/

/-- Debugging the cores (R442-R447): the port attaches unless DEBUG is SAFE; without the right its core commands are denied; CORE_HALT halts the
cores named and CORE_RESUME frees them; CORE_STEP, CORE_REG_READ and CORE_REG_WRITE need a halted core, registers written read back, and an access ends
at a number that names no register; a trigger is set or cleared, and an access that it matches halts its core. -/
def Obligations.CoreDebugging : Prop :=
  ∀ (s : State), s.Canonical → s.Keyed →
    (s.inReset = false →
      (s.attached = true ∨ s.safe pgDebug = true → Leads .debugAttach s (fun t => t = s))
      ∧ (s.attached = false → s.safe pgDebug = false → Leads .debugAttach s (fun t => t.attached = true ∧ t.reg pgDebug 0x201C = s.reg pgDebug 0x201C + 1
        ∧ bit (t.reg pgDebug 0x14) 16 = true ∧ RegsBut [pgDebug] s t ∧ t = { s with regs := t.regs }))
      ∧ (s.attached = true → Leads .debugLineReset s (fun t => t = s.incReg pgDebug 0x2020))
      ∧ (s.attached = false → Leads .debugLineReset s (fun t => t = s)))
    ∧ (∀ (k i : Fin 4) (acc : TrigAccess) (addr : BitVec 64) (user : Bool), s.stands = false →
      let hit := fun (P : State → Prop) => Leads (.triggerHit k i acc addr user) s P
      let held := s.cp.halted.any (fun e => e.1 == k.val && e.2 != .coreHalt)
      (s.cp.triggers.find? (fun e => e.1 == k.val * 4 + i.val) = none → hit (fun t => t = s))
      ∧ ∀ j g, s.cp.triggers.find? (fun e => e.1 == k.val * 4 + i.val) = some (j, g) →
        (g.hits acc addr user = false ∨ held = true → hit (fun t => t = s))
        ∧ (g.hits acc addr user = true → held = false → hit (fun t => t.coreHeld k.val = true ∧ bit (t.reg pgDebug 0x14) 18 = true
          ∧ t.cp.halted.find? (fun e => e.1 == k.val) = some (k.val, if acc = .execute then .execTrigger else .accessTrigger)
          ∧ RegsBut [pgDebug] s t ∧ t = { s with regs := t.regs, cp := { s.cp with halted := t.cp.halted } })))
    ∧ ∀ (rq : Request),
      let w := fun i => (reqWords rq).getD i 0
      let k := fld (w 0) 1 0
      let n := fld (w 1) 15 0
      let core := fun (i : Instr) (P : State → Prop) => Leads i s (fun t => P t ∧ t.cp.mem = s.cp.mem ∧ t.buf = s.buf ∧ KeepsConfig s t ∧ KeepsMemory s t)
      (s.coreDebug = false →
        (s.takes opHALT rq → core (.coreHalt rq) (fun t => Answers s t rq .denied [] ∧ t.cp = s.cp))
        ∧ (s.takes opRUN rq → core (.coreResume rq) (fun t => Answers s t rq .denied [] ∧ t.cp = s.cp))
        ∧ (∀ pc l, s.takes opSTEP rq → core (.coreStep rq pc l) (fun t => Answers s t rq .denied [] ∧ t.cp = s.cp))
        ∧ (s.takes opREGREAD rq → core (.coreRegRead rq) (fun t => Answers s t rq .denied [] ∧ t.cp = s.cp))
        ∧ (s.takes opREGWRITE rq → core (.coreRegWrite rq) (fun t => Answers s t rq .denied [] ∧ t.cp = s.cp))
        ∧ (s.takes opTRIGGER rq → core (.triggerSet rq) (fun t => Answers s t rq .denied [] ∧ t.cp = s.cp)))
      ∧ (s.coreDebug = true →
        (s.takes opHALT rq → core (.coreHalt rq) (fun t => Answers s t rq .ok [] ∧ t.cp.coreRegs = s.cp.coreRegs
          ∧ ∀ j, j < 4 → t.coreHeld j = (s.coreHeld j || bit (w 0) j)))
        ∧ (s.takes opRUN rq → core (.coreResume rq) (fun t => Answers s t rq .ok [] ∧ t.cp.coreRegs = s.cp.coreRegs
          ∧ t.cp.halted = s.cp.halted.filter (fun e => !bit (w 0) e.1)))
        ∧ (s.takes opTRIGGER rq → core (.triggerSet rq) (fun t => Answers s t rq .ok [] ∧ t.cp.halted = s.cp.halted
          ∧ (let kind := fld (w 1) 2 0
             let at_ := k * 4 + fld (w 0) 3 2
             t.cp.triggers = if kind = 0 ∨ 4 < kind then Store.erase at_ s.cp.triggers
               else Store.insert at_ ⟨BitVec.ofNat 3 kind, bit (w 1) 3, w 2, w 3⟩ s.cp.triggers)))
        ∧ (∀ pc l, s.takes opSTEP rq →
          (s.coreHeld k = false → core (.coreStep rq pc l) (fun t => Answers s t rq .opState [] ∧ t.cp = s.cp))
          ∧ (s.coreHeld k = true → core (.coreStep rq pc l) (fun t => Answers s t rq .ok [] ∧ t.coreReg k 0x40 = pc
            ∧ t.cp.halted.find? (fun e => e.1 == k) = some (k, .step) ∧ (∀ r v, l = [(r, v)] → r ≠ 0 → r ≠ 0x40 → t.coreReg k r.toNat = v)
            ∧ ∀ j r, j < 4 → r < 65536 → r ≠ 0x40 ∨ j ≠ k → l = [] → t.coreReg j r = s.coreReg j r)))
        ∧ (s.takes opREGREAD rq →
          let c := (w 2).toNat
          (s.coreHeld k = false → 1 ≤ c → c ≤ 64 → core (.coreRegRead rq) (fun t => Answers s t rq .opState [] ∧ t.cp = s.cp))
          ∧ (s.coreHeld k = true → 1 ≤ c → c ≤ 64 → (∀ i, i < c → regnoOk (n + i) = true) → core (.coreRegRead rq) (fun t => t.cp = s.cp
            ∧ Answers s t rq .ok ((List.range c).flatMap (fun i => [(s.coreReg k (n + i)).setWidth 32, (s.coreReg k (n + i) >>> 32).setWidth 32]))))
          ∧ (∀ m, s.coreHeld k = true → c ≤ 64 → m < c → (∀ i, i < m → regnoOk (n + i) = true) → regnoOk (n + m) = false → core (.coreRegRead rq) (fun t =>
            t.cp = s.cp ∧ Answers s t rq .accessFault
              ((List.range m).flatMap (fun i => [(s.coreReg k (n + i)).setWidth 32, (s.coreReg k (n + i) >>> 32).setWidth 32])))))
        ∧ (s.takes opREGWRITE rq →
          (s.coreHeld k = false → core (.coreRegWrite rq) (fun t => Answers s t rq .opState [] ∧ t.cp = s.cp))
          ∧ (∀ c, s.coreHeld k = true → (reqWords rq).length = 2 + 2 * c → (∀ i, i < c → regnoOk (n + i) = true) → core (.coreRegWrite rq) (fun t =>
            Answers s t rq .ok [word c]
            ∧ (∀ i, i < c → t.coreReg k (n + i) = (if n + i = 0 then 0 else BitVec.ofNat 64 ((w (2 + 2 * i)).toNat + (w (3 + 2 * i)).toNat * 2 ^ 32)))
            ∧ ∀ j r, j < 4 → r < 65536 → r < n ∨ n + c ≤ r ∨ j ≠ k → t.coreReg j r = s.coreReg j r))))

/-- Quench and packet breakpoints (R448, R449, R452-R455): a Quench by command or by the pin freezes the device and records its instant and
source; a second one of the pin is only counted; QINFO and QREAD read the frozen device and change none of it, and QREAD ends at an uncorrectable word; THAW, or
Q_CTRL, lets the clocks run, with every port's link down; a marked frame that is the oldest of its pipeline is held at its breakpoint's stage, STEP takes it
one stage on and RELEASE lets it run. -/
def Obligations.QuenchAndBreakpoints : Prop :=
  ∀ (s : State), s.Canonical →
    let strong := rightOk (s.agentRights .debug pgDebug) 6
    let stopped := fun (src : Nat) (t : State) => t.quenched = true ∧ t.stands = true ∧ t.regFld pgDebug 0x2000 18 16 = 2 ^ src
      ∧ t.reg pgDebug 0x200C = word (s.nowSec / 2 ^ 32 % 65536) ∧ t.reg pgDebug 0x2010 = word s.nowSec ∧ t.reg pgDebug 0x2014 = word s.nowSub
      ∧ t.reg pgDebug 0x2024 = s.reg pgDebug 0x2024 + 1 ∧ bit (t.reg pgDebug 0x14) 19 = true ∧ bit (t.reg pgPair 0x2004) 9 = false
    let runs := fun (us : Nat) (t : State) => t.quenched = false ∧ t.reg pgDebug 0x2018 = word (min us 0xFFFFFFFF) ∧ bit (t.reg pgDebug 0x14) 20 = true
      ∧ (∀ p, p < 160 → t.lineUp p = false)
    (s.inReset = false →
      (bit (s.cfg pgDebug 0x100) 0 = false → Leads .quenchPin s (fun t => t = s))
      ∧ (bit (s.cfg pgDebug 0x100) 0 = true → s.quenched = true → Leads .quenchPin s (fun t => t = s.incReg pgDebug 0x2028))
      ∧ (bit (s.cfg pgDebug 0x100) 0 = true → s.quenched = false → Leads .quenchPin s (fun t => stopped 0 t ∧ RegsBut [pgDebug, pgPair] s t
        ∧ t = { s with regs := t.regs })))
    ∧ (∀ rq : Request, s.inReset = false → rq.agent = .debug → s.attached = true → rq.flags = 0 →
      let ok := fun (op : Nat) => s.reqCheck .debug op rq = none
      let w := fun i => (reqWords rq).getD i 0
      let space := fld (w 0) 2 0
      let addr := fld (w 0) 15 8 * 2 ^ 32 + (w 1).toNat
      (ok opQUENCH → s.quenched = false →
        (strong = false → Leads (.quench rq) s (fun t => Answers s t rq .denied [] ∧ t.quenched = false))
        ∧ (strong = true → Leads (.quench rq) s (fun t => Answers s t rq .ok [] ∧ stopped 1 t ∧ RegsBut [pgDebug, pgPair] s t
          ∧ t = { s with regs := t.regs, host := t.host })))
      ∧ (ok opQUENCH → s.quenched = true → Leads (.quench rq) s (fun t => Answers s t rq .busy [] ∧ t.quenched = true))
      ∧ (ok opQINFO → strong = true → Leads (.qinfo rq) s (fun t => Answers s t rq .ok s.qinfo ∧ t = { s with host := t.host }))
      ∧ (ok opQREAD → 1 ≤ (w 2).toNat → (w 2).toNat ≤ 256 → ∀ u : Option (BitVec 8),
        (s.quenched = false → Leads (.qread rq u) s (fun t => Answers s t rq .opState [] ∧ t = { s with host := t.host }))
        ∧ (s.quenched = true → Leads (.qread rq u) s (fun t => RegsBut [pgRoles] s t ∧ t = { s with host := t.host, regs := t.regs, freeCtr := t.freeCtr }
          ∧ ∃ st l, Answers s t rq st l ∧ l.length ≤ (w 2).toNat ∧ (st = .ok → l.length = (w 2).toNat)))
        ∧ (s.quenched = true → s.spaceOpen space addr = false → Leads (.qread rq u) s (fun t => Answers s t rq .denied []
          ∧ t = { s.deny with host := t.host }))
        ∧ (s.quenched = true → s.spaceOpen space addr = true → s.spaceWord space addr = none → Leads (.qread rq u) s (fun t =>
          Answers s t rq .accessFault [] ∧ t = { s with host := t.host }))
        ∧ (∀ v, s.quenched = true → s.spaceOpen space addr = true → s.spaceWord space addr = some (.ok, v) →
          (u = some 0 → spaceEcc space = true → Leads (.qread rq u) s (fun t => Answers s t rq .internal [] ∧ t = { s with host := t.host }))
          ∧ (u ≠ some 0 ∨ spaceEcc space = false → w 2 = 1 →
            Leads (.qread rq u) s (fun t => Answers s t rq .ok [v] ∧ t = { s with host := t.host, freeCtr := t.freeCtr })))
        ∧ (space = 6 → addr < 0x200000 → s.spaceWord space addr = some (.ok, s.memWord (0x10000000 + 4 * addr))))
      ∧ (∀ us : Word, ok opTHAW → strong = true →
        (s.quenched = false → Leads (.thaw rq us) s (fun t => Answers s t rq .opState [] ∧ t = { s with host := t.host }))
        ∧ (s.quenched = true → Leads (.thaw rq us) s (fun t => (s.host.waiting = [] → Answers s t rq .ok []) ∧ runs us.toNat t ∧ KeepsConfig s t ∧ KeepsMemory s t))))
    ∧ (∀ (a : Agent) (data us : Word), s.accepts a pgDebug 0x1008 (data &&& ~~~1#32) →
      (s.quenched = true → Leads (.qCtrlThaw a data us) s (runs us.toNat))
      ∧ (s.quenched = false → Leads (.qCtrlThaw a data us) s (fun t => t.quenched = false ∧ t.reg pgDebug 0x2018 = s.reg pgDebug 0x2018)))
    ∧ (∀ (rq : Request), s.takes opDETACH rq → Leads (.detach rq) s (fun t => t.attached = false ∧ t.cp.triggers = [] ∧ t.cp.halted = []))
    ∧ (∀ (k : Fin 16), s.stands = false →
      (s.pipe.inside.find? (fun x => x.pipe == k.val) = none → Leads (.pbpHit k) s (fun t => t = s))
      ∧ ∀ x, s.pipe.inside.find? (fun x => x.pipe == k.val) = some x →
        ((s.pipeHeld k.val).isSome ∨ x.frame.mark = none → Leads (.pbpHit k) s (fun t => t = s))
        ∧ ∀ b, s.pipeHeld k.val = none → x.frame.mark = some b → b < 4 →
          Leads (.pbpHit k) s (fun t => (∃ y, t.pipeHeld k.val = some y ∧ y.frame.id = x.frame.id ∧ y.stage = some (s.pbpStage b))
            ∧ bit (t.reg pgDebug 0x2000) (12 + b) = true ∧ bit (t.reg pgDebug 0x2004) k.val = true ∧ bit (t.reg pgDebug 0x14) 17 = true
            ∧ t.pbp b 24 = word (1 + 2 * s.pbpStage b + 16 * k.val) ∧ KeepsConfig s t ∧ KeepsMemory s t))
    ∧ ∀ (a : Agent) (data : Word),
      let k := fld data 3 0
      (s.reaches a pgDebug 0x1004 (data &&& 0xF#32) → ∀ r l e,
        (s.pipeHeld k = none → Leads (.pbpStep a data r l e) s (fun t => t.pipe = s.pipe))
        ∧ (∀ x n, s.pipeHeld k = some x → x.stage = some n → n < 5 → bit data 9 = false → Leads (.pbpStep a data r l e) s (fun t =>
          ∃ y, t.pipeHeld k = some y ∧ y.frame.id = x.frame.id ∧ y.stage = some (n + 1)))
        ∧ (∀ x n, s.pipeHeld k = some x → x.stage = some n → 5 ≤ n → Leads (.pbpStep a data r l e) s (fun t =>
          ∀ y ∈ t.pipe.inside, y.pipe = k → y.frame.id = x.frame.id → y.stage = none ∧ y.frame.mark = none)))
      ∧ (s.reaches a pgDebug 0x1004 ((data &&& 0xF#32) ||| 0x200#32) →
        (s.pipeHeld k = none → Leads (.pbpRelease a data) s (fun t => t.pipe = s.pipe))
        ∧ ∀ x, s.pipeHeld k = some x → Leads (.pbpRelease a data) s (fun t =>
          ∀ y ∈ t.pipe.inside, y.pipe = k → y.frame.id = x.frame.id → y.stage = none ∧ y.frame.mark = none))


/-! ### Power, clocks and reset (R457-R486) -/

/-- Power-up and the resets (R458-R465, R475-R482): each cause that ends the run leaves cold reset with its code; a release samples the straps;
the image check, the rails in their order, the root PLL, the warm-up, the training of STACK0, the control processor's boot and its firmware
follow one another; a stack that is powered trains while its page is ENABLING or ENABLED; a warm reset keeps the rails, the stacks' training, BELLOWS,
CLOCKS and the straps; Bellows restarts as an owner reset. -/
def Obligations.PowerUpAndResets : Prop :=
  ∀ (s : State), s.Canonical →
    Leads .resetNFall s (fun t => ColdBy s 2 t ∧ t.pow.rails = s.pow.rails)
    ∧ Leads .pwrgoodFall s (fun t => ColdBy s 1 t ∧ t.pow.rails = [] ∧ t.pow.trip = false)
    ∧ Leads .supplyOutOfRange s (fun t => ColdBy s 1 t ∧ t.pow.rails = [] ∧ t.pow.trip = false)
    ∧ (∀ (rise : Bool) (straps : BitVec 4) (hot : Bool),
      let held := s.pow.phase ≠ 0 ∨ s.pow.trip = true ∨ (s.pow.off = true ∧ rise = false)
      (held → Leads (.coldResetRelease rise straps hot) s (fun t => t = s))
      ∧ (¬ held → s.pow.ended < 16 → Leads (.coldResetRelease rise straps hot) s (fun t => t.pow.phase = 1 ∧ t.pow.off = false
        ∧ t.regFld pgGlobal 0x2060 3 0 = (if s.pow.ended = 0 then 1 else s.pow.ended) ∧ t.reg pgGlobal 0x2064 = word straps.toNat
        ∧ RegsBut [pgGlobal, pgHostif] s t ∧ t = { s with regs := t.regs, pow := t.pow })))
    ∧ (s.inReset = false →
      (s.pow.phase ≠ 1 → Leads .bellowsImageVerify s (fun t => t = s))
      ∧ (s.pow.phase = 1 → Leads .bellowsImageVerify s (fun t => t.pow.phase = 2 ∧ bit (t.reg pgGlobal 0x2068) 2 = (s.bootSlot 1).1.isNone
        ∧ (s.pow.hotOff = false → t.pow.railWait = some 0 ∧ t.pow.vcore = 8500) ∧ (s.pow.hotOff = true → t.pow.railWait = s.pow.railWait)))
      ∧ (∀ r, s.pow.railWait = some r → s.pow.phase = 2 →
        Leads .railInRange s (fun t => r ∈ t.pow.rails ∧ t.pow.railWait = railAfter r ∧ t.pow.phase = (if railAfter r = none then 3 else 2) ∧ t = { s with pow := t.pow })
        ∧ Leads .railStartTimeout s (fun t => ColdBy s 5 t ∧ t.pow.rails = []))
      ∧ (s.pow.phase ≠ 2 ∨ s.pow.railWait = none → Leads .railInRange s (fun t => t = s) ∧ Leads .railStartTimeout s (fun t => t = s))
      ∧ (∀ cold, (s.pow.phase ≠ 3 → Leads (.rootPllLock cold) s (fun t => t = s))
        ∧ (s.pow.phase = 3 → Leads (.rootPllLock cold) s (fun t => t.pow.phase = (if cold then 4 else 5) ∧ t.regFld pgClocks 0x2000 3 3 = 0
          ∧ t.regFld pgClocks 0x2000 1 0 = 3 ∧ bit (t.reg pgClocks 0x14) 17 = true ∧ bit (t.reg pgStack 0x2000) 0 = true
          ∧ (cold = true → bit (t.reg pgGlobal 0x2068) 1 = true)
          ∧ (s.blk pgBellows = 0 → s.blk pgClocks = 0 → s.upset = [] → s.resetPage = none → t.blk pgBellows = 2 ∧ t.blk pgClocks = 2))))
      ∧ (∀ reached, (s.pow.phase ≠ 4 → Leads (.warmUpEnd reached) s (fun t => t = s))
        ∧ (s.pow.phase = 4 → Leads (.warmUpEnd reached) s (fun t => t.pow = { s.pow with phase := 5 } ∧ bit (t.reg pgGlobal 0x2068) 1 = false
          ∧ (reached = false → bit (t.reg pgGlobal 0x2068) 8 = true) ∧ RegsBut [pgGlobal] s t ∧ t = { s with regs := t.regs, pow := t.pow })))
      ∧ (∀ n : Fin 4,
        let b := s.blk (pgStack + n.val)
        let trains := 5 ≤ s.pow.phase ∧ bit (s.reg (pgStack + n.val) 0x2000) 0 = true ∧ (b = 1 ∨ b = 2 ∨ (n = 0 ∧ s.pow.phase = 5))
        (¬ trains → Leads (.stackTrained n) s (fun t => t = s))
        ∧ (trains → Leads (.stackTrained n) s (fun t => bit (t.reg (pgStack + n.val) 0x2000) 1 = true
          ∧ t.pow = { s.pow with phase := if n = 0 ∧ s.pow.phase = 5 then 6 else s.pow.phase }
          ∧ RegsBut [pgStack + n.val] s t ∧ t = { s with regs := t.regs, pow := t.pow })))
      ∧ (s.pow.phase ≠ 6 → Leads .cpBoot s (fun t => t = s))
      ∧ (s.pow.phase = 6 →
        let slot := (s.bootSlot 0).1
        (bit (s.reg pgGlobal 0x2064) 3 = true ∨ slot = none → Leads .cpBoot s (fun t => t.pow.phase = 7 ∧ bit (t.reg pgGlobal 0x2068) 0 = true
          ∧ t.regFld pgCpctl 0x2000 3 0 = 15))
        ∧ ∀ k, bit (s.reg pgGlobal 0x2064) 3 = false → slot = some k → Leads .cpBoot s (fun t => t.pow.phase = 7 ∧ t.regFld pgCpctl 0x2000 3 0 = 15
          ∧ bit (t.reg pgGlobal 0x2068) 0 = bit (s.reg pgGlobal 0x2068) 0 ∧ bit (t.reg pgCpctl 0x2000) 11 = (k == 1)))
      ∧ (s.pow.phase = 7 → Leads .fwReady s (fun t => t.pow.phase = 8 ∧ bit (t.reg pgHostif 0x2000) 0 = true ∧ bit (t.reg pgCpctl 0x2000) 8 = true
        ∧ t.pair.wdtHit = false ∧ (1, 0) ∈ t.host.ibis ∧ (bit (s.reg pgGlobal 0x2068) 0 = true → ∀ p, t.blk p = s.blk p)
        ∧ (bit (s.reg pgGlobal 0x2068) 0 = false → s.upset = [] → s.resetPage = none →
            ∀ p ∈ [pgHostif, pgRoles, pgPstore, pgLocks], s.blk p = 0 → t.blk p = 2)))
      ∧ (s.pow.phase ≠ 7 → Leads .fwReady s (fun t => t = s))
      ∧ (s.pow.phase < 2 → Leads .bellowsWdtExpire s (fun t => t = s))
      ∧ (2 ≤ s.pow.phase → Leads .bellowsWdtExpire s (fun t => t.reg pgBellows 0x2060 = s.reg pgBellows 0x2060 + 1 ∧ bit (t.reg pgBellows 0x14) 20 = true
        ∧ ∀ k, k < 64 → t.lockOwner k = (if s.lockOwner k = 9 then 0 else s.lockOwner k))))
    ∧ ∀ a : Agent,
      (s.reaches a pgBellows 0x1000 1#32 → Leads (.bellowsRestart a) s (fun t => bit (t.reg pgBellows 0x14) 20 = true
        ∧ ∀ k, k < 64 → t.lockOwner k = (if s.lockOwner k = 9 then 0 else s.lockOwner k)))
      ∧ (s.reaches a pgGlobal 0x1008 2#32 → Leads (.powerOff a) s (fun t => ColdBy s 6 t ∧ t.pow.off = true ∧ t.pow.rails = []))
      ∧ (s.reaches a pgGlobal 0x1008 1#32 → 8 ≤ s.pow.phase ∨ s.regFld pgGlobal 0x2060 3 0 < 8 → Leads (.warmReset a) s (fun t => t.pow.phase = 6
        ∧ t.pow.rails = s.pow.rails ∧ t.regFld pgGlobal 0x2060 3 0 = 9 ∧ t.reg pgGlobal 0x2064 = s.reg pgGlobal 0x2064 ∧ t.nvm.bytes = s.nvm.bytes
        ∧ t.pending = s.pending ∧ t.tab.mac = [] ∧ t.buf.queues = [] ∧ t.host.resp = [] ∧ (∀ p, p < 256 → p ∉ [pgBellows, pgClocks] → t.blk p = 0)
        ∧ (∀ n, n < 4 → t.reg (pgStack + n) 0x2000 = s.reg (pgStack + n) 0x2000)
        ∧ ∀ p o, p = pgBellows ∨ p = pgClocks → o < 0x10000 → t.reg p o = s.reg p o))

/-- Power faults, voltage, temperature and the reference (R463, R466, R467, R469-R474): AVS moves VDD_CORE by a step, or at once to VMAX; the levels
enter at their thresholds and clear after 1,000 cool samples; a held shutdown threshold and a trip end the run; a rail out of range ends it, or
takes the banks to SAFE where it feeds the SerDes; a lost REFCLK is held over and a lost root lock ends the run. -/
def Obligations.PowerFaults : Prop :=
  ∀ (s : State), s.Canonical → s.inReset = false →
    let frame := fun (l : List Nat) (t : State) => RegsBut l s t ∧ KeepsConfig s t ∧ KeepsMemory s t
    (∀ (slack : BitVec 16) (held : Bool), s.stands = false →
      let lo := s.avsLimits.1
      let hi := s.avsLimits.2
      let v := s.pow.vcore
      let x := slack.toInt
      let waits := if s.avsTarget ≤ x then false else s.pow.avsWait
      let runs := 4 ≤ s.pow.phase ∧ bit (s.reg pgGlobal 0x2068) 2 = false ∧ s.safe pgBellows = false
      let moved := fun (n : Nat) (t : State) => t.pow = { s.pow with vcore := n, avsWait := waits } ∧ t.reg pgBellows 0x2004 = word (n / 10) ∧ frame [pgBellows] t
      (¬ runs → Leads (.avsStep slack held) s (fun t => t = s))
      ∧ (runs → x < 0 → Leads (.avsStep slack held) s (fun t => moved hi t ∧ t.reg pgBellows 0x2058 = s.reg pgBellows 0x2058 + 1))
      ∧ (runs → 0 ≤ x → x < s.avsTarget → Leads (.avsStep slack held) s (fun t => moved (min hi (v + 25)) t
        ∧ (held = true → hi ≤ v → bit (t.reg pgBellows 0x2000) 8 = true ∧ bit (t.reg pgBellows 0x14) 19 = true)))
      ∧ (runs → s.avsTarget ≤ x → x ≤ s.avsTarget + 20 → Leads (.avsStep slack held) s (fun t => t = { s with pow := { s.pow with avsWait := false } }))
      ∧ (runs → s.avsTarget + 20 < x → Leads (.avsStep slack held) s (moved (max lo (v - 25)))))
    ∧ (∀ (logic t0 t1 t2 t3 : Byte), (s.pow.phase < 2 → Leads (.tempSample logic t0 t1 t2 t3) s (fun t => t = s)) ∧ (2 ≤ s.pow.phase →
      let l := logic.toInt
      let d := max (max t0.toInt t1.toInt) (max t2.toInt t3.toInt)
      Leads (.tempSample logic t0 t1 t2 t3) s (fun t => t.reg pgBellows 0x2008 = word logic.toNat
        ∧ (∀ n : Fin 4, t.regFld (pgStack + n.val) 0x2000 15 8 = ([t0, t1, t2, t3].getD n.val 0).toNat
            ∧ bit (t.reg (pgStack + n.val) 0x2000) 3 = decide (85 ≤ ([t0, t1, t2, t3].getD n.val 0).toInt))
        ∧ (s.tWarn ≤ l ∨ s.dramWarn ≤ d → t.pow.warn = true ∧ (s.pow.warn = false → bit (t.reg pgBellows 0x14) 16 = true))
        ∧ (s.tThrottle ≤ l → t.pow.throttle = true ∧ (s.pow.throttle = false → t.reg pgBellows 0x205C = s.reg pgBellows 0x205C + 1
            ∧ bit (t.reg pgBellows 0x14) 17 = true))
        ∧ (l < s.tThrottle → s.pow.throttle = false → t.pow.throttle = false)
        ∧ (l ≤ s.tThrottle - 5 → s.pow.throttle = true → t.pow.throttle = decide (Store.get 0 2 s.pow.cool < 999))
        ∧ (s.tThrottle - 5 < l → s.pow.throttle = true → t.pow.throttle = true)
        ∧ (s.tShut - 3 ≤ l ∨ s.dramLimit - 2 ≤ d → t.regFld pgBellows 0x2000 6 4 = 3 ∧ bit (t.reg pgPair 0x2008) 3 = true ∧ bit (t.reg pgPair 0x2004) 10 = true)
        ∧ (∀ n : Fin 4, s.dramWarn + 4 ≤ ([t0, t1, t2, t3].getD n.val 0).toInt → n.val ∈ t.pow.dramHold)
        ∧ t.pow.hot = (decide (s.tShut ≤ l) || decide (s.dramLimit ≤ d)) ∧ KeepsConfig s t ∧ KeepsMemory s t)))
    ∧ (s.pow.hot = true → Leads .thermalShutdown s (fun t => ColdBy s 4 t ∧ t.pow.off = true ∧ t.pow.rails = []))
    ∧ (s.pow.hot = false → Leads .thermalShutdown s (fun t => t = s))
    ∧ (s.pow.hotOff = false → ∀ hot, Leads (.thermalRecheck hot) s (fun t => t = s))
    ∧ (s.pow.hotOff = true → Leads (.thermalRecheck true) s (fun t => t = s)
      ∧ Leads (.thermalRecheck false) s (fun t => t.pow.hotOff = false ∧ RegsBut [pgBellows, pgClocks] s t ∧ KeepsMemory s t
        ∧ (s.pow.phase = 2 → t.pow.railWait = some 0 ∧ t.pow.vcore = 8500) ∧ (s.pow.phase ≠ 2 → t.pow.railWait = s.pow.railWait ∧ t.regs = s.regs)))
    ∧ Leads .thermalTrip s (fun t => ColdBy s 3 t ∧ t.pow.trip = true ∧ bit (t.reg pgGlobal 0x2060) 8 = true)
    ∧ (let serdes := fun (l : List Nat) (t : State) => bit (t.reg pgBellows 0x14) 18 = true ∧ t.reg pgBellows 0x2054 = s.reg pgBellows 0x2054 + word l.length
          ∧ (∀ r ∈ l, r ∈ t.pow.serdes) ∧ t.pow.phase = s.pow.phase ∧ (∀ n, n < 20 → s.blk (pgBank + n) ≠ 0 → t.blk (pgBank + n) = 4)
       let ends := fun (t : State) => ColdBy s 5 t ∧ t.pow.rails = []
       s.stands = false →
       (∀ (vout iout : List (BitVec 16)) (silent : List (Fin 7)),
         let on := (List.range 7).filter (fun r => s.pow.rails.contains r)
         let bad := on.filter (fun r => silent.any (fun k => k.val == r) || s.voutBad r (vout.getD r 0).toNat)
         (s.pow.phase < 3 → Leads (.pmbusPoll vout iout silent) s (fun t => t = s))
         ∧ (3 ≤ s.pow.phase →
           (bad = [] → Leads (.pmbusPoll vout iout silent) s (fun t => (∀ r ∈ on, t.reg pgBellows (0x2010 + 4 * r) = word (vout.getD r 0).toNat
             ∧ t.reg pgBellows (0x2030 + 4 * r) = word (iout.getD r 0).toNat) ∧ t.reg pgBellows 0x2050 = word (t.powerW % 65536)
             ∧ frame [pgBellows] t ∧ t = { s with regs := t.regs }))
           ∧ ((∃ r ∈ bad, r ≠ 2 ∧ r ≠ 3) → Leads (.pmbusPoll vout iout silent) s ends)
           ∧ (bad ≠ [] → (∀ r ∈ bad, r = 2 ∨ r = 3) → Leads (.pmbusPoll vout iout silent) s (serdes bad))))
       ∧ (∀ (r : Fin 7) (v oc : Bool), (s.pow.phase < 3 → Leads (.pmbAlert r v oc) s (fun t => t = s)) ∧ (3 ≤ s.pow.phase →
         (v = false → Leads (.pmbAlert r v oc) s (fun t => t = if oc then s.incReg pgBellows 0x2054 else s))
         ∧ (v = true → r.val ≠ 2 → r.val ≠ 3 → Leads (.pmbAlert r v oc) s ends)
         ∧ (v = true → r.val = 2 ∨ r.val = 3 → Leads (.pmbAlert r v oc) s (serdes [r.val]))))
       ∧ Leads .serdesRailCycle s (fun t => t = { s with pow := { s.pow with serdes := [] } }))
    ∧ (bit (s.reg pgClocks 0x2000) 1 = false → Leads .refclkLoss s (fun t => t = s))
    ∧ (bit (s.reg pgClocks 0x2000) 1 = true → Leads .refclkLoss s (fun t => t.regFld pgClocks 0x2000 2 0 = 4 ∧ bit (t.reg pgClocks 0x2000) 8 = true
        ∧ t.reg pgClocks 0x2004 = s.reg pgClocks 0x2004 + 1 ∧ bit (t.reg pgClocks 0x14) 16 = true ∧ frame [pgClocks] t ∧ t = { s with regs := t.regs }))
    ∧ (bit (s.reg pgClocks 0x2000) 2 = false → Leads .refclkReturn s (fun t => t = s))
    ∧ (bit (s.reg pgClocks 0x2000) 2 = true → Leads .refclkReturn s (fun t => t.regFld pgClocks 0x2000 2 0 = 3 ∧ bit (t.reg pgClocks 0x14) 17 = true
        ∧ frame [pgClocks] t ∧ t = { s with regs := t.regs }))
    ∧ (bit (s.reg pgClocks 0x2000) 0 = true → Leads .rootLockLoss s (ColdBy s 5))
    ∧ (bit (s.reg pgClocks 0x2000) 0 = false → Leads .rootLockLoss s (fun t => t = s))

/-! ### Addresses, frames, a device that is held -/

/-- The register space (R36, R37): its addresses, the page and the offset that an address names; the pages that are not implemented, every read
of which answers 0 and every write of which is ignored, for any agent, with no fault, no flag and no right. -/
def Obligations.AddressSpace : Prop :=
  (∀ addr, inPages addr = true ↔ 0x40000000 ≤ addr ∧ addr ≤ 0x40FFFFFF)
    ∧ (∀ p o, p < 256 → o < 0x10000 → inPages (regAddr p o) = true ∧ regAddr p o / 0x10000 % 256 = p ∧ regAddr p o % 0x10000 = o
      ∧ regAddr p 0 = 0x40000000 + p * 0x10000)
    ∧ (∀ p, p < 256 → (pageRow p = none ↔ (0x25 ≤ p ∧ p ≤ 0x2F) ∨ (0x56 ≤ p ∧ p ≤ 0x5F) ∨ (0x67 ≤ p ∧ p ≤ 0x6F) ∨ 0x76 ≤ p))
    ∧ ∀ (s : State) (w : Who) (p o : Nat) (mask data : Word), p < 256 → o < 0x10000 → pageRow p = none →
      s.busRead w (regAddr p o) = (.ok, 0, s) ∧ s.busWrite w (regAddr p o) mask data = (.ok, s)

/-- A request frame spells its request (R73): parsing what header, payload and CRC spell gives the opcode and the request back, every field at
every value. -/
def Obligations.RequestsRoundTrip : Prop :=
  ∀ (op : Nat) (rq : Request), op < 256 → parseRequest rq.agent (reqHeader op rq ++ rq.body ++ beBytes 2 rq.crc.toNat) = some (op, rq)

/-- A response frame (R74, R75): TAG, STATUS, LENGTH, the payload words and the CRC over what precedes it stand where R75 puts them; the status
codes are distinct and none is above 0x0F; the check value of the CRC is that of R74. -/
def Obligations.ResponseFrames : Prop :=
  (∀ r : Response, r.payload.length < 65536 →
    let n := r.payload.length
    r.bytes.length = 6 + 4 * n ∧ byteAt r.bytes 0 = r.tag.toNat ∧ byteAt r.bytes 1 = r.status.code ∧ half r.bytes 2 = n
      ∧ (∀ i, i < n → numAt r.bytes (4 + 4 * i) 4 = (r.payload.getD i 0).toNat)
      ∧ half r.bytes (4 + 4 * n) = (crc16 (r.bytes.take (4 + 4 * n))).toNat)
    ∧ (∀ a b : Status, a.code ≤ 15 ∧ (a.code = b.code → a = b))
    ∧ crc16 [0x31#8, 0x32#8, 0x33#8, 0x34#8, 0x35#8, 0x36#8, 0x37#8, 0x38#8, 0x39#8] = 0x29B1#16

/-- A device whose clocks stand (R453, R459, R460, R471): what a clock drives leaves it as it is, and so do a core's load and a write of any agent but
Bellows, to any register but Q_CTRL; held in cold reset it keeps its state through every command but the events that end the hold or renew it, and a
thermal trip and TRIP_SEEN outlast all but the loss of its supplies. -/
def Obligations.HeldDevice : Prop :=
  ∀ (i : Instr) (s : State), s.Canonical →
    (s.stands = true → clocked i = true → Leads i s (fun t => t = s))
    ∧ (∀ l, s.stands = true → Leads (.readWords (.load l)) s (fun t => t = s))
    ∧ (∀ a addr z d, s.stands = true → a ≠ .bellows → addr.toNat ≠ 0x400D1008 → Leads (.registerWrite a addr z d) s (fun t => t = s))
    ∧ (s.inReset = true → resetEvent i = false → Leads i s (fun t => t = s))
    ∧ (s.inReset = true → s.pow.trip = true → i ≠ .pwrgoodFall → i ≠ .supplyOutOfRange → Leads i s (fun t => t.pow.trip = true ∧ t.inReset = true))
    ∧ (s.inReset = true → bit (s.reg pgGlobal 0x2060) 8 = true → i ≠ .supplyOutOfRange → Leads i s (fun t => bit (t.reg pgGlobal 0x2060) 8 = true))
end

