-- ==== Sys2Proof/Laws/Bytes.lean ====
section
/-! SUPPORT. Words and bytes (R6): words spelled as bytes read back; the result of SHA-256 is eight words (R104). -/
namespace Sys2Proof.Machine

/-- The bytes of a list of words spell those words. -/
theorem toWords_flatMap (ws : List Word) : toWords (ws.flatMap wordBytes) = ws := by
  induction ws with
  | nil => rfl
  | cons w t ih =>
    have hw : word (beNat (wordBytes w)) = w := by
      apply BitVec.eq_of_toNat_eq
      simp only [wordBytes, beNat, List.foldl_cons, List.foldl_nil, BitVec.toNat_ofNat, BitVec.extractLsb'_toNat, Nat.shiftRight_eq_div_pow, word]
      have := w.isLt
      omega
    simp only [List.flatMap_cons, wordBytes, List.cons_append, List.nil_append, toWords]
    rw [ih]
    exact congrArg (· :: t) hw

/-- A round keeps eight working words. -/
theorem shaRound_length (h : List Word) (w : Word) (l : h.length = 8) : (shaRound h w).length = 8 := by
  unfold shaRound
  split <;> simp_all

/-- So do all the rounds. -/
theorem shaRounds_length (l : List Word) : ∀ h : List Word, h.length = 8 → (l.foldl shaRound h).length = 8 := by
  induction l with
  | nil => intro h hh; exact hh
  | cons a t ih => intro h hh; exact ih _ (shaRound_length h a hh)

/-- So do all the blocks. -/
theorem shaBlocks_length (n : Nat) : ∀ ws h : List Word, h.length = 8 → (shaBlocks n ws h).length = 8 := by
  induction n with
  | zero => intro ws h hh; exact hh
  | succ n ih =>
    intro ws h hh
    exact ih _ _ (by simp [shaBlock, hh, shaRounds_length])

/-- The bytes of `n` words. -/
theorem flatMap_wordBytes_length (ws : List Word) : (ws.flatMap wordBytes).length = 4 * ws.length := by
  induction ws with
  | nil => rfl
  | cons w t ih => simp only [List.flatMap_cons, List.length_append, ih, List.length_cons]; simp only [wordBytes, List.length_cons, List.length_nil]; omega

/-- A hash is eight words. -/
theorem sha256_words (m : List Byte) : ∃ l : List Word, l.length = 8 ∧ sha256 m = l.flatMap wordBytes :=
  ⟨_, shaBlocks_length _ _ _ rfl, rfl⟩

end Sys2Proof.Machine
end

