-- ==== Sys2Proof/Laws/Store.lean ====
section
/-! SUPPORT. The laws of the sparse stores: a read after a write, every other key, and that every operation keeps the canonical form. -/
namespace Sys2Proof.Machine

variable {α : Type}

@[simp] theorem Store.get_nil (d : α) (k : Nat) : Store.get d k [] = d := rfl

/-- A read of the key inserted. -/
@[simp] theorem Store.get_insert_self (d : α) (k : Nat) (v : α) (m : List (Nat × α)) : Store.get d k (Store.insert k v m) = v := by
  induction m with
  | nil => simp [Store.insert, Store.get]
  | cons e t ih =>
    obtain ⟨j, u⟩ := e
    simp only [Store.insert]
    split
    · simp [Store.get]
    · split
      · simp [Store.get]
      · simp_all [Store.get]

/-- An insertion leaves every other key. -/
theorem Store.get_insert_other (d : α) {k q : Nat} (v : α) (m : List (Nat × α)) (h : q ≠ k) :
    Store.get d q (Store.insert k v m) = Store.get d q m := by
  induction m with
  | nil => simp [Store.insert, Store.get, h.symm]
  | cons e t ih =>
    obtain ⟨j, u⟩ := e
    simp only [Store.insert]
    split
    · subst_vars; simp [Store.get, h.symm]
    · split
      · simp only [Store.get, h.symm, if_false]
        split
        · rename_i h1 h2
          have : j ≠ q := by omega
          have : q < j := by omega
          simp_all
        · rfl
      · simp only [Store.get, ih]

theorem Store.mem_insert {k : Nat} {v : α} {m : List (Nat × α)} {e : Nat × α} (h : e ∈ Store.insert k v m) : e = (k, v) ∨ e ∈ m := by
  induction m with
  | nil => simpa [Store.insert] using h
  | cons f t ih =>
    obtain ⟨j, u⟩ := f
    simp only [Store.insert] at h
    split at h
    · rcases List.mem_cons.1 h with rfl | h
      · exact .inl rfl
      · exact .inr (by simp [h])
    · split at h
      · simpa using h
      · rcases List.mem_cons.1 h with rfl | h
        · exact .inr (by simp)
        · rcases ih h with rfl | h
          · exact .inl rfl
          · exact .inr (by simp [h])

theorem Store.mem_erase {k : Nat} {m : List (Nat × α)} {e : Nat × α} (h : e ∈ Store.erase k m) : e ∈ m := by
  induction m with
  | nil => simp [Store.erase] at h
  | cons f t ih =>
    obtain ⟨j, u⟩ := f
    simp only [Store.erase] at h
    split at h
    · simp [h]
    · split at h
      · exact h
      · rcases List.mem_cons.1 h with rfl | h
        · simp
        · simp [ih h]

/-- What a canonical store holds past every key it lists. -/
theorem Store.get_of_lt (d : α) (k : Nat) (m : List (Nat × α)) (h : ∀ e ∈ m, k < e.1) : Store.get d k m = d := by
  cases m with
  | nil => rfl
  | cons e t =>
    obtain ⟨j, u⟩ := e
    have : k < j := h (j, u) List.mem_cons_self
    simp [Store.get, this, show j ≠ k by omega]

variable [DecidableEq α]

/-- The canonical form read off its tail: the entry differs from its default, every later key is greater, the tail is canonical. -/
theorem Store.wf_cons (d : Nat → α) (k : Nat) (v : α) (t : List (Nat × α)) :
    Store.wf d ((k, v) :: t) = true ↔ v ≠ d k ∧ (∀ e ∈ t, k < e.1) ∧ Store.wf d t = true := by
  induction t generalizing k v with
  | nil => simp [Store.wf]
  | cons e t ih =>
    obtain ⟨j, u⟩ := e
    have step : Store.wf d ((k, v) :: (j, u) :: t) = true ↔ (v ≠ d k ∧ k < j) ∧ Store.wf d ((j, u) :: t) = true := by
      simp [Store.wf, bne_iff_ne]
    rw [step, ih]
    constructor
    · rintro ⟨⟨h1, h2⟩, h3, h4, h5⟩
      refine ⟨h1, ?_, h3, h4, h5⟩
      intro x hx
      rcases List.mem_cons.1 hx with rfl | hx
      · exact h2
      · exact lt_trans h2 (h4 x hx)
    · rintro ⟨h1, h2, h3, h4, h5⟩
      exact ⟨⟨h1, h2 (j, u) List.mem_cons_self⟩, h3, h4, h5⟩

/-- A read of the key erased from a canonical store. -/
theorem Store.get_erase_self (d : Nat → α) (k : Nat) (m : List (Nat × α)) (h : Store.wf d m = true) (x : α) :
    Store.get x k (Store.erase k m) = x := by
  induction m with
  | nil => rfl
  | cons e t ih =>
    obtain ⟨j, u⟩ := e
    obtain ⟨-, hlt, ht⟩ := (Store.wf_cons d j u t).1 h
    simp only [Store.erase]
    split
    · subst_vars; exact Store.get_of_lt x _ t hlt
    · split
      · rename_i h1 h2; simp [Store.get, h1, h2]
      · simp_all [Store.get]

/-- An erasure leaves every other key of a canonical store. -/
theorem Store.get_erase_other (d : Nat → α) {k q : Nat} (m : List (Nat × α)) (h : Store.wf d m = true) (hq : q ≠ k) (x : α) :
    Store.get x q (Store.erase k m) = Store.get x q m := by
  induction m with
  | nil => rfl
  | cons e t ih =>
    obtain ⟨j, u⟩ := e
    obtain ⟨-, hlt, ht⟩ := (Store.wf_cons d j u t).1 h
    simp only [Store.erase]
    split
    · rename_i hj
      subst hj
      simp only [Store.get, hq.symm, if_false]
      split
      · rename_i h1
        exact Store.get_of_lt x q t (fun e he => lt_trans h1 (hlt e he))
      · rfl
    · split
      · rfl
      · simp only [Store.get, ih ht]

/-- An insertion of a value that is not the default keeps the canonical form. -/
theorem Store.wf_insert (d : Nat → α) (k : Nat) (v : α) (m : List (Nat × α)) (hv : v ≠ d k) (h : Store.wf d m = true) :
    Store.wf d (Store.insert k v m) = true := by
  induction m with
  | nil => simp [Store.insert, Store.wf, hv]
  | cons e t ih =>
    obtain ⟨j, u⟩ := e
    obtain ⟨h1, h2, h3⟩ := (Store.wf_cons d j u t).1 h
    simp only [Store.insert]
    split
    · subst_vars; exact (Store.wf_cons d _ v t).2 ⟨hv, h2, h3⟩
    · split
      · rename_i hj hk
        refine (Store.wf_cons d k v _).2 ⟨hv, ?_, h⟩
        intro e he
        rcases List.mem_cons.1 he with rfl | he
        · exact hk
        · exact lt_trans hk (h2 e he)
      · rename_i hj hk
        refine (Store.wf_cons d j u _).2 ⟨h1, ?_, ih h3⟩
        intro e he
        rcases Store.mem_insert he with rfl | he
        · show j < k; omega
        · exact h2 e he

/-- An erasure keeps the canonical form. -/
theorem Store.wf_erase (d : Nat → α) (k : Nat) (m : List (Nat × α)) (h : Store.wf d m = true) : Store.wf d (Store.erase k m) = true := by
  induction m with
  | nil => rfl
  | cons e t ih =>
    obtain ⟨j, u⟩ := e
    obtain ⟨h1, h2, h3⟩ := (Store.wf_cons d j u t).1 h
    simp only [Store.erase]
    split
    · exact h3
    · split
      · exact h
      · exact (Store.wf_cons d j u _).2 ⟨h1, fun e he => h2 e (Store.mem_erase he), ih h3⟩

/-- Every write keeps the canonical form. -/
theorem Store.wf_put (d : Nat → α) (k : Nat) (v : α) (m : List (Nat × α)) (h : Store.wf d m = true) : Store.wf d (Store.put d k v m) = true := by
  unfold Store.put
  split
  · exact Store.wf_erase d k m h
  · exact Store.wf_insert d k v m ‹_› h

/-- A read after a write of the same key. -/
theorem Store.get_put_self (d : Nat → α) (k : Nat) (v : α) (m : List (Nat × α)) (h : Store.wf d m = true) :
    Store.get (d k) k (Store.put d k v m) = v := by
  unfold Store.put
  split
  · rename_i hv; rw [Store.get_erase_self d k m h, hv]
  · simp

/-- A write leaves every other key. -/
theorem Store.get_put_other (d : Nat → α) {k q : Nat} (v : α) (m : List (Nat × α)) (h : Store.wf d m = true) (hq : q ≠ k) (x : α) :
    Store.get x q (Store.put d k v m) = Store.get x q m := by
  unfold Store.put
  split
  · exact Store.get_erase_other d m h hq x
  · exact Store.get_insert_other x v m hq

end Sys2Proof.Machine
end

