-- ==== Sys2Proof/Laws/State.lean ====
section
/-! SUPPORT. The fields of the state under its basic updates, one lemma per field and update, and what the updates read back: a register word, a
window word, a byte of the store or of memory. The lemmas about an arbitrary new field come first: the kernel checks them without evaluating what
is stored, and the lemmas about the updates cite them. -/
namespace Sys2Proof.Machine

/-! ### Each update leaves the other fields -/

theorem State.with_regs_pending (s : State) (l : List (Nat × Word)) : (State.pending { s with regs := l }) = s.pending := rfl
theorem State.with_regs_freeCtr (s : State) (l : List (Nat × Word)) : (State.freeCtr { s with regs := l }) = s.freeCtr := rfl
theorem State.with_regs_latched (s : State) (l : List (Nat × Word)) : (State.latched { s with regs := l }) = s.latched := rfl
theorem State.with_regs_win (s : State) (l : List (Nat × Word)) : (State.win { s with regs := l }) = s.win := rfl
theorem State.with_regs_upset (s : State) (l : List (Nat × Word)) : (State.upset { s with regs := l }) = s.upset := rfl
theorem State.with_regs_reported (s : State) (l : List (Nat × Word)) : (State.reported { s with regs := l }) = s.reported := rfl
theorem State.with_regs_fences (s : State) (l : List (Nat × Word)) : (State.fences { s with regs := l }) = s.fences := rfl
theorem State.with_regs_readLatch (s : State) (l : List (Nat × Word)) : (State.readLatch { s with regs := l }) = s.readLatch := rfl
theorem State.with_regs_lastLow (s : State) (l : List (Nat × Word)) : (State.lastLow { s with regs := l }) = s.lastLow := rfl
theorem State.with_regs_sigWords (s : State) (l : List (Nat × Word)) : (State.sigWords { s with regs := l }) = s.sigWords := rfl
theorem State.with_regs_resetPage (s : State) (l : List (Nat × Word)) : (State.resetPage { s with regs := l }) = s.resetPage := rfl
theorem State.with_regs_host (s : State) (l : List (Nat × Word)) : (State.host { s with regs := l }) = s.host := rfl
theorem State.with_regs_cp (s : State) (l : List (Nat × Word)) : (State.cp { s with regs := l }) = s.cp := rfl
theorem State.with_regs_nvm (s : State) (l : List (Nat × Word)) : (State.nvm { s with regs := l }) = s.nvm := rfl
theorem State.with_regs_ops (s : State) (l : List (Nat × Word)) : (State.ops { s with regs := l }) = s.ops := rfl
theorem State.with_regs_port (s : State) (l : List (Nat × Word)) : (State.port { s with regs := l }) = s.port := rfl
theorem State.with_regs_pipe (s : State) (l : List (Nat × Word)) : (State.pipe { s with regs := l }) = s.pipe := rfl
theorem State.with_regs_tab (s : State) (l : List (Nat × Word)) : (State.tab { s with regs := l }) = s.tab := rfl
theorem State.with_regs_time (s : State) (l : List (Nat × Word)) : (State.time { s with regs := l }) = s.time := rfl
theorem State.with_regs_stat (s : State) (l : List (Nat × Word)) : (State.stat { s with regs := l }) = s.stat := rfl
theorem State.with_regs_buf (s : State) (l : List (Nat × Word)) : (State.buf { s with regs := l }) = s.buf := rfl
theorem State.with_regs_sched (s : State) (l : List (Nat × Word)) : (State.sched { s with regs := l }) = s.sched := rfl
theorem State.with_regs_voq (s : State) (l : List (Nat × Word)) : (State.voq { s with regs := l }) = s.voq := rfl
theorem State.with_regs_sprue (s : State) (l : List (Nat × Word)) : (State.sprue { s with regs := l }) = s.sprue := rfl
theorem State.with_regs_pair (s : State) (l : List (Nat × Word)) : (State.pair { s with regs := l }) = s.pair := rfl
theorem State.with_regs_launch (s : State) (l : List (Nat × Word)) : (State.launch { s with regs := l }) = s.launch := rfl
theorem State.with_regs_pow (s : State) (l : List (Nat × Word)) : (State.pow { s with regs := l }) = s.pow := rfl

@[simp] theorem State.setReg_pending (s : State) (p o : Nat) (v : Word) : (s.setReg p o v).pending = s.pending := State.with_regs_pending s _
@[simp] theorem State.setReg_freeCtr (s : State) (p o : Nat) (v : Word) : (s.setReg p o v).freeCtr = s.freeCtr := State.with_regs_freeCtr s _
@[simp] theorem State.setReg_latched (s : State) (p o : Nat) (v : Word) : (s.setReg p o v).latched = s.latched := State.with_regs_latched s _
@[simp] theorem State.setReg_win (s : State) (p o : Nat) (v : Word) : (s.setReg p o v).win = s.win := State.with_regs_win s _
@[simp] theorem State.setReg_upset (s : State) (p o : Nat) (v : Word) : (s.setReg p o v).upset = s.upset := State.with_regs_upset s _
@[simp] theorem State.setReg_reported (s : State) (p o : Nat) (v : Word) : (s.setReg p o v).reported = s.reported := State.with_regs_reported s _
@[simp] theorem State.setReg_fences (s : State) (p o : Nat) (v : Word) : (s.setReg p o v).fences = s.fences := State.with_regs_fences s _
@[simp] theorem State.setReg_readLatch (s : State) (p o : Nat) (v : Word) : (s.setReg p o v).readLatch = s.readLatch := State.with_regs_readLatch s _
@[simp] theorem State.setReg_lastLow (s : State) (p o : Nat) (v : Word) : (s.setReg p o v).lastLow = s.lastLow := State.with_regs_lastLow s _
@[simp] theorem State.setReg_sigWords (s : State) (p o : Nat) (v : Word) : (s.setReg p o v).sigWords = s.sigWords := State.with_regs_sigWords s _
@[simp] theorem State.setReg_resetPage (s : State) (p o : Nat) (v : Word) : (s.setReg p o v).resetPage = s.resetPage := State.with_regs_resetPage s _
@[simp] theorem State.setReg_host (s : State) (p o : Nat) (v : Word) : (s.setReg p o v).host = s.host := State.with_regs_host s _
@[simp] theorem State.setReg_cp (s : State) (p o : Nat) (v : Word) : (s.setReg p o v).cp = s.cp := State.with_regs_cp s _
@[simp] theorem State.setReg_nvm (s : State) (p o : Nat) (v : Word) : (s.setReg p o v).nvm = s.nvm := State.with_regs_nvm s _
@[simp] theorem State.setReg_ops (s : State) (p o : Nat) (v : Word) : (s.setReg p o v).ops = s.ops := State.with_regs_ops s _
@[simp] theorem State.setReg_port (s : State) (p o : Nat) (v : Word) : (s.setReg p o v).port = s.port := State.with_regs_port s _
@[simp] theorem State.setReg_pipe (s : State) (p o : Nat) (v : Word) : (s.setReg p o v).pipe = s.pipe := State.with_regs_pipe s _
@[simp] theorem State.setReg_tab (s : State) (p o : Nat) (v : Word) : (s.setReg p o v).tab = s.tab := State.with_regs_tab s _
@[simp] theorem State.setReg_time (s : State) (p o : Nat) (v : Word) : (s.setReg p o v).time = s.time := State.with_regs_time s _
@[simp] theorem State.setReg_stat (s : State) (p o : Nat) (v : Word) : (s.setReg p o v).stat = s.stat := State.with_regs_stat s _
@[simp] theorem State.setReg_buf (s : State) (p o : Nat) (v : Word) : (s.setReg p o v).buf = s.buf := State.with_regs_buf s _
@[simp] theorem State.setReg_sched (s : State) (p o : Nat) (v : Word) : (s.setReg p o v).sched = s.sched := State.with_regs_sched s _
@[simp] theorem State.setReg_voq (s : State) (p o : Nat) (v : Word) : (s.setReg p o v).voq = s.voq := State.with_regs_voq s _
@[simp] theorem State.setReg_sprue (s : State) (p o : Nat) (v : Word) : (s.setReg p o v).sprue = s.sprue := State.with_regs_sprue s _
@[simp] theorem State.setReg_pair (s : State) (p o : Nat) (v : Word) : (s.setReg p o v).pair = s.pair := State.with_regs_pair s _
@[simp] theorem State.setReg_launch (s : State) (p o : Nat) (v : Word) : (s.setReg p o v).launch = s.launch := State.with_regs_launch s _
@[simp] theorem State.setReg_pow (s : State) (p o : Nat) (v : Word) : (s.setReg p o v).pow = s.pow := State.with_regs_pow s _

@[simp] theorem State.updReg_pending (s : State) (p o : Nat) (f : Word → Word) : (s.updReg p o f).pending = s.pending := State.with_regs_pending s _
@[simp] theorem State.updReg_freeCtr (s : State) (p o : Nat) (f : Word → Word) : (s.updReg p o f).freeCtr = s.freeCtr := State.with_regs_freeCtr s _
@[simp] theorem State.updReg_latched (s : State) (p o : Nat) (f : Word → Word) : (s.updReg p o f).latched = s.latched := State.with_regs_latched s _
@[simp] theorem State.updReg_win (s : State) (p o : Nat) (f : Word → Word) : (s.updReg p o f).win = s.win := State.with_regs_win s _
@[simp] theorem State.updReg_upset (s : State) (p o : Nat) (f : Word → Word) : (s.updReg p o f).upset = s.upset := State.with_regs_upset s _
@[simp] theorem State.updReg_reported (s : State) (p o : Nat) (f : Word → Word) : (s.updReg p o f).reported = s.reported := State.with_regs_reported s _
@[simp] theorem State.updReg_fences (s : State) (p o : Nat) (f : Word → Word) : (s.updReg p o f).fences = s.fences := State.with_regs_fences s _
@[simp] theorem State.updReg_readLatch (s : State) (p o : Nat) (f : Word → Word) : (s.updReg p o f).readLatch = s.readLatch := State.with_regs_readLatch s _
@[simp] theorem State.updReg_lastLow (s : State) (p o : Nat) (f : Word → Word) : (s.updReg p o f).lastLow = s.lastLow := State.with_regs_lastLow s _
@[simp] theorem State.updReg_sigWords (s : State) (p o : Nat) (f : Word → Word) : (s.updReg p o f).sigWords = s.sigWords := State.with_regs_sigWords s _
@[simp] theorem State.updReg_resetPage (s : State) (p o : Nat) (f : Word → Word) : (s.updReg p o f).resetPage = s.resetPage := State.with_regs_resetPage s _
@[simp] theorem State.updReg_host (s : State) (p o : Nat) (f : Word → Word) : (s.updReg p o f).host = s.host := State.with_regs_host s _
@[simp] theorem State.updReg_cp (s : State) (p o : Nat) (f : Word → Word) : (s.updReg p o f).cp = s.cp := State.with_regs_cp s _
@[simp] theorem State.updReg_nvm (s : State) (p o : Nat) (f : Word → Word) : (s.updReg p o f).nvm = s.nvm := State.with_regs_nvm s _
@[simp] theorem State.updReg_ops (s : State) (p o : Nat) (f : Word → Word) : (s.updReg p o f).ops = s.ops := State.with_regs_ops s _
@[simp] theorem State.updReg_port (s : State) (p o : Nat) (f : Word → Word) : (s.updReg p o f).port = s.port := State.with_regs_port s _
@[simp] theorem State.updReg_pipe (s : State) (p o : Nat) (f : Word → Word) : (s.updReg p o f).pipe = s.pipe := State.with_regs_pipe s _
@[simp] theorem State.updReg_tab (s : State) (p o : Nat) (f : Word → Word) : (s.updReg p o f).tab = s.tab := State.with_regs_tab s _
@[simp] theorem State.updReg_time (s : State) (p o : Nat) (f : Word → Word) : (s.updReg p o f).time = s.time := State.with_regs_time s _
@[simp] theorem State.updReg_stat (s : State) (p o : Nat) (f : Word → Word) : (s.updReg p o f).stat = s.stat := State.with_regs_stat s _
@[simp] theorem State.updReg_buf (s : State) (p o : Nat) (f : Word → Word) : (s.updReg p o f).buf = s.buf := State.with_regs_buf s _
@[simp] theorem State.updReg_sched (s : State) (p o : Nat) (f : Word → Word) : (s.updReg p o f).sched = s.sched := State.with_regs_sched s _
@[simp] theorem State.updReg_voq (s : State) (p o : Nat) (f : Word → Word) : (s.updReg p o f).voq = s.voq := State.with_regs_voq s _
@[simp] theorem State.updReg_sprue (s : State) (p o : Nat) (f : Word → Word) : (s.updReg p o f).sprue = s.sprue := State.with_regs_sprue s _
@[simp] theorem State.updReg_pair (s : State) (p o : Nat) (f : Word → Word) : (s.updReg p o f).pair = s.pair := State.with_regs_pair s _
@[simp] theorem State.updReg_launch (s : State) (p o : Nat) (f : Word → Word) : (s.updReg p o f).launch = s.launch := State.with_regs_launch s _
@[simp] theorem State.updReg_pow (s : State) (p o : Nat) (f : Word → Word) : (s.updReg p o f).pow = s.pow := State.with_regs_pow s _

@[simp] theorem State.addReg_pending (s : State) (p o n : Nat) : (s.addReg p o n).pending = s.pending := State.with_regs_pending s _
@[simp] theorem State.addReg_freeCtr (s : State) (p o n : Nat) : (s.addReg p o n).freeCtr = s.freeCtr := State.with_regs_freeCtr s _
@[simp] theorem State.addReg_latched (s : State) (p o n : Nat) : (s.addReg p o n).latched = s.latched := State.with_regs_latched s _
@[simp] theorem State.addReg_win (s : State) (p o n : Nat) : (s.addReg p o n).win = s.win := State.with_regs_win s _
@[simp] theorem State.addReg_upset (s : State) (p o n : Nat) : (s.addReg p o n).upset = s.upset := State.with_regs_upset s _
@[simp] theorem State.addReg_reported (s : State) (p o n : Nat) : (s.addReg p o n).reported = s.reported := State.with_regs_reported s _
@[simp] theorem State.addReg_fences (s : State) (p o n : Nat) : (s.addReg p o n).fences = s.fences := State.with_regs_fences s _
@[simp] theorem State.addReg_readLatch (s : State) (p o n : Nat) : (s.addReg p o n).readLatch = s.readLatch := State.with_regs_readLatch s _
@[simp] theorem State.addReg_lastLow (s : State) (p o n : Nat) : (s.addReg p o n).lastLow = s.lastLow := State.with_regs_lastLow s _
@[simp] theorem State.addReg_sigWords (s : State) (p o n : Nat) : (s.addReg p o n).sigWords = s.sigWords := State.with_regs_sigWords s _
@[simp] theorem State.addReg_resetPage (s : State) (p o n : Nat) : (s.addReg p o n).resetPage = s.resetPage := State.with_regs_resetPage s _
@[simp] theorem State.addReg_host (s : State) (p o n : Nat) : (s.addReg p o n).host = s.host := State.with_regs_host s _
@[simp] theorem State.addReg_cp (s : State) (p o n : Nat) : (s.addReg p o n).cp = s.cp := State.with_regs_cp s _
@[simp] theorem State.addReg_nvm (s : State) (p o n : Nat) : (s.addReg p o n).nvm = s.nvm := State.with_regs_nvm s _
@[simp] theorem State.addReg_ops (s : State) (p o n : Nat) : (s.addReg p o n).ops = s.ops := State.with_regs_ops s _
@[simp] theorem State.addReg_port (s : State) (p o n : Nat) : (s.addReg p o n).port = s.port := State.with_regs_port s _
@[simp] theorem State.addReg_pipe (s : State) (p o n : Nat) : (s.addReg p o n).pipe = s.pipe := State.with_regs_pipe s _
@[simp] theorem State.addReg_tab (s : State) (p o n : Nat) : (s.addReg p o n).tab = s.tab := State.with_regs_tab s _
@[simp] theorem State.addReg_time (s : State) (p o n : Nat) : (s.addReg p o n).time = s.time := State.with_regs_time s _
@[simp] theorem State.addReg_stat (s : State) (p o n : Nat) : (s.addReg p o n).stat = s.stat := State.with_regs_stat s _
@[simp] theorem State.addReg_buf (s : State) (p o n : Nat) : (s.addReg p o n).buf = s.buf := State.with_regs_buf s _
@[simp] theorem State.addReg_sched (s : State) (p o n : Nat) : (s.addReg p o n).sched = s.sched := State.with_regs_sched s _
@[simp] theorem State.addReg_voq (s : State) (p o n : Nat) : (s.addReg p o n).voq = s.voq := State.with_regs_voq s _
@[simp] theorem State.addReg_sprue (s : State) (p o n : Nat) : (s.addReg p o n).sprue = s.sprue := State.with_regs_sprue s _
@[simp] theorem State.addReg_pair (s : State) (p o n : Nat) : (s.addReg p o n).pair = s.pair := State.with_regs_pair s _
@[simp] theorem State.addReg_launch (s : State) (p o n : Nat) : (s.addReg p o n).launch = s.launch := State.with_regs_launch s _
@[simp] theorem State.addReg_pow (s : State) (p o n : Nat) : (s.addReg p o n).pow = s.pow := State.with_regs_pow s _

@[simp] theorem State.incReg_pending (s : State) (p o : Nat) : (s.incReg p o).pending = s.pending := State.with_regs_pending s _
@[simp] theorem State.incReg_freeCtr (s : State) (p o : Nat) : (s.incReg p o).freeCtr = s.freeCtr := State.with_regs_freeCtr s _
@[simp] theorem State.incReg_latched (s : State) (p o : Nat) : (s.incReg p o).latched = s.latched := State.with_regs_latched s _
@[simp] theorem State.incReg_win (s : State) (p o : Nat) : (s.incReg p o).win = s.win := State.with_regs_win s _
@[simp] theorem State.incReg_upset (s : State) (p o : Nat) : (s.incReg p o).upset = s.upset := State.with_regs_upset s _
@[simp] theorem State.incReg_reported (s : State) (p o : Nat) : (s.incReg p o).reported = s.reported := State.with_regs_reported s _
@[simp] theorem State.incReg_fences (s : State) (p o : Nat) : (s.incReg p o).fences = s.fences := State.with_regs_fences s _
@[simp] theorem State.incReg_readLatch (s : State) (p o : Nat) : (s.incReg p o).readLatch = s.readLatch := State.with_regs_readLatch s _
@[simp] theorem State.incReg_lastLow (s : State) (p o : Nat) : (s.incReg p o).lastLow = s.lastLow := State.with_regs_lastLow s _
@[simp] theorem State.incReg_sigWords (s : State) (p o : Nat) : (s.incReg p o).sigWords = s.sigWords := State.with_regs_sigWords s _
@[simp] theorem State.incReg_resetPage (s : State) (p o : Nat) : (s.incReg p o).resetPage = s.resetPage := State.with_regs_resetPage s _
@[simp] theorem State.incReg_host (s : State) (p o : Nat) : (s.incReg p o).host = s.host := State.with_regs_host s _
@[simp] theorem State.incReg_cp (s : State) (p o : Nat) : (s.incReg p o).cp = s.cp := State.with_regs_cp s _
@[simp] theorem State.incReg_nvm (s : State) (p o : Nat) : (s.incReg p o).nvm = s.nvm := State.with_regs_nvm s _
@[simp] theorem State.incReg_ops (s : State) (p o : Nat) : (s.incReg p o).ops = s.ops := State.with_regs_ops s _
@[simp] theorem State.incReg_port (s : State) (p o : Nat) : (s.incReg p o).port = s.port := State.with_regs_port s _
@[simp] theorem State.incReg_pipe (s : State) (p o : Nat) : (s.incReg p o).pipe = s.pipe := State.with_regs_pipe s _
@[simp] theorem State.incReg_tab (s : State) (p o : Nat) : (s.incReg p o).tab = s.tab := State.with_regs_tab s _
@[simp] theorem State.incReg_time (s : State) (p o : Nat) : (s.incReg p o).time = s.time := State.with_regs_time s _
@[simp] theorem State.incReg_stat (s : State) (p o : Nat) : (s.incReg p o).stat = s.stat := State.with_regs_stat s _
@[simp] theorem State.incReg_buf (s : State) (p o : Nat) : (s.incReg p o).buf = s.buf := State.with_regs_buf s _
@[simp] theorem State.incReg_sched (s : State) (p o : Nat) : (s.incReg p o).sched = s.sched := State.with_regs_sched s _
@[simp] theorem State.incReg_voq (s : State) (p o : Nat) : (s.incReg p o).voq = s.voq := State.with_regs_voq s _
@[simp] theorem State.incReg_sprue (s : State) (p o : Nat) : (s.incReg p o).sprue = s.sprue := State.with_regs_sprue s _
@[simp] theorem State.incReg_pair (s : State) (p o : Nat) : (s.incReg p o).pair = s.pair := State.with_regs_pair s _
@[simp] theorem State.incReg_launch (s : State) (p o : Nat) : (s.incReg p o).launch = s.launch := State.with_regs_launch s _
@[simp] theorem State.incReg_pow (s : State) (p o : Nat) : (s.incReg p o).pow = s.pow := State.with_regs_pow s _

@[simp] theorem State.orReg_pending (s : State) (p o : Nat) (m : Word) : (s.orReg p o m).pending = s.pending := State.with_regs_pending s _
@[simp] theorem State.orReg_freeCtr (s : State) (p o : Nat) (m : Word) : (s.orReg p o m).freeCtr = s.freeCtr := State.with_regs_freeCtr s _
@[simp] theorem State.orReg_latched (s : State) (p o : Nat) (m : Word) : (s.orReg p o m).latched = s.latched := State.with_regs_latched s _
@[simp] theorem State.orReg_win (s : State) (p o : Nat) (m : Word) : (s.orReg p o m).win = s.win := State.with_regs_win s _
@[simp] theorem State.orReg_upset (s : State) (p o : Nat) (m : Word) : (s.orReg p o m).upset = s.upset := State.with_regs_upset s _
@[simp] theorem State.orReg_reported (s : State) (p o : Nat) (m : Word) : (s.orReg p o m).reported = s.reported := State.with_regs_reported s _
@[simp] theorem State.orReg_fences (s : State) (p o : Nat) (m : Word) : (s.orReg p o m).fences = s.fences := State.with_regs_fences s _
@[simp] theorem State.orReg_readLatch (s : State) (p o : Nat) (m : Word) : (s.orReg p o m).readLatch = s.readLatch := State.with_regs_readLatch s _
@[simp] theorem State.orReg_lastLow (s : State) (p o : Nat) (m : Word) : (s.orReg p o m).lastLow = s.lastLow := State.with_regs_lastLow s _
@[simp] theorem State.orReg_sigWords (s : State) (p o : Nat) (m : Word) : (s.orReg p o m).sigWords = s.sigWords := State.with_regs_sigWords s _
@[simp] theorem State.orReg_resetPage (s : State) (p o : Nat) (m : Word) : (s.orReg p o m).resetPage = s.resetPage := State.with_regs_resetPage s _
@[simp] theorem State.orReg_host (s : State) (p o : Nat) (m : Word) : (s.orReg p o m).host = s.host := State.with_regs_host s _
@[simp] theorem State.orReg_cp (s : State) (p o : Nat) (m : Word) : (s.orReg p o m).cp = s.cp := State.with_regs_cp s _
@[simp] theorem State.orReg_nvm (s : State) (p o : Nat) (m : Word) : (s.orReg p o m).nvm = s.nvm := State.with_regs_nvm s _
@[simp] theorem State.orReg_ops (s : State) (p o : Nat) (m : Word) : (s.orReg p o m).ops = s.ops := State.with_regs_ops s _
@[simp] theorem State.orReg_port (s : State) (p o : Nat) (m : Word) : (s.orReg p o m).port = s.port := State.with_regs_port s _
@[simp] theorem State.orReg_pipe (s : State) (p o : Nat) (m : Word) : (s.orReg p o m).pipe = s.pipe := State.with_regs_pipe s _
@[simp] theorem State.orReg_tab (s : State) (p o : Nat) (m : Word) : (s.orReg p o m).tab = s.tab := State.with_regs_tab s _
@[simp] theorem State.orReg_time (s : State) (p o : Nat) (m : Word) : (s.orReg p o m).time = s.time := State.with_regs_time s _
@[simp] theorem State.orReg_stat (s : State) (p o : Nat) (m : Word) : (s.orReg p o m).stat = s.stat := State.with_regs_stat s _
@[simp] theorem State.orReg_buf (s : State) (p o : Nat) (m : Word) : (s.orReg p o m).buf = s.buf := State.with_regs_buf s _
@[simp] theorem State.orReg_sched (s : State) (p o : Nat) (m : Word) : (s.orReg p o m).sched = s.sched := State.with_regs_sched s _
@[simp] theorem State.orReg_voq (s : State) (p o : Nat) (m : Word) : (s.orReg p o m).voq = s.voq := State.with_regs_voq s _
@[simp] theorem State.orReg_sprue (s : State) (p o : Nat) (m : Word) : (s.orReg p o m).sprue = s.sprue := State.with_regs_sprue s _
@[simp] theorem State.orReg_pair (s : State) (p o : Nat) (m : Word) : (s.orReg p o m).pair = s.pair := State.with_regs_pair s _
@[simp] theorem State.orReg_launch (s : State) (p o : Nat) (m : Word) : (s.orReg p o m).launch = s.launch := State.with_regs_launch s _
@[simp] theorem State.orReg_pow (s : State) (p o : Nat) (m : Word) : (s.orReg p o m).pow = s.pow := State.with_regs_pow s _

@[simp] theorem State.clrReg_pending (s : State) (p o : Nat) (m : Word) : (s.clrReg p o m).pending = s.pending := State.with_regs_pending s _
@[simp] theorem State.clrReg_freeCtr (s : State) (p o : Nat) (m : Word) : (s.clrReg p o m).freeCtr = s.freeCtr := State.with_regs_freeCtr s _
@[simp] theorem State.clrReg_latched (s : State) (p o : Nat) (m : Word) : (s.clrReg p o m).latched = s.latched := State.with_regs_latched s _
@[simp] theorem State.clrReg_win (s : State) (p o : Nat) (m : Word) : (s.clrReg p o m).win = s.win := State.with_regs_win s _
@[simp] theorem State.clrReg_upset (s : State) (p o : Nat) (m : Word) : (s.clrReg p o m).upset = s.upset := State.with_regs_upset s _
@[simp] theorem State.clrReg_reported (s : State) (p o : Nat) (m : Word) : (s.clrReg p o m).reported = s.reported := State.with_regs_reported s _
@[simp] theorem State.clrReg_fences (s : State) (p o : Nat) (m : Word) : (s.clrReg p o m).fences = s.fences := State.with_regs_fences s _
@[simp] theorem State.clrReg_readLatch (s : State) (p o : Nat) (m : Word) : (s.clrReg p o m).readLatch = s.readLatch := State.with_regs_readLatch s _
@[simp] theorem State.clrReg_lastLow (s : State) (p o : Nat) (m : Word) : (s.clrReg p o m).lastLow = s.lastLow := State.with_regs_lastLow s _
@[simp] theorem State.clrReg_sigWords (s : State) (p o : Nat) (m : Word) : (s.clrReg p o m).sigWords = s.sigWords := State.with_regs_sigWords s _
@[simp] theorem State.clrReg_resetPage (s : State) (p o : Nat) (m : Word) : (s.clrReg p o m).resetPage = s.resetPage := State.with_regs_resetPage s _
@[simp] theorem State.clrReg_host (s : State) (p o : Nat) (m : Word) : (s.clrReg p o m).host = s.host := State.with_regs_host s _
@[simp] theorem State.clrReg_cp (s : State) (p o : Nat) (m : Word) : (s.clrReg p o m).cp = s.cp := State.with_regs_cp s _
@[simp] theorem State.clrReg_nvm (s : State) (p o : Nat) (m : Word) : (s.clrReg p o m).nvm = s.nvm := State.with_regs_nvm s _
@[simp] theorem State.clrReg_ops (s : State) (p o : Nat) (m : Word) : (s.clrReg p o m).ops = s.ops := State.with_regs_ops s _
@[simp] theorem State.clrReg_port (s : State) (p o : Nat) (m : Word) : (s.clrReg p o m).port = s.port := State.with_regs_port s _
@[simp] theorem State.clrReg_pipe (s : State) (p o : Nat) (m : Word) : (s.clrReg p o m).pipe = s.pipe := State.with_regs_pipe s _
@[simp] theorem State.clrReg_tab (s : State) (p o : Nat) (m : Word) : (s.clrReg p o m).tab = s.tab := State.with_regs_tab s _
@[simp] theorem State.clrReg_time (s : State) (p o : Nat) (m : Word) : (s.clrReg p o m).time = s.time := State.with_regs_time s _
@[simp] theorem State.clrReg_stat (s : State) (p o : Nat) (m : Word) : (s.clrReg p o m).stat = s.stat := State.with_regs_stat s _
@[simp] theorem State.clrReg_buf (s : State) (p o : Nat) (m : Word) : (s.clrReg p o m).buf = s.buf := State.with_regs_buf s _
@[simp] theorem State.clrReg_sched (s : State) (p o : Nat) (m : Word) : (s.clrReg p o m).sched = s.sched := State.with_regs_sched s _
@[simp] theorem State.clrReg_voq (s : State) (p o : Nat) (m : Word) : (s.clrReg p o m).voq = s.voq := State.with_regs_voq s _
@[simp] theorem State.clrReg_sprue (s : State) (p o : Nat) (m : Word) : (s.clrReg p o m).sprue = s.sprue := State.with_regs_sprue s _
@[simp] theorem State.clrReg_pair (s : State) (p o : Nat) (m : Word) : (s.clrReg p o m).pair = s.pair := State.with_regs_pair s _
@[simp] theorem State.clrReg_launch (s : State) (p o : Nat) (m : Word) : (s.clrReg p o m).launch = s.launch := State.with_regs_launch s _
@[simp] theorem State.clrReg_pow (s : State) (p o : Nat) (m : Word) : (s.clrReg p o m).pow = s.pow := State.with_regs_pow s _

@[simp] theorem State.setRegFld_pending (s : State) (p o hi lo v : Nat) : (s.setRegFld p o hi lo v).pending = s.pending := State.with_regs_pending s _
@[simp] theorem State.setRegFld_freeCtr (s : State) (p o hi lo v : Nat) : (s.setRegFld p o hi lo v).freeCtr = s.freeCtr := State.with_regs_freeCtr s _
@[simp] theorem State.setRegFld_latched (s : State) (p o hi lo v : Nat) : (s.setRegFld p o hi lo v).latched = s.latched := State.with_regs_latched s _
@[simp] theorem State.setRegFld_win (s : State) (p o hi lo v : Nat) : (s.setRegFld p o hi lo v).win = s.win := State.with_regs_win s _
@[simp] theorem State.setRegFld_upset (s : State) (p o hi lo v : Nat) : (s.setRegFld p o hi lo v).upset = s.upset := State.with_regs_upset s _
@[simp] theorem State.setRegFld_reported (s : State) (p o hi lo v : Nat) : (s.setRegFld p o hi lo v).reported = s.reported := State.with_regs_reported s _
@[simp] theorem State.setRegFld_fences (s : State) (p o hi lo v : Nat) : (s.setRegFld p o hi lo v).fences = s.fences := State.with_regs_fences s _
@[simp] theorem State.setRegFld_readLatch (s : State) (p o hi lo v : Nat) : (s.setRegFld p o hi lo v).readLatch = s.readLatch := State.with_regs_readLatch s _
@[simp] theorem State.setRegFld_lastLow (s : State) (p o hi lo v : Nat) : (s.setRegFld p o hi lo v).lastLow = s.lastLow := State.with_regs_lastLow s _
@[simp] theorem State.setRegFld_sigWords (s : State) (p o hi lo v : Nat) : (s.setRegFld p o hi lo v).sigWords = s.sigWords := State.with_regs_sigWords s _
@[simp] theorem State.setRegFld_resetPage (s : State) (p o hi lo v : Nat) : (s.setRegFld p o hi lo v).resetPage = s.resetPage := State.with_regs_resetPage s _
@[simp] theorem State.setRegFld_host (s : State) (p o hi lo v : Nat) : (s.setRegFld p o hi lo v).host = s.host := State.with_regs_host s _
@[simp] theorem State.setRegFld_cp (s : State) (p o hi lo v : Nat) : (s.setRegFld p o hi lo v).cp = s.cp := State.with_regs_cp s _
@[simp] theorem State.setRegFld_nvm (s : State) (p o hi lo v : Nat) : (s.setRegFld p o hi lo v).nvm = s.nvm := State.with_regs_nvm s _
@[simp] theorem State.setRegFld_ops (s : State) (p o hi lo v : Nat) : (s.setRegFld p o hi lo v).ops = s.ops := State.with_regs_ops s _
@[simp] theorem State.setRegFld_port (s : State) (p o hi lo v : Nat) : (s.setRegFld p o hi lo v).port = s.port := State.with_regs_port s _
@[simp] theorem State.setRegFld_pipe (s : State) (p o hi lo v : Nat) : (s.setRegFld p o hi lo v).pipe = s.pipe := State.with_regs_pipe s _
@[simp] theorem State.setRegFld_tab (s : State) (p o hi lo v : Nat) : (s.setRegFld p o hi lo v).tab = s.tab := State.with_regs_tab s _
@[simp] theorem State.setRegFld_time (s : State) (p o hi lo v : Nat) : (s.setRegFld p o hi lo v).time = s.time := State.with_regs_time s _
@[simp] theorem State.setRegFld_stat (s : State) (p o hi lo v : Nat) : (s.setRegFld p o hi lo v).stat = s.stat := State.with_regs_stat s _
@[simp] theorem State.setRegFld_buf (s : State) (p o hi lo v : Nat) : (s.setRegFld p o hi lo v).buf = s.buf := State.with_regs_buf s _
@[simp] theorem State.setRegFld_sched (s : State) (p o hi lo v : Nat) : (s.setRegFld p o hi lo v).sched = s.sched := State.with_regs_sched s _
@[simp] theorem State.setRegFld_voq (s : State) (p o hi lo v : Nat) : (s.setRegFld p o hi lo v).voq = s.voq := State.with_regs_voq s _
@[simp] theorem State.setRegFld_sprue (s : State) (p o hi lo v : Nat) : (s.setRegFld p o hi lo v).sprue = s.sprue := State.with_regs_sprue s _
@[simp] theorem State.setRegFld_pair (s : State) (p o hi lo v : Nat) : (s.setRegFld p o hi lo v).pair = s.pair := State.with_regs_pair s _
@[simp] theorem State.setRegFld_launch (s : State) (p o hi lo v : Nat) : (s.setRegFld p o hi lo v).launch = s.launch := State.with_regs_launch s _
@[simp] theorem State.setRegFld_pow (s : State) (p o hi lo v : Nat) : (s.setRegFld p o hi lo v).pow = s.pow := State.with_regs_pow s _

@[simp] theorem State.raise_pending (s : State) (p b : Nat) : (s.raise p b).pending = s.pending := State.with_regs_pending s _
@[simp] theorem State.raise_freeCtr (s : State) (p b : Nat) : (s.raise p b).freeCtr = s.freeCtr := State.with_regs_freeCtr s _
@[simp] theorem State.raise_latched (s : State) (p b : Nat) : (s.raise p b).latched = s.latched := State.with_regs_latched s _
@[simp] theorem State.raise_win (s : State) (p b : Nat) : (s.raise p b).win = s.win := State.with_regs_win s _
@[simp] theorem State.raise_upset (s : State) (p b : Nat) : (s.raise p b).upset = s.upset := State.with_regs_upset s _
@[simp] theorem State.raise_reported (s : State) (p b : Nat) : (s.raise p b).reported = s.reported := State.with_regs_reported s _
@[simp] theorem State.raise_fences (s : State) (p b : Nat) : (s.raise p b).fences = s.fences := State.with_regs_fences s _
@[simp] theorem State.raise_readLatch (s : State) (p b : Nat) : (s.raise p b).readLatch = s.readLatch := State.with_regs_readLatch s _
@[simp] theorem State.raise_lastLow (s : State) (p b : Nat) : (s.raise p b).lastLow = s.lastLow := State.with_regs_lastLow s _
@[simp] theorem State.raise_sigWords (s : State) (p b : Nat) : (s.raise p b).sigWords = s.sigWords := State.with_regs_sigWords s _
@[simp] theorem State.raise_resetPage (s : State) (p b : Nat) : (s.raise p b).resetPage = s.resetPage := State.with_regs_resetPage s _
@[simp] theorem State.raise_host (s : State) (p b : Nat) : (s.raise p b).host = s.host := State.with_regs_host s _
@[simp] theorem State.raise_cp (s : State) (p b : Nat) : (s.raise p b).cp = s.cp := State.with_regs_cp s _
@[simp] theorem State.raise_nvm (s : State) (p b : Nat) : (s.raise p b).nvm = s.nvm := State.with_regs_nvm s _
@[simp] theorem State.raise_ops (s : State) (p b : Nat) : (s.raise p b).ops = s.ops := State.with_regs_ops s _
@[simp] theorem State.raise_port (s : State) (p b : Nat) : (s.raise p b).port = s.port := State.with_regs_port s _
@[simp] theorem State.raise_pipe (s : State) (p b : Nat) : (s.raise p b).pipe = s.pipe := State.with_regs_pipe s _
@[simp] theorem State.raise_tab (s : State) (p b : Nat) : (s.raise p b).tab = s.tab := State.with_regs_tab s _
@[simp] theorem State.raise_time (s : State) (p b : Nat) : (s.raise p b).time = s.time := State.with_regs_time s _
@[simp] theorem State.raise_stat (s : State) (p b : Nat) : (s.raise p b).stat = s.stat := State.with_regs_stat s _
@[simp] theorem State.raise_buf (s : State) (p b : Nat) : (s.raise p b).buf = s.buf := State.with_regs_buf s _
@[simp] theorem State.raise_sched (s : State) (p b : Nat) : (s.raise p b).sched = s.sched := State.with_regs_sched s _
@[simp] theorem State.raise_voq (s : State) (p b : Nat) : (s.raise p b).voq = s.voq := State.with_regs_voq s _
@[simp] theorem State.raise_sprue (s : State) (p b : Nat) : (s.raise p b).sprue = s.sprue := State.with_regs_sprue s _
@[simp] theorem State.raise_pair (s : State) (p b : Nat) : (s.raise p b).pair = s.pair := State.with_regs_pair s _
@[simp] theorem State.raise_launch (s : State) (p b : Nat) : (s.raise p b).launch = s.launch := State.with_regs_launch s _
@[simp] theorem State.raise_pow (s : State) (p b : Nat) : (s.raise p b).pow = s.pow := State.with_regs_pow s _

theorem State.setReg_regs (s : State) (p o : Nat) (v : Word) : (s.setReg p o v).regs = Store.put regReset (regKey p o) v s.regs := by
  unfold State.setReg; rfl

theorem State.with_win_pending (s : State) (l : List (Nat × Word)) : (State.pending { s with win := l }) = s.pending := rfl
theorem State.with_win_freeCtr (s : State) (l : List (Nat × Word)) : (State.freeCtr { s with win := l }) = s.freeCtr := rfl
theorem State.with_win_regs (s : State) (l : List (Nat × Word)) : (State.regs { s with win := l }) = s.regs := rfl
theorem State.with_win_latched (s : State) (l : List (Nat × Word)) : (State.latched { s with win := l }) = s.latched := rfl
theorem State.with_win_upset (s : State) (l : List (Nat × Word)) : (State.upset { s with win := l }) = s.upset := rfl
theorem State.with_win_reported (s : State) (l : List (Nat × Word)) : (State.reported { s with win := l }) = s.reported := rfl
theorem State.with_win_fences (s : State) (l : List (Nat × Word)) : (State.fences { s with win := l }) = s.fences := rfl
theorem State.with_win_readLatch (s : State) (l : List (Nat × Word)) : (State.readLatch { s with win := l }) = s.readLatch := rfl
theorem State.with_win_lastLow (s : State) (l : List (Nat × Word)) : (State.lastLow { s with win := l }) = s.lastLow := rfl
theorem State.with_win_sigWords (s : State) (l : List (Nat × Word)) : (State.sigWords { s with win := l }) = s.sigWords := rfl
theorem State.with_win_resetPage (s : State) (l : List (Nat × Word)) : (State.resetPage { s with win := l }) = s.resetPage := rfl
theorem State.with_win_host (s : State) (l : List (Nat × Word)) : (State.host { s with win := l }) = s.host := rfl
theorem State.with_win_cp (s : State) (l : List (Nat × Word)) : (State.cp { s with win := l }) = s.cp := rfl
theorem State.with_win_nvm (s : State) (l : List (Nat × Word)) : (State.nvm { s with win := l }) = s.nvm := rfl
theorem State.with_win_ops (s : State) (l : List (Nat × Word)) : (State.ops { s with win := l }) = s.ops := rfl
theorem State.with_win_port (s : State) (l : List (Nat × Word)) : (State.port { s with win := l }) = s.port := rfl
theorem State.with_win_pipe (s : State) (l : List (Nat × Word)) : (State.pipe { s with win := l }) = s.pipe := rfl
theorem State.with_win_tab (s : State) (l : List (Nat × Word)) : (State.tab { s with win := l }) = s.tab := rfl
theorem State.with_win_time (s : State) (l : List (Nat × Word)) : (State.time { s with win := l }) = s.time := rfl
theorem State.with_win_stat (s : State) (l : List (Nat × Word)) : (State.stat { s with win := l }) = s.stat := rfl
theorem State.with_win_buf (s : State) (l : List (Nat × Word)) : (State.buf { s with win := l }) = s.buf := rfl
theorem State.with_win_sched (s : State) (l : List (Nat × Word)) : (State.sched { s with win := l }) = s.sched := rfl
theorem State.with_win_voq (s : State) (l : List (Nat × Word)) : (State.voq { s with win := l }) = s.voq := rfl
theorem State.with_win_sprue (s : State) (l : List (Nat × Word)) : (State.sprue { s with win := l }) = s.sprue := rfl
theorem State.with_win_pair (s : State) (l : List (Nat × Word)) : (State.pair { s with win := l }) = s.pair := rfl
theorem State.with_win_launch (s : State) (l : List (Nat × Word)) : (State.launch { s with win := l }) = s.launch := rfl
theorem State.with_win_pow (s : State) (l : List (Nat × Word)) : (State.pow { s with win := l }) = s.pow := rfl

@[simp] theorem State.setWin_pending (s : State) (p u i : Nat) (v : Word) : (s.setWin p u i v).pending = s.pending := State.with_win_pending s _
@[simp] theorem State.setWin_freeCtr (s : State) (p u i : Nat) (v : Word) : (s.setWin p u i v).freeCtr = s.freeCtr := State.with_win_freeCtr s _
@[simp] theorem State.setWin_regs (s : State) (p u i : Nat) (v : Word) : (s.setWin p u i v).regs = s.regs := State.with_win_regs s _
@[simp] theorem State.setWin_latched (s : State) (p u i : Nat) (v : Word) : (s.setWin p u i v).latched = s.latched := State.with_win_latched s _
@[simp] theorem State.setWin_upset (s : State) (p u i : Nat) (v : Word) : (s.setWin p u i v).upset = s.upset := State.with_win_upset s _
@[simp] theorem State.setWin_reported (s : State) (p u i : Nat) (v : Word) : (s.setWin p u i v).reported = s.reported := State.with_win_reported s _
@[simp] theorem State.setWin_fences (s : State) (p u i : Nat) (v : Word) : (s.setWin p u i v).fences = s.fences := State.with_win_fences s _
@[simp] theorem State.setWin_readLatch (s : State) (p u i : Nat) (v : Word) : (s.setWin p u i v).readLatch = s.readLatch := State.with_win_readLatch s _
@[simp] theorem State.setWin_lastLow (s : State) (p u i : Nat) (v : Word) : (s.setWin p u i v).lastLow = s.lastLow := State.with_win_lastLow s _
@[simp] theorem State.setWin_sigWords (s : State) (p u i : Nat) (v : Word) : (s.setWin p u i v).sigWords = s.sigWords := State.with_win_sigWords s _
@[simp] theorem State.setWin_resetPage (s : State) (p u i : Nat) (v : Word) : (s.setWin p u i v).resetPage = s.resetPage := State.with_win_resetPage s _
@[simp] theorem State.setWin_host (s : State) (p u i : Nat) (v : Word) : (s.setWin p u i v).host = s.host := State.with_win_host s _
@[simp] theorem State.setWin_cp (s : State) (p u i : Nat) (v : Word) : (s.setWin p u i v).cp = s.cp := State.with_win_cp s _
@[simp] theorem State.setWin_nvm (s : State) (p u i : Nat) (v : Word) : (s.setWin p u i v).nvm = s.nvm := State.with_win_nvm s _
@[simp] theorem State.setWin_ops (s : State) (p u i : Nat) (v : Word) : (s.setWin p u i v).ops = s.ops := State.with_win_ops s _
@[simp] theorem State.setWin_port (s : State) (p u i : Nat) (v : Word) : (s.setWin p u i v).port = s.port := State.with_win_port s _
@[simp] theorem State.setWin_pipe (s : State) (p u i : Nat) (v : Word) : (s.setWin p u i v).pipe = s.pipe := State.with_win_pipe s _
@[simp] theorem State.setWin_tab (s : State) (p u i : Nat) (v : Word) : (s.setWin p u i v).tab = s.tab := State.with_win_tab s _
@[simp] theorem State.setWin_time (s : State) (p u i : Nat) (v : Word) : (s.setWin p u i v).time = s.time := State.with_win_time s _
@[simp] theorem State.setWin_stat (s : State) (p u i : Nat) (v : Word) : (s.setWin p u i v).stat = s.stat := State.with_win_stat s _
@[simp] theorem State.setWin_buf (s : State) (p u i : Nat) (v : Word) : (s.setWin p u i v).buf = s.buf := State.with_win_buf s _
@[simp] theorem State.setWin_sched (s : State) (p u i : Nat) (v : Word) : (s.setWin p u i v).sched = s.sched := State.with_win_sched s _
@[simp] theorem State.setWin_voq (s : State) (p u i : Nat) (v : Word) : (s.setWin p u i v).voq = s.voq := State.with_win_voq s _
@[simp] theorem State.setWin_sprue (s : State) (p u i : Nat) (v : Word) : (s.setWin p u i v).sprue = s.sprue := State.with_win_sprue s _
@[simp] theorem State.setWin_pair (s : State) (p u i : Nat) (v : Word) : (s.setWin p u i v).pair = s.pair := State.with_win_pair s _
@[simp] theorem State.setWin_launch (s : State) (p u i : Nat) (v : Word) : (s.setWin p u i v).launch = s.launch := State.with_win_launch s _
@[simp] theorem State.setWin_pow (s : State) (p u i : Nat) (v : Word) : (s.setWin p u i v).pow = s.pow := State.with_win_pow s _

@[simp] theorem State.updWin_pending (s : State) (p u i : Nat) (f : Word → Word) : (s.updWin p u i f).pending = s.pending := State.with_win_pending s _
@[simp] theorem State.updWin_freeCtr (s : State) (p u i : Nat) (f : Word → Word) : (s.updWin p u i f).freeCtr = s.freeCtr := State.with_win_freeCtr s _
@[simp] theorem State.updWin_regs (s : State) (p u i : Nat) (f : Word → Word) : (s.updWin p u i f).regs = s.regs := State.with_win_regs s _
@[simp] theorem State.updWin_latched (s : State) (p u i : Nat) (f : Word → Word) : (s.updWin p u i f).latched = s.latched := State.with_win_latched s _
@[simp] theorem State.updWin_upset (s : State) (p u i : Nat) (f : Word → Word) : (s.updWin p u i f).upset = s.upset := State.with_win_upset s _
@[simp] theorem State.updWin_reported (s : State) (p u i : Nat) (f : Word → Word) : (s.updWin p u i f).reported = s.reported := State.with_win_reported s _
@[simp] theorem State.updWin_fences (s : State) (p u i : Nat) (f : Word → Word) : (s.updWin p u i f).fences = s.fences := State.with_win_fences s _
@[simp] theorem State.updWin_readLatch (s : State) (p u i : Nat) (f : Word → Word) : (s.updWin p u i f).readLatch = s.readLatch := State.with_win_readLatch s _
@[simp] theorem State.updWin_lastLow (s : State) (p u i : Nat) (f : Word → Word) : (s.updWin p u i f).lastLow = s.lastLow := State.with_win_lastLow s _
@[simp] theorem State.updWin_sigWords (s : State) (p u i : Nat) (f : Word → Word) : (s.updWin p u i f).sigWords = s.sigWords := State.with_win_sigWords s _
@[simp] theorem State.updWin_resetPage (s : State) (p u i : Nat) (f : Word → Word) : (s.updWin p u i f).resetPage = s.resetPage := State.with_win_resetPage s _
@[simp] theorem State.updWin_host (s : State) (p u i : Nat) (f : Word → Word) : (s.updWin p u i f).host = s.host := State.with_win_host s _
@[simp] theorem State.updWin_cp (s : State) (p u i : Nat) (f : Word → Word) : (s.updWin p u i f).cp = s.cp := State.with_win_cp s _
@[simp] theorem State.updWin_nvm (s : State) (p u i : Nat) (f : Word → Word) : (s.updWin p u i f).nvm = s.nvm := State.with_win_nvm s _
@[simp] theorem State.updWin_ops (s : State) (p u i : Nat) (f : Word → Word) : (s.updWin p u i f).ops = s.ops := State.with_win_ops s _
@[simp] theorem State.updWin_port (s : State) (p u i : Nat) (f : Word → Word) : (s.updWin p u i f).port = s.port := State.with_win_port s _
@[simp] theorem State.updWin_pipe (s : State) (p u i : Nat) (f : Word → Word) : (s.updWin p u i f).pipe = s.pipe := State.with_win_pipe s _
@[simp] theorem State.updWin_tab (s : State) (p u i : Nat) (f : Word → Word) : (s.updWin p u i f).tab = s.tab := State.with_win_tab s _
@[simp] theorem State.updWin_time (s : State) (p u i : Nat) (f : Word → Word) : (s.updWin p u i f).time = s.time := State.with_win_time s _
@[simp] theorem State.updWin_stat (s : State) (p u i : Nat) (f : Word → Word) : (s.updWin p u i f).stat = s.stat := State.with_win_stat s _
@[simp] theorem State.updWin_buf (s : State) (p u i : Nat) (f : Word → Word) : (s.updWin p u i f).buf = s.buf := State.with_win_buf s _
@[simp] theorem State.updWin_sched (s : State) (p u i : Nat) (f : Word → Word) : (s.updWin p u i f).sched = s.sched := State.with_win_sched s _
@[simp] theorem State.updWin_voq (s : State) (p u i : Nat) (f : Word → Word) : (s.updWin p u i f).voq = s.voq := State.with_win_voq s _
@[simp] theorem State.updWin_sprue (s : State) (p u i : Nat) (f : Word → Word) : (s.updWin p u i f).sprue = s.sprue := State.with_win_sprue s _
@[simp] theorem State.updWin_pair (s : State) (p u i : Nat) (f : Word → Word) : (s.updWin p u i f).pair = s.pair := State.with_win_pair s _
@[simp] theorem State.updWin_launch (s : State) (p u i : Nat) (f : Word → Word) : (s.updWin p u i f).launch = s.launch := State.with_win_launch s _
@[simp] theorem State.updWin_pow (s : State) (p u i : Nat) (f : Word → Word) : (s.updWin p u i f).pow = s.pow := State.with_win_pow s _

theorem State.setWin_win (s : State) (p u i : Nat) (v : Word) : (s.setWin p u i v).win = Store.put winReset (winKey p u i) v s.win := by
  unfold State.setWin; rfl

theorem State.with_nvm_pending (s : State) (l : NvmSt) : (State.pending { s with nvm := l }) = s.pending := rfl
theorem State.with_nvm_freeCtr (s : State) (l : NvmSt) : (State.freeCtr { s with nvm := l }) = s.freeCtr := rfl
theorem State.with_nvm_regs (s : State) (l : NvmSt) : (State.regs { s with nvm := l }) = s.regs := rfl
theorem State.with_nvm_latched (s : State) (l : NvmSt) : (State.latched { s with nvm := l }) = s.latched := rfl
theorem State.with_nvm_win (s : State) (l : NvmSt) : (State.win { s with nvm := l }) = s.win := rfl
theorem State.with_nvm_upset (s : State) (l : NvmSt) : (State.upset { s with nvm := l }) = s.upset := rfl
theorem State.with_nvm_reported (s : State) (l : NvmSt) : (State.reported { s with nvm := l }) = s.reported := rfl
theorem State.with_nvm_fences (s : State) (l : NvmSt) : (State.fences { s with nvm := l }) = s.fences := rfl
theorem State.with_nvm_readLatch (s : State) (l : NvmSt) : (State.readLatch { s with nvm := l }) = s.readLatch := rfl
theorem State.with_nvm_lastLow (s : State) (l : NvmSt) : (State.lastLow { s with nvm := l }) = s.lastLow := rfl
theorem State.with_nvm_sigWords (s : State) (l : NvmSt) : (State.sigWords { s with nvm := l }) = s.sigWords := rfl
theorem State.with_nvm_resetPage (s : State) (l : NvmSt) : (State.resetPage { s with nvm := l }) = s.resetPage := rfl
theorem State.with_nvm_host (s : State) (l : NvmSt) : (State.host { s with nvm := l }) = s.host := rfl
theorem State.with_nvm_cp (s : State) (l : NvmSt) : (State.cp { s with nvm := l }) = s.cp := rfl
theorem State.with_nvm_ops (s : State) (l : NvmSt) : (State.ops { s with nvm := l }) = s.ops := rfl
theorem State.with_nvm_port (s : State) (l : NvmSt) : (State.port { s with nvm := l }) = s.port := rfl
theorem State.with_nvm_pipe (s : State) (l : NvmSt) : (State.pipe { s with nvm := l }) = s.pipe := rfl
theorem State.with_nvm_tab (s : State) (l : NvmSt) : (State.tab { s with nvm := l }) = s.tab := rfl
theorem State.with_nvm_time (s : State) (l : NvmSt) : (State.time { s with nvm := l }) = s.time := rfl
theorem State.with_nvm_stat (s : State) (l : NvmSt) : (State.stat { s with nvm := l }) = s.stat := rfl
theorem State.with_nvm_buf (s : State) (l : NvmSt) : (State.buf { s with nvm := l }) = s.buf := rfl
theorem State.with_nvm_sched (s : State) (l : NvmSt) : (State.sched { s with nvm := l }) = s.sched := rfl
theorem State.with_nvm_voq (s : State) (l : NvmSt) : (State.voq { s with nvm := l }) = s.voq := rfl
theorem State.with_nvm_sprue (s : State) (l : NvmSt) : (State.sprue { s with nvm := l }) = s.sprue := rfl
theorem State.with_nvm_pair (s : State) (l : NvmSt) : (State.pair { s with nvm := l }) = s.pair := rfl
theorem State.with_nvm_launch (s : State) (l : NvmSt) : (State.launch { s with nvm := l }) = s.launch := rfl
theorem State.with_nvm_pow (s : State) (l : NvmSt) : (State.pow { s with nvm := l }) = s.pow := rfl

@[simp] theorem State.putStore_pending (s : State) (o : Nat) (b : Byte) : (s.putStore o b).pending = s.pending := State.with_nvm_pending s _
@[simp] theorem State.putStore_freeCtr (s : State) (o : Nat) (b : Byte) : (s.putStore o b).freeCtr = s.freeCtr := State.with_nvm_freeCtr s _
@[simp] theorem State.putStore_regs (s : State) (o : Nat) (b : Byte) : (s.putStore o b).regs = s.regs := State.with_nvm_regs s _
@[simp] theorem State.putStore_latched (s : State) (o : Nat) (b : Byte) : (s.putStore o b).latched = s.latched := State.with_nvm_latched s _
@[simp] theorem State.putStore_win (s : State) (o : Nat) (b : Byte) : (s.putStore o b).win = s.win := State.with_nvm_win s _
@[simp] theorem State.putStore_upset (s : State) (o : Nat) (b : Byte) : (s.putStore o b).upset = s.upset := State.with_nvm_upset s _
@[simp] theorem State.putStore_reported (s : State) (o : Nat) (b : Byte) : (s.putStore o b).reported = s.reported := State.with_nvm_reported s _
@[simp] theorem State.putStore_fences (s : State) (o : Nat) (b : Byte) : (s.putStore o b).fences = s.fences := State.with_nvm_fences s _
@[simp] theorem State.putStore_readLatch (s : State) (o : Nat) (b : Byte) : (s.putStore o b).readLatch = s.readLatch := State.with_nvm_readLatch s _
@[simp] theorem State.putStore_lastLow (s : State) (o : Nat) (b : Byte) : (s.putStore o b).lastLow = s.lastLow := State.with_nvm_lastLow s _
@[simp] theorem State.putStore_sigWords (s : State) (o : Nat) (b : Byte) : (s.putStore o b).sigWords = s.sigWords := State.with_nvm_sigWords s _
@[simp] theorem State.putStore_resetPage (s : State) (o : Nat) (b : Byte) : (s.putStore o b).resetPage = s.resetPage := State.with_nvm_resetPage s _
@[simp] theorem State.putStore_host (s : State) (o : Nat) (b : Byte) : (s.putStore o b).host = s.host := State.with_nvm_host s _
@[simp] theorem State.putStore_cp (s : State) (o : Nat) (b : Byte) : (s.putStore o b).cp = s.cp := State.with_nvm_cp s _
@[simp] theorem State.putStore_ops (s : State) (o : Nat) (b : Byte) : (s.putStore o b).ops = s.ops := State.with_nvm_ops s _
@[simp] theorem State.putStore_port (s : State) (o : Nat) (b : Byte) : (s.putStore o b).port = s.port := State.with_nvm_port s _
@[simp] theorem State.putStore_pipe (s : State) (o : Nat) (b : Byte) : (s.putStore o b).pipe = s.pipe := State.with_nvm_pipe s _
@[simp] theorem State.putStore_tab (s : State) (o : Nat) (b : Byte) : (s.putStore o b).tab = s.tab := State.with_nvm_tab s _
@[simp] theorem State.putStore_time (s : State) (o : Nat) (b : Byte) : (s.putStore o b).time = s.time := State.with_nvm_time s _
@[simp] theorem State.putStore_stat (s : State) (o : Nat) (b : Byte) : (s.putStore o b).stat = s.stat := State.with_nvm_stat s _
@[simp] theorem State.putStore_buf (s : State) (o : Nat) (b : Byte) : (s.putStore o b).buf = s.buf := State.with_nvm_buf s _
@[simp] theorem State.putStore_sched (s : State) (o : Nat) (b : Byte) : (s.putStore o b).sched = s.sched := State.with_nvm_sched s _
@[simp] theorem State.putStore_voq (s : State) (o : Nat) (b : Byte) : (s.putStore o b).voq = s.voq := State.with_nvm_voq s _
@[simp] theorem State.putStore_sprue (s : State) (o : Nat) (b : Byte) : (s.putStore o b).sprue = s.sprue := State.with_nvm_sprue s _
@[simp] theorem State.putStore_pair (s : State) (o : Nat) (b : Byte) : (s.putStore o b).pair = s.pair := State.with_nvm_pair s _
@[simp] theorem State.putStore_launch (s : State) (o : Nat) (b : Byte) : (s.putStore o b).launch = s.launch := State.with_nvm_launch s _
@[simp] theorem State.putStore_pow (s : State) (o : Nat) (b : Byte) : (s.putStore o b).pow = s.pow := State.with_nvm_pow s _

/-! ### Reads under the register updates -/

@[simp] theorem State.setReg_cfg (s : State) (p o q r : Nat) (v : Word) : (s.setReg p o v).cfg q r = s.cfg q r := by
  unfold State.cfg; rw [State.setReg_latched]

@[simp] theorem State.setReg_winW (s : State) (p o q u i : Nat) (v : Word) : (s.setReg p o v).winW q u i = s.winW q u i := by
  unfold State.winW; rw [State.setReg_win]

@[simp] theorem State.setWin_reg (s : State) (p u i q r : Nat) (v : Word) : (s.setWin p u i v).reg q r = s.reg q r := by
  unfold State.reg; rw [State.setWin_regs]

@[simp] theorem State.setWin_cfg (s : State) (p u i q r : Nat) (v : Word) : (s.setWin p u i v).cfg q r = s.cfg q r := by
  unfold State.cfg; rw [State.setWin_latched]

/-- The views of the persistent store depend on the store alone. -/
theorem State.auditByte_congr {s t : State} (o : Nat) (hn : s.nvm = t.nvm) : s.auditByte o = t.auditByte o := by
  unfold State.auditByte
  rw [hn]

theorem State.storeByte_congr {s t : State} (o : Nat) (hn : s.nvm = t.nvm) : s.storeByte o = t.storeByte o := by
  unfold State.storeByte
  generalize o - 0x1A00000 = r
  rw [State.auditByte_congr r hn, hn]

/-- Memory reads depend on the control processor's memory and the persistent store alone. -/
theorem State.memByte_congr {s t : State} (a : Nat) (hc : s.cp = t.cp) (hn : s.nvm = t.nvm) : s.memByte a = t.memByte a := by
  unfold State.memByte
  generalize a - 0x60000000 = r
  rw [State.storeByte_congr r hn, hc]

@[simp] theorem State.setReg_memByte (s : State) (p o a : Nat) (v : Word) : (s.setReg p o v).memByte a = s.memByte a :=
  State.memByte_congr a (State.setReg_cp s p o v) (State.setReg_nvm s p o v)

theorem State.updReg_eq (s : State) (p o : Nat) (f : Word → Word) : s.updReg p o f = s.setReg p o (f (s.reg p o)) := rfl

theorem State.incReg_eq (s : State) (p o : Nat) : s.incReg p o = s.setReg p o (s.reg p o + 1) := rfl

theorem State.raise_eq (s : State) (p b : Nat) : s.raise p b = s.setReg p 0x14 (s.reg p 0x14 ||| oneBit b) := rfl

/-- A page has 0x10000 offsets, so two words of the pages share a key only if they are the same word. -/
theorem regKey_inj {p o q r : Nat} (ho : o < 0x10000) (hr : r < 0x10000) (h : regKey p o = regKey q r) : p = q ∧ o = r := by
  unfold regKey at h; omega

/-- A register word written reads back (R51). -/
theorem State.reg_setReg_self (s : State) (p o : Nat) (v : Word) (h : Store.wf regReset s.regs = true) : (s.setReg p o v).reg p o = v := by
  unfold State.reg; rw [State.setReg_regs]; exact Store.get_put_self regReset (regKey p o) v s.regs h

/-- A write of a register word leaves every other word. -/
theorem State.reg_setReg_other (s : State) {p o q r : Nat} (v : Word) (h : Store.wf regReset s.regs = true) (hk : regKey q r ≠ regKey p o) :
    (s.setReg p o v).reg q r = s.reg q r := by
  unfold State.reg; rw [State.setReg_regs]; exact Store.get_put_other regReset v s.regs h hk _

/-- A window word written reads back. -/
theorem State.winW_setWin_self (s : State) (p u i : Nat) (v : Word) (h : Store.wf winReset s.win = true) : (s.setWin p u i v).winW p u i = v := by
  unfold State.winW; rw [State.setWin_win]; exact Store.get_put_self winReset (winKey p u i) v s.win h

/-- A write of a window word leaves every other word. -/
theorem State.winW_setWin_other (s : State) {p u i q w j : Nat} (v : Word) (h : Store.wf winReset s.win = true)
    (hk : winKey q w j ≠ winKey p u i) : (s.setWin p u i v).winW q w j = s.winW q w j := by
  unfold State.winW; rw [State.setWin_win]; exact Store.get_put_other winReset v s.win h hk _

/-! ### The canonical form under the basic updates -/

theorem State.Canonical.regs {s : State} (h : s.Canonical) : Store.wf regReset s.regs = true := h.1

theorem State.Canonical.win {s : State} (h : s.Canonical) : Store.wf winReset s.win = true := h.2.2.1

theorem State.Canonical.mem {s : State} (h : s.Canonical) : Store.wf (fun _ => 0#8) s.cp.mem = true := h.2.2.2.1

theorem State.Canonical.bytes {s : State} (h : s.Canonical) : Store.wf shipped s.nvm.bytes = true := h.2.2.2.2.1

theorem State.setReg_canonical {s : State} (p o : Nat) (v : Word) (h : s.Canonical) : (s.setReg p o v).Canonical := by
  unfold State.Canonical at h ⊢
  rw [State.setReg_regs, State.setReg_latched, State.setReg_win, State.setReg_cp, State.setReg_nvm, State.setReg_fences]
  exact ⟨Store.wf_put _ _ _ _ h.1, h.2⟩

theorem State.updReg_canonical {s : State} (p o : Nat) (f : Word → Word) (h : s.Canonical) : (s.updReg p o f).Canonical :=
  State.setReg_canonical p o _ h

theorem State.incReg_canonical {s : State} (p o : Nat) (h : s.Canonical) : (s.incReg p o).Canonical := State.setReg_canonical p o _ h

theorem State.orReg_canonical {s : State} (p o : Nat) (m : Word) (h : s.Canonical) : (s.orReg p o m).Canonical := State.setReg_canonical p o _ h

theorem State.clrReg_canonical {s : State} (p o : Nat) (m : Word) (h : s.Canonical) : (s.clrReg p o m).Canonical := State.setReg_canonical p o _ h

theorem State.setRegFld_canonical {s : State} (p o hi lo v : Nat) (h : s.Canonical) : (s.setRegFld p o hi lo v).Canonical :=
  State.setReg_canonical p o _ h

theorem State.raise_canonical {s : State} (p b : Nat) (h : s.Canonical) : (s.raise p b).Canonical := State.orReg_canonical p _ _ h

theorem State.setBlk_canonical {s : State} (p v : Nat) (h : s.Canonical) : (s.setBlk p v).Canonical := by
  unfold State.setBlk
  split
  · exact h
  · exact State.raise_canonical p 1 (State.setRegFld_canonical p _ _ _ _ h)

theorem State.setWin_canonical {s : State} (p u i : Nat) (v : Word) (h : s.Canonical) : (s.setWin p u i v).Canonical := by
  unfold State.Canonical at h ⊢
  rw [State.setWin_regs, State.setWin_latched, State.setWin_win, State.setWin_cp, State.setWin_nvm, State.setWin_fences]
  exact ⟨h.1, h.2.1, Store.wf_put _ _ _ _ h.2.2.1, h.2.2.2⟩

theorem State.putMem_canonical {s : State} (a : Nat) (b : Byte) (h : s.Canonical) : (s.putMem a b).Canonical := by
  unfold State.putMem
  split
  · unfold State.Canonical at h ⊢
    exact ⟨h.1, h.2.1, h.2.2.1, Store.wf_put _ _ _ _ h.2.2.2.1, h.2.2.2.2⟩
  · exact h

theorem State.putStore_canonical {s : State} (o : Nat) (b : Byte) (h : s.Canonical) : (s.putStore o b).Canonical := by
  unfold State.Canonical at h ⊢
  unfold State.putStore
  exact ⟨h.1, h.2.1, h.2.2.1, h.2.2.2.1, Store.wf_put _ _ _ _ h.2.2.2.2.1, h.2.2.2.2.2⟩

theorem State.putMemBytes_canonical {s : State} (a n v : Nat) (h : s.Canonical) : (s.putMemBytes a n v).Canonical := by
  unfold State.putMemBytes
  induction (List.range n) generalizing s with
  | nil => exact h
  | cons i l ih => exact ih (State.putMem_canonical _ _ h)

theorem State.putStoreBytes_canonical {s : State} (o : Nat) (l : List Byte) (h : s.Canonical) : (s.putStoreBytes o l).Canonical := by
  unfold State.putStoreBytes
  induction l generalizing s o with
  | nil => exact h
  | cons b l ih => exact ih (o + 1) (State.putStore_canonical _ _ h)

/-- The recording of an access fault keeps the canonical form (R53, R54). -/
theorem State.accessFault_canonical {s : State} (a : Agent) (addr : Nat) (wr : Bool) (kind : Nat) (page : Option Nat) (h : s.Canonical) :
    (s.accessFault a addr wr kind page).Canonical := by
  have key : ∀ u : State, u.Canonical → (if bit (u.reg 0 0x2010) 0 then u.orReg 0 0x2010 2#32
      else (u.setReg 0 0x2010 (word (1 + a.id * 16 + (if wr then 0x100 else 0) + kind * 0x200))).setReg 0 0x2014 (word addr)).Canonical := by
    intro u hu
    split
    · exact State.orReg_canonical _ _ _ hu
    · exact State.setReg_canonical _ _ _ (State.setReg_canonical _ _ _ hu)
  unfold State.accessFault
  refine State.incReg_canonical _ _ (key _ ?_)
  cases page with
  | none => exact h
  | some p => exact State.orReg_canonical _ _ _ h

theorem State.deny_canonical {s : State} (h : s.Canonical) : s.deny.Canonical := State.incReg_canonical _ _ h

theorem State.audit_canonical {s : State} (r : AuditRec) (h : s.Canonical) : (s.audit r).Canonical := by
  unfold State.audit
  split <;> exact h

theorem State.ibi_canonical {s : State} (c d : Nat) (h : s.Canonical) : (s.ibi c d).Canonical := h

end Sys2Proof.Machine
end

