-- ==== Sys2Proof/Laws/Memory.lean ====
section
/-! SUPPORT. Memory and the persistent store read back what was written, and every other byte stays (R62, R115). -/
namespace Sys2Proof.Machine

/-- A byte of SRAM or of the STACK0 region reads what its memory holds. -/
theorem State.memByte_ram (s : State) {a : Nat} (h : ramAt a = true) : s.memByte a = Store.get (0 : Byte) a s.cp.mem := by
  unfold State.memByte
  unfold ramAt at h
  split at h <;> simp_all

theorem State.memByte_putMem_self (s : State) {a : Nat} (b : Byte) (hw : s.Canonical) (h : ramAt a = true) : (s.putMem a b).memByte a = b := by
  rw [State.memByte_ram _ h]
  simp only [State.putMem, h, if_true]
  exact Store.get_put_self (fun _ => (0 : Byte)) a b s.cp.mem hw.mem

theorem State.memByte_putMem_other (s : State) {a q : Nat} (b : Byte) (hw : s.Canonical) (hq : q ≠ a) : (s.putMem a b).memByte q = s.memByte q := by
  have hn : (s.putMem a b).nvm = s.nvm := by
    unfold State.putMem
    split <;> rfl
  have hm : Store.get (0 : Byte) q (s.putMem a b).cp.mem = Store.get (0 : Byte) q s.cp.mem := by
    unfold State.putMem
    split
    · exact Store.get_put_other (fun _ => (0 : Byte)) b s.cp.mem hw.mem hq _
    · rfl
  unfold State.memByte
  generalize q - 0x60000000 = r
  rw [State.storeByte_congr r hn, hm]

/-- Bytes that a store of `n` bytes at `a` does not reach stay. -/
theorem State.memByte_putMemBytes_outside (s : State) {a n v q : Nat} (hw : s.Canonical) (hq : q < a ∨ a + n ≤ q) :
    (s.putMemBytes a n v).memByte q = s.memByte q := by
  unfold State.putMemBytes
  have key : ∀ l : List Nat, (∀ i ∈ l, i < n) → ∀ s : State, s.Canonical →
      (l.foldl (fun s i => s.putMem (a + i) (BitVec.ofNat 8 (v / 256 ^ i))) s).memByte q = s.memByte q := by
    intro l
    induction l with
    | nil => intro _ s _; rfl
    | cons i l ih =>
      intro hl s hs
      rw [List.foldl_cons, ih (fun j hj => hl j (by simp [hj])) _ (State.putMem_canonical _ _ hs)]
      have hi := hl i (by simp)
      exact State.memByte_putMem_other s _ hs (by omega)
  exact key (List.range n) (fun i hi => List.mem_range.1 hi) s hw

/-- A byte of the store that a view shows as it is held reads back what was written. -/
theorem State.storeByte_putStore_self (s : State) {o : Nat} (b : Byte) (hw : s.Canonical)
    (h : storeRegion o ≠ .keys ∧ storeRegion o ≠ .spare ∧ storeRegion o ≠ .audit) : (s.putStore o b).storeByte o = b := by
  have hm : Store.get (shipped o) o (s.putStore o b).nvm.bytes = b := Store.get_put_self shipped o b s.nvm.bytes hw.bytes
  unfold State.storeByte
  generalize o - 0x1A00000 = r
  rw [hm]
  split <;> simp_all

theorem State.storeByte_putStore_other (s : State) {o q : Nat} (b : Byte) (hw : s.Canonical) (hq : q ≠ o) : (s.putStore o b).storeByte q = s.storeByte q := by
  have hm : Store.get (shipped q) q (s.putStore o b).nvm.bytes = Store.get (shipped q) q s.nvm.bytes :=
    Store.get_put_other shipped b s.nvm.bytes hw.bytes hq _
  have ha : ∀ r, (s.putStore o b).auditByte r = s.auditByte r := fun r => rfl
  unfold State.storeByte
  generalize q - 0x1A00000 = r
  rw [hm, ha]

end Sys2Proof.Machine
end

