-- ==== Sys2Proof/Laws/Tables.lean ====
section
/-! SUPPORT. Placement of keys in the exact-match tables (R209, R210): a choice among candidates is one of them, and a key with a free slot in
its buckets finds a place. -/
namespace Sys2Proof.Machine

/-- A choice is made wherever there is a candidate. -/
theorem choose_isSome {α : Type} (k : Nat) (l : List α) (h : l ≠ []) : (choose k l).isSome = true := by
  have hl : 0 < l.length := List.length_pos_iff.mpr h
  simp [choose, Nat.mod_lt _ hl]

/-- What is chosen is one of the candidates. -/
theorem choose_mem {α : Type} {k : Nat} {l : List α} {x : α} (h : choose k l = some x) : x ∈ l :=
  List.mem_of_getElem? h

/-- A key with a free slot in its buckets is placed without a move. -/
theorem place_of_free (t : EmTab) (k kicks : Nat) (keyAt : Nat → Option (List Byte)) (key : List Byte)
    (h : (t.slots key).filter (fun i => (keyAt i).isNone) ≠ []) :
    ∃ i, i ∈ t.slots key ∧ keyAt i = none ∧ t.place k kicks keyAt key = some ⟨[], i⟩ := by
  obtain ⟨i, hi⟩ := Option.isSome_iff_exists.mp (choose_isSome k _ h)
  have hm := List.mem_filter.mp (choose_mem hi)
  exact ⟨i, hm.1, by simpa using hm.2, by simp [EmTab.place, hi]⟩

/-- The MAC slots without the copies of an entry's key, as an insertion sees them (R209, R210). -/
def State.othersOf (s : State) (e : MacEnt) : List (Nat × MacEnt) := s.tab.mac.filter (fun x => !(x.2.mac == e.mac && x.2.vid == e.vid))

/-- A MAC entry whose buckets have a free slot is inserted. -/
theorem macInsert_isSome (s : State) (e : MacEnt) (hb : (s.em 0).banks ≠ 0)
    (h : ((s.em 0).slots (macKey e.mac e.vid)).filter
      (fun i => (((s.othersOf e).find? (fun x => x.1 == i)).map (fun x => macKey x.2.mac x.2.vid)).isNone) ≠ []) :
    (s.macInsert e).isSome = true := by
  obtain ⟨i, _, _, hp⟩ := place_of_free (s.em 0) s.freeCtr s.maxKicks
    (fun i => ((s.othersOf e).find? (fun x => x.1 == i)).map (fun x => macKey x.2.mac x.2.vid)) _ h
  have he : s.fresh.2.em 0 = s.em 0 := rfl
  have hk : (s.fresh.2.setMac (s.othersOf e)).maxKicks = s.maxKicks := rfl
  have ht : (s.fresh.2.setMac (s.othersOf e)).tab.mac = s.othersOf e := rfl
  have h1 : s.fresh.1 = s.freeCtr := rfl
  have ho : s.fresh.2.tab.mac.filter (fun x => !(x.2.mac == e.mac && x.2.vid == e.vid)) = s.othersOf e := rfl
  simp only [State.macInsert, he, ho, hb, if_false, hk, ht, h1, hp, Option.isSome_some]

end Sys2Proof.Machine
end

