-- ==== Sys2Proof/Laws/Words.lean ====
section
/-! SUPPORT. Bits and fields of words: single bits set and cleared, a field written and read back. -/
namespace Sys2Proof.Machine

/-- One bit of the word that has bit `b` alone. -/
theorem oneBit_bit (b i : Nat) (hi : i < 32) : bit (oneBit b) i = decide (i = b) := by
  unfold bit oneBit
  rw [BitVec.getLsbD_shiftLeft]
  by_cases h : i < b
  · simp [h, hi]; omega
  · simp only [hi, decide_true, h, decide_false, Bool.not_false, Bool.and_self, Bool.true_and]
    have : (1#32).getLsbD (i - b) = decide (i - b = 0) := by
      simp [BitVec.getLsbD_one]
    rw [this]
    congr 1
    apply propext
    omega

@[simp] theorem bit_or (v w : Word) (i : Nat) : bit (v ||| w) i = (bit v i || bit w i) := BitVec.getLsbD_or

@[simp] theorem bit_and (v w : Word) (i : Nat) : bit (v &&& w) i = (bit v i && bit w i) := BitVec.getLsbD_and

/-- A bit set reads as set. -/
theorem bit_or_oneBit_self (w : Word) (b : Nat) (h : b < 32) : bit (w ||| oneBit b) b = true := by
  simp [oneBit_bit b b h]

/-- Setting a bit leaves the others. -/
theorem bit_or_oneBit_other (w : Word) {b i : Nat} (h : i ≠ b) : bit (w ||| oneBit b) i = bit w i := by
  by_cases hi : i < 32
  · simp [oneBit_bit b i hi, h]
  · have h1 : ∀ v : Word, bit v i = false := fun v => BitVec.getLsbD_of_ge v i (by omega)
    simp [h1]

/-- A bit given reads as given. -/
theorem bit_putBit_self (w : Word) (b : Nat) (v : Bool) (h : b < 32) : bit (putBit w b v) b = v := by
  cases v
  · simp [putBit, BitVec.getLsbD_not, oneBit_bit b b h]
  · simp [putBit, oneBit_bit b b h]

/-- A field is below the power of its width. -/
theorem fld_lt (w : Word) (hi lo : Nat) : fld w hi lo < 2 ^ (hi + 1 - lo) := Nat.mod_lt _ (Nat.two_pow_pos _)

/-- Bit `i` of a field is bit `lo + i` of the word. -/
theorem fld_testBit (w : Word) {hi lo i : Nat} (h : i < hi + 1 - lo) : (fld w hi lo).testBit i = bit w (lo + i) := by
  simp [fld, Nat.testBit_mod_two_pow, h, Nat.testBit_div_two_pow, Nat.add_comm, BitVec.testBit_toNat]

/-- The mask of a field. -/
theorem fieldMask_bit (hi lo i : Nat) (h : hi < 32) : bit (word ((2 ^ (hi + 1 - lo) - 1) * 2 ^ lo)) i = decide (lo ≤ i ∧ i < hi + 1) := by
  by_cases hi32 : i < 32
  · have e : bit (word ((2 ^ (hi + 1 - lo) - 1) * 2 ^ lo)) i = ((2 ^ (hi + 1 - lo) - 1) * 2 ^ lo).testBit i := by
      rw [bit, word, BitVec.getLsbD_ofNat]; simp [hi32]
    rw [e, Nat.mul_comm, Nat.testBit_two_pow_mul]
    by_cases hl : lo ≤ i
    · simp only [hl, decide_true, Bool.true_and, true_and, Nat.testBit_two_pow_sub_one]
      congr 1; apply propext; omega
    · simp [hl]
  · have : bit (word ((2 ^ (hi + 1 - lo) - 1) * 2 ^ lo)) i = false := BitVec.getLsbD_of_ge _ i (by omega)
    rw [this]; symm; simp; omega

/-- Bits of a word with a field written. -/
theorem bit_setFld (w : Word) (hi lo v i : Nat) (h : hi < 32) :
    bit (setFld w hi lo v) i = if lo ≤ i ∧ i < hi + 1 then v.testBit (i - lo) else bit w i := by
  by_cases hi32 : i < 32
  · have hm := fieldMask_bit hi lo i h
    unfold setFld
    rw [bit_or, bit_and, bit_and, hm, show bit (~~~word ((2 ^ (hi + 1 - lo) - 1) * 2 ^ lo)) i = !bit (word ((2 ^ (hi + 1 - lo) - 1) * 2 ^ lo)) i from by
      simp [bit, hi32], hm]
    split
    · rename_i c
      have e : bit (word (v * 2 ^ lo)) i = (v * 2 ^ lo).testBit i := by
        rw [bit, word, BitVec.getLsbD_ofNat]; simp [hi32]
      rw [e, Nat.mul_comm, Nat.testBit_two_pow_mul]
      simp [c]
    · rename_i c; rw [decide_eq_false c]; simp
  · have h1 : ∀ v : Word, bit v i = false := fun v => BitVec.getLsbD_of_ge v i (by omega)
    rw [h1, h1, if_neg (by omega)]

/-- A field written reads back. -/
theorem fld_setFld_self (w : Word) (hi lo v : Nat) (h : hi < 32) (hv : v < 2 ^ (hi + 1 - lo)) : fld (setFld w hi lo v) hi lo = v := by
  apply Nat.eq_of_testBit_eq
  intro i
  by_cases c : i < hi + 1 - lo
  · rw [fld_testBit _ c, bit_setFld _ _ _ _ _ h, if_pos (by omega)]
    congr 1; omega
  · rw [Nat.testBit_lt_two_pow (lt_of_lt_of_le (fld_lt _ _ _) (Nat.pow_le_pow_right (by omega) (by omega))),
      Nat.testBit_lt_two_pow (lt_of_lt_of_le hv (Nat.pow_le_pow_right (by omega) (by omega)))]

/-- A field written leaves every field apart from it. -/
theorem fld_setFld_other (w : Word) (hi lo v j k : Nat) (h : hi < 32) (hd : hi < k ∨ j < lo) : fld (setFld w hi lo v) j k = fld w j k := by
  apply Nat.eq_of_testBit_eq
  intro i
  by_cases c : i < j + 1 - k
  · rw [fld_testBit _ c, fld_testBit _ c, bit_setFld _ _ _ _ _ h, if_neg (by omega)]
  · rw [Nat.testBit_lt_two_pow (lt_of_lt_of_le (fld_lt _ _ _) (Nat.pow_le_pow_right (by omega) (by omega))),
      Nat.testBit_lt_two_pow (lt_of_lt_of_le (fld_lt _ _ _) (Nat.pow_le_pow_right (by omega) (by omega)))]

/-- A field written leaves every bit outside it. -/
theorem bit_setFld_other (w : Word) (hi lo v i : Nat) (h : hi < 32) (hd : i < lo ∨ hi < i) : bit (setFld w hi lo v) i = bit w i := by
  rw [bit_setFld _ _ _ _ _ h, if_neg (by omega)]

end Sys2Proof.Machine
end

