-- ==== Sys2Proof/Tests/Slice0.lean ====
section
/-! SUPPORT. The model's own tests: for each check of the operands a term that it refuses, and for each statement states and operands that meet
its hypotheses, with what one command does there. Expected values come from the spec's rules. -/
namespace Sys2Proof.Tests
open Sys2Proof.Machine

/-- A running device whose listed registers hold the given values. -/
def mk (l : List (Nat × Nat × Nat)) : State :=
  l.foldl (fun s e => s.setReg e.1 e.2.1 (word e.2.2)) { State.reset with pow := { State.reset.pow with phase := 8 } }

/-- Latched configuration beside written configuration. -/
def cf (l : List (Nat × Nat × Nat)) (s : State) : State :=
  let s := l.foldl (fun s e => s.setReg e.1 e.2.1 (word e.2.2)) s
  { s with latched := l.foldl (fun m e => Store.put regReset (regKey e.1 e.2.1) (word e.2.2) m) s.latched }

/-- Every condition of a list holds. -/
abbrev all (l : List Bool) : Bool := l.all id

/-- The maps of the engines are in canonical form; the test looks at the tables that are listed. -/
def keyed (s : State) : Bool :=
  Store.wf (fun _ => 0#64) s.cp.coreRegs && Store.wf (fun _ => []) s.buf.fifo && Store.wf (fun _ => []) s.buf.queues
    && Store.setWf (s.buf.spill.map Prod.fst) && Store.setWf (s.port.arriving.map Prod.fst) && Store.wf (fun _ => 0) s.sprue.flow
    && Store.wf (fun _ => 0) s.pipe.nextSeq && Store.wf (fun _ => []) s.tab.base && s.tab.base.all (fun e => Store.wf (fun _ => []) e.2)
    && Store.setWf (s.voq.voqs.map Prod.fst) && Store.wf (fun _ => 0) s.voq.streams && Store.wf (fun _ => []) s.voq.grants
    && Store.wf (fun _ => []) s.time.txts && Store.wf (fun _ => (0, 0)) s.stat.part && Store.wf (fun _ => (0, 0)) s.stat.back
    && Store.wf (fun _ => 0) s.stat.flags

theorem get_of_all {α : Type} (P : α → Bool) (d : α) (hd : P d = true) (k : Nat) :
    ∀ m : List (Nat × α), m.all (fun e => P e.2) = true → P (Store.get d k m) = true
  | [], _ => hd
  | (j, v) :: t, h => by
    simp only [List.all_cons, Bool.and_eq_true] at h
    unfold Store.get
    split
    · exact h.1
    · split
      · exact hd
      · exact get_of_all P d hd k t h.2

theorem keyed_sound (s : State) (h : keyed s = true) : s.Keyed := by
  simp only [keyed, Bool.and_eq_true] at h
  obtain ⟨⟨⟨⟨⟨⟨⟨⟨⟨⟨⟨⟨⟨⟨⟨h1, h2⟩, h3⟩, h4⟩, h5⟩, h6⟩, h7⟩, h8⟩, h9⟩, h10⟩, h11⟩, h12⟩, h13⟩, h14⟩, h15⟩, h16⟩ := h
  exact ⟨h1, h2, h3, h4, h5, h6, h7, h8, fun t => get_of_all (Store.wf (fun _ => [])) [] rfl t _ h9, h10, h11, h12, h13, h14, h15, h16⟩

/-- The state after one command. -/
def go (i : Instr) (s : State) : State := match exec i s with | .next t => t | _ => State.reset

/-- The command answers a next state. -/
def nexts (i : Instr) (s : State) : Bool := match exec i s with | .next _ => true | _ => false

/-- A request frame with its length and CRC as R73 gives them. -/
def rq (a : Agent) (op : Nat) (ws : List Word) (flags : Byte := 0) (session : BitVec 16 := 0) : Request :=
  let r : Request := ⟨a, 0x21#8, flags, 0, BitVec.ofNat 16 ws.length, session, ws.flatMap wordBytes, 0⟩
  { r with crc := crc16 (reqHeader op r ++ r.body) }

/-- The last thing that an agent has been sent is the answer with this status and payload. -/
def said (s t : State) (r : Request) (st : Status) (l : List Word) : Bool :=
  decide (t.outbox r.agent = s.outbox r.agent ++ [s.carried r.agent ⟨r.tag, st, l⟩])

/-- A relay that has been sent. -/
def relayOf (seq agent : Nat) : Relay := ⟨seq, agent, false, false, false, false, 0x40000100#32, none, 1, [5], 1⟩

/-- A device whose firmware is ready and whose I3C session has both rights (R101). -/
def host (l : List (Nat × Nat × Nat)) : State := mk ([(pgHostif, 0x2000, 1), (pgRoles, 0x200C, 0x70001)] ++ l)

/-- A frame of the command EtherType to MAC address 0, padded. -/
def mgmtBytes (sub : Nat) (cmd : List Byte) : List Byte :=
  let f := beBytes 6 0 ++ beBytes 6 0x0200000000A1 ++ beBytes 2 0x88B5 ++ beBytes 2 sub ++ cmd
  f ++ List.replicate (60 - f.length) 0

/-- A record of a long operation. -/
def opRec (k : OpKind) (st : OpState) (phase : Byte) : OpRec := ⟨k, 1, st, .ok, phase, 0, 4, [0, 0, 0, 0], false, false, 1, 3, 1, [], [], 1, false⟩

/-- The state with a record of a long operation in slot 2. -/
def withOp (r : OpRec) (s : State) : State := { s with ops := { s.ops with recs := [(2, r)], serials := [(2, 1)], births := 1 } }

/-- Bank 0 runs two accepted ports, 0 and 1, up; MGMT is up. -/
def ports (l : List (Nat × Nat × Nat)) : State :=
  cf [(0x10, 0x100, 1), (0x10, 0x140, 0x81), (0x10, 0x144, 0x81), (0x10, 0x180, 0x103)] (host ([(0x10, 0xC, 2), (0x10, 0x1000, 3), (0x10, 0x2004, 3), (pgMgmt, 0xC, 2), (pgMgmt, 0x1000, 1),
    (pgMgmt, 0x2000, 1)] ++ l))

/-- A frame of `n` bytes with an EtherType. -/
def frameOf (n ty : Nat) : List Byte := beBytes 6 0x020000000001 ++ beBytes 6 0x020000000002 ++ beBytes 2 ty ++ List.replicate (n - 14) 7

/-- A frame as the pipelines hold it. -/
def frameIn (id port seq : Nat) : Frame := ⟨id, port, 0, false, seq, 1, some 0, frameOf 60 0x0800, 60, 0, true, false, 0, none⟩

/-- Nothing to report of a frame. -/
def noInfo : RecInfo := ⟨1, 0, false, 0, 0, 0, 0, 0, 0, 0, 0, 0, 0, [], 0, 0, 0, 0, false, 0, 0, []⟩

/-- A copy in a queue. -/
def copyIn (id port queue : Nat) : Copy := ⟨id, frameIn id 0 0, ⟨0, none, none, false, none, false⟩, .bare, .data, 0, port, queue, 0, false, false, false, 1, .shared, 0, 0, false, false, 0, 0, false, false, 0, 0, none, noInfo⟩

/-- Sprue group 0 runs with members 0 and 1 on the lanes of bank 1. -/
def link (l : List (Nat × Nat × Nat)) : State :=
  cf [(0x30, 0x100, 0x50101), (0x30, 0x104, 0xFFFF0908), (0x11, 0x100, 2)] (host ([(0x11, 0xC, 2), (0x11, 0x2000, 2), (0x30, 0xC, 2), (pgGlobal, 0x2000, 1), (pgGlobal, 0x2064, 1)] ++ l))

/-- A header of a cell with a good HEC. -/
def hdrOf (h : CellHdr) : BitVec 64 := BitVec.ofNat 64 (beNat h.bytes)

/-- The forwarding blocks run, the tables under carving 1, with the ports of bank 0. -/
def fwd (l : List (Nat × Nat × Nat)) : State :=
  cf [(pgTables, 0x100, 1)] (ports ((pgLadle, 0xC, 2) :: ([pgGlobal, pgParse, pgClassify, pgReorder, pgTables, pgEpoch, pgLearn, pgTm, pgCrucible, pgPipe].map (fun p => (p, 0xC, 2))) ++ l))

/-- The state with window words of table window `w`: the key, the data, the index. -/
def tableWin (w : Nat) (key data : List Nat) (ix : Nat) (s : State) : State :=
  let put := fun (base : Nat) (l : List Nat) (s : State) => (List.range l.length).foldl (fun s i => s.setWin pgTables w (base + i) (word (l.getD i 0))) s
  put 16 key (put 32 data (s.setWin pgTables w 2 (word ix)))

/-- A dynamic MAC entry. -/
def macEnt (mac dest : Nat) : MacEnt := ⟨BitVec.ofNat 48 mac, 5, false, false, BitVec.ofNat 20 dest, 0⟩

/-- A frame to be admitted to a queue of a port. -/
def admOf (port queue : Nat) : Adm := ⟨frameIn 9 0 0, .port port queue, 1, 0, 0, ⟨0, none, none, false, none, false⟩, .data, .bare, noInfo, [], false⟩

/-- A trunked device: group 0 is a fabric group with member 0 in both rotations and is a path to device 7, whose logical ID is 4. -/
def trunk (l : List (Nat × Nat × Nat)) : State :=
  let s := cf [(0x30, 0x100, 0x50100), (0x30, 0x104, 0xFFFFFF08), (0x11, 0x100, 2), (pgVoq, 0x108, 0x400001)] (fwd ([(0x11, 0xC, 2), (0x11, 0x2000, 2), (0x30, 0xC, 2), (pgGlobal, 0x2000, 2), (0x30, 0x2004, 0x10001), (0x30, 0x2008, 0x10001),
    (0x30, 0x2100, 6), (0x30, 0x2000, 1), (pgVoq, 0xC, 2), (pgCredit, 0xC, 2)] ++ l))
  (s.setWinA pgVoq 4 0x80000007#32).setWinA pgVoq 0x407 1

/-- A data cell that holds a whole frame of 100 bytes for port 1. -/
def wholeCell (seq : Nat) : DataCell := ⟨seq, true, true, [1, 1, 0x20, 0, 0, 0, 0, 100, 0, 0, 0, 0, 0, 0, 0, 0] ++ List.replicate 100 3⟩

set_option maxRecDepth 100000
set_option Elab.async false
/-- Each check of the operands refuses a term. -/
theorem test_illFormed :
    let b := { rq .bellows 4 [] with agent := .bellows }
    let c := rq (.app 1) 4 []
    let h := rq .i3c 4 []
    all [(Instr.registerWrite .i3c 0x40000100#32 .dword 5).wellFormed = false,
      (Instr.registerWrite (.core 0) 0x40000100#32 .byte 0x100).wellFormed = false,
      (Instr.registerWrite (.core 0) 0x40000100#32 .half 0x10000).wellFormed = false,
      (Instr.registerWrite .i3c 0x40000100#32 .word 0x100000000).wellFormed = false,
      ([Instr.readWords (.command b), .writeWords b, .writeMasked b, .fence b, .echo b, .loginChallenge b, .loginResponse b, .logout b, .logRead b].all (fun i => !i.wellFormed)),
      ([Instr.opSuspend c 0, .opResume c, .opCancel c 0, .opStatus c 0].all (fun i => !i.wellFormed)),
      ([Instr.epochCommit h, .tableLoad h, .tableFlush h, .snapshotSave h, .snapshotRestore h, .stateSync h, .memTest h, .fwUpdate h, .twicelRejoin h].all
    (fun i => !i.wellFormed)),
      (Instr.epochCommit (rq .i3c 0x10 [2])).wellFormed = false, (Instr.epochCommit (rq .bellows 0x10 [1])).wellFormed = false,
      ([Instr.coreHalt h, .coreResume h, .coreStep h 0 [], .coreRegRead h, .coreRegWrite h, .triggerSet h, .quench h, .qinfo h, Instr.qread h none, .thaw h 0, .detach h].all
    (fun i => !i.wellFormed)),
      (Instr.frameRx 0 [1, 2] false true false).wellFormed = false, (Instr.pfcRx 0 1 [1]).wellFormed = false,
      (Instr.flexeOverheadRx 0 ⟨0, 0, [1], [], false, false⟩).wellFormed = false, (Instr.cellRx 0 0 0 [] false []).wellFormed = false,
      (Instr.headerCandidate 0 0 0 [] true).wellFormed = false, (Instr.flowStatusRx 0 0 []).wellFormed = false,
      (Instr.flowStatusRx 0 0 (List.replicate 61 (1, 0))).wellFormed = false,
      (Instr.creditGrantRx 0 (List.replicate 21 (1, 0, 0))).wellFormed = false, (Instr.learnRx 0 []).wellFormed = false,
      (Instr.learnRx 0 (List.replicate 16 0)).wellFormed = false, (Instr.dataCellRx 0 0 0 true true (List.replicate 249 0)).wellFormed = false,
      (Instr.configRelayRx 0 0 0 0 (List.replicate 57 0)).wellFormed = false, (Instr.journalRx 0 0 (List.replicate 57 0)).wellFormed = false,
      (Instr.timeRequestRx 0 0 0 (BitVec.ofNat 96 (1000000000 * 65536))).wellFormed = false,
      (Instr.timeResponseRx 0 0 0 0 0 (BitVec.ofNat 96 (1000000000 * 65536))).wellFormed = false,
      (Instr.pmbusPoll [] (List.replicate 7 0) []).wellFormed = false] := by
  decide +kernel

/-- Terms at the bounds of these checks are taken. -/
theorem test_wellFormed :
    let h := rq .i3c 4 []
    all [(Instr.registerWrite (.core 0) 0x40000100#32 .dword (BitVec.ofNat 64 (2 ^ 64 - 1))).wellFormed,
      (Instr.registerWrite .i3c 0x40000100#32 .word 0xFFFFFFFF).wellFormed, (Instr.fence h).wellFormed,
      (Instr.opStatus (rq (.core 1) 0x14 []) 0).wellFormed, (Instr.epochCommit (rq (.core 1) 0x10 [1])).wellFormed,
      (Instr.coreHalt (rq .debug 0x40 [1])).wellFormed, (Instr.frameRx 0 (List.replicate 256 0) false true false).wellFormed,
      (Instr.pfcRx 0 1 (List.replicate 8 0)).wellFormed, (Instr.cellRx 0 0 0 (List.replicate 248 0) false []).wellFormed,
      (Instr.flowStatusRx 0 0 (List.replicate 60 (1, 0))).wellFormed, (Instr.creditGrantRx 0 (List.replicate 20 (1, 0, 0))).wellFormed,
      (Instr.learnRx 0 (List.replicate 15 0)).wellFormed, (Instr.timeRequestRx 0 0 0 (BitVec.ofNat 96 (999999999 * 65536))).wellFormed,
      (Instr.pmbusPoll (List.replicate 7 0) (List.replicate 7 0) []).wellFormed] := by
  decide +kernel

/-- A sound page is ENABLING with its configuration latched; a page with a broken word is SAFE with PARITY. -/
theorem wit_BlockEnableLatches :
    let s := mk [(pgMgmt, 8, 0x3E80001), (pgMgmt, 0x100, 1)]
    let u : State := { s with upset := [regKey pgMgmt 0x100] }
    let t := go (.blockEnable 15) s
    let v := go (.blockEnable 15) u
    all [s.Canonical, s.stands = false, (pageRow pgMgmt).isSome, s.blk pgMgmt = 0, s.enableBit pgMgmt = true, s.resetting pgMgmt = false,
      bit (s.reg pgGlobal 0x2068) 0 = false, s.upset.filter (cfgKey pgMgmt) = [], u.upset.filter (cfgKey pgMgmt) ≠ [], nexts (.blockEnable 15) s,
      t.blk pgMgmt = 1, t.cfg pgMgmt 0x100 = s.reg pgMgmt 0x100, s.cfg pgMgmt 0x100 ≠ t.cfg pgMgmt 0x100, v.blk pgMgmt = 4,
      bit (v.reg pgMgmt 0x10) 0 = true] := by
  decide +kernel

/-- A ready page is ENABLED. -/
theorem wit_BlockReadyEnables :
    let s := mk [(pgMgmt, 8, 0x3E80001), (pgMgmt, 0xC, 1)]
    let t := go (.blockReady 15) s
    all [s.Canonical, s.stands = false, (pageRow pgMgmt).isSome, s.blk pgMgmt = 1, s.enableBit pgMgmt = true, s.heldEnabling pgMgmt = false,
      t.blk pgMgmt = 2, t.cfg pgMgmt 0x100 = s.cfg pgMgmt 0x100] := by
  decide +kernel

/-- An ENABLED page drains, or is DISABLED at once; ENABLING, SAFE and drained pages are DISABLED. -/
theorem wit_BlockDisables :
    let s := mk [(pgClassify, 0xC, 2)]
    let z := mk [(pgClassify, 0xC, 2), (pgClassify, 8, 2)]
    let e := mk [(pgClassify, 0xC, 1)]
    let f := mk [(pgClassify, 0xC, 4)]
    let d := mk [(pgClassify, 0xC, 3)]
    all [s.Canonical, s.stands = false, (pageRow pgClassify).isSome, s.enableBit pgClassify = false, s.blk pgClassify = 2,
      (go (.blockDisable 0x51) s).blk pgClassify = 3, bit (z.reg pgClassify 8) 1 = true, z.blk pgClassify = 2,
      (go (.blockDisable 0x51) z).blk pgClassify = 0, e.blk pgClassify = 1, (go (.blockDisable 0x51) e).blk pgClassify = 0, f.blk pgClassify = 4,
      (go (.blockDisable 0x51) f).blk pgClassify = 0, d.Canonical, d.blk pgClassify = 3, d.workCount pgClassify = 0,
      (go (.drainComplete 0x51) d).blk pgClassify = 0, (go (.drainTimeout 0x51) d).blk pgClassify = 0,
      (go (.drainTimeout 0x51) d).reg pgClassify 0x30 = 0, d.reaches (.core 0) pgClassify 8 (d.reg pgClassify 8 ||| 2#32), d.ownWord pgClassify 8,
      (go (.drainDiscard (.core 0) 0x51) d).blk pgClassify = 0] := by
  decide +kernel

/-- A clean pass counts itself; an upset word takes its running page to SAFE. -/
theorem wit_ScrubFindsParity :
    let s := mk [(pgMgmt, 0xC, 2)]
    let t := go (.scrubPass []) s
    let v := go (.scrubPass [(word (regKey pgMgmt 0x100), 3)]) s
    all [s.stands = false, s.Canonical, s.upset = [], s.reported = [], s.ops.rest = none, t.regFld pgGlobal 0x2020 15 0 = 1,
      t.reg pgMgmt 0xC = s.reg pgMgmt 0xC, v.reg pgMgmt 0x100 = s.reg pgMgmt 0x100 ^^^ 8#32, bit (v.reg pgMgmt 0x10) 0 = true, v.blk pgMgmt = 4,
      v.regFld pgGlobal 0x2020 15 0 = 1] := by
  decide +kernel

/-- A page reset is taken, and ends. -/
theorem wit_PageResets :
    let s := mk [(pgMgmt, 0x100, 1)]
    let t := go (.blockReset (.core 0) 15) s
    let u := go .blockResetComplete t
    all [s.Canonical, s.resetPage = none, s.blk pgMgmt = 0, s.reaches (.core 0) pgGlobal 0x100C (word (15 + 0x80000000)), t.resetPage = some 15,
      bit (t.reg pgGlobal 0x100C) 31 = true, t.reg pgMgmt 0x100 = regReset (regKey pgMgmt 0x100), t.stands = false, u.resetPage = none,
      bit (u.reg pgGlobal 0x100C) 31 = false, u.blk pgMgmt = t.blk pgMgmt] := by
  decide +kernel

/-- A write of MGMT_CFG is held while MGMT is DISABLED and refused while it is ENABLED. -/
theorem wit_ConfigWordWrite :
    let s := mk []
    let e := mk [(pgMgmt, 0xC, 2)]
    let t := go (.registerWrite (.core 0) (word (regAddr pgMgmt 0x100)) .word 3) s
    let v := go (.registerWrite (.core 0) (word (regAddr pgMgmt 0x100)) .word 3) e
    all [s.Canonical, (pageRow pgMgmt).map PageRow.kind = some .mgmt, (regRow .mgmt 0x100).isSome, s.reaches (.core 0) pgMgmt 0x100 3,
      s.ownWord pgMgmt 0x100, s.accepts (.core 0) pgMgmt 0x100 3, t.reg pgMgmt 0x100 = 3 &&& word ((regRow .mgmt 0x100).map RegRow.rw |>.getD 0),
      t.cfg pgMgmt 0x100 = s.cfg pgMgmt 0x100, e.blk pgMgmt ≠ 0, ¬ e.accepts (.core 0) pgMgmt 0x100 3, v.reg pgMgmt 0x100 = e.reg pgMgmt 0x100] := by
  decide +kernel

/-- A write to the alias of LEARN_CTRL bit 1 sets that bit. -/
theorem wit_AliasWritesOneBit :
    let s := mk [(pgLearn, 0x1004, 1)]
    let t := go (.bitAliasWrite (.core 0) 0x54 1 1 1) s
    all [s.Canonical, (pageRow 0x54).map PageRow.kind = some .learn,
      (((regRow .learn 0x1004).map (fun r => bit (word r.rw) 1 && !bit (word r.w1c) 1)) = some true),
      s.reaches (.core 0) 0x54 (0x4000 + (1 * 32 + 1) * 4) 1, s.ownWord 0x54 0x1004, t.reg pgLearn 0x1004 = 3] := by
  decide +kernel

/-- TOPOLOGY takes TRUNKED and forces BALANCED, refuses 3; ENGINE_PROFILE takes LEAN and refuses what R32 rejects. -/
theorem wit_TopologyAndProfile :
    let s := mk []
    let e := mk [(pgGlobal, 0xC, 2)]
    let t := go (.topologyWrite (.core 0) 2) s
    all [s.Canonical, s.partnerJoined = false, s.blk pgGlobal = 0, e.blk pgGlobal ≠ 0, (go (.topologyWrite (.core 0) 2) e).reg pgGlobal 0x100 = 0,
      (go (.engineProfileWrite (.core 0) 2) e).reg pgGlobal 0x104 = 0, s.reaches (.core 0) pgGlobal 0x100 2, t.reg pgGlobal 0x100 = 2,
      t.reg pgGlobal 0x104 = 4, (go (.topologyWrite (.core 0) 1) t).reg pgGlobal 0x104 = 0, s.reaches (.core 0) pgGlobal 0x100 3,
      bit ((go (.topologyWrite (.core 0) 3) s).reg pgGlobal 0x2000) 16 = true, (go (.topologyWrite (.core 0) 3) s).reg pgGlobal 0x100 = 0,
      s.reaches (.core 0) pgGlobal 0x104 3, (go (.engineProfileWrite (.core 0) 3) s).reg pgGlobal 0x104 = 3, s.reaches (.core 0) pgGlobal 0x104 4,
      bit ((go (.engineProfileWrite (.core 0) 5) s).reg pgGlobal 0x2000) 17 = true,
      (go (.engineProfileWrite (.core 0) 4) s).reg pgGlobal 0x104 = 0, (go (.engineProfileWrite (.core 0) 0) t).reg pgGlobal 0x104 = 4] := by
  decide +kernel

/-- Tokens are held for their agent; FENCE_DONE takes one when no relay of the agent is outstanding, and commands wait likewise. -/
theorem wit_FencesComplete :
    let s := mk [(pgHostif, 0x2000, 1)]
    let w : State := { s with pair := { s.pair with relays := [relayOf 0 1], relayNext := 1 } }
    let b : State := { s with tab := { s.tab with busyWin := [(2, Agent.i3c)] } }
    let t := go (.fenceWrite .i3c 7) (mk [(pgRoles, 0x200C, 0x20001)])
    let i := mk [(pgRoles, 0x200C, 0x20001)]
    let f := go (.writeWords (rq .i3c opWRITE [0x40000100, 1, 1] 1)) w
    all [i.Canonical, i.reaches .i3c pgGlobal 0x1000 7, t.fenceWord 1 pgGlobal 0x1000 = 7,
      (go (.fenceDone .i3c) t).fenceWord 1 pgGlobal 0x1004 = 7, (go (.fenceDone .i3c) t).fenceWord 2 pgGlobal 0x1004 = 0,
      i.reaches .i3c pgTables 0x1000 9, (go (.tablesFenceDone .i3c) (go (.tablesFenceWrite .i3c 9) i)).fenceWord 1 pgTables 0x1004 = 9,
      s.stands = false, s.lastRelay Agent.i3c.id = none, i.fencePassed 1 pgGlobal = true,
      (go (.fenceWrite .i3c 7) { i with pair := w.pair }).fencePassed 1 pgGlobal = false, t.stands = false, w.lastRelay Agent.i3c.id = some 0,
      go (.fenceDone .i3c) (go (.fenceWrite .i3c 7) { i with pair := w.pair }) = go (.fenceWrite .i3c 7) { i with pair := w.pair },
      (go (.tablesFenceWrite .i3c 9) { i with pair := w.pair }).fencePassed 1 pgTables = false, i.fencePassed 1 pgTables = true,
      i.tab.busyWin = [], go (.tablesFenceDone .i3c) b = b, s.takes opFENCE (rq .i3c opFENCE []),
      said s (go (.fence (rq .i3c opFENCE [])) s) (rq .i3c opFENCE []) .ok [], w.takes opFENCE (rq .i3c opFENCE []),
      (go (.fence (rq .i3c opFENCE [])) w).host.resp = [], (go (.fence (rq .i3c opFENCE [])) w).host.waiting.length = 1, w.listens .i3c,
      (w.arrived .i3c).reqCheck .i3c opECHO (rq .i3c opECHO [4] 1) = none, (go (.echo (rq .i3c opECHO [4] 1)) w).host.ordered.length = 1,
      f.listens .i3c, (f.host.ordered.any (fun d => d.rq.agent == .i3c && writesWords d.op)),
      (f.arrived .i3c).reqCheck .i3c opFENCE (rq .i3c opFENCE []) = none, (go (.fence (rq .i3c opFENCE [])) f).host.ordered.length = 2]
    && all [said s (go (.echo (rq .i3c opECHO [4] 1)) s) (rq .i3c opECHO [4] 1) .ok [4]] := by
  decide +kernel

/-- A lock is taken, kept from another agent, and released. -/
theorem wit_LockOwnership :
    let s := mk [(pgRoles, 0x200C, 0x20001)]
    let t := go (.lockAcquire .i3c 63) s
    all [s.Canonical, s.lockOwner 63 = 0, s.reaches .i3c pgLocks (0x1000 + 4 * 63) 1, t.lockOwner 63 = 1, fld (t.lockW 63) 31 16 = 1,
      t.lockW 62 = 0, s.safe pgLocks = false, (s.setReg pgLocks 0xC 4).reaches .i3c pgLocks (0x1000 + 4 * 63) 1,
      (go (.lockAcquire .i3c 63) (s.setReg pgLocks 0xC 4)).lockW 63 = 0, t.reaches .i3c pgLocks (0x1000 + 4 * 63) 0,
      (go (.lockRelease .i3c 63) t).lockOwner 63 = 0, ¬ t.accepts (.core 0) pgLocks (0x1000 + 4 * 63) 4,
      ¬ t.accepts (.core 0) pgLocks (0x1000 + 4 * 63) 0, (go (.lockAcquire (.core 0) 63) t).lockW 63 = t.lockW 63,
      (go (.lockRelease (.core 0) 63) t).lockW 63 = t.lockW 63] := by
  decide +kernel

/-- Each owner reset frees its owner's lock and no other, and ends its session. -/
theorem wit_OwnerResets :
    let s := mk [(pgRoles, 0x200C, 0x20001), (pgRoles, 0x2010, 0x20002), (pgLocks, 0x1000, 1), (pgLocks, 0x1004, 2), (pgLocks, 0x1008, 6), (pgLocks, 0x100C, 8), (pgHostif, 0x2000, 0x1)]
    let a : State := { mk [(pgDebug, 0x2000, 1), (pgLocks, 0x100C, 8), (pgDebug, 0x100, 0x10000)] with latched := [(regKey pgDebug 0x100, 0x10000#32)] }
    all [s.Canonical, s.stands = false, bit (s.reg pgMgmt 0x2000) 0 = false, (List.range 4).map (go .mgmtLinkLoss s).lockOwner = [1, 0, 6, 8],
      (go .mgmtLinkLoss s).sessionOf .mgmt = 0, bit ((go .mgmtLinkLoss s).lockW 1) 8 = true,
      (List.range 4).map (go (.fatalFaultEntry 2) s).lockOwner = [1, 2, 0, 8], (List.range 4).map (go .i3cBusReset s).lockOwner = [0, 2, 6, 8],
      (go .i3cBusReset s).sessionOf .i3c = 0, (List.range 4).map (go .i3cTargetReset s).lockOwner = [0, 2, 6, 8],
      (bit (s.cfg pgHostif 0x100) 1 = false), (List.range 4).map (go .rstactWholeReset s).lockOwner = [0, 2, 6, 8],
      (bit ((cf [(pgHostif, 0x100, 2)] s).cfg pgHostif 0x100) 1 = true), (go .rstactWholeReset (cf [(pgHostif, 0x100, 2)] s)).pow.phase = 6,
      a.attached = true, a.stands = false, (go .debugDetach a).lockOwner 3 = 0, (go .debugDetach a).attached = false,
      a.cfgFld pgDebug 0x100 31 16 = 1, (go .detachIdleExpire a).attached = false, (go .detachIdleExpire a).lockOwner 3 = 0] := by
  decide +kernel

/-- A fault stops the application; resets of the cores free their locks; the watchdog's end is one. -/
theorem wit_CoresAndApplications :
    let s := cf [(pgCpctl, 0x100, 0xE), (pgCpctl, 0x120, 5)] (mk [(pgCpctl, 0xC, 2), (pgCpctl, 0x2000, 0x20F), (pgLocks, 0x1000, 4), (pgLocks, 0x1004, 6), (pgHostif, 0x2000, 1), (pgDebug, 0x1000, 3)])
    all [s.Canonical, s.stands = false, s.appOn 1 = true, bit ((go (.appFault 1 .misaligned 0x1234) s).reg pgCpctl 0x2000) 9 = false,
      (go (.appFault 1 .misaligned 0x1234) s).reg pgCpctl 0x2008 = word (3 + 16 * 1),
      (go (.appFault 1 .misaligned 0x1234) s).reg pgCpctl 0x200C = 0x1234, (go (.appFault 1 .accessFault 0x1234) s).reg pgCpctl 0x2010 = 1,
      (go (.appFault 1 .illegalInstr 0x1234) s).reg pgCpctl 0x2008 = word (2 + 16 * 1), s.cfgFld pgCpctl 0x120 15 0 ≠ 0,
      (go (.appCpuLimit 1) s).reg pgCpctl 0x2008 = word (4 + 16 * 1), s.reaches (.core 3) pgCpctl 0x1000 1,
      (go (.coreResetAll (.core 3)) s).lockOwner 1 = 0, (bit ((go (.coreResetAll (.core 3)) s).reg pgHostif 0x2000) 0 = false),
      s.reaches (.core 3) pgCpctl 0x1000 8, (go (.coreResetOne (.core 3) 1) s).lockOwner 0 = 4, (go (.coreResetOne (.core 3) 1) s).lockOwner 1 = 0,
      s.reaches (.core 3) pgCpctl 0x1004 0x5A, (go (.wdtKick (.core 3) 0x5A) s).reg pgCpctl 0x2000 = s.reg pgCpctl 0x2000, keyed s,
      (go (.appFault 1 .illegalInstr 0x1234) s).coreReg 1 0x1343 = 0x1234, bit (s.reg pgCpctl 0x1008) 16 = false,
      go .wdtExpired (s.setReg pgCpctl 0x1008 0x10000) = s.setReg pgCpctl 0x1008 0x10000, s.cp.halted = [],
      bit ((go .wdtExpired s).reg pgCpctl 0x2000) 10 = true, (go .wdtExpired s).lockOwner 1 = 0] := by
  decide +kernel

/-- Addresses are taken, changed and lost; CCCs are answered where they name the device. -/
theorem wit_I3cTargetAnswers :
    let s := mk []
    let d := go (.setdasa 0x58 0x30) s
    all [s.Canonical, s.inReset = false, s.dynValid = false, s.staticAddr = 0x58, d.dynValid = true, d.dynAddr = 0x30, d.host.reply = .ack,
      (go (.entdaa 0x31) s).dynAddr = 0x31,
      ((match (go (.entdaa 0x31) s).host.reply with | .data l => l.take 7 | _ => []) = beBytes 6 s.pid ++ [bcr]),
      (go (.entdaa 0x31) d).host.reply = .silent, (go (.setdasa 0x57 0x31) s).dynValid = false, (go (.setnewda 0x31 0x32) d).dynAddr = 0x30,
      d.cccReaches (some 0x31) = false, (go (.enec (some 0x31)) d).host.reply = .silent, (go (.setnewda 0x30 0x32) d).dynAddr = 0x32,
      (go .rstdaa d).dynValid = false, d.i3cMine 0x30 = true, d.i3cMine 0x31 = false,
      (go (.getpid 0x30) d).host.reply = .data (beBytes 6 (0x2D4E * 2 ^ 33 + 0x2880 * 2 ^ 16)), (go (.getpid 0x31) d).host.reply = .silent,
      (go (.getbcr 0x30) d).host.reply = .data [0x26#8], ((match (go (.getdcr 0x30) d).host.reply with | .data l => l.length | _ => 0) = 1),
      ((match (go (.getstatus 0x30) d).host.reply with | .data l => l.length | _ => 0) = 2),
      ((match (go (.getmxds 0x30) d).host.reply with | .data l => l.length | _ => 0) = 2),
      (go (.unsupportedCcc 0x99 (some 0x30)) d).host.reply = .nack, (go (.unsupportedCcc 0x99 (some 0x31)) d).host.reply = .silent,
      (go (.unsupportedCcc 0x19 none) d).host.reply = .silent, d.cccReaches none = true, d.cccReaches (some 0x30) = true,
      (go (.disec none) d).host.ibiOff = true]
    && all [(go (.enec (some 0x30)) (go (.disec none) d)).host.ibiOff = false, (bit (d.cfg pgHostif 0x100) 0 = true),
      (go .enthdr0 d).host.hdr = true, (go .enthdr0 (cf [(pgHostif, 0x100, 4)] d)).host.hdr = false] := by
  decide +kernel

/-- Reads take the oldest response; an acknowledged interrupt leaves, a refused one waits. -/
theorem wit_ReadsAndInterrupts :
    let s := mk []
    let r : State := { s with host := { s.host with resp := [[1], [2]] } }
    let p := go (.setdasa 0x58 0x30) (mk [(pgHostif, 0x14, 0x10000), (pgHostif, 0x18, 0x10000), (pgHostif, 0x1000, 0x222222)])
    let d := go (.setdasa 0x58 0x30) { s with host := { s.host with ibis := [(1, 0), (2, 3)] } }
    all [s.inReset = false, (go .privateRead s).host.reply = .nack, (go .privateRead r).host.reply = .data [1],
      (go .privateRead r).host.resp = [[2]], (0x58#7).toNat = s.staticAddr, s.dynValid = false,
      (go (.i2cTransfer 0x58 .read) r).host.reply = .data [1],
      (go (.i2cTransfer 0x58 (.write (reqHeader opECHO (rq .i3c opECHO []) ++ beBytes 2 (rq .i3c opECHO []).crc.toNat))) s).host.resp = [(⟨0x21, .ok, []⟩ : Response).bytes],
      (go (.i2cTransfer 0x58 (.write [])) { s with host := { s.host with resp := List.replicate 8 [1] } }).host.reply = .nack, p.host.ibis = [],
      p.forgetGroups.newGroup.isSome, p.dynValid = true, (go (.ibiRequest true) p).host.ibiLast.isSome, d.host.ibis = [(1, 0), (2, 3)],
      d.host.ibiOff = false, d.dynValid = true, (go (.ibiRequest true) d).host.ibis = [(2, 3)],
      (go (.ibiRequest true) d).host.ibiLast = some (1, 0), (go (.ibiRequest false) d).host.ibis = d.host.ibis,
      (go (.ibiRequest true) (go (.disec none) d)).host.ibis = d.host.ibis] := by
  decide +kernel

/-- A command is answered, a frame for another receiver is discarded, any other enters the data path. -/
theorem wit_MgmtFrames :
    let s := mk [(pgMgmt, 0xC, 2), (pgMgmt, 0x1000, 1), (pgMgmt, 0x2000, 1), (pgHostif, 0x2000, 1)]
    let e := rq .mgmt opECHO [7]
    let c := mgmtBytes 1 (reqHeader opECHO e ++ e.body ++ beBytes 2 e.crc.toNat)
    let d := mgmtBytes 2 []
    let x := mgmtBytes 0 []
    let v : State := go (.frameRx 241 (frameOf 256 0x0800) false true false) s
    all [s.Canonical, s.stands = false, s.macTakes 241 = true, (s.incReg pgMgmt 0x2004).macRow 241 c true = 5,
      (go (.mgmtFrameRx c true false) s).host.mgmtOut.length = 1,
      ((go (.mgmtFrameRx c true false) s).host.mgmtOut.getD 0 []).take 6 = beBytes 6 0x0200000000A1,
      (s.incReg pgMgmt 0x2004).macRow 241 d true = 5, ((go (.mgmtFrameRx d true false) s).reg pgHostif 0x2018 = 1),
      (s.incReg pgMgmt 0x2004).macRow 241 x true = 5, ((go (.mgmtFrameRx x true false) s).port.fifos.map Prod.fst) = [241], s.port.arriving = [],
      (v.port.arriving.any (fun e => e.1 == 241)), (go (.mgmtFrameRx x true false) v).port.arriving = [], (mk []).macTakes 241 = false,
      go (.mgmtFrameRx x true false) (mk []) = mk [], (s.incReg pgMgmt 0x2004).macRow 241 x false = 0,
      (go (.mgmtFrameRx x false false) s).port.fifos = []] := by
  decide +kernel

/-- A good request is executed, one with a wrong CRC is answered BAD_CRC, and a quenched device answers BUSY. -/
theorem wit_CommandChecks :
    let s := host []
    let q := host [(pgDebug, 0x2000, 0x100)]
    let g := rq .i3c opECHO [1, 2]
    let b := { g with crc := g.crc + 1 }
    all [s.Canonical, s.takes opECHO g, said s (go (.echo g) s) g .ok [1, 2], s.listens .i3c,
      (s.arrived .i3c).reqCheck .i3c opECHO b = some .badCrc, bit (b.flags.setWidth 32) 1 = false, said s (go (.echo b) s) b .badCrc [],
      (s.arrived .i3c).reqCheck .i3c opECHO (rq .i3c opECHO [] 4) = some .badOpcode,
      (s.arrived .i3c).reqCheck .i3c opECHO (rq .i3c opECHO [] 0 9) = some .denied,
      (s.arrived .i3c).reqCheck .i3c opFENCE (rq .i3c opFENCE [1]) = some .badLength, q.inReset = false, q.quenched = true,
      quenchOk .i3c opFENCE [] = false, (q.arrived .i3c).reqCheck .i3c opFENCE (rq .i3c opFENCE []) = none,
      said q (go (.fence (rq .i3c opFENCE [])) q) (rq .i3c opFENCE []) .busy []] := by
  decide +kernel

/-- Reads and writes of own words answer what they read and how many they wrote; relayed ones wait. -/
theorem wit_ReadWriteAnswers :
    let s := host []
    let w : State := { s with pair := { s.pair with relays := [relayOf 0 1], relayNext := 1 } }
    let r2 := rq .i3c opREAD [0x40002004#32, 2]
    let r0 := rq .i3c opREAD [0x40002004#32, 0] 0 9
    let w1 := rq .i3c opWRITE [0x40001010#32, 1, 0xA5#32] 0 1
    let w0 := rq .i3c opWRITE [0x40001010#32, 2, 0xA5#32] 0 1
    let m1 := rq .i3c opMASKED [0x40001010#32, 0xF0#32, 0xFF#32] 0 1
    let m0 := rq .i3c opMASKED [0x40001010#32, 0, 0xFF#32] 0 1
    let j := host [(pgGlobal, 0x2000, 1), (pgGlobal, 0x2064, 1), (pgPair, 0x2000, 2)]
    let rj := rq .i3c opREAD [0x41002004#32, 1] 0 1
    let wj := rq .i3c opWRITE [0x40500100#32, 1, 1] 0 1
    let mj := rq .i3c opMASKED [0x40500100#32, 1, 1] 0 1
    let ld : CoreLoad := ⟨1, false, 5, 0x40002004, .word, true, false⟩
    all [s.Canonical, s.takes opREAD r2, ownWords (reqWords r2), said s (go (.readWords (.command r2)) s) r2 .ok [0x5A4E2880#32, 0xB0#32],
      s.listens .i3c, reqByteCount r0 = 8 + 4 * r0.length.toNat + 2, reqByteCount w0 = 8 + 4 * w0.length.toNat + 2, r0.length.toNat ≤ 258,
      r0.crc = crc16 (reqHeader opREAD r0 ++ r0.body), w0.crc = crc16 (reqHeader opWRITE w0 ++ w0.body), r0.flags = 0, ctlCount 0 = 0,
      said s (go (.readWords (.command r0)) s) r0 .badLength [], s.takes opWRITE w1, ownWords (reqWords w1),
      said s (go (.writeWords w1) s) w1 .ok [1], (go (.writeWords w1) s).reg pgGlobal 0x1010 = 0xA5,
      w0.length.toNat ≠ 2 + ctlCount ((reqWords w0).getD 1 0), said s (go (.writeWords w0) s) w0 .badLength [], s.takes opMASKED m1,
      said s (go (.writeMasked m1) s) m1 .ok [1], (go (.writeMasked m1) s).reg pgGlobal 0x1010 = 0xF0, s.takes opMASKED m0,
      said s (go (.writeMasked m0) s) m0 .ok [0], j.takes opREAD rj,
      ((j.arrived .i3c).cmdRead .i3c ((j.arrived .i3c).cmdRights .i3c rj.session.toNat) (reqWords rj)).2.pair.relayNext = 1,
      (go (.readWords (.command rj)) j).host.waiting.length = 1, j.takes opWRITE wj,
      ((j.arrived .i3c).cmdWrite .i3c ((j.arrived .i3c).cmdRights .i3c wj.session.toNat) (reqWords wj)).2.pair.relayNext = 1,
      (go (.writeWords wj) j).host.waiting.length = 1]
    && all [j.takes opMASKED mj,
      ((j.arrived .i3c).cmdMasked .i3c ((j.arrived .i3c).cmdRights .i3c mj.session.toNat) (reqWords mj)).2.pair.relayNext = 1,
      (go (.writeMasked mj) j).host.waiting.length = 1, keyed s, s.stands = false, s.cp.halted = [],
      (s.loadPages (.core 1) 0x40002004 .word).1 = .ok, (go (.readWords (.load ld)) s).coreReg 1 5 = 0x5A4E2880, inPages 0x50000000 = false,
      inMap 0x50000000 4 = false, (go (.readWords (.load { ld with addr := 0x50000000 })) s).coreReg 1 0x1342 = 5, inMap 0x10000000 4 = true,
      (go (.readWords (.load { ld with addr := 0x10000000 })) (s.putMemBytes 0x10000000 4 0x80000001)).coreReg 1 5 = 0xFFFFFFFF80000001,
      w.takes opFENCE (rq .i3c opFENCE []), (go (.fence (rq .i3c opFENCE [])) w).outbox .i3c = w.outbox .i3c] := by
  decide +kernel

/-- A challenge is issued or refused; a wrong code is refused; sessions end. -/
theorem wit_LoginSessions :
    let s := mk [(pgHostif, 0x2000, 1), (pgRoles, 0x2000, 0)]
    let b := host []
    let l : State := { s with host := { s.host with lockedOut := [(1, 99)] } }
    let c := rq .i3c opCHALLENGE [1]
    let p : State := { s with host := { s.host with challenges := [(1, (⟨7, 5, 1⟩ : Challenge))] } }
    let a := rq .i3c opRESPONSE [word (7 + 0x10000), 0, 0, 0, 0, 0, 0, 0, 0]
    let o := rq .i3c opLOGOUT [] 0 1
    all [s.Canonical, s.takes opCHALLENGE c, s.lockedOut .i3c = false, l.lockedOut .i3c = true, s.safe pgRoles = false, s.keyBlank 1 = false,
      (go (.loginChallenge c) s).host.challenges.map Prod.fst = [1], l.takes opCHALLENGE c, said l (go (.loginChallenge c) l) c .denied [],
      b.keyBlank 1 = true, said b (go (.loginChallenge c) b) c .denied [], p.takes opRESPONSE a,
      ((p.host.challenges.find? (fun e => e.1 == 1)).isSome), fld ((reqWords a).getD 0 0) 15 0 = 7, fld ((reqWords a).getD 0 0) 17 16 = 1,
      b.takes opLOGOUT o, o.session ≠ 0, (go (.logout o) b).sessionOf .i3c = 0, said b (go (.logout o) b) o .ok [],
      (go (.challengeExpire .i3c) p).host.challenges = [], b.cfgFld pgRoles 0x100 15 0 ≠ 0, (go (.sessionIdleExpire .i3c) b).sessionOf .i3c = 0,
      (cf [(pgRoles, 0x100, 0)] b).cfgFld pgRoles 0x100 15 0 = 0, (go (.sessionIdleExpire .i3c) (cf [(pgRoles, 0x100, 0)] b)).sessionOf .i3c = 1,
      (go (.lockoutExpire .i3c) l).host.lockedOut = []] := by
  decide +kernel

/-- A key is staged, committed and in force. -/
theorem wit_KeyChange :
    let s := host [(pgRoles, 0x1000, 0xAA), (pgRoles, 0x2010, 0x10002)]
    let t := go (.keyCommit .i3c 0) s
    let u := go .keyCommitDone t
    all [s.Canonical, s.reaches .i3c pgRoles 0x1020 0x100, s.stands = false, s.safe pgPstore = false, t.nvm.keyJob = some (Agent.i3c, 1, 0),
      bit (t.reg pgRoles 0x2000) 0 = true, u.roleKey 0 = s.stagedKey, u.roleKey 1 = s.roleKey 1, u.nvm.keyJob = none,
      u.regFld pgRoles 0x2000 31 16 = 1, u.reg pgRoles 0x1000 = 0, u.keyBlank 0 = false, u.sessionOf .mgmt = 0, s.sessionOf .mgmt = 2,
      s.reaches .i3c pgRoles 0x1020 0x101, bit (s.reg pgRoles 0x2000) 0 = false, t.reaches .i3c pgRoles 0x1020 0x100,
      bit ((go (.keyCommit .i3c 0) t).reg pgRoles 0x2000) 8 = true] := by
  decide +kernel

/-- The oldest record takes the next place; LOG_READ is denied without the right. -/
theorem wit_AuditLog :
    let r : AuditRec := ⟨0, 1, 2, 3, 1, 7, true, 1, 0, 0, 0, 0, 1⟩
    let s : State := { host [] with nvm := { State.reset.nvm with auditPend := [r] } }
    let n := mk [(pgHostif, 0x2000, 1)]
    let t := go .auditRecordWrite s
    let q := rq .i3c opLOG [0, 1] 0 1
    let z := rq .i3c opLOG [0, 0] 0 1
    let m := rq .i3c opLOG [0, 33] 0 1
    all [s.Canonical, s.stands = false, s.safe pgPstore = false, s.nvm.auditLost = 0, t.reg pgRoles 0x201C = 1, t.nvm.auditPend = [],
      t.nvm.ring = [(0, r)], t.takes opLOG q, (t.arrived .i3c).cmdRights .i3c 1 &&& 6 ≠ 0, (n.arrived .i3c).cmdRights .i3c 0 &&& 6 = 0,
      (go (.logRead q) t).host.resp.map List.length = [6 + 4 * 8], n.takes opLOG (rq .i3c opLOG [0, 1]),
      said n (go (.logRead (rq .i3c opLOG [0, 1])) n) (rq .i3c opLOG [0, 1]) .denied [], t.takes opLOG z,
      said t (go (.logRead z) t) z .badLength [], t.takes opLOG m, said t (go (.logRead m) t) m .badLength []] := by
  decide +kernel

/-- MEM_TEST starts; without the right, with a failed check, with no record free and behind a conflict it does not. -/
theorem wit_OperationsStart :
    let s := host [(pgStack, 0x2000, 3)]
    let g := rq .i3c opSTART [7, 0x80000000#32, 0x1000, 0] 0 1
    let n := rq .i3c opSTART [7, 0x80000000#32, 0x1000, 0]
    let b := rq .i3c opSTART [4, 0] 0 1
    let v := rq .i3c opSTART [4] 0 1
    let f : State := { s with ops := { s.ops with recs := (List.range 16).map (fun k => (k, opRec .memTest .done 0)) } }
    let t := go (.snapshotSave v) s
    all [s.Canonical, s.takes opSTART g, OpKind.ofCode (fld ((reqWords v).getD 0 0) 7 0) = some .snapshotSave,
      rightOk (s.cmdRights .i3c 1) OpKind.snapshotSave.right = true, s.takes opSTART n, rightOk (s.cmdRights .i3c 0) OpKind.memTest.right = false,
      said s (go (.memTest n) s) n .denied [], s.opCheck .snapshotSave (reqWords b) = some .badLength,
      said s (go (.snapshotSave b) s) b .badLength [], f.freeOp = none, f.opCheck .snapshotSave (reqWords v) = none,
      said f (go (.snapshotSave v) f) v .busy [], s.freeOp = some 0, s.takes opSTART v,
      ((t.opRec 0).map (fun r => (r.kind, r.serial, r.starter, r.state)) = some (.snapshotSave, 1, 1, .running)),
      said s t v .ok [word (0 + 1 * 16)]] := by
  decide +kernel

/-- A HANDLE that names no record is NO_SUCH_OP; a record is shown, suspended, resumed and cancelled by its states. -/
theorem wit_OperationCommands :
    let s := host []
    let h : Word := word (2 + 16)
    let run := withOp (opRec .memTest .running 0) s
    let sus := withOp (opRec .memTest .suspended 0) s
    let que := withOp (opRec .memTest .queued 0) s
    let fin := withOp (opRec .memTest .done 0) s
    let upd := withOp (opRec .fwUpdate .running 0) s
    let com := withOp (opRec .epochCommit .running 1) { s with tab := { s.tab with commit := some 2 } }
    let st := rq .i3c opSTATUS [h] 0 1
    let su := rq .i3c opSUSPEND [h] 0 1
    let re := rq .i3c opRESUME [h] 0 1
    let ca := rq .i3c opCANCEL [h] 0 1
    all [s.Canonical, s.byHandle h = none, s.takes opSTATUS st, said s (go (.opStatus st 0) s) st .noSuchOp [], s.takes opSUSPEND su,
      said s (go (.opSuspend su 0) s) su .noSuchOp [], s.takes opRESUME re, said s (go (.opResume re) s) re .noSuchOp [], s.takes opCANCEL ca,
      said s (go (.opCancel ca 0) s) ca .noSuchOp [], run.byHandle h = some (2, opRec .memTest .running 0), run.takes opSTATUS st,
      said run (go (.opStatus st 0) run) st .ok ({ opRec .memTest .running 0 with phase := 1 }.words 2), (go (.opStatus st 0) fin).ops.recs = [],
      (go (.opStatus st 0) run).ops.recs = run.ops.recs, run.takes opSUSPEND su, (opRec .memTest .running 0).suspendable = true,
      com.takes opSUSPEND su, com.byHandle h = some (2, opRec .epochCommit .running 1), com.commitRec = some (2, opRec .epochCommit .running 1),
      (opRec .epochCommit .running 1).suspendable = true, ((go (.opSuspend su 0) com).opRec 2).map (·.state) = some .suspended,
      (go (.opSuspend su 0) run).opRec 2 = some (opRec .memTest .suspended 0), said run (go (.opSuspend su 0) run) su .ok [],
      said sus (go (.opSuspend su 0) sus) su .opState [], said upd (go (.opSuspend su 0) upd) su .opState [],
      (go (.opResume re) sus).opRec 2 = some (opRec .memTest .running 0), said run (go (.opResume re) run) re .opState [], que.takes opCANCEL ca,
      (((go (.opCancel ca 0) que).opRec 2).map (fun r => (r.state, r.result)) = some (.cancelled, .ok))]
    && all [said fin (go (.opCancel ca 0) fin) ca .opState []] := by
  decide +kernel

/-- Queued operations start; operations end with their result; a terminal record is freed. -/
theorem wit_OperationsEnd :
    let s := host []
    let run := withOp (opRec .memTest .running 0) { s with buf := { s.buf with testing := (opRec .memTest .running 0).testRange } }
    let que := withOp (opRec .memTest .queued 0) s
    let fin := withOp (opRec .memTest .done 0) s
    let upd := withOp (opRec .fwUpdate .running 2) s
    let tab := withOp (opRec .tableFlush .running 0) (s.setReg pgTables 0xC 2)
    let syn := withOp (opRec .stateSync .queued 0) s
    all [que.Canonical, keyed que, run.opRec 2 = some (opRec .memTest .running 0), run.buf.testing = (opRec .memTest .running 0).testRange,
      run.buf.spill = [], tab.opRec 2 = some (opRec .tableFlush .running 0), tab.working pgTables = true, tab.leadJoined = false,
      ((go (.opComplete 2 true []) tab).opRec 2).map (·.state) = some .done, syn.opBlocked (opRec .stateSync .queued 0) = false,
      ((go (.opQueuedStart 2) syn).opRec 2).map (·.state) ≠ some .queued, que.stands = false, que.opRec 2 = some (opRec .memTest .queued 0),
      que.opBlocked (opRec .memTest .queued 0) = false, ((go (.opQueuedStart 2) que).opRec 2).map (·.state) = some .running,
      (0#32).toNat ≤ (4#32).toNat, ((go (.opComplete 2 false []) upd).opRec 2).map (·.state) = some .failed,
      (go (.opRecordExpire 2) fin).ops.recs = []] := by
  decide +kernel

/-- A line port and the management lane come up and go down. -/
theorem wit_LinksRiseAndFall :
    let s := ports [(0x10, 0x2004, 0)]
    let m := ports [(pgMgmt, 0x2000, 0)]
    let u : State := { ports [] with buf := { State.reset.buf with fifo := [(0, [copyIn 1 0 0])] } }
    all [s.Canonical, s.stands = false, s.portAccepted 0 = true, 2 ≤ s.blk (bankPage 0), s.adminUp 0 = true, s.lineUp 0 = false,
      (go (.linkUp 0) s).lineUp 0 = true, bit ((go (.linkUp 0) s).reg 0x10 0x14) 16 = true, u.lineUp 0 = true,
      (go (.linkDown 0 true false 0 0) u).lineUp 0 = false, (go (.linkDown 0 true false 0 0) u).reg 0x10 0x2118 = 1,
      fld ((go (.linkDown 0 true false 0 0) u).reg 0x10 0x2004) 23 8 = 0x1, 2 ≤ m.blk pgMgmt, m.adminUp 241 = true,
      bit ((go (.linkUp 241) m).reg pgMgmt 0x2000) 0 = true, bit ((go (.linkDown 241 false true 0 0) (ports [])).reg pgMgmt 0x2000) 0 = false] := by
  decide +kernel

/-- Frames are discarded by the first row that applies or enter the FIFO in sequence; a bad end is counted. -/
theorem wit_FramesAreReceived :
    let s := ports []
    let st := ports [(pgPair, 0xC, 2), (pgPair, 0x2004, 2)]
    let f := frameOf 60 0x800
    let t := go (.frameRx 0 f true true false) s
    let c := go (.frameRx 0 (frameOf 256 0x8808) false true false) s
    let lo := ports [(0x10, 0x1004, 1)]
    let fa := ports [(0x10, 0x1004, 0x100)]
    let a : State := { s with port := { s.port with nextId := 6, arriving := [(1, 5)] } }
    all [s.Canonical, s.stands = false, s.macTakes 0 = true, s.looped 0 = false, s.macRow 0 f false = 0,
      (go (.frameRx 0 f true false false) s).reg 0x10 0x2100 = 1, s.macRow 0 (frameOf 59 0x800) true = 1,
      (go (.frameRx 0 (frameOf 59 0x800) true true false) s).reg 0x10 0x2104 = 1, s.macRow 0 (frameOf 60 0x8808) true = 3,
      (go (.frameRx 0 (frameOf 60 0x8808) true true false) s).reg 0x10 0x210C = 1, s.macRow 0 f true = 5, s.standby = false, s.winding = false,
      ((Store.get [] 0 t.port.fifos).map (fun x => (x.bytes, x.port, x.seq, x.pass, x.ended)) = [(f, 0, 0, 1, true)]),
      (Store.get [] 0 (go (.frameRx 0 f true true false) t).port.fifos).map (·.seq) = [0, 1],
      (Store.get [] 240 (go (.frameRx 240 f true true false) s).port.fifos).map (·.port) = [240], st.standby = true,
      (go (.frameRx 0 f true true false) st).port.fifos = [], (go (.frameRx 0 f true true false) st).reg pgPair 0x204C = 1, keyed a,
      a.port.ctlRx = [], (a.port.arriving.find? (fun e => e.1 == 1) = some (1, 5)), lo.looped 0 = true, lo.macTakes 0 = true,
      (go (.frameRx 0 f true true false) lo).port.fifos = [], fa.farLooped 0 = true,
      (go (.frameRx 0 f true true false) fa).port.wire = [(0, (f, true))], (c.port.ctlRx.find? (fun e => e.1 == 0) = some (0, frameOf 256 0x8808)),
      c.macRow 0 (frameOf 256 0x8808 ++ [1]) true = 3, (go (.frameEndRx 0 [1] true) c).reg 0x10 0x210C = 1]
    && all [(go (.frameEndRx 0 [1] true) c).port.fifos = [], (go (.frameEndRx 1 [1, 2] false) a).port.arriving = [],
      (go (.frameEndRx 1 [1, 2] false) a).reg pgLadle 0x2028 = 1] := by
  decide +kernel

/-- PFC stops and releases classes; the pause watchdog trips and restores one. -/
theorem wit_PfcStopsClasses :
    let s := ports []
    let q : State := { ports [(pgLadle, 0x1004, 1), (pgLadle, 0x2500, 0x100)] with buf := { State.reset.buf with queues := [(0, [copyIn 1 0 0])] } }
    let sb := ports [(pgPair, 0xC, 2), (pgPair, 0x2004, 2)]
    let qs : List (BitVec 16) := [5, 0, 0, 0, 0, 0, 0, 0]
    all [s.Canonical, s.stands = false, s.macTakes 0 = true, s.pfcOn 0 = true, bit ((go (.pfcRx 0 3 qs) s).reg pgLadle 0x2500) 8 = true,
      bit ((go (.pfcRx 0 3 qs) s).reg pgLadle 0x2500) 9 = false, (go (.pfcRx 0 3 qs) s).reg 0x10 0x2110 = 1, s.standby = false, sb.standby = true,
      sb.macTakes 0 = true, (go (.pfcRx 0 3 qs) sb).reg pgLadle 0x2500 = 0, bit ((go (.pfcPauseExpire 0 0) q).reg pgLadle 0x2500) 8 = false,
      q.Canonical, bit (q.reg pgLadle 0x1004) 0 = true, bit (q.reg pgLadle 0x2500) 8 = true, bit (q.reg pgLadle 0x2500) 16 = false,
      q.classWaits 0 0 = true, bit ((go (.wdTrip 0 0) q).reg pgLadle 0x2500) 16 = true, (go (.wdTrip 0 0) q).reg pgLadle 0x2900 = 1,
      bit ((go (.wdTrip 0 0) q).reg pgLadle 0x14) 17 = true, bit ((go (.wdRestore 0 0) (go (.wdTrip 0 0) q)).reg pgLadle 0x2500) 16 = false] := by
  decide +kernel

/-- A switch is requested, acknowledged and done, or abandoned; overhead is shown. -/
theorem wit_CalendarSwitches :
    let s := cf [(pgFlexe, 0x190, 0x701)] (host [(pgFlexe, 0xC, 2), (pgFlexe, 0x2090, 1)])
    let p := go (.calendarSwitchReq .i3c 9) s
    let a := go (.calendarSwitchAck 9) p
    let o : FlexeOverhead := ⟨1001, 8, [], [], true, false⟩
    all [s.Canonical, s.reaches .i3c pgFlexe 0x1024 1, bit (s.flexStatus 9) 3 = false, bit (s.flexStatus 9) 0 = true,
      bit (p.flexStatus 9) 3 = true, p.port.calAcked = [], p.stands = false, a.port.calAcked = [9], a.safe pgFlexe = false,
      bit (a.flexStatus 9) 3 = true, bit ((go (.calendarSwitch 9) a).flexStatus 9) 3 = false,
      bit ((go (.calendarSwitch 9) a).flexStatus 9) 1 = true, bit ((go (.calendarSwitch 9) a).reg pgFlexe 0x14) 17 = true,
      bit ((go (.calendarSwitchTimeout 9) p).flexStatus 9) 9 = true, bit ((go (.calendarSwitchTimeout 9) p).flexStatus 9) 3 = false,
      2 ≤ s.blk pgFlexe, bit (s.flexCfg 9) 0 = true, bit ((go (.flexeOverheadRx 9 o) s).flexStatus 9) 2 = true,
      bit ((go (.flexeOverheadRx 9 o) s).flexStatus 9) 4 = true, bit ((go (.flexeOverheadRx 9 o) s).flexStatus 9) 6 = true,
      bit ((go (.flexeOverheadRx 9 o) s).flexStatus 9) 0 = false, (go (.flexeOverheadRx 9 o) s).regFld pgFlexe 0x2094 15 0 = 1001] := by
  decide +kernel

/-- XOFF is evaluated, a PFC frame repeats it, a frame ends, a second joins the history and another is committed. -/
theorem wit_MacSends :
    let s : State := { ports [(pgLadle, 0x2500, 1)] with buf := { State.reset.buf with full := [0] } }
    let x : State := { ports [] with buf := { State.reset.buf with fifo := [(0, [copyIn 1 0 0])] } }
    let u : SecTally := ⟨300, false, 2, 3, 0⟩
    let h : State := { ports [] with port := { State.reset.port with secs := [(0, ⟨List.replicate 10 ⟨true, true, true, false⟩, false⟩)] } }
    all [s.Canonical, s.stands = false, s.pfcOn 0 = true, s.regFld pgLadle 0x2500 7 0 ≠ 0, bit ((go .pfcXoffEval s).reg pgLadle 0x2500) 0 = true,
      bit ((go .pfcXoffEval s).reg pgLadle 0x2500) 1 = true, bit ((go .pfcXoffEval s).reg pgLadle 0x2500) 2 = false, s.portAbsent 0 = false,
      s.macSends 0 = true, s.carriesData 0 = true, s.standby = false, ((go (.pfcRefresh 0) s).port.txPfc.map Prod.fst) = [0],
      (((go (.pfcRefresh 0) s).port.txPfc.map (fun e => half e.2 12)) = [0x8808]), keyed x, keyed s, x.macSends 0 = true, x.carriesData 0 = true,
      (copyIn 1 0 0).frame.ended = true, Store.get [] 0 (go (.frameTxEnd 0 none) x).buf.fifo = [],
      (go (.frameTxEnd 0 none) x).port.wire = [(0, (frameOf 60 0x800, true))],
      ((go (.frameTxEnd 0 (some true)) x).port.wire.map (fun e => e.2.2) = [false]), (go (.frameTxEnd 0 (some true)) x).reg pgCrucible 0x2010 = 1,
      x.adminUp 0 = true, (((go (.secondCommit (.port 0) u) x).port.secs.map (fun e => e.2.ended)) = [[⟨true, true, true, false⟩]]),
      (go (.secondCommit (.port 0) u) x).reg 0x10 0x2120 = 2, (go (.secondCommit (.port 0) u) h).reg 0x10 0x2130 = 1,
      bit ((go (.secondCommit (.port 0) u) h).reg 0x10 0x14) 19 = true] := by
  decide +kernel

/-- A lane moves through delineation; cells in SYNC are counted bad, discarded, or reach reassembly. -/
theorem wit_CellDelineation :
    let m := memReg 1 0
    let hunt := link []
    let alone : State := { link [(0x30, m, 6)] with sprue := { State.reset.sprue with mask := [(0, 2)] } }
    let pre := link [(0x30, m, 1)]
    let syn := link [(0x30, m, 6), (0x30, 0x2004, 0x20002)]
    let ok := hdrOf ⟨0, 0, false, 1, true, true, 0, 3, 16⟩
    let z := List.replicate 248 (0 : Byte)
    let five : State := { pre with sprue := { pre.sprue with good := [(1, 5)] } }
    let mis : State := { syn with sprue := { syn.sprue with marks := [(0, ⟨4, 0, 0⟩)] }, time := { syn.time with cyc := 3125 } }
    let two : State := { link [(0x30, m, 6), (0x30, memReg 0 0, 6)] with sprue := { syn.sprue with mask := [(0, 3)] } }
    let six : State := { syn with sprue := { syn.sprue with good := [(1, 6)] } }
    all [syn.Canonical, hunt.stands = false, hunt.memberLive 0 1 = true, hecOk ok = true, hecOk (ok + 1) = false, hunt.delin 0 1 = 0,
      (go (.headerCandidate 0 1 ok z true) hunt).delin 0 1 = 1, (go (.headerCandidate 0 1 (ok + 1) z true) hunt).delin 0 1 = 0, pre.delin 0 1 = 1,
      (go (.headerCandidate 0 1 ok z true) pre).sprue.good = [(1, 1)], (go (.headerCandidate 0 1 ok z true) five).delin 0 1 = 2,
      (go (.headerCandidate 0 1 (ok + 1) z true) five).delin 0 1 = 0, syn.delin 0 1 = 2, (go (.markerTimeout 0 1) syn).delin 0 1 = 0,
      (go (.markerTimeout 0 1) syn).reg 0x30 (memReg 1 0x10) = 1, (syn.memberLane 0 1).isSome, (go (.lossOfSignal 0 1) syn).delin 0 1 = 0,
      ((go (.lossOfSignal 0 1) syn).rxOk 0).testBit 1 = false, mis.memberLive 0 1 = true, mis.markMissing 0 1 = true,
      bit ((go (.skewFail 0 1) mis).memStatus 0 1) 3 = true, ((go (.skewFail 0 1) mis).rxOk 0).testBit 1 = false,
      (go (.cellRx 0 1 (ok + 1) z false []) syn).reg 0x30 (memReg 1 8) = 1, (go (.cellRx 0 1 (ok + 1) z false []) syn).delin 0 1 = 2,
      (go (.cellRx 0 1 (ok + 1) z false []) six).delin 0 1 = 0, (go (.cellRx 0 1 ok z true []) syn).reg 0x30 (memReg 1 0xC) = 1,
      (go (.cellRx 0 1 (hdrOf ⟨0, 0, false, 1, true, true, 1, 3, 16⟩) z false []) syn).reg 0x30 0x2018 = 1,
      (go (.cellRx 0 1 (hdrOf ⟨0, 0, false, 1, true, false, 0, 3, 16⟩) z false []) syn).reg 0x30 0x2018 = 1,
      (go (.cellRx 0 1 (hdrOf ⟨9, 0, false, 1, true, true, 0, 3, 16⟩) z false []) syn).reg 0x30 0x2014 = 1, syn.ownId = 0]
    && all [keyed syn, syn.sprue.held = [], (go (.cellRx 0 1 ok z false [(0, 1)]) syn).reg 0x30 (memReg 1 0xC) = 1,
      (two.readMask 0).testBit 1 = true, bit (two.memStatus 0 1) 2 && (List.range 16).any (two.mayPrecede 0 1 0),
      (go (.cellRx 0 1 ok z false []) two).sprue.held.map Prod.fst = [1], (alone.readMask 0).testBit 1 = true,
      (bit (alone.memStatus 0 1) 2 && (List.range 16).any (alone.mayPrecede 0 1 0)) = false,
      (go (.cellRx 0 1 ok z false []) alone).sprue.held = [], (go (.cellRx 0 1 ok z false []) alone).reg 0x30 0x2004 = alone.reg 0x30 0x2004] := by
  decide +kernel

/-- Markers, RDI, acceptance, removal, flow status and an injected error act on a member. -/
theorem wit_SprueMembers :
    let m := memReg 1 0
    let syn := cf [(0x30, 0x114, 7)] (link [(0x30, m, 6), (0x30, 0x2004, 0x20002), (0x30, 0x2008, 0x20002)])
    let new := link [(0x30, m, 6), (0x30, 0x2004, 2), (0x30, 0x2008, 0x20000)]
    let err : State := { syn with sprue := { syn.sprue with errs := [(1, List.replicate 8 0)] } }
    let lost := link [(0x30, m, 4), (0x30, 0x2004, 0x20002), (0x30, 0x2008, 0x20002)]
    let f : State := { syn with sprue := { syn.sprue with flow := [(flowKey 0 1 3, 1)] } }
    all [syn.Canonical, syn.stands = false, syn.memberLive 0 1 = true, syn.delin 0 1 = 2, bit ((go (.idleRx 0 1 true) syn).memStatus 0 1) 8 = true,
      ((go (.idleRx 0 1 true) syn).txActive 0).testBit 1 = false, bit ((go (.markerRx 0 1 false 5 1 9 3 2) syn).memStatus 0 1) 2 = true,
      (go (.markerRx 0 1 false 5 1 9 3 2) syn).rxActive 0 = 3, (go (.markerRx 0 1 false 5 1 9 3 2) syn).farRxOk 0 = 2,
      bit ((go (.markerRx 0 1 false 6 1 9 3 2) syn).memStatus 0 1) 2 = false,
      bit ((go (.markerRx 0 1 false 6 1 9 3 2) syn).memStatus 0 1) 6 = true, bit ((go (.markerRx 0 1 false 5 0 9 3 2) syn).memStatus 0 1) 7 = true,
      (go (.markerRx 0 1 false 6 1 9 3 2) syn).rxActive 0 = 2, (go (.flowStatusRx 0 1 [(3, 1)]) syn).reg 0x30 0x2028 = 1,
      (go (.flowStatusRx 0 1 [(3, 1)]) syn).sprue.flowNew = [(flowKey 0 1 3, 1)], keyed syn, keyed f, Store.get 0 (flowKey 0 1 3) f.sprue.flow ≠ 0,
      (go (.flowStatusExpire 0 1 3) f).sprue.flow = [], (go (.flowStatusExpire 0 1 3) f).reg 0x30 0x202C = 1,
      (new.setMemBit 0 1 4 false).memberOk 0 1 = true, new.groupSends 0 = true, ((go (.memberAccept 0 1) new).rxOk 0).testBit 1 = true,
      bit ((go (.memberRemove 0 1 .errLimit) err).memStatus 0 1) 4 = true, ((go (.memberRemove 0 1 .errLimit) err).rxOk 0).testBit 1 = false,
      bit ((go (.memberRemove 0 1 .errLimit) syn).memStatus 0 1) 4 = false, lost.memberOk 0 1 = false,
      ((go (.memberRemove 0 1 .sync) lost).rxOk 0).testBit 1 = false, (lost.rxOk 0).testBit 1 = true, syn.groupSends 0 = true]
    && all [(go (.markerTx 0) syn).sprue.due = [(0, false)], err.errsInMs 0 1 = 8, syn.errsInMs 0 1 = 0, syn.reaches .i3c 0x30 0x1004 0x101,
      (go (.badHecInject .i3c 0 1) syn).sprue.badHec = [1]] := by
  decide +kernel

/-- A waiting frame enters its pipeline; its result is held, released in sequence, or discarded behind; a gap is given up. -/
theorem wit_FramesPassInOrder :
    let s : State := { fwd [] with port := { State.reset.port with fifos := [(0, [frameIn 3 0 0])], seqs := [(0, 1)] } }
    let h : State := { s with regs := (s.setReg pgParse 0xC 4).regs }
    let rc : State := { s with pipe := { s.pipe with streams := [(0, [{ frameIn 4 0 0 with recirc := true, pass := 2 }])] } }
    let t := go (.spray 0 [] true) s
    let r := go (.passResult 0 0 [] none) t
    let b : State := { t with pipe := { t.pipe with nextSeq := [(0, 5)] } }
    let gap : State := { r with pipe := { r.pipe with held := r.pipe.held.map (fun x => { x with seq := 2 }) }, time := { r.time with cyc := 10000000 } }
    all [s.Canonical, s.stands = false, h.ingressHalt = true, go (.spray 0 [] true) h = h, (go (.spray 0 [5] true) s).reg pgTables 0x201C = 1,
      go (.spray 0 [5] false) s = s, s.nextPort 0 = some (0, 20) ∨ (s.nextPort 0).isSome, rc.rotation 0 = [0], rc.recFree 0 = true,
      ((go (.spray 0 [] true) rc).pipe.inside.map (fun x => (x.pipe, x.frame.id)) = [(0, 4)]), s.ingressHalt = false, s.quadHeld 0 = false,
      s.rotation 0 = [0], (t.pipe.inside.map (fun x => (x.pipe, x.frame.id, x.frame.epoch, x.stage)) = [(0, 3, some 0, none)]), t.port.fifos = [],
      ((t.pipe.inside.map (fun x => x.frame.mark)) = [none]), r.pipe.inside = [],
      (r.pipe.held.map (fun x => (x.stream, x.seq, x.quad, x.result.frame.id)) = [(0, 0, 0, 3)]),
      ((go (.passResult 0 0 [] (some (7, 0))) t).pipe.held.map (fun x => decide (x.result.act = .hole)) = [true]),
      (0 + 65536 - Store.get 0 0 b.pipe.nextSeq) % 65536 = 65531, (go (.passResult 0 0 [] none) b).pipe.held = [],
      (go (.passResult 0 0 [] none) b).reg pgReorder 0x2004 = 1,
      ((r.pipe.held.find? (fun x => x.quad == 0 && x.seq == Store.get 0 x.stream r.pipe.nextSeq)).isSome),
      (go (.reorderRelease 0) r).pipe.held = [], go (.reorderRelease 0) gap = gap, keyed gap, keyed t, t.pipeHeld 0 = none,
      ((gap.pipe.held.find? (fun x => decide (x.since + gap.reorderTimeout ≤ gap.time.cyc))).isSome),
      (gap.pipe.held.any (fun x => x.seq == Store.get 0 0 gap.pipe.nextSeq) = false)]
    && all [(gap.pipe.held.all (fun x => decide (x.quad < 4))), Store.get 0 0 (go (.reorderSkip 0) gap).pipe.nextSeq = 1,
      (go (.reorderSkip 0) gap).reg pgReorder 0x2000 = 1, (go (.reorderSkip 0) gap).pipe.held = gap.pipe.held] := by
  decide +kernel

/-- Table commands are refused by their checks in order, and each does its work. -/
theorem wit_WindowCommands :
    let s := tableWin 1 [0x11223344, 0x5566, 5] [0x100003] 0 (fwd [(pgRoles, 0x200C, 0x70001)])
    let k := twMac [s.tw 1 16, s.tw 1 17, s.tw 1 18]
    let e : MacEnt := ⟨k.1, k.2, false, true, 3, 0⟩
    let old : State := { s with tab := { s.tab with mac := [(6291456, { e with dest := 9 })] } }
    let busy := s.setWin pgTables 1 1 1
    let off := tableWin 1 [] [] 0 (host [])
    let none_ := cf [(pgTables, 0x100, 0)] s
    let p := tableWin 2 [0x0A000000, 8] [7] 0 (cf [(pgTables, 0x100, 2)] s)
    let q := go (.addPrefix .i3c 2 2 false) p
    let n := tableWin 3 [] [1, 2, 3, 4] 8 s
    let w := go (.writeIndex .i3c 3 5 false) n
    all [s.Canonical, windowRow (.insert .i3c 1 0 false) = some (.i3c, 1, 1, 0, false), s.reaches .i3c pgTables 0x8200 1,
      busy.reaches .i3c pgTables 0x8200 1, bit ((go (.insert .i3c 1 0 false) busy).tw 1 1) 8 = true, off.enabled pgTables = false,
      off.reaches .i3c pgTables 0x8200 1, fld ((go (.insert .i3c 1 0 false) off).tw 1 1) 7 4 = 7, twAllowed 5 0 = false,
      s.reaches .i3c pgTables 0x8200 5, fld ((go (.matchPrefix .i3c 1 0 false) s).tw 1 1) 7 4 = 4, (none_.range 0).2 = 0,
      fld ((go (.insert .i3c 1 0 false) none_).tw 1 1) 7 4 = 5, (s.range 0).2 = 768, s.macFind k.1 k.2 = none,
      fld ((go (.update .i3c 1 0 false) s).tw 1 1) 7 4 = 1, (old.macFind k.1 k.2).isSome, fld ((go (.insert .i3c 1 0 false) old).tw 1 1) 7 4 = 2,
      (go (.update .i3c 1 0 false) old).tab.mac = [(6291456, e)], (go (.delete .i3c 1 0 false) old).tab.mac = [],
      fld ((go (.find .i3c 1 0 false) old).tw 1 1) 7 4 = 0, (go (.find .i3c 1 0 false) old).tw 1 2 = word 6291456,
      fld ((go (.find .i3c 1 0 false) old).tw 1 32) 19 0 = 9, p.unversioned = false, p.verBlocked = false, (p.setBlk pgEpoch 3).verBlocked = true,
      verWrites 8 2 = true, fld ((go (.addPrefix .i3c 2 2 false) (p.setBlk pgEpoch 3)).tw 2 1) 7 4 = 7, p.ovlFree ≠ 0,
      p.reaches .i3c pgTables 0x8400 (word (8 + 32))]
    && all [fld (p.tw 2 17) 7 0 = 8, fld (q.tw 2 1) 7 4 = 0, q.ver .pending 2 (lpmKey 2 8 0x0A000000) = [7],
      q.ver .standing 2 (lpmKey 2 8 0x0A000000) = [], q.lpm .pending 2 0x0A010203 ≠ none, p.lpm .pending 2 0x0A000000 = none,
      fld ((go (.matchPrefix .i3c 2 2 false) p).tw 2 1) 7 4 = 1, (go (.matchPrefix .i3c 2 2 false) (tableWin 2 [0x0A010203] [] 0 q)).tw 2 32 = 7,
      n.reaches .i3c pgTables 0x8600 (word (7 + 80)), w.ver .pending 5 8 = [1, 2, 3, 4], w.ver .standing 5 8 = n.ver .standing 5 8,
      ((List.range 4).map (fun j => (go (.readIndex .i3c 3 5 false) (tableWin 3 [] [0, 0, 0, 0] 8 w)).tw 3 (32 + j)) = [1, 2, 3, 4]),
      ((List.range 4).map (fun j => (go (.readIndex .i3c 3 5 true) w).tw 3 (32 + j)) = [0, 0, 0, 0]), (s.range 0).2 * 8192 + 4096 ≤ 0xFFFFFF,
      fld ((go (.readIndex .i3c 1 0 false) (tableWin 1 [] [] 0xFFFFFF s)).tw 1 1) 7 4 = 4] := by
  decide +kernel

/-- A MAC entry finds a slot in an empty table. -/
theorem wit_macInsert : ((fwd []).macInsert (macEnt 0xA1 0x102)).isSome = true :=
  macInsert_isSome _ _ (by decide +kernel) (by decide +kernel)

/-- The learning engine inserts, refreshes, moves or refuses; the sweep ages; storms freeze; the scrubber clears; a grant completes. -/
theorem wit_LearningAndMaintenance :
    let r : LearnReq := ⟨0x20, 5, 1⟩
    let s : State := { fwd [] with tab := { (fwd []).tab with learnQ := [r] } }
    let lim := s.setWin pgLearn 1 0 0
    let same : State := { s with tab := { s.tab with mac := [(6291456, { macEnt 0x20 1 with seen := 3 })] } }
    let stat : State := { s with tab := { s.tab with mac := [(6291456, { macEnt 0x20 2 with static := true })] } }
    let mov : State := { s with tab := { s.tab with mac := [(6291456, macEnt 0x20 2)] } }
    let low : State := { s with tab := { s.tab with mac := [(8, macEnt 0x20 2)] } }
    let frz := mov.setWin pgLearn 1 1 0x80000000#32
    let old : State := { mk [(pgLearn, 0xC, 2), (pgLearn, 0x1000, 1), (pgTables, 0xC, 2)] with tab := { low.tab with learnQ := [] }, time := { mov.time with cyc := 97656250 * 100000 } }
    let storm : State := ({ fwd [(pgLearn, 0x1008, 2), (pgLearn, 0x1004, 2)] with tab := mov.tab }).setWin pgLearn 1 3 9
    let busy : State := { fwd [] with tab := { (fwd []).tab with busyWin := [(2, Agent.i3c)] } }
    all [s.Canonical, s.stands = false, s.working pgLearn = true, s.working pgTables = true, s.role ≠ 2, s.macFind r.mac r.vid = none,
      s.atLimit 1 = false, lim.atLimit 1 = true, (go .learnInsert lim).tab.mac = [], (go .learnInsert lim).winW pgLearn 1 2 = 1,
      (go .learnInsert stat).tab.mac = stat.tab.mac, (go .learnInsert same).tab.mac = [(6291456, { macEnt 0x20 1 with seen := word same.tick })],
      (go .learnInsert frz).reg pgLearn 0x2018 = 1, (go .learnInsert mov).tab.mac = [(6291456, macEnt 0x20 1)],
      (go .learnInsert mov).reg pgLearn 0x2008 = 1, old.Canonical, old.enabled pgLearn = true, min 1000000 (old.regFld pgLearn 0x1000 19 0) ≠ 0,
      (go (.ageSweep 2) old).tab.mac = [], (go (.ageSweep 2) old).reg pgLearn 0x2010 = 1, (go (.ageSweep 3) old).tab.mac = old.tab.mac,
      (Store.get (0, 0) 1 storm.tab.moveBase).1 = storm.tick / 16, storm.regFld pgLearn 0x1008 15 0 < (storm.winW pgLearn 1 3 - word 0).toNat,
      bit ((go (.moveStorm 1) storm).winW pgLearn 1 1) 31 = true, bit ((go (.moveStorm 1) storm).reg pgLearn 0x14) 16 = true,
      bit ((go (.moveFreezeExpire 1) frz).winW pgLearn 1 1) 31 = false, (go (.tableEccScrub 0 2 (some false)) low).reg pgTables 0x2020 = 1,
      (go (.tableEccScrub 0 2 (some true)) low).tab.mac = [], (go (.tableEccScrub 0 3 (some true)) low).tab.mac = low.tab.mac,
      (go (.tableEccScrub 0 3 (some true)) low).reg pgTables 0x2024 = 1]
    && all [((List.range 4).findSome? (fun i => busy.tab.busyWin.find? (fun e => e.1 == i)) = some (2, Agent.i3c)),
      (go (.maintArbRound 0 1) busy).tab.busyWin = []] := by
  decide +kernel

/-- A commit is armed, switches, merges and is done; an epoch retires or is forced; pending slots are discarded. -/
theorem wit_EpochsSwitchAndRetire :
    let r := { opRec .epochCommit .running 0 with params := [0] }
    let c := fun (p : Byte) (st : OpState) (l : List (Nat × Nat × Nat)) => withOp { r with phase := p, state := st } { fwd l with tab := { (fwd l).tab with commit := some 2, slots := [⟨.pending, 5, 8, [1, 2, 3, 4]⟩] } }
    let w := c 0 .running []
    let a := c 1 .running [(pgEpoch, 0x2000, 0x10000)]
    let t := go .epochSwitch a
    let m := go .epochMergeSlot { t with tab := { t.tab with grants := [(0, (4, 3))] } }
    let late := withOp { r with phase := 1, params := [1, 0, 5, 0] } a
    let ret := fwd [(pgEpoch, 0x2004, 0x10003)]
    let ref : State := { ret with tab := { ret.tab with refs := [(3, 1)] } }
    let loose : State := { w with tab := { w.tab with commit := none }, ops := { w.ops with recs := [] } }
    let mer : State := { loose with tab := { loose.tab with grants := [(0, (4, 3))], slots := [⟨.unmerged, 5, 8, [1, 2, 3, 4]⟩] } }
    all [w.Canonical, w.stands = false, w.enabled pgEpoch = true, w.opRec 2 = some r, w.retiring = none, r.atTime = false,
      (((go .epochSwitch w).opRec 2).map (fun q => (q.phase, q.state)) = some (1, .running)),
      (go .epochSwitch (w.setReg pgEpoch 0x2004 0x10003#32)).tab = w.tab, a.pendingNo = 1, t.standing = 1, t.pendingNo = 2, t.retiring = some 0,
      t.ovlCount .pending = 0, t.ovlCount .unmerged = 1, t.reg pgEpoch 0x2030 = 1, bit (t.reg pgEpoch 0x14) 16 = true,
      late.nowNs < (late.opRec 2).elim 0 OpRec.commitT, go .epochSwitch late = late, (((t.opRec 2).map (fun q => q.phase)) = some 2),
      m.ovlCount .unmerged = 0, Store.get [] 8 (m.baseOf 5) = [1, 2, 3, 4], ⟨.shadow, 5, 8, []⟩ ∈ m.tab.slots,
      (((go .mergeDone m).opRec 2).map (fun q => (q.state, q.result)) = some (.done, .ok)), (go .mergeDone m).tab.commit = none,
      go .epochMergeSlot (c 2 .suspended []) = c 2 .suspended [], (c 2 .suspended []).unversioned = false, mer.tab.commit = none,
      Store.get [] 8 ((go .epochMergeSlot mer).baseOf 5) = [1, 2, 3, 4], bit ((go .epochMergeSlot mer).reg pgEpoch 0x14) 18 = true,
      ((w.opShown r).total = 1)]
    && all [ret.retiring = some 3, ret.refCount 3 = 0, (go .epochRetire ret).retiring = none,
      bit ((go .epochRetire ret).reg pgEpoch 0x14) 17 = true, ref.refCount 3 = 1, go .epochRetire ref = ref,
      (go .retireForced ref).retiring = none, bit ((go .retireForced ref).reg pgEpoch 0x2020) 9 = true, loose.reaches .i3c pgEpoch 0x1000 1,
      (go (.pendingDiscard .i3c) loose).tab.slots = [], bit ((go (.pendingDiscard .i3c) w).reg pgEpoch 0x2020) 10 = true,
      (go (.pendingDiscard .i3c) w).tab = w.tab] := by
  decide +kernel

/-- Copies are admitted, counted or dropped; ingots are written, asked for, read and retired. -/
theorem wit_CopiesAndIngots :
    let s : State := { fwd [] with buf := { State.reset.buf with waiting := [admOf 0 1] } }
    let bad : State := { s with buf := { s.buf with waiting := [{ admOf 0 1 with frame := { frameIn 9 0 0 with late := true } }] } }
    let off := s.setReg pgLadle 0xC 0
    let pw := [(pgStack, 0x2000, 3), (pgStack, 0xC, 2), (pgStack + 1, 0x2000, 3), (pgStack + 1, 0xC, 2), (pgIngot, 0xC, 2), (pgStack + 2, 0x2000, 3), (pgStack + 2, 0xC, 2), (pgStack + 3, 0x2000, 3), (pgStack + 3, 0xC, 2)]
    let b := fwd pw
    let sp := fun (x : SpillQ) => { b with buf := { b.buf with spill := [(1, x)], queues := [(1, [{ copyIn 1 0 1 with charge := 0, need := 32 }])], used := [(5, 40)] } }
    let w := sp ⟨[], [⟨1, .staging, 32⟩, ⟨2, .staging, 8⟩]⟩
    let h := sp ⟨[], [⟨1, .staging, 4⟩]⟩
    let g := sp ⟨[⟨7, [(1, 32)], false⟩], []⟩
    let asked := sp ⟨[⟨7, [(1, 32)], true⟩], []⟩
    let y := go (.ingotWrite 1 7) w
    all [s.Canonical, s.stands = false, (go .admission bad).buf.queues = [],
      (((go .admission s).queue 1).map (fun k => (k.frame.id, k.charge, k.pool)) = [(9, 1, .reserve)] ∨ ((go .admission s).queue 1).map (fun k => (k.frame.id, k.charge, k.pool)) = [(9, 1, .shared)]),
      (go .admission s).buf.nextCopy = 1, (go .admission off).buf.queues = [], (go .admission off).reg pgLadle 0x2010 = 1,
      (go .admission off).reg pgLadle 0x2100 = 1, w.Canonical, (w.spillOf 1).isSome, w.ingotFree 7 = true,
      ((w.spillOf 1).map SpillQ.staged) = some 40, (((y.spillOf 1).map (fun x => (x.ingots, x.staged))) = some ([⟨7, [(1, 32)], false⟩], 8)),
      y.reg pgIngot 0x2008 = 1, (((go (.stageHoldExpire 1 7) h).spillOf 1).map (fun x => (x.ingots, x.staged)) = some ([⟨7, [(1, 4)], false⟩], 0)),
      (go (.stageHoldExpire 1 7) h).reg pgIngot 0x2010 = 1, nexts (.prefetchRequest 1) g, Store.setWf (asked.buf.spill.map Prod.fst) = true,
      (go (.ingotReadComplete 1 9 none) asked).reg pgIngot 0x200C = 1,
      (go (.ingotReadComplete 1 9 (some 3)) asked).buf.retired = [asked.ingotPlace 7], b.regFld pgStack 0x2000 1 0 = 3,
      (go (.channelArbRound 5 1 9) b).regFld pgStack 0x2014 10 0 = 9, (go (.ingotPatrolScrub 0 8 (some none)) b).reg pgStack 0x2004 = 1,
      (go (.ingotPatrolScrub 0 8 (some (some 2))) b).buf.retired = [8], (go (.ingotPatrolScrub 0 8 (some (some 2))) b).reg pgStack 0x2008 = 1] := by
  decide +kernel

/-- A port sends its control frame or nothing; records and rates follow the writes. -/
theorem wit_TrafficManager :
    let k := { copyIn 5 0 (ctlQueue 0) with kind := .control }
    let s : State := { fwd [] with buf := { State.reset.buf with queues := [(ctlQueue 0, [k])] } }
    let off : State := { s with buf := { s.buf with fifo := [(0, [copyIn 1 0 0])] } }
    let none_ := s.setReg pgTm 0xC 0
    let w := fwd [(pgRoles, 0x200C, 0x70001)]
    let full : State := { w with buf := { State.reset.buf with queues := [(0, [copyIn 1 0 0])] } }
    let hold : State := { s with sched := { s.sched with hold := [3] } }
    let r := ((w.setWin pgTm 0 8 0x104).setWin pgTm 0 6 0xAA).setWin pgTm 0 2 0x11
    let p := ((w.setWin pgPolice 3 7 0x104).setWin pgPolice 3 5 0xBB).setWin pgPolice 3 0 0x22
    all [s.Canonical, s.stands = false, none_.portServes 0 = false, go (.tmSelect 0 false none) none_ = none_, off.portServes 0 = true,
      (go (.tmSelect 0 false none) off).buf.fifo = off.buf.fifo, s.portServes 0 = true, s.portUp 0 = true, s.portAbsent 0 = false,
      s.sched.inR = [], k.whole = true, s.gateTooLong 0 7 (s.sentLen k) = false, s.guardGo 0 7 (s.sentLen k) = true, s.windOk 0 k = true,
      (Store.get [] 0 (go (.tmSelect 0 false none) s).buf.fifo).map (·.id) = [5], (go (.tmSelect 0 false none) s).queue (ctlQueue 0) = [],
      (go (.downHoldExpire 3) hold).sched.hold = [], w.Canonical, w.regFld pgTm 0x1000 1 0 = 0, w.reaches .i3c pgTm 0x8000 0x80000003#32,
      (go (.tmNodeWrite .i3c 0 0x80000003#32) w).tmW 0 0 = 0x80000003#32, bit (full.tmW 0 0) 31 = true, full.nodeLive 0 = true,
      full.nodeEmpty 0 = false, full.reaches .i3c pgTm 0x8000 (full.tmW 0 0 &&& 0x7FFFFFFF#32),
      bit ((go (.tmNodeWrite .i3c 0 (full.tmW 0 0 &&& 0x7FFFFFFF#32)) full).tmW 0 15) 28 = true, (0x80000005#32 : Word) ≠ full.tmW 0 0,
      ¬ full.accepts .i3c pgTm 0x8000 0x80000005#32, (go (.tmNodeWrite .i3c 0 0x80000005#32) full).tmW 0 0 = full.tmW 0 0,
      r.reaches .i3c pgTm 0x1004 0x10]
    && all [(go (.tmRateApply .i3c 0x10) r).tmW 0 2 = 0xAA, (go (.tmRateApply .i3c 0x20) r).tmW 0 2 = 0x11, p.reaches .i3c pgPolice 0x1004 0x10,
      (go (.policeRateApply .i3c 0x10) p).polW 3 0 = 0xBB, bit ((go (.policeRateApply .i3c 0x10) p).polW 3 7) 8 = false] := by
  decide +kernel

/-- A request is refused with a cause or pends; it is cancelled, done or dropped; a transition shows the states. -/
theorem wit_GateSwitches :
    let s := fwd [(pgGates, 0xC, 2), (pgRoles, 0x200C, 0x70001), (pgTime, 0xC, 2), (pgTime, 0x2010, 1)]
    let bad := (s.setGw 0 0x100C 1)
    let good := ((s.setGw 0 0x100B 1000000).setGw 0 0x100C 1).setGw 0 0x800 3 |>.setGw 0 0x801 1000000
    let p := go (.gateSwitchReq .i3c 0) good
    let late : State := { p with time := { p.time with tb := 2000000 * 2 ^ 64 } }
    let safe := late.setReg pgGates 0xC 4
    let g := go (.gateSwitch 0) late
    let gt : State := { g with buf := { g.buf with queues := [(2, [{ copyIn 1 0 2 with cls := 2 }])] }, sched := { g.sched with inR := [2] } }
    all [good.Canonical, good.stands = false, good.regFld pgGates 0x1000 7 0 = 0, bad.reaches .i3c pgGates 0xC040 1, bad.gatePending 0 = false,
      (bad.putWinA pgGates gwCtrl 0x100#32 0xFFFFFFFF#32 1).gateCause 0 1 ≠ 0, bit ((go (.gateSwitchReq .i3c 0) bad).gw 0 gwStatus) 18 = true,
      (good.putWinA pgGates gwCtrl 0x100#32 0xFFFFFFFF#32 1).gateCause 0 1 = 0, p.gatePending 0 = true, p.gateActive 0 = 0,
      good.nowCeil + 10000 ≤ p.gateCt 0, p.gateCt 0 % 1000000 = 0, p.reaches .i3c pgGates 0xC040 2, p.nowNs < p.gateCt 0,
      (go (.gateSwitchCancel .i3c 0) p).gatePending 0 = false, bit ((go (.gateSwitchCancel .i3c 0) p).gw 0 gwStatus) 19 = true,
      go (.gateSwitch 0) p = p, late.gateCt 0 ≤ late.nowNs, (go (.gateSwitch 0) late).gateActive 0 = 1,
      (go (.gateSwitch 0) late).gatePending 0 = false, bit ((go (.gateSwitch 0) late).reg pgGates 0x14) 16 = true, safe.safe pgGates = true,
      (go (.gateSwitch 0) safe).gateActive 0 = 0, (go (.gateSwitch 0) late).gated 0 = true, gt.portServes 0 = true, gt.flushing 0 = false,
      2 ∈ gt.portQueues 0, (gt.gateNow 0).testBit (gateClass (gt.egressClass 2)) = false, (go (.gateTransition 0) gt).sched.inR = []] := by
  decide +kernel

/-- A cycle advances the clocks; controls act on their domain; SNAP and the stamp queue read them. -/
theorem wit_ClocksAdvanceAndStep :
    let s := mk [(pgTime, 0xC, 2), (pgTime, 0x2010, 1), (pgTime, 0x1048, 5), (pgTime, 0x1054, 7), (pgTime, 0x1000, 0)]
    let early : State := { s with pow := { s.pow with phase := 3 } }
    let d : State := { s with time := { s.time with dA := 9 * 2 ^ 64 } }
    let st := d.setReg pgTime 0x1000 2
    let tw := link [(pgTime, 0xC, 2), (0x30, 0x2000, 1), (pgTime, 0x1048, 5)]
    let bad := s.setReg pgTime 0x1054 0x3B9ACA00
    let x : State := { s with time := { s.time with txts := [(3, [⟨1, 0, 0, 5⟩, ⟨2, 0, 0, 6⟩])] } }
    all [s.Canonical, s.stands = false, s.host.ordered = [], s.time.domPend = [], s.follows = false, s.tbDelta = 0,
      (go .timeBaseTick s).time.tb = clkAdd 0 (s.incD 0), (go .timeBaseTick s).time.cyc = 1, go .timeBaseTick early = early, st.tbSteps = true,
      (go .timeBaseTick st).time.tb = clkAdd (9 * 2 ^ 64) (st.incD 0), (go .timeBaseTick st).reg pgTime 0x2018 = 1,
      s.reaches (.core 0) pgTime 0x1058 1, s.domRelayed = false, (go (.stepGo (.core 0) 0) s).time.dA = 5 * 2 ^ 64,
      (go (.stepGo (.core 0) 0) s).time.dB = 0, tw.domRelayed = true, tw.reaches (.core 0) pgTime 0x1058 1,
      ((go (.stepGo (.core 0) 0) tw).time.domPend.map (fun o => (o.dom, o.kind, o.at_)) = [(0, 1, 100000)]), s.reaches (.core 0) pgTime 0x1058 2,
      s.setValue 0 = some (7 * 2 ^ 64), (go (.setGo (.core 0) 0) s).time.dA = 7 * 2 ^ 64, bad.setValue 0 = none,
      bit ((go (.setGo (.core 0) 0) bad).reg pgTime 0x2010) 12 = true, s.reaches (.core 0) pgTime 0x1060 0x12345,
      (go (.freqWrite (.core 0) 1 0x12345) s).time.fB = 0x12345, (go (.freqWrite (.core 0) 1 0x12345) s).time.fA = 0,
      bit ((go (.freqWrite (.core 0) 1 0x7FFFFFFF#32) s).reg pgTime 0x2010) 11 = decide (freqClamp 0x7FFFFFFF ≠ 0x7FFFFFFF),
      d.reaches (.core 0) pgTime 0x1000 (d.reg pgTime 0x1000 ||| 0x100#32),
      ((go (.snap (.core 0)) d).reg pgTime 0x2030, (go (.snap (.core 0)) d).reg pgTime 0x2034, (go (.snap (.core 0)) d).reg pgTime 0x2038) = clkWords (9 * 2 ^ 64)]
    && all [(Store.wf (fun _ => []) x.time.txts = true), x.reaches (.core 0) pgTime (0x8024 + 0x40 * 3) 1,
      (Store.get [] 3 (go (.txtsPop (.core 0) 3 1) x).time.txts).map (·.tag) = [2]] := by
  decide +kernel

/-- Pulses rise and are captured; a squelched output is low; exchanges start, are answered, used and lost. -/
theorem wit_PulsesAndExchanges :
    let s := cf [(pgTime, 0x108, 0x1009)] (link [(pgTime, 0xC, 2), (0x30, 0x2004, 0x20002), (0x30, 0x2008, 0x20002), (0x30, 0x2100, 6), (0x30, 0x2120, 6), (pgTime, 0x1080, 0x500), (0x10, 0x200C, 0x101), (0x10, 0x2004, 0)])
    let part := cf [(pgTime, 0x100, 2)] (s.setReg pgGlobal 0x2064 0)
    let e : State := { part with time := { part.time with exch := some (3, 0, 1), exchId := 3 } }
    let safe := e.setReg pgTime 0xC 4
    let slow : State := { e with time := { e.time with tb := 200000 * 2 ^ 64 } }
    let pps : State := { s with time := { s.time with ppsDue := true } }
    let soon : State := { s with time := { s.time with ppsIn := some 5, cyc := 9 } }
    let sq : State := { s with time := { s.time with squelched := [0] } }
    let lock := s.setReg pgTime 0x2010 0x10
    all [s.Canonical, s.stands = false, s.enabled pgTime = true, bit (s.cfg pgTime 0x108) 0 = true, go .ppsOutEdge s = s, pps.time.ppsDue = true,
      (go .ppsOutEdge pps).time.ppsEnd = some 1562, (go .ppsOutEdge pps).ppsOut = true, bit (s.cfg pgTime 0x108) 3 = true, go .ppsIn soon = soon,
      (go .ppsIn s).reg pgTime 0x207C = 1, (go .ppsIn s).time.ppsIn = some 0, bit (s.reg pgTime 0x1080) 10 = true,
      (go (.rclkSquelch 0 true) s).rclkRuns 0 = false, s.srcLocked (fld (s.reg pgTime 0x1080) 7 0) = true,
      (go (.rclkSquelch 0 true) s).time.squelched = [0], (go (.rclkResume 0) sq).time.squelched = [], part.follows = true,
      part.followGroup = some 0, part.timeMember 0 = some 1, (go .timeExchangeStart part).time.exch = some (1, 0, 1),
      (go .timeExchangeStart e).reg pgTime 0x2090 = 1,
      ((Store.get [] 1 (go .timeExchangeStart part).sprue.ctlQ).map (fun x => (byteAt x.payload 0, byteAt x.payload 1)) = [(5, 0)]),
      s.enabled (sprPage 0) = true, (go (.timeRequestRx 0 1 4 0) s).reg pgTime 0x2094 = 1,
      ((Store.get [] 1 (go (.timeRequestRx 0 1 4 0) s).sprue.ctlQ).map (fun x => (byteAt x.payload 0, byteAt x.payload 1)) = [(5, 1)]),
      e.time.exch = some ((3#16).toNat, ofTod96 0, 1), e.followGroup = some 0, (go (.timeResponseRx 0 1 3 0 0 0) e).time.exch = none,
      go (.timeResponseRx 0 1 4 0 0 0) e = e]
    && all [safe.safe pgTime = true, (go (.timeResponseRx 0 1 3 0 0 0) safe).reg pgTime 0x208C = 1, e.stampNow ≤ ofTod96 0 + 6553600000,
      ofTod96 0 + 6553600000 < slow.stampNow, (go (.timeResponseRx 0 1 3 0 0 0) slow).reg pgTime 0x2090 = 1,
      (go .timeExchangeLost e).time.exch = none, (go .timeExchangeLost e).reg pgTime 0x2090 = 1, lock.regFld pgTime 0x2010 4 3 = 2,
      (go .servoHoldover lock).regFld pgTime 0x2010 4 3 = 3, bit ((go .servoHoldover lock).reg pgTime 0x2010) 10 = true] := by
  decide +kernel

/-- A slot is armed, refused, cancelled, placed, applied or missed. -/
theorem wit_LaunchSlots :
    let s := mk [(pgLaunch, 0xC, 2), (pgTime, 0xC, 2), (pgLaunch, 0x1000, 5)]
    let bad := (s.setSlotW 5 2 0x3B9ACA00)
    let sec := s.setSlotW 5 1 1
    let a := go (.launchArm (.core 1) 0) sec
    let dueA : State := { a with time := { a.time with tb := 2000000000 * 2 ^ 64 } }
    let p := go (.launchPlaced 5) a
    let due : State := { p with time := { p.time with tb := 2000000000 * 2 ^ 64 } }
    let safe := due.setReg pgLaunch 0xC 4
    all [s.Canonical, s.stands = false, sec.reaches (.core 1) pgLaunch 0x800C 0x10000, sec.slotState 5 = 0,
      sec.armCause (sec.agentRights (.core 1) pgLaunch) 5 = none, a.slotState 5 = 1, a.slotArmer 5 = .core 1, (bad.armCause 3 5) = some (2, 0),
      bad.reaches (.core 1) pgLaunch 0x800C 0x10000, fld ((go (.launchArm (.core 1) 0) bad).slotW 5 4) 7 4 = 2,
      bit ((go (.launchArm (.core 1) 0) bad).reg pgLaunch 0x14) 19 = true, a.reaches (.core 1) pgLaunch 0x800C 0x20000,
      (go (.launchCancel (.core 1) 0) a).slotState 5 = 5, a.slotDue 5 = false, p.slotState 5 = 2, dueA.slotDue 5 = true, dueA.lateOk 5 = false,
      (go (.launchPlaced 5) dueA).slotState 5 = 4, (go (.launchPlaced 5) dueA).reg pgLaunch 0x200C = 1, due.slotDue 5 = true,
      safe.safe pgLaunch = true, (go (.launchMissed 5) safe).slotState 5 = 4, due.slotApplying 5 = true,
      ((List.range 256).all (fun j => j == 5 || !due.slotApplying j || !due.slotFirst j 5) = true), bit (due.slotW 5 3) 9 = false,
      (go (.launchApply 5) due).slotState 5 = 3, (go (.launchApply 5) due).reg pgLaunch 0x2004 = 1] := by
  decide +kernel

/-- A probe and a credited frame leave; grants add credit, are earned and sent; an empty VOQ is freed; UNREACH_DROP begins. -/
theorem wit_TrunkSending :
    let c := { copyIn 5 0 (voqKey 3) with need := 0 }
    let v : Voq := ⟨4, 1, 2, 0, 7, none⟩
    let s : State := { trunk [] with buf := { State.reset.buf with queues := [(voqKey 3, [c])] }, voq := { State.reset.voq with voqs := [(3, v)] } }
    let sp : State := { s with buf := { s.buf with queues := [(voqKey 3, [{ c with spoilt := true }])] } }
    let rich : State := { s with voq := { s.voq with voqs := [(3, { v with credit := 5000 })] } }
    let f : State := { s with voq := { s.voq with flows := [((7 * 256 + 0) * 8 + 2, ⟨0, 10⟩)] } }
    let g : State := { s with voq := { s.voq with grants := [(7, [(10, 2)])] } }
    let e : State := { s with buf := State.reset.buf }
    all [s.Canonical, s.stands = false, 2 ≤ s.blk pgVoq, s.topo = 2, s.pickVoq = some (3, v), s.queue (voqKey 3) = [c],
      (go (.voqServe none) s).reg pgVoq 0x201C = 1, (go (.voqServe none) s).queue (voqKey 3) = [],
      Store.get 0 (7 * 8 + 2) (go (.voqServe none) s).voq.streams = transferCells (s.sentBytes c).length,
      (go (.voqServe (some true)) s).reg pgCrucible 0x2014 = 1, (go (.voqServe (some true)) s).reg pgCrucible 0x2010 = 1, sp.pickVoq = some (3, v),
      sp.queue (voqKey 3) = [{ c with spoilt := true }], (go (.voqServe none) sp).reg pgIngot 0x2018 = 1, (trunk []).pickVoq = none,
      go (.voqServe none) (trunk []) = trunk [], s.standby = false, keyed s, (go (.voqServe none) rich).reg pgVoq 0x201C = 0,
      ((go (.voqServe none) rich).voq.voqs.map (fun x => x.2.credit) = [(5000 - 256 * transferCells (s.sentBytes c).length : Int)]),
      (s.voq.voqs.find? (fun x => x.2.port == 1 && x.2.cls == 2 && s.physOf x.2.dest == some 7) = some (3, v)),
      (go (.creditGrantRx 7 [(1, 2, 3)]) s).reg pgVoq 0x2020 = 1,
      ((go (.creditGrantRx 7 [(1, 2, 3)]) s).voq.voqs.map (fun x => x.2.credit) = [3 * 1024]), f.working pgCredit = true, f.standby = false,
      s.pickFlow 0 = none, go (.creditEarn 0) s = s, go (.grantCellSend 7) s = s, go (.voqFreeHoldExpire 3) s = s, s.reachable 7 = true]
    && all [go (.unreachExpire 7) s = s, f.portCells 0 ≤ f.cfgFld pgCredit 0x104 19 0, (f.pickFlow 0).isSome,
      ((go (.creditEarn 0) f).voq.flows.map (fun x => x.2.out) = [1024]), (Store.get [] 7 (go (.creditEarn 0) f).voq.grants) = [(2, 1)],
      Store.get [] 7 g.voq.grants ≠ [], g.txLanes (g.routeGroups 7) ≠ [], (go (.grantCellSend 7) g).voq.grants = [],
      ((Store.get [] 0 (go (.grantCellSend 7) g).sprue.ctlQ).map (fun x => (byteAt x.payload 0, byteAt x.payload 1)) = [(3, 1)]),
      (go (.grantCellSend 7) g).reg pgCredit 0x200C = 1, e.queue (voqKey 3) = [], e.spillOf (voqKey 3) = none,
      (go (.voqFreeHoldExpire 3) e).voq.voqs = [], s.reachable 9 = false, (go (.unreachExpire 9) s).voq.unreach = [9],
      bit ((go (.unreachExpire 9) s).reg pgVoq 0x14) 17 = true] := by
  decide +kernel

/-- Contexts open, take cells, release a frame, skip a gap, sync, stop and start their sources; TAKEOVER changes an alias. -/
theorem wit_TrunkReceiving :
    let s := trunk []
    let x := wholeCell 5
    let ctx := fun (n : Option Nat) (h : List (Nat × DataCell × Nat)) => { s with voq := { s.voq with ctxs := [(7 * 8 + 2, ⟨n, h, [], false, 0⟩)] } }
    let full : State := { s with voq := { s.voq with ctxs := (List.range 4096).map (fun k => (k, ⟨none, [], [], false, 0⟩)) } }
    let old := fun (s : State) => ({ s with time := { s.time with cyc := 1562500 } } : State)
    let sb := s.setReg pgPair 0x2004 2
    let big : State := { s with voq := { s.voq with ctxs := (List.range 64).map (fun k => (k, ⟨some 5, List.replicate 512 (6, x, 0), [], false, 0⟩)) } }
    let lim := cf [(pgCredit, 0x10C, 0x20001)] (ctx (some 5) [(5, x, 0)])
    let on : State := { cf [(pgCredit, 0x10C, 0x20001)] s with voq := { s.voq with xoff := true } }
    all [s.Canonical, s.stands = false, s.working pgCredit = true, s.topo = 2, full.voq.ctxs.length = 4096,
      (go (.dataCellRx 0xFFF 7 0 true true []) full).reg pgCredit 0x2020 = 1,
      ((go (.dataCellRx 7 2 9 true true []) s).voq.ctxs.map (fun e => (e.1, e.2.next)) = [(58, none)]),
      ((go (.dataCellRx 7 2 0 true true []) s).voq.ctxs.map (fun e => (e.1, e.2.next)) = [(58, some 0)]),
      (go (.dataCellRx 7 2 4 true true []) (ctx (some 5) [])).reg pgCredit 0x2018 = 1,
      (((go (.dataCellRx 7 2 5 true true x.payload) (ctx (some 5) [])).voq.ctxs.map (fun e => e.2.held)) = [[(5, x, 0)]]), s.voq.ctxs = [],
      go .reassemblyRelease s = s, half x.payload 6 = 100, x.payload.length = 16 + half x.payload 6,
      ((go .reassemblyRelease (ctx (some 5) [(5, x, 0)])).buf.waiting.map (fun a => (a.frame.bytes, a.tc)) = [(List.replicate 100 3, 1)]),
      (go .reassemblyRelease (ctx (some 5) [(5, x, 0)])).reg pgCredit 0x2028 = 1,
      ((go .reassemblyRelease (ctx (some 5) [(5, x, 0)])).voq.ctxs.map (fun e => (e.2.next, e.2.held)) = [(some 6, [])]), s.standby = false,
      sb.standby = true, (go (.dataCellRx 7 2 5 true true []) sb).reg pgPair 0x204C = 1,
      (cf [] (s.setReg pgCredit 0xC 0)).working pgCredit = false,
      go (.dataCellRx 7 2 5 true true []) (s.setReg pgCredit 0xC 0) = s.setReg pgCredit 0xC 0, big.rbUsed = 32768,
      (go (.dataCellRx 7 2 5 true true []) big).reg pgCredit 0x201C = 1, (go (.dataCellRx 9 3 5 true true []) big).reg pgCredit 0x201C = 1,
      (ctx (some 3) [(5, x, 0)]).heldTooLong ⟨some 3, [(5, x, 0)], [], false, 0⟩ = false,
      go (.rbSkip 7 2) (ctx (some 3) [(5, x, 0)]) = ctx (some 3) [(5, x, 0)],
      (old (ctx (some 3) [(5, x, 0)])).heldTooLong ⟨some 3, [(5, x, 0)], [], false, 0⟩ = true,
      firstHeld ⟨some 3, [(5, x, 0)], [], false, 0⟩ 3 = some 5,
      ((go (.rbSkip 7 2) (old (ctx (some 3) [(5, x, 0)]))).voq.ctxs.map (fun e => e.2.next) = [some 5])]
    && all [(go (.rbSkip 7 2) (old (ctx (some 3) [(5, x, 0)]))).reg pgCredit 0x2014 = 1,
      ((go (.contextSync 7 2) (old (ctx none [(5, x, 0)]))).voq.ctxs.map (fun e => e.2.next) = [some 5]),
      lim.cfgFld pgCredit 0x10C 15 0 ≤ lim.rbUsed, (go .rbXoff lim).voq.xoff = true, (go .rbXoff lim).reg pgCredit 0x202C = 1,
      on.rbUsed < on.cfgFld pgCredit 0x10C 31 16, (go .rbXoff on).voq.xoff = false, go .flowStatusRepeat s = s,
      ((Store.get [] 0 (go .flowStatusRepeat on).sprue.ctlQ).map (fun e => byteAt e.payload 0) = [4]), 0 ∈ on.dataGroups,
      on.enabled (sprPage 0) = true, on.memberLive 0 0 = true, (on.memberLane 0 0).isSome, fld (s.winA pgVoq 4) 11 0 = 7,
      fld ((go (.takeoverRx 4 8 7) s).winA pgVoq 4) 11 0 = 8, (go (.takeoverRx 4 8 7) s).reg pgVoq 0x202C = 1,
      (go (.takeoverRx 4 8 9) s).reg pgVoq 0x2030 = 1] := by
  decide +kernel

/-- Conflict, probe, relays on both sides, retransmission, batches and the walk. -/
theorem wit_TwicelJoint :
    let s := link []
    let lead : State := link [(pgPair, 0x2000, 1), (0x30, 0x2000, 1)]
    let part : State := link [(pgGlobal, 0x2064, 0), (pgPair, 0x2000, 2)]
    let form : State := link [(pgGlobal, 0x2064, 0), (pgPair, 0x2000, 1)]
    let conf : State := link [(pgPair, 0x2000, 5)]
    let pr := go .joinProbe lead
    let out : State := { s with pair := { s.pair with relayNext := 1, relays := [relayOf 0 1] } }
    let wt : Waiting := ⟨.i3c, .i3c, false, 0, 0, ⟨7, .ok, []⟩, [.remote 0], []⟩
    let wait : State := { out with host := { out.host with waiting := [wt] } }
    let old : State := { wait with pair := { out.pair with relays := [{ relayOf 0 1 with tries := 8 }] } }
    let mir : State := { out with pair := { out.pair with relays := [{ relayOf 0 1 with mirror := true }] } }
    let done : State := { lead with pair := { lead.pair with probed := true } }
    let jo : State := cf [(pgTables, 0x100, 1)] (link [(pgPair, 0x2000, 2), (0x30, 0x2004, 0x30003), (0x30, 0x2008, 0x30003), (pgTables, 0xC, 2)])
    let tick : State := { jo with tab := { jo.tab with mac := [(6291456, macEnt 0xA1 0x01), (6291457, macEnt 0xA2 0x102)] } }
    let batch : State := { jo with tab := { jo.tab with learnOut := [(1, 5, ⟨0xA1, 5, 1⟩)] } }
    let gap : State := { jo with pair := { jo.pair with batchIn := some 2 } }
    let fix : State := { jo with tab := { jo.tab with mac := [(6291456, { macEnt 0xA1 0x01 with static := true })] } }
    let ent0 := BitVec.ofNat 128 (0xA1 * 2 ^ 80 + 2 * 2 ^ 76 + 5 * 2 ^ 64 + 0x102 * 2 ^ 48)
    let ent := fun (op port : Nat) => BitVec.ofNat 128 (0xA1 * 2 ^ 80 + op * 2 ^ 76 + 5 * 2 ^ 64 + port * 2 ^ 48 + 7 * 2 ^ 32)
    all [s.Canonical, s.stands = false, keyed s, keyed tick, keyed fix, s.topo = 1, s.ownDev = 0, s.twicel ≠ 5, part.ownDev = 1,
      (go (.conflictDetect 0) lead).twicel = 5, bit ((go (.conflictDetect 0) lead).reg pgPair 0x14) 16 = true,
      (go (.conflictDetect 1) conf).twicel = 1, go (.conflictDetect 1) lead = lead, lead.jointUp = true, lead.probing = false,
      lead.pair.probed = false, go .joinProbe done = done, (pr.pair.relays.map (fun r => (r.seq, r.probe, r.mask)) = [(0, true, some 0)]),
      pr.pair.relayNext = 1, go .joinProbe jo = jo, pr.probing = true, (go (.joinProbeAnswer 0) pr).twicel = 2,
      (go (.joinProbeAnswer 4) pr).twicel = 1, bit ((go (.joinProbeAnswer 4) pr).reg pgPair 0x2000) 8 = true,
      (go (.joinProbeAnswer (BitVec.ofNat 8 Status.tableFull.code)) pr).twicel = 3, go (.joinProbeAnswer 0) lead = lead,
      go (.configRelayRx 0 0 0x40000100#32 0 [5]) s = s, part.twicel = 2,
      (go (.configRelayRx 0 0 (word (regAddr 0x10 0x1000)) 0 [1]) part).reg 0x10 0x1000 = 1,
      (go (.configRelayRx 0 0 (word (regAddr 0x10 0x1000)) 0 [1]) part).pair.relayWant = 1]
    && all [(go (.configRelayRx 0 0 (word (regAddr 0x10 0x1000)) 0 [1]) part).pair.acks = [(0, 0, 1, [])],
      (go (.configRelayRx 0 0 (word (regAddr 0x10 0x1000)) 0 [1]) form).pair.acks = [(0, Status.partnerDown.code, 0, [])],
      go (.configRelayRx 0 3 0x40000100#32 0 [5]) part = part, (go (.configRelayRx 0 0xFFFF 0x40000100#32 0 [5]) part).pair = part.pair,
      go (.relayAckRx 5 0 1 []) out = out, (go (.relayAckRx 0 0 1 []) out).pair = { out.pair with relays := [] },
      (go (.relayAckRx 0 5 0 []) mir).reg pgPair 0x201C = 0x40000100, bit ((go (.relayAckRx 0 5 0 []) mir).reg pgPair 0x2000) 11 = true,
      (go (.relayAckRx 0 0 1 []) wait).host.waiting = [],
      (go (.relayAckRx 0 0 1 []) wait).outbox .i3c = wait.outbox .i3c ++ [(wt.take (relayOf 0 1) 0 1 []).final.bytes], go .relayRetx s = s,
      (go .relayRetx out).pair.relays.map Relay.tries = [2], (go .relayRetx out).reg pgPair 0x2030 = 1, (go .relayRetx out).host = out.host,
      bit ((go .relayRetx old).reg pgPair 0x2000) 10 = true, (go .relayRetx old).host.waiting = [], go .learnBatchSend jo = jo,
      jo.txLanes jo.jointGroups ≠ [], (go .learnBatchSend batch).tab.learnOut = [], (go .learnBatchSend batch).reg pgPair 0x2034 = 1,
      ((tick.macFind 0xA1 5).map (fun e => e.1) = some 6291456), tick.learnWins (LearnEnt.of (ent 2 0x102)) (macEnt 0xA1 0x01) = true,
      ((go (.learnRx 4 [ent 2 0x102]) tick).tab.mac.map (fun e => e.2.dest) = [0x102, 0x102]),
      (go (.learnRx 4 [ent 4 0x01]) tick).tab.mac = [(6291457, macEnt 0xA2 0x102)], (go (.learnRx 4 [ent 4 0x02]) tick).tab.mac = tick.tab.mac,
      jo.macFind 0xA1 5 = none, go (.learnRx 4 [ent 4 0x02]) jo = { jo with pair := { jo.pair with batchIn := some 5 } },
      go (.learnRx 4 [ent 2 0x102]) (cf [(pgTables, 0xC, 4)] tick) = cf [(pgTables, 0xC, 4)] tick, (go (.learnRx 4 []) gap).reg pgPair 0x203C = 2,
      (go (.learnRx 4 []) gap).pair.batchIn = some 5]
    && all [go (.learnRx 1 [ent 2 0x102]) gap = gap, go (.learnRx 4 [ent 2 0x102]) fix = { fix with pair := { fix.pair with batchIn := some 5 } },
      go (.learnRx 4 [ent0]) tick = { tick with pair := { tick.pair with batchIn := some 5 } },
      tick.learnWins (LearnEnt.of ent0) (macEnt 0xA1 0x01) = false,
      go .syncWalk tick = { tick with tab := { tick.tab with learnOut := (go .syncWalk tick).tab.learnOut } },
      ((go .syncWalk tick).tab.learnOut.map (fun e => (e.1, e.2.2.mac)) = [(1, 0xA1)]), go .syncWalk conf = conf] := by
  decide +kernel

/-- The pins of a protected device. -/
theorem wit_Switchover :
    let act := ports [(pgPair, 0x2004, 0x101)]
    let sby := ports [(pgPair, 0x2004, 2), (pgPair, 0x200C, 7)]
    let wind := ports [(pgPair, 0x2004, 6), (pgTm, 0xC, 2)]
    let full : State := { wind with buf := { wind.buf with queues := [(8, [copyIn 5 1 8])] } }
    let pro : State := { act with pair := { act.pair with promoting := true } }
    let s0 := cf [(pgPair, 0x100, 0x70000)] (trunk [(pgPair, 0x2004, 0x101)])
    let ptr : State := { s0 with pair := { s0.pair with promoting := true } }
    let a0 := cf [(pgPair, 0x100, 4)] (ports [(pgPair, 0x2004, 0x101), (pgCpctl, 0x2000, 0x100)])
    let auto : State := { a0 with pair := { a0.pair with promoting := true } }
    let tk : State := { s0 with pair := { s0.pair with takeLeft := 2 } }
    let hb := ports [(pgCpctl, 0x2000, 0x100)]
    let kicked : State := { hb with pair := { hb.pair with kick := some 0 } }
    all [act.Canonical, act.stands = false, keyed act, keyed full, keyed ptr, act.role = 1, (go .actInFall act).role = 2,
      (go .actInFall act).winding = true, go .actInFall sby = sby,
      go .actInFall (ports [(pgPair, 0x2004, 0x100)]) = (ports [(pgPair, 0x2004, 0x100)]).clrReg pgPair 0x2004 0x100#32, go .windDownEnd act = act,
      (go .windDownEnd full).winding = false, (go .windDownEnd full).buf.queues = [], (go .windDownEnd full).reg pgTm 0x30 = 1,
      full.workCount pgTm = 1, (go .actInRise wind).role = 1, (go .actInRise wind).winding = false, (go .actInRise wind).reg pgPair 0x2050 = 0,
      go .actInRise act = act, (go .actInRise sby).role = 1, (go .actInRise sby).pair.promoting = true, (go .actInRise sby).reg pgPair 0x2020 = 7,
      (go .actInRise sby).reg pgPair 0x2050 = 1, bit ((go .actInRise sby).reg pgPair 0x2004) 16 = true, go .takeoverForwardStart act = act,
      (go .takeoverForwardStart pro) = act, ptr.topo = 2, ptr.aliasTargets = [7], ptr.txLanes (ptr.routeGroups 7) ≠ [],
      (go .takeoverForwardStart ptr).pair.takeLeft = 2]
    && all [(go .takeoverForwardStart ptr).reg pgPair 0x2054 = 1,
      ((go .takeoverForwardStart ptr).sprue.ctlQ.map (fun e => e.2.map (fun x => (x.hdr.dst, byteAt x.payload 0))) = [[(7, 8)]]),
      ((go .takeoverForwardStart auto).ops.recs.map (fun e => e.2.kind) = [.stateSync]), auto.freeOp = some 0,
      ((go .takeoverRepeat tk).sprue.ctlQ.map (fun e => e.2.map (fun x => byteAt x.payload 0)) = [[8]]), go .takeoverRepeat act = act,
      (go .takeoverRepeat tk).pair = { tk.pair with takeLeft := 1 }, (go .takeoverRepeat tk).reg pgPair 0x2054 = 1,
      act.reaches (.core 0) pgPair 0x1000 1, (go (.hbKick (.core 0) 1) act).pair.kick = some 0, (go .hbToggle kicked).pair.hbOut = true,
      bit ((go .hbToggle kicked).reg pgPair 0x2004) 11 = true, (go .hbToggle hb).pair.hbOut = false, act.reaches .i3c pgPair 0x1004 1,
      bit ((go (.faultAssert .i3c) act).reg pgPair 0x2004) 10 = true, bit ((go (.faultAssert .i3c) act).reg pgPair 0x2008) 4 = true,
      (go (.faultAssert .i3c) act).reaches .i3c pgPair 0x1004 2,
      bit ((go (.faultClear .i3c) (go (.faultAssert .i3c) act)).reg pgPair 0x2004) 10 = false] := by
  decide +kernel

/-- The journal on the active and on the standby. -/
theorem wit_Journalling :
    let base := fun (l : List (Nat × Nat × Nat)) => cf [(0x30, 0x100, 0x50102), (pgPair, 0x100, 0x70000)] (link ([(pgPair, 0xC, 2), (0x30, 0x2000, 1), (0x30, 0x2004, 0x30003), (0x30, 0x2008, 0x30003), (pgGlobal, 0x2000, 0), (pgPair, 0x200C, 7)] ++ l))
    let a : State := { base [(pgPair, 0x2004, 0x101)] with pair := { (base [(pgPair, 0x2004, 0x101)]).pair with jOn := true, jNext := 4 } }
    let b : State := { base [(pgPair, 0x2004, 2)] with pair := { (base [(pgPair, 0x2004, 2)]).pair with jOn := true, jNext := 4 } }
    let one : State := { a with pair := { a.pair with jSent := [(2, [1, 0]), (3, [2, 0])], jUnsent := 1 } }
    let broke : State := { a with pair := { a.pair with jResync := true } }
    let swp : State := { a with pair := { a.pair with sweep := some 0 } }
    let bw : State := base [(pgPair, 0x2004, 6)]
    let bulk : State := { a with pair := { a.pair with jBulk := true } }
    let ops : State := withOp { opRec .stateSync .running 0 with params := [0, 9] } a
    let op : State := withOp { opRec .stateSync .running 5 with params := [0, 9] } a
    let off : State := base [(pgPair, 0x2004, 2)]
    let h := fun (k : Nat) => word (k * 2 ^ 24)
    all [a.Canonical, b.Canonical, keyed a, keyed b, a.stands = false,
      (((go (.journalAckRx 7 2 false) ops).opRec 2).map (fun r => (r.state, r.phase)) = some (.running, 1)),
      (go .journalRecordSend swp).pair.sweep = some 13, ((go .journalRecordSend swp).pair.jSent.map (fun r => fld (r.2.headD 0) 31 24) = [7]),
      ((go .journalHeartbeat b).sprue.ctlQ.map (fun e => e.2.map (fun x => x.payload)) = [[journalBytes 0 3 7 []]]),
      (go (.journalRx 7 4 [h 5, 0, 1]) b).standing = 1, (go (.journalRx 7 4 [h 7 + 1, 0, 5, 0, 9, 0, 11]) b).backOf 5 = (9, 11),
      (go (.journalRx 7 4 [h 7 + 1, 0, 5, 0, 9, 0, 11]) b).partOf 5 = (0, 0),
      ((go (.journalRx 7 2 [h 1, 0]) b).sprue.ctlQ.map (fun e => e.2.map (fun x => x.payload)) = [[journalBytes 0 3 7 []]]),
      ((go (.journalRx 9 0 [h 9, 5, 1]) b).sprue.ctlQ.map (fun e => e.2.map (fun x => x.payload)) = [[journalBytes 1 0 9 []]]),
      go (.journalRx 7 4 [h 1, 0]) (mk []) = mk [], go (.journalRx 7 4 [h 1, 0]) bw = bw, a.journalUp = true, a.txLanes a.pairGroups ≠ [],
      b.txLanes b.pairGroups ≠ [], go .journalRecordSend b = b, (go .journalRecordSend one).pair = { one.pair with jUnsent := 0 },
      (go .journalRecordSend one).reg pgPair 0x2010 = 3,
      (((Store.get [] ((one.txLanes one.pairGroups).headD 0) (go .journalRecordSend one).sprue.ctlQ).map (fun x => x.payload)) = [journalBytes 0 3 7 [2, 0]]),
      (go .journalRecordSend broke).pair = { a.pair with jNext := 5, jSent := [(4, a.recHead 11 0)] }, go .journalRecordSend a = a,
      (go .journalHeartbeat a).pair = { a.pair with jNext := 5, jSent := [(4, a.recHead 1 0)] }, (go .journalHeartbeat b).pair = b.pair,
      (go .journalRetx one).reg pgPair 0x2044 = 1, (go .journalRetx one).pair = one.pair,
      go .journalSweep bulk = { bulk with pair := { bulk.pair with sweep := some 0 } }]
    && all [go .journalSweep a = a, go (.journalAckRx 7 2 false) b = b, (go (.journalAckRx 7 2 false) one).pair.jSent = [(3, [2, 0])],
      (go (.journalAckRx 7 2 false) one).reg pgPair 0x2014 = 2,
      (go (.journalAckRx 7 2 true) one).pair = { one.pair with jOn := false, jSent := [], jUnsent := 0 },
      go (.journalRx 7 2 []) one = go (.journalAckRx 7 2 false) one,
      (((go (.journalAckRx 7 2 true) op).opRec 2).map (fun r => (r.state, r.result)) = some (.failed, .cfgLocked)),
      (((go (.journalAckRx 7 9 false) op).opRec 2).map (fun r => (r.state, r.result)) = some (.done, .ok)),
      (go (.journalRx 7 0 [h 1, 0]) a).reg pgPair 0x2048 = 1, bit ((go (.journalRx 7 0 [h 1, 0]) a).reg pgPair 0x2004) 18 = true,
      go (.journalRx 6 4 [h 1, 0]) b = b, (go (.journalRx 9 0 [h 9, 5, 0]) b).reg pgPair 0x200C = 9,
      (go (.journalRx 9 0 [h 9, 5, 0]) b).pair.jNext = 1, (go (.journalRx 9 0 [h 9, 5, 0]) b).sync = 1,
      (go (.journalRx 9 0 [h 9, 5, 1]) b).pair = b.pair, (go (.journalRx 9 0 [h 9, 5, 0]) off).pair.jOn = true,
      (go (.journalRx 7 3 [h 1, 0]) b).pair = b.pair, (go (.journalRx 7 4 [h 1, 6]) b).pair.jNext = 5,
      (go (.journalRx 7 4 [h 1, 6]) b).pair.jCreated = 6, (go (.journalRx 7 4 [h 1, 6]) b).reg pgPair 0x2010 = 4,
      (go (.journalRx 7 4 [h 4, 0, 8, 0, 2, 5]) b).tab.switchAt = some 2000000005,
      (go (.journalRx 7 4 [h 4, 0, 8, 0, 2, 5]) b).tab.switchNo = some 8, (go (.journalRx 7 4 [h 8, 0, 0xABC]) b).reg pgEpoch 0x2000 = 0xABC,
      (go (.journalRx 7 4 [h 10, 0]) b).pair.jBulk = true, (go (.journalRx 7 4 [h 11, 0]) b).sync = 0] := by
  decide +kernel

/-- A flush wraps; reads latch; a set acts at once, begins or is refused. -/
theorem wit_Statistics :
    let s0 := host []
    let s : State := { s0 with stat := { s0.stat with part := [(5, (3, 200)), (6, (1, 1))], back := [(5, (2 ^ 64 - 1, 10))], flushQ := [5] } }
    let ap := cf [(pgCpctl, 0x100, 8)] (host [(pgCpctl, 0x2000, 0x200)])
    let x := host [(pgStats, 0x1004, 5), (pgStats, 0x100C, 9), (pgStats, 0x1014, 8)]
    let busy := host [(pgStats, 0x2000, 1)]
    all [s.Canonical, s.stands = false, go (.statsFlush false) s0 = s0, ap.appOn 3 = true, ap.appMayLoad (regAddr pgStats 0x80A0) = false,
      (go (.statsRead (.app 3) 5 false) ap).stat = ap.stat, (go (.statsRead (.app 3) 5 false) ap).cp.coreRegs ≠ ap.cp.coreRegs,
      (go (.statsFlush false) s).partOf 5 = (0, 0), (go (.statsFlush false) s).backOf 5 = (2, 210), (go (.statsFlush false) s).pairFlags 5 = 1,
      (go (.statsFlush false) s).partOf 6 = (1, 1), bit ((go (.statsFlush false) s).reg pgStats 0x14) 17 = true,
      (go (.statsFlush true) s).backOf 5 = (3, 200), (go (.statsFlush true) s).pairFlags 5 = 4, (go (.statsFlush true) s).reg pgStats 0x2008 = 1,
      (go .statsPeriodicFlush s).stat.flushQ = [5, 6], (go (.statsRead .i3c 5 false) s).stat.latch = [(1, (5, [0, 210, 0, word s.nowSub, 0]))],
      keyed s, x.reaches .i3c pgStats 0x101C (1#32 ||| 1#32), busy.reaches .i3c pgStats 0x101C (1#32 ||| 1#32),
      x.reaches .i3c pgStats 0x101C (3#32 ||| 1#32), (go (.statsSet .i3c 1) x).backOf 5 = (9, 8),
      bit ((go (.statsSet .i3c 1) x).reg pgStats 0x14) 16 = true, (go (.statsSet .i3c 3) x).stat.job = some ⟨5, 1, 0, 9, 8, 0⟩,
      bit ((go (.statsSet .i3c 1) busy).reg pgStats 0x2000) 11 = true, (go (.statsSet .i3c 1) busy).stat.back = []] := by
  decide +kernel

/-- Values are reset, held and written; records reach the ring. -/
theorem wit_MonitorAndSamples :
    let s0 := host [(pgPmu, 0xC, 2)]
    let v := host [(pgPmu, pmuVal 3, 7), (pgPmu, pmuVal 3 + 4, 1)]
    let w : State := { s0 with stat := { s0.stat with waiting := [List.replicate 62 1] } }
    let full : State := { (w.setRegFld pgPmu 0x2000 12 0 4096) with stat := w.stat }
    all [s0.Canonical, v.reaches .i3c pgPmu 0x1000 (v.reg pgPmu 0x1000 ||| 2#32), v.pmuRuns = false,
      (go (.pmuResetAll .i3c) v).reg pgPmu (pmuVal 3) = 0, (go (.pmuResetAll .i3c) v).reg pgPmu (pmuVal 3 + 4) = 0,
      v.reaches .i3c pgPmu (pmuVal 3 + 4) 2, (go (.pmuValueWrite .i3c 3 true 2) v).reaches .i3c pgPmu (pmuVal 3) 9,
      (go (.pmuValueWrite .i3c 3 true 2) v).stat.hold = [(1, (3, 2))], (go (.pmuValueWrite .i3c 3 true 2) v).reg pgPmu (pmuVal 3 + 4) = 1,
      (go (.pmuValueWrite .i3c 3 false 9) (go (.pmuValueWrite .i3c 3 true 2) v)).reg pgPmu (pmuVal 3 + 4) = 2,
      (go (.pmuValueWrite .i3c 3 false 9) (go (.pmuValueWrite .i3c 3 true 2) v)).reg pgPmu (pmuVal 3) = 9, go .sampleRecordWrite s0 = s0,
      w.working pgPmu = true, w.ringFill = 0, ((go .sampleRecordWrite w).stat.ring.map (fun e => (e.1, e.2.length)) = [(0, 64)]),
      (go .sampleRecordWrite w).regFld pgPmu 0x2000 12 0 = 1, full.ringFill = 4096, (go .sampleRecordWrite full).stat.lost = true,
      (go .sampleRecordWrite full).reg pgPmu 0x2008 = 1, (go .sampleRecordWrite w).reaches .i3c pgPmu 0x1004 1,
      (go (.ringRdWrite .i3c 1) (go .sampleRecordWrite w)).regFld pgPmu 0x1004 12 0 = 1,
      (go (.ringRdWrite .i3c 2) (go .sampleRecordWrite w)).regFld pgPmu 0x1004 12 0 = 0] := by
  decide +kernel

/-- A learned entry of the other device finds room. -/
theorem wit_learnRoom :
    let s : State := cf [(pgTables, 0x100, 1)] (link [(pgPair, 0x2000, 2), (pgTables, 0xC, 2)])
    (s.macInsert (macEnt 0xA1 0x102)).isSome = true :=
  macInsert_isSome _ _ (by decide +kernel) (by decide +kernel)

/-- The port attaches; core commands and triggers act on what they name. -/
theorem wit_CoreDebugging :
    let s0 := host []
    let s := host [(pgDebug, 0x2000, 1), (pgDebug, 0x1000, 0x103)]
    let weak := host [(pgDebug, 0x2000, 1)]
    let h : State := { s with cp := { s.cp with halted := [(1, .coreHalt)] } }
    let tr : State := { s with cp := { s.cp with triggers := [(4, ⟨1, false, 0x100, 0⟩)] } }
    let halt := rq .debug 0x40 [3]
    let step := rq .debug 0x42 [1]
    let rd := rq .debug 0x43 [1, 5, 1]
    let wr := rq .debug 0x44 [1, 5, 7, 8]
    let tg := rq .debug 0x45 [1, 1, 0x100, 0]
    all [s.Canonical, keyed s, keyed h, keyed tr, s.stands = false, (go .debugAttach s0).attached = true,
      (go .debugAttach s0).reg pgDebug 0x201C = 1, go .debugAttach s = s, (go .debugLineReset s).reg pgDebug 0x2020 = 1,
      go .debugLineReset s0 = s0, s.takes opHALT halt, weak.takes opHALT halt, weak.coreDebug = false, s.coreDebug = true,
      said weak (go (.coreHalt halt) weak) halt .denied [], said s (go (.coreHalt halt) s) halt .ok [],
      ((List.range 4).map (go (.coreHalt halt) s).coreHeld) = [true, true, false, false],
      (go (.coreResume (rq .debug 0x41 [2])) h).coreHeld 1 = false, s.takes opSTEP step, said s (go (.coreStep step 4 []) s) step .opState [],
      said h (go (.coreStep step 4 [(5, 9)]) h) step .ok [], (go (.coreStep step 4 [(5, 9)]) h).coreReg 1 0x40 = 4,
      (go (.coreStep step 4 [(5, 9)]) h).coreReg 1 5 = 9, h.takes opREGREAD rd, h.takes opREGWRITE wr, said h (go (.coreRegWrite wr) h) wr .ok [1],
      (go (.coreRegWrite wr) h).coreReg 1 5 = 0x800000007,
      said (go (.coreRegWrite wr) h) (go (.coreRegRead rd) (go (.coreRegWrite wr) h)) rd .ok [7, 8],
      said h (go (.coreRegRead (rq .debug 0x43 [1, 0x4000, 1])) h) rd .accessFault [] ∨ regnoOk 0x4000 = true,
      said s (go (.coreRegRead rd) s) rd .opState []]
    && all [s.takes opTRIGGER tg, weak.takes opSTEP step, weak.takes opREGREAD rd, weak.takes opREGWRITE wr, weak.takes opTRIGGER tg,
      weak.takes opRUN (rq .debug 0x41 [2]), h.takes opRUN (rq .debug 0x41 [2]), s.safe pgDebug = false,
      said s (go (.coreRegWrite wr) s) wr .opState [],
      said h (go (.coreRegRead (rq .debug 0x43 [1, 0xFFFF, 1])) h) (rq .debug 0x43 [1, 0xFFFF, 1]) .accessFault [],
      h.takes opREGREAD (rq .debug 0x43 [1, 0xFFFF, 1]), regnoOk 0xFFFF = false,
      (go (.triggerSet (rq .debug 0x45 [1, 0, 0, 0])) tr).cp.triggers = [], (go (.triggerSet tg) s).cp.triggers = [(4, ⟨1, false, 0x100, 0⟩)],
      go (.triggerHit 0 0 .execute 0x100 false) tr = tr, (go (.triggerHit 1 0 .execute 0x100 false) tr).coreHeld 1 = true,
      (go (.triggerHit 1 0 .load 0x104 false) tr) = tr] := by
  decide +kernel

/-- Quench by pin and command, QREAD, THAW; a breakpoint holds, steps and releases a frame. -/
theorem wit_QuenchAndBreakpoints :
    let s := host [(pgDebug, 0x2000, 1), (pgDebug, 0x1000, 0x103)]
    let weak := host [(pgDebug, 0x2000, 1)]
    let pin := cf [(pgDebug, 0x100, 1)] s
    let q := rq .debug 0x48 []
    let t := go (.quench q) s
    let rd := rq .debug 0x4A [0x6, 4, 1]
    let th := rq .debug 0x4B []
    let m : State := { fwd [(pgPipe, 0xC, 2)] with pipe := { (fwd []).pipe with inside := [⟨0, { frameIn 5 0 0 with mark := some 1 }, 0, none, 0, none⟩] } }
    let un : State := { m with pipe := { m.pipe with inside := [⟨0, frameIn 5 0 0, 0, none, 0, none⟩] } }
    let hit := go (.pbpHit 0) m
    let setStage := fun (n : Nat) => { hit with pipe := { hit.pipe with inside := hit.pipe.inside.map (fun x => { x with stage := some n }) } }
    all [s.Canonical, go .quenchPin s = s, (go .quenchPin pin).quenched = true,
      (go .quenchPin (go .quenchPin pin)) = (go .quenchPin pin).incReg pgDebug 0x2028, s.reqCheck .debug opQUENCH q = none,
      rightOk (s.agentRights .debug pgDebug) 6 = true, rightOk (weak.agentRights .debug pgDebug) 6 = false,
      said weak (go (.quench q) weak) q .denied [], said s t q .ok [], t.quenched = true, t.stands = true, t.regFld pgDebug 0x2000 18 16 = 2,
      t.reg pgDebug 0x2024 = 1, t.reqCheck .debug opQREAD rd = none, said s (go (.qread rd none) s) rd .opState [],
      said t (go (.qread rd none) t) rd .ok [t.memWord 0x10000010], t.spaceOpen 6 4 = true, t.spaceWord 6 4 = some (.ok, t.memWord 0x10000010),
      spaceEcc 6 = true, said t (go (.qread rd (some 0)) t) rd .internal [], t.spaceOpen 6 (2 ^ 32 + 4) = true, t.spaceWord 6 (2 ^ 32 + 4) = none,
      said t (go (.qread (rq .debug 0x4A [0x106, 4, 1]) none) t) rd .accessFault [], said t (go (.quench q) t) q .busy [],
      said t (go (.qinfo (rq .debug 0x49 [])) t) (rq .debug 0x49 []) .ok t.qinfo, said t (go (.thaw th 20) t) th .ok [],
      (go (.thaw th 20) t).quenched = false, (go (.thaw th 20) t).reg pgDebug 0x2018 = 20, said s (go (.thaw th 20) s) th .opState [],
      t.accepts .debug pgDebug 0x1008 (1#32 &&& ~~~1#32)]
    && all [s.accepts .debug pgDebug 0x1008 (1#32 &&& ~~~1#32), (go (.qCtrlThaw .debug 1 9) t).reg pgDebug 0x2018 = 9,
      (go (.qCtrlThaw .debug 1 9) s).reg pgDebug 0x2018 = 0, s.takes opDETACH (rq .debug 0x4C []),
      (go (.detach (rq .debug 0x4C [])) s).attached = false, m.Canonical, m.pipeHeld 0 = none, m.stands = false,
      (m.pipe.inside.map (fun x => (x.pipe, x.frame.mark.isSome)) = [(0, true)]), (go (.pbpHit 1) m) = m, (go (.pbpHit 0) hit) = hit,
      go (.pbpHit 0) un = un, (un.pipe.inside.map (fun x => x.frame.mark) = [none]), (go (.pbpRelease .i3c 0) m).pipe = m.pipe,
      ((go (.pbpStep .i3c 0 0 [] none) (setStage 5)).pipe.inside) = [],
      ((hit.pipeHeld 0).map (fun x => (x.frame.id, x.stage)) = some (5, some (m.pbpStage 1))), hit.pbp 1 24 = 1,
      bit (hit.reg pgDebug 0x2000) 13 = true, bit (hit.reg pgDebug 0x2004) 0 = true, hit.reaches .i3c pgDebug 0x1004 (0#32 &&& 0xF#32),
      m.reaches .i3c pgDebug 0x1004 (0#32 &&& 0xF#32),
      (((go (.pbpStep .i3c 0 0 [] none) hit).pipeHeld 0).map (fun x => (x.frame.id, x.stage)) = some (5, some (m.pbpStage 1 + 1))),
      (go (.pbpStep .i3c 0 0 [] none) m).pipe = m.pipe, hit.reaches .i3c pgDebug 0x1004 ((0#32 &&& 0xF#32) ||| 0x200#32),
      (((go (.pbpRelease .i3c 0) hit).pipe.inside.map (fun x => (x.stage, x.frame.mark))) = [(none, none)])] := by
  decide +kernel

/-- Power-up stage by stage; resets. -/
theorem wit_PowerUpAndResets :
    let s := host [(0x10, 0x1000, 1)]
    let at_ := fun (n : Nat) => { State.reset with pow := { State.reset.pow with phase := n, railWait := some 6, rails := [0] } }
    let cold := go .resetNFall s
    let rcv := (at_ 6).setReg pgGlobal 0x2064 8
    let clk := (at_ 5).setReg pgStack 0x2000 1
    let st1 := host [(pgStack + 1, 0xC, 2), (pgStack + 1, 0x2000, 1)]
    all [s.Canonical, cold.pow.phase = 0, cold.pow.ended = 2, cold.reg 0x10 0x1000 = 0, (go .pwrgoodFall s).pow.ended = 1,
      (go .supplyOutOfRange s).pow.phase = 0, (go (.coldResetRelease true 5 false) cold).pow.phase = 1,
      (go (.coldResetRelease true 5 false) cold).reg pgGlobal 0x2064 = 5,
      (go (.coldResetRelease true 5 false) cold).regFld pgGlobal 0x2060 3 0 = 2, go (.coldResetRelease true 5 false) s = s,
      go .bellowsImageVerify (at_ 2) = at_ 2, railAfter 6 = none ∨ (go .railInRange (at_ 2)).pow.phase = 2,
      (go .railInRange (at_ 2)).pow.railWait = railAfter 6, (go .railStartTimeout (at_ 2)).pow.ended = 5,
      (go (.rootPllLock false) (at_ 3)).pow.phase = 5, (go (.rootPllLock true) (at_ 3)).pow.phase = 4,
      (go (.warmUpEnd true) (at_ 4)).pow.phase = 5, bit ((go (.warmUpEnd false) (at_ 4)).reg pgGlobal 0x2068) 8 = true,
      (go (.stackTrained 0) clk).pow.phase = 6, bit ((go (.stackTrained 0) clk).reg pgStack 0x2000) 1 = true, (go .cpBoot rcv).pow.phase = 7,
      (go .cpBoot rcv).regFld pgCpctl 0x2000 3 0 = 15, bit (rcv.reg pgGlobal 0x2064) 3 = true, (go .fwReady (at_ 7)).pow.phase = 8,
      go .fwReady s = s, go (.stackTrained 1) (at_ 8) = at_ 8, (go (.stackTrained 1) st1).reg (pgStack + 1) 0x2000 = 3, st1.blk (pgStack + 1) = 2,
      go .bellowsWdtExpire (at_ 1) = at_ 1, go .cpBoot (at_ 5) = at_ 5]
    && all [go (.warmUpEnd true) (at_ 5) = at_ 5, go (.rootPllLock true) (at_ 4) = at_ 4, go .railInRange (at_ 3) = at_ 3,
      go .railStartTimeout (at_ 3) = at_ 3, s.reaches .i3c pgBellows 0x1000 1#32, s.reaches .i3c pgGlobal 0x1008 2#32,
      (go (.powerOff .i3c) s).pow.off = true, (go (.powerOff .i3c) s).pow.ended = 6, s.reaches .i3c pgGlobal 0x1008 1#32, s.pow.phase = 8,
      (go (.warmReset .i3c) s).pow.phase = 6, (go (.warmReset .i3c) s).regFld pgGlobal 0x2060 3 0 = 9,
      (go (.warmReset .i3c) s).reg 0x10 0x1000 = 0] := by
  decide +kernel

/-- Voltage steps, temperature levels, rails and the reference. -/
theorem wit_PowerFaults :
    let s0 := host []
    let s : State := { s0 with pow := { s0.pow with rails := [0, 2, 4], vcore := 8000 } }
    let thr : State := { s with pow := { s.pow with throttle := true, cool := [(2, 998)] } }
    let hot := go (.tempSample 120 0 0 0 0) s
    let held : State := { State.reset with pow := { State.reset.pow with phase := 2, hotOff := true } }
    let clk := host [(pgClocks, 0x2000, 3)]
    let good := List.replicate 7 (BitVec.ofNat 16 0)
    all [s.Canonical, s.stands = false, (go (.avsStep (-1) false) s).pow.vcore = s.avsLimits.2,
      (go (.avsStep (-1) false) s).reg pgBellows 0x2058 = 1, 0 < s.avsTarget, (go (.avsStep 0 false) s).pow.vcore = min s.avsLimits.2 8025,
      go (.avsStep (BitVec.ofInt 16 s.avsTarget) false) s = s, (go (.avsStep 1000 false) s).pow.vcore = max s.avsLimits.1 7975,
      (go (.tempSample 30 1 2 3 90) s).reg pgBellows 0x2008 = 30, (go (.tempSample 30 1 2 3 90) s).regFld (pgStack + 3) 0x2000 15 8 = 90,
      bit ((go (.tempSample 30 1 2 3 90) s).reg (pgStack + 3) 0x2000) 3 = true, hot.pow.warn = true, hot.pow.throttle = true,
      hot.reg pgBellows 0x205C = 1, hot.pow.hot = true, (go (.tempSample 30 0 0 0 0) thr).pow.throttle = true,
      (go (.tempSample 30 0 0 0 0) (go (.tempSample 30 0 0 0 0) thr)).pow.throttle = false, (go .thermalShutdown hot).pow.ended = 4,
      go .thermalShutdown s = s, (go (.thermalRecheck false) held).pow.railWait = some 0, go (.thermalRecheck true) held = held,
      (go .thermalTrip s).pow.trip = true, s.voutBad 0 0 = true, (go (.pmbusPoll good good []) s).pow.ended = 5,
      go (.pmbAlert 0 false false) s = s, (go (.pmbAlert 0 true false) s).pow.ended = 5, (go (.pmbAlert 2 true false) s).pow.serdes = [2],
      (go (.pmbAlert 2 true false) s).reg pgBellows 0x2054 = 1, (go .serdesRailCycle (go (.pmbAlert 2 true false) s)).pow.serdes = [],
      (go .refclkLoss clk).regFld pgClocks 0x2000 2 0 = 4]
    && all [(go .refclkReturn (go .refclkLoss clk)).regFld pgClocks 0x2000 2 0 = 3, go .refclkLoss s = s, (go .rootLockLoss clk).pow.ended = 5,
      go .rootLockLoss s = s] := by
  decide +kernel

/-- A held device and a quenched one. -/
theorem wit_HeldDevice :
    let s := host [(pgDebug, 0x2000, 0x1), (pgDebug, 0x1000, 0x103), (pgGlobal, 0x2060, 0x101)]
    let q := go (.quench (rq .debug 0x48 [])) s
    let c := go .thermalTrip s
    all [q.Canonical, q.stands = true, clocked .statsPeriodicFlush = true, go .statsPeriodicFlush q = q,
      go (.registerWrite .i3c 0x40101000#32 .word 1) q = q, c.inReset = true, c.pow.trip = true, bit (c.reg pgGlobal 0x2060) 8 = true,
      resetEvent (.quench (rq .debug 0x48 [])) = false, go (.quench (rq .debug 0x48 [])) c = c, go (.coldResetRelease true 0 false) c = c,
      (go .resetNFall c).pow.trip = true, bit ((go .pwrgoodFall c).reg pgGlobal 0x2060) 8 = true] := by
  decide +kernel

/-- A request frame, a response frame, unimplemented pages. -/
theorem wit_FramesAndAddresses :
    let s := host []
    let r := rq .i3c 4 [1, 2]
    let x : Response := ⟨9, .ok, [0x01020304]⟩
    all [s.Canonical, parseRequest .i3c (reqHeader 4 r ++ r.body ++ beBytes 2 r.crc.toNat) = some (4, r),
      x.bytes.take 8 = [9, 0, 0, 1, 1, 2, 3, 4], crc16 [0x31#8, 0x32#8, 0x33#8, 0x34#8, 0x35#8, 0x36#8, 0x37#8, 0x38#8, 0x39#8] = 0x29B1#16,
      pageRow 0x25 = none, pageRow 0x24 ≠ none, inPages 0x3FFFFFFF = false, inPages 0x40FFFFFF = true] := by
  decide +kernel

/-- The CRC of a request made by `rq`. -/
theorem rq_crc (a : Agent) (op : Nat) (ws : List Word) : (rq a op ws).crc = crc16 (reqHeader op (rq a op ws) ++ (rq a op ws).body) := by
  simp only [rq, reqHeader]

/-- A request of LOGIN_RESPONSE whose words follow the role and the challenge passes every check. -/
theorem loginResponse_takes (s : State) (l : List Word) (hl : l.length = 8) (hs : s.listens .i3c)
    (hr : (s.arrived .i3c).refusesNow .i3c opRESPONSE (word 0x10007 :: l) = false)
    (hf : s.clearFor opRESPONSE (rq .i3c opRESPONSE (word 0x10007 :: l))) :
    s.takes opRESPONSE (rq .i3c opRESPONSE (word 0x10007 :: l)) := by
  refine ⟨hs, ?_, rfl, hf⟩
  have hw : reqWords (rq .i3c opRESPONSE (word 0x10007 :: l)) = word 0x10007 :: l := toWords_flatMap _
  have hb : (rq .i3c opRESPONSE (word 0x10007 :: l)).body.length = 36 := by
    show ((word 0x10007 :: l).flatMap wordBytes).length = 36
    rw [flatMap_wordBytes_length]; simp [hl]
  have hn : (rq .i3c opRESPONSE (word 0x10007 :: l)).length = 9 := by
    show BitVec.ofNat 16 (word 0x10007 :: l).length = 9
    simp [hl]
  have hc := rq_crc .i3c opRESPONSE (word 0x10007 :: l)
  simp only [State.reqCheck, reqByteCount, hb, hn, hc, hw]
  show firstFault _ = none
  simp only [show (rq .i3c opRESPONSE (word 0x10007 :: l)).agent = .i3c from rfl, hr]
  simp [firstFault, rq, lengthOk, countOk, hostOps]

/-- The right code of a challenge exists, in a request that is taken. -/
theorem wit_loginCode (s : State) (c : Challenge) (hc : c = ⟨7, 5, 1⟩) (hs : s.listens .i3c) (ho : s.host.ordered = [])
    (hr : ∀ l, (s.arrived .i3c).refusesNow .i3c opRESPONSE (word 0x10007 :: l) = false) :
    ∃ r : Request, s.takes opRESPONSE r ∧ r.agent = .i3c ∧ fld ((reqWords r).getD 0 0) 15 0 = c.id.toNat
      ∧ fld ((reqWords r).getD 0 0) 17 16 = c.role.toNat
      ∧ ((reqWords r).drop 1).flatMap wordBytes = hmac256 (s.roleKey 1) (loginMessage c .i3c) := by
  subst hc
  obtain ⟨l, hl, h⟩ := sha256_words _
  refine ⟨rq .i3c opRESPONSE (word 0x10007 :: l), loginResponse_takes s l hl hs (hr l) (by simp only [State.clearFor, ho, List.any_nil]), rfl, ?_, ?_, ?_⟩
  · rw [show reqWords (rq .i3c opRESPONSE (word 0x10007 :: l)) = word 0x10007 :: l from toWords_flatMap _, List.getD_cons_zero]; decide
  · rw [show reqWords (rq .i3c opRESPONSE (word 0x10007 :: l)) = word 0x10007 :: l from toWords_flatMap _, List.getD_cons_zero]; decide
  · rw [show reqWords (rq .i3c opRESPONSE (word 0x10007 :: l)) = word 0x10007 :: l from toWords_flatMap _]
    exact h.symm

/-- A state in which an I3C master has been challenged for role 1. -/
def challenged : State :=
  let s := mk [(pgHostif, 0x2000, 1), (pgRoles, 0x2000, 0)]
  { s with host := { s.host with challenges := [(1, (⟨7, 5, 1⟩ : Challenge))] } }

/-- That state, and the response that R104 asks for. -/
theorem wit_loginResponse : ∃ (s : State) (r : Request), s.Canonical ∧ s.takes opRESPONSE r ∧ r.agent = .i3c
    ∧ s.host.challenges.find? (fun e => e.1 == 1) = some (1, ⟨7, 5, 1⟩)
    ∧ ((reqWords r).drop 1).flatMap wordBytes = hmac256 (s.roleKey 1) (loginMessage ⟨7, 5, 1⟩ .i3c) := by
  have h1 : decide (queueLimit .i3c ≤ (challenged.arrived .i3c).outstanding .i3c) = false := by decide +kernel
  have h2 : bit ((challenged.arrived .i3c).reg pgHostif 0x2000) 0 = true := by decide +kernel
  have h3 : bit ((challenged.arrived .i3c).reg 0 0x2068) 0 = false := by decide +kernel
  have h4 : (challenged.arrived .i3c).safe pgHostif = false := by decide +kernel
  obtain ⟨r, ht, ha, _, _, hm⟩ := wit_loginCode challenged ⟨7, 5, 1⟩ rfl (by decide +kernel) rfl (fun l => by
    simp only [State.refusesNow, h1, h2, h3, h4, Bool.not_true, Bool.false_and, Bool.false_or])
  exact ⟨challenged, r, by decide +kernel, ht, ha, by decide +kernel, hm⟩
end Sys2Proof.Tests
end

/-! # The scope chapter (00_scope.md)

The queue and the state after cold reset; then writes of configuration words: what leaves the configuration regions alone, the layers of a
register write from the word to the agent's store, and the statement. -/
namespace Sys2Proof.Machine

/-! ### One step, and the state after cold reset -/

/-- Settles O1, by the two branches of `step`. -/
theorem stepRunsFront : Obligations.StepRunsFront :=
  ⟨fun c q s => step_cons { s with pending := c :: q } c q rfl, step_nil⟩

/-- After cold reset only RESET_CAUSE holds something else than its row's reset value. -/
theorem State.reset_reg {p o : Nat} (h : regKey p o ≠ 0x2060) : State.reset.reg p o = regReset (regKey p o) :=
  Store.get_insert_other (regReset (regKey p o)) 1#32 [] h

/-- Nothing is latched after cold reset. -/
theorem State.reset_cfg (p o : Nat) : State.reset.cfg p o = regReset (regKey p o) := Store.get_nil _ _

/-- BLK_STATUS resets to 0 on every page: DISABLED (R40, R476). -/
theorem regReset_blkStatus (p : Nat) : regReset (regKey p 0x0C) = 0#32 := by
  have hp : regKey p 0x0C / 0x10000 = p := by unfold regKey; omega
  have ho : regKey p 0x0C % 0x10000 = 0x0C := by unfold regKey; omega
  have hrow : ∀ k : Kind, (regRow k 0x0C).map RegRow.reset = some 0 := fun k => rfl
  unfold regReset
  rw [hp, ho]
  cases pageRow p with
  | none => rfl
  | some r =>
    obtain ⟨w, hw, h0⟩ := Option.map_eq_some_iff.mp (hrow r.kind)
    simp [hw, h0]

/-- Settles O2: the reset state lists one register word, RESET_CAUSE, and nothing latched. -/
theorem resetState : Obligations.ResetState := by
  refine ⟨fun p o _ _ h => ⟨State.reset_reg h, State.reset_cfg p o⟩, fun p => ?_, by decide⟩
  have hk : regKey p 0x0C ≠ 0x2060 := by unfold regKey; omega
  show fld (State.reset.reg p 0x0C) 2 0 = 0
  rw [State.reset_reg hk, regReset_blkStatus p]
  decide

/-! ### What leaves the configuration regions alone -/

/-- An operation from `s` to `t` keeps the canonical form, the latched configuration and every written configuration word (R43). -/
def LeavesConfig (s t : State) : Prop :=
  s.Canonical → t.Canonical ∧ t.latched = s.latched ∧ ∀ p o, 0x100 ≤ o → o < 0x1000 → t.reg p o = s.reg p o

namespace LeavesConfig

theorem refl (s : State) : LeavesConfig s s := fun h => ⟨h, rfl, fun _ _ _ _ => rfl⟩

theorem trans {s t u : State} (h1 : LeavesConfig s t) (h2 : LeavesConfig t u) : LeavesConfig s u := by
  intro hs
  obtain ⟨ht, hl, hr⟩ := h1 hs
  obtain ⟨hu, hl', hr'⟩ := h2 ht
  exact ⟨hu, hl'.trans hl, fun p o h h' => (hr' p o h h').trans (hr p o h h')⟩

/-- A loop whose every turn leaves them; `st` gives the state that the loop carries. -/
theorem foldl {α β : Type} (st : β → State) {f : β → α → β} {l : List α} (h : ∀ b, ∀ x ∈ l, LeavesConfig (st b) (st (f b x))) (b : β) :
    LeavesConfig (st b) (st (l.foldl f b)) := by
  induction l generalizing b with
  | nil => exact refl (st b)
  | cons x l ih => exact (h b x (by simp)).trans (ih (fun b y hy => h b y (by simp [hy])) _)

/-- The state that an operation answers beside a value. -/
theorem of_snd {α : Type} {s t : State} (a : α) (h : LeavesConfig s t) : LeavesConfig s (a, t).2 := h

/-- An update of none of the stores that hold registers, windows, memories and fence words. -/
theorem of_stores {s t : State} (hr : t.regs = s.regs) (hl : t.latched = s.latched) (hw : t.win = s.win) (hm : t.cp.mem = s.cp.mem)
    (hb : t.nvm.bytes = s.nvm.bytes) (hf : t.fences = s.fences) : LeavesConfig s t := by
  intro hs
  refine ⟨?_, hl, fun p o _ _ => ?_⟩
  · unfold State.Canonical
    rw [hr, hl, hw, hm, hb, hf]
    exact hs
  · unfold State.reg
    rw [hr]

theorem with_freeCtr (s : State) (n : Nat) : LeavesConfig s { s with freeCtr := n } := of_stores rfl rfl rfl rfl rfl rfl

theorem with_lastLow (s : State) (l : List (Nat × Nat)) : LeavesConfig s { s with lastLow := l } := of_stores rfl rfl rfl rfl rfl rfl

theorem with_readLatch (s : State) (l : List (Nat × Word)) : LeavesConfig s { s with readLatch := l } := of_stores rfl rfl rfl rfl rfl rfl

theorem with_stat (s : State) (x : StatSt) : LeavesConfig s { s with stat := x } := of_stores rfl rfl rfl rfl rfl rfl

theorem with_sprue (s : State) (x : SprueSt) : LeavesConfig s { s with sprue := x } := of_stores rfl rfl rfl rfl rfl rfl

theorem with_pair (s : State) (x : PairSt) : LeavesConfig s { s with pair := x } := of_stores rfl rfl rfl rfl rfl rfl

theorem with_parity (s : State) (u r : List Nat) : LeavesConfig s { s with upset := u, reported := r } := of_stores rfl rfl rfl rfl rfl rfl

theorem with_nvm (s : State) (x : NvmSt) (h : x.bytes = s.nvm.bytes) : LeavesConfig s { s with nvm := x } := of_stores rfl rfl rfl rfl h rfl

theorem with_cp (s : State) (x : CpSt) (h : x.mem = s.cp.mem) : LeavesConfig s { s with cp := x } := of_stores rfl rfl rfl h rfl rfl

/-- A write of a register word outside the configuration regions. -/
theorem setReg (s : State) (p : Nat) {o : Nat} (v : Word) (ho : o < 0x100 ∨ 0x1000 ≤ o ∧ o < 0x10000) : LeavesConfig s (s.setReg p o v) := by
  intro hs
  refine ⟨State.setReg_canonical p o v hs, State.setReg_latched s p o v, fun q r h1 h2 => State.reg_setReg_other s v hs.regs ?_⟩
  intro hk
  have := regKey_inj (by omega) (by omega) hk
  omega

theorem incReg (s : State) (p : Nat) {o : Nat} (ho : o < 0x100 ∨ 0x1000 ≤ o ∧ o < 0x10000) : LeavesConfig s (s.incReg p o) := setReg s p _ ho

theorem orReg (s : State) (p : Nat) {o : Nat} (m : Word) (ho : o < 0x100 ∨ 0x1000 ≤ o ∧ o < 0x10000) : LeavesConfig s (s.orReg p o m) := setReg s p _ ho

theorem clrReg (s : State) (p : Nat) {o : Nat} (m : Word) (ho : o < 0x100 ∨ 0x1000 ≤ o ∧ o < 0x10000) : LeavesConfig s (s.clrReg p o m) := setReg s p _ ho

theorem raise (s : State) (p b : Nat) : LeavesConfig s (s.raise p b) := orReg s p _ (by omega)

theorem setWin (s : State) (p u i : Nat) (v : Word) : LeavesConfig s (s.setWin p u i v) := fun h =>
  ⟨State.setWin_canonical p u i v h, State.setWin_latched s p u i v, fun q r _ _ => State.setWin_reg s p u i q r v⟩

end LeavesConfig

open LeavesConfig

/-! ### The performance monitor counts an access (R424, R425, R429) -/

theorem State.pmuInc_leavesConfig (s : State) {n : Nat} (hn : n < 256) : LeavesConfig s (s.pmuInc n) := by
  have lo : pmuVal n < 0x100 ∨ 0x1000 ≤ pmuVal n ∧ pmuVal n < 0x10000 := by unfold pmuVal; omega
  have hi : pmuVal n + 4 < 0x100 ∨ 0x1000 ≤ pmuVal n + 4 ∧ pmuVal n + 4 < 0x10000 := by unfold pmuVal; omega
  unfold State.pmuInc
  extract_lets _ _ _ t u v keys w
  have two : LeavesConfig s u := (LeavesConfig.setReg s pgPmu _ lo).trans (LeavesConfig.setReg t pgPmu _ hi)
  have carry : LeavesConfig s w := (two.trans (LeavesConfig.orReg u pgPmu _ hi)).trans (with_readLatch v _)
  split
  · exact two
  · split
    · exact carry.trans (LeavesConfig.raise w _ _)
    · exact carry

theorem State.pmuTake_leavesConfig (s : State) {n : Nat} (hn : n < 256) : LeavesConfig s (s.pmuTake n).2 := by
  unfold State.pmuTake
  extract_lets t per c
  have inc : LeavesConfig s t := s.pmuInc_leavesConfig hn
  clear_value t
  split
  · exact of_snd _ inc
  · split <;> exact of_snd _ (inc.trans (LeavesConfig.setWin t _ _ _ _))

/-- Counters that take an event in turn by `take`, with those that sample it collected (R424, R429). Stated for any `take` and any list, so that
the kernel compares the loops without running them. -/
theorem takesEvent_leavesConfig (take : State → Nat → Bool × State) (ht : ∀ s n, n < 256 → LeavesConfig s (take s n).2)
    (l : List Nat) (hl : ∀ n ∈ l, n < 256) (s : State) :
    LeavesConfig s (l.foldl (fun (r : List Nat × State) n =>
      let (hit, s) := take r.2 n
      (if hit then r.1 ++ [n] else r.1, s)) ([], s)).2 :=
  LeavesConfig.foldl Prod.snd (β := List Nat × State) (fun r n hn => ht r.2 n (hl n hn)) ([], s)

theorem State.pmuEvent_leavesConfig (s : State) (e : PmuEvent) : LeavesConfig s (s.pmuEvent e).2 := by
  unfold State.pmuEvent
  split
  · exact of_snd _ (refl s)
  · exact takesEvent_leavesConfig State.pmuTake (fun s _ hn => s.pmuTake_leavesConfig hn) _
      (fun n hn => List.mem_range.mp (List.mem_filter.mp hn).1) s

theorem State.sample_leavesConfig (s : State) (r : List Byte) : LeavesConfig s (s.sample r) := by
  unfold State.sample
  split
  · exact refl s
  · split
    · exact ((with_stat s _).trans (LeavesConfig.incReg _ _ (by omega))).trans (LeavesConfig.raise _ _ _)
    · exact with_stat s _

theorem State.accessEvent_leavesConfig (s : State) (code : Nat) (a : Agent) (space : Option (Nat × Nat)) (load : Nat) :
    LeavesConfig s (s.accessEvent code a space load) := by
  have freeSample : ∀ (u : State) (r : List Byte), LeavesConfig u (u.fresh.2.fresh.2.sample r) := fun u r =>
    ((with_freeCtr u _).trans (with_freeCtr _ _)).trans (State.sample_leavesConfig _ r)
  unfold State.accessEvent
  extract_lets mode
  have event := s.pmuEvent_leavesConfig ⟨code, mode, [agentMaster a], space, none⟩
  generalize s.pmuEvent ⟨code, mode, [agentMaster a], space, none⟩ = x at event ⊢
  obtain ⟨ns, t⟩ := x
  refine event.trans ?_
  cases a with
  | core k | app k => exact LeavesConfig.foldl (fun u => u) (fun u n _ => freeSample u _) t
  | i3c | mgmt | debug | bellows => exact refl t

theorem State.noteAccess_leavesConfig (s : State) (w : Who) (addr load : Nat) : LeavesConfig s (s.noteAccess w addr load) := by
  unfold State.noteAccess
  split
  · exact refl s
  · exact State.accessEvent_leavesConfig s _ _ _ _

theorem State.retired_leavesConfig (s : State) (a : Agent) : LeavesConfig s (s.retired a none) := by
  unfold State.retired
  split
  · exact refl s
  · exact State.accessEvent_leavesConfig s _ _ _ _

/-! ### The records of a write: journal, audit log, relays (R112, R389, R402) -/

theorem State.journalWrite_leavesConfig (s : State) (p o : Nat) (mask data : Word) : LeavesConfig s (s.journalWrite p o mask data) := by
  have put : ∀ k i b, LeavesConfig s (s.journalPut k i b) := by
    intro k i b
    unfold State.journalPut
    split
    · exact refl s
    · split
      · exact (with_pair s _).trans (LeavesConfig.orReg _ _ _ (by omega))
      · exact with_pair s _
  unfold State.journalWrite State.journal
  split
  · split
    · exact put _ _ _
    · exact refl s
  · exact refl s

theorem State.audit_leavesConfig (s : State) (r : AuditRec) : LeavesConfig s (s.audit r) := by
  unfold State.audit
  split <;> exact with_nvm s _ rfl

theorem State.auditWrite_leavesConfig (s : State) (a : Agent) (st : Status) (addr : Nat) (data : Word) (n : Nat) (hit : Bool) :
    LeavesConfig s (s.auditWrite a st addr data n hit) := by
  unfold State.auditWrite
  cases a with
  | core k | bellows => exact refl s
  | i3c | mgmt | debug | app k =>
    dsimp only
    split
    · exact refl s
    · split
      · exact s.audit_leavesConfig _
      · split
        · exact s.audit_leavesConfig _
        · exact refl s

theorem State.countStore_leavesConfig (s : State) : LeavesConfig s s.countStore := by
  unfold State.countStore
  split <;> exact with_nvm s _ rfl

theorem State.auditStore_leavesConfig (s : State) (a : Agent) (st : Status) (addr : Nat) (data : Word) :
    LeavesConfig s (s.auditStore a st addr data) := by
  have joins : ∀ j : Bool, LeavesConfig s (if j then s.countStore else s.auditWrite a st addr data 1 true) := by
    intro j
    cases j with
    | true => exact s.countStore_leavesConfig
    | false => exact s.auditWrite_leavesConfig a st addr data 1 true
  unfold State.auditStore
  extract_lets p own
  split
  · exact s.auditWrite_leavesConfig _ _ _ _ _ _
  · exact (joins _).trans (with_nvm _ _ rfl)

theorem State.sendRelay_leavesConfig (s : State) (r : Relay) : LeavesConfig s (s.sendRelay r) := by
  unfold State.sendRelay State.sendRelayCell State.sendControl
  split
  · exact refl s
  · exact with_sprue s _

theorem State.putRelay_leavesConfig (s : State) (r : Relay) : LeavesConfig s (s.putRelay r) := by
  have send : ∀ (u : State) (r : Relay), LeavesConfig u ((u.sendRelay r).incReg pgPair 0x202C) := fun u r =>
    (u.sendRelay_leavesConfig r).trans (LeavesConfig.incReg _ _ (by omega))
  unfold State.putRelay State.pumpRelays
  exact ((with_pair s _).trans (with_pair _ _)).trans (LeavesConfig.foldl id (fun u r _ => send u r) _)

theorem State.relayWords_leavesConfig (s : State) (agent : Nat) (mirror read fixed : Bool) (addr : Nat) (mask : Option Word) (data : List Word) :
    LeavesConfig s (s.relayWords agent mirror read fixed addr mask data) := by
  unfold State.relayWords
  exact LeavesConfig.foldl Prod.fst (fun acc _ _ => acc.1.putRelay_leavesConfig _) (s, addr)

theorem State.mirrorWrite_leavesConfig (s : State) (agent addr : Nat) (mask data : Word) : LeavesConfig s (s.mirrorWrite agent addr mask data) := by
  unfold State.mirrorWrite
  split
  · exact refl s
  · split
    · exact refl s
    · dsimp only
      split
      · exact refl s
      · split <;> exact s.relayWords_leavesConfig _ _ _ _ _ _ _

/-! ### What a write touches beside its word, and what its refusals record (R43, R52, R53, R66, R391) -/

theorem State.touchPage_leavesConfig (s : State) (a : Agent) (p : Nat) : LeavesConfig s (s.touchPage a p) := by
  unfold State.touchPage
  extract_lets t
  have low : LeavesConfig s t := with_lastLow s _
  split
  · exact low.trans (with_stat t _)
  · split
    · exact low.trans (with_stat t _)
    · exact low

theorem State.localReject_leavesConfig (s : State) (p o : Nat) : LeavesConfig s (s.localReject p o) := by
  unfold State.localReject
  extract_lets t
  have flag : LeavesConfig s t := LeavesConfig.orReg s pgPair _ (by omega)
  split
  · exact flag.trans (LeavesConfig.orReg t _ _ (by omega))
  · exact flag

theorem State.setCoreReg_leavesConfig (s : State) (k n : Nat) (v : BitVec 64) : LeavesConfig s (s.setCoreReg k n v) := by
  unfold State.setCoreReg
  split
  · exact refl s
  · exact with_cp s _ rfl

theorem State.coreTrap_leavesConfig (s : State) (k : Nat) (user : Bool) (cause : Nat) (tval : BitVec 64) : LeavesConfig s (s.coreTrap k user cause tval) := by
  have set : ∀ (u : State) (n : Nat) (v : BitVec 64), LeavesConfig u (u.setCoreReg k n v) := fun u => u.setCoreReg_leavesConfig k
  unfold State.coreTrap
  exact ((((set s _ _).trans (set _ _ _)).trans (set _ _ _)).trans (set _ _ _)).trans (set _ _ _)

theorem State.appTrap_leavesConfig (s : State) (cause k exc : Nat) (addr : Word) : LeavesConfig s (s.appTrap cause k exc addr) := by
  have stop : ∀ u : State, LeavesConfig u (u.appStopped cause k addr) := fun u =>
    ((((LeavesConfig.clrReg u pgCpctl _ (by omega)).trans (LeavesConfig.setReg _ pgCpctl _ (by omega))).trans
      (LeavesConfig.setReg _ pgCpctl _ (by omega))).trans (LeavesConfig.incReg _ pgCpctl (by omega))).trans (LeavesConfig.raise _ pgCpctl 16)
  exact (s.coreTrap_leavesConfig k true exc _).trans (stop _)

theorem storeRetires_leavesConfig (a : Agent) (x : Status × State) : LeavesConfig x.2 (storeRetires a x).2 := by
  unfold storeRetires
  dsimp only
  split
  · exact refl x.2
  · exact x.2.retired_leavesConfig a

/-! ### What a write of a configuration word does (R12, R13, R43) -/

/-- Offset `o` of page `p` is a word of the page's configuration table, and neither TOPOLOGY nor ENGINE_PROFILE. -/
structure ConfigWord (p o : Nat) (r : PageRow) (row : RegRow) : Prop where
  page_lt : p < 256
  page : pageRow p = some r
  low : 0x100 ≤ o
  high : o < 0x1000
  aligned : o % 4 = 0
  row : regRow r.kind o = some row
  notTopology : (p, o) ≠ (pgGlobal, 0x100)
  notProfile : (p, o) ≠ (pgGlobal, 0x104)

/-- Every offset of a configuration region is an offset of a page. -/
theorem ConfigWord.small {p o : Nat} {r : PageRow} {row : RegRow} (hw : ConfigWord p o r row) : o < 0x10000 := by
  have := hw.high
  omega

/-- The word at `p`, `o` has taken `data` by the access codes of its row, and nothing is latched anew. -/
def TakesConfig (row : RegRow) (p o : Nat) (data : Word) (s t : State) : Prop :=
  s.Canonical → t.Canonical ∧ t.latched = s.latched ∧ t.reg p o = blend (word row.rw) data (s.reg p o) &&& ~~~(data &&& word row.w1c)

/-- The answer of a write of a configuration word that is taken just where `taken` holds, and else refused. -/
structure ConfigOutcome (row : RegRow) (p o : Nat) (data : Word) (s : State) (taken : Prop) (x : Status × State) : Prop where
  accepted : taken → x.1 = .ok ∧ TakesConfig row p o data s x.2
  refused : ¬ taken → x.1 ≠ .ok ∧ LeavesConfig s x.2

section
variable {r : PageRow} {row : RegRow} {p o : Nat} {data : Word} {s : State} {taken : Prop}

theorem ConfigOutcome.of_refused {x : Status × State} (hn : ¬ taken) (hst : x.1 ≠ .ok) (hx : LeavesConfig s x.2) :
    ConfigOutcome row p o data s taken x := ⟨fun h => absurd h hn, fun _ => ⟨hst, hx⟩⟩

/-- What follows a write, with its status, leaves the configuration words. -/
theorem ConfigOutcome.followed (hw : ConfigWord p o r row) {st : Status} {t u : State} (hx : ConfigOutcome row p o data s taken (st, t))
    (h : LeavesConfig t u) : ConfigOutcome row p o data s taken (st, u) where
  accepted ht := by
    obtain ⟨hst, htake⟩ := hx.accepted ht
    refine ⟨hst, fun hs => ?_⟩
    obtain ⟨hc, hl, hr⟩ := htake hs
    obtain ⟨hc', hl', hr'⟩ := h hc
    exact ⟨hc', hl'.trans hl, (hr' p o hw.low hw.high).trans hr⟩
  refused hn := ⟨(hx.refused hn).1, (hx.refused hn).2.trans h⟩

/-- What goes before a write leaves the configuration words. -/
theorem ConfigOutcome.preceded (hw : ConfigWord p o r row) {t : State} {x : Status × State} (h : LeavesConfig s t)
    (hx : ConfigOutcome row p o data t taken x) : ConfigOutcome row p o data s taken x where
  accepted ht := by
    obtain ⟨hst, htake⟩ := hx.accepted ht
    refine ⟨hst, fun hs => ?_⟩
    obtain ⟨hc, hl, hr⟩ := h hs
    obtain ⟨hc', hl', hr'⟩ := htake hc
    exact ⟨hc', hl'.trans hl, by rw [hr', hr p o hw.low hw.high]⟩
  refused hn := ⟨(hx.refused hn).1, h.trans (hx.refused hn).2⟩

/-- A store of a core retires its instruction (R425). -/
theorem ConfigOutcome.retires (hw : ConfigWord p o r row) {x : Status × State} (a : Agent) (hx : ConfigOutcome row p o data s taken x) :
    ConfigOutcome row p o data s taken (storeRetires a x) :=
  ConfigOutcome.followed hw (st := x.1) (t := x.2) hx (storeRetires_leavesConfig a x)

/-- The conditions on which a write is taken, in other words. -/
theorem ConfigOutcome.of_iff {taken' : Prop} {x : Status × State} (hx : ConfigOutcome row p o data s taken x) (h : taken' ↔ taken) :
    ConfigOutcome row p o data s taken' x := ⟨fun ht => hx.accepted (h.mp ht), fun hn => hx.refused (fun ht => hn (h.mpr ht))⟩

end

/-! ### The state that a write finds -/

theorem State.touchPage_regs_latched (s : State) (a : Agent) (p : Nat) :
    (s.touchPage a p).regs = s.regs ∧ (s.touchPage a p).latched = s.latched := by
  unfold State.touchPage
  extract_lets t
  split
  · exact ⟨rfl, rfl⟩
  · split <;> exact ⟨rfl, rfl⟩

theorem State.reg_congr {s t : State} (h : t.regs = s.regs) (p o : Nat) : t.reg p o = s.reg p o := by
  unfold State.reg
  rw [h]

theorem State.blk_congr {s t : State} (h : t.regs = s.regs) (p : Nat) : t.blk p = s.blk p := by
  unfold State.blk State.regFld
  rw [State.reg_congr h]

theorem State.partnerJoined_congr {s t : State} (hr : t.regs = s.regs) (hl : t.latched = s.latched) : t.partnerJoined = s.partnerJoined := by
  have topo : t.topo = s.topo := by simp only [State.topo, State.regFld, State.reg_congr hr]
  have twicel : t.twicel = s.twicel := by simp only [State.twicel, State.regFld, State.reg_congr hr]
  have own : t.ownDev = s.ownDev := by
    unfold State.ownDev State.cfgFld State.cfg
    rw [topo, State.reg_congr hr, hl]
  unfold State.partnerJoined
  rw [topo, twicel, own]

theorem State.ownWord_congr {s t : State} (hr : t.regs = s.regs) (hl : t.latched = s.latched) (p o : Nat) : t.ownWord p o ↔ s.ownWord p o := by
  unfold State.ownWord
  rw [State.partnerJoined_congr hr hl]

/-! ### Addresses of register words (R36, R37) -/

theorem regAddr_page {p o : Nat} (ho : o < 0x10000) : (regAddr p o - 0x40000000) / 0x10000 = p := by
  unfold regAddr
  omega

theorem regAddr_offset {p o : Nat} (ho : o < 0x10000) : regAddr p o % 0x10000 = o := by
  unfold regAddr
  omega

theorem regAddr_inPages {p o : Nat} (hp : p < 256) (ho : o < 0x10000) : inPages (regAddr p o) = true := by
  have low : 0x40000000 ≤ regAddr p o := by unfold regAddr; omega
  have high : regAddr p o < 0x41000000 := by unfold regAddr; omega
  rw [inPages, decide_eq_true low, decide_eq_true high, Bool.true_and]

theorem regAddr_aligned {p o : Nat} (ho : o % 4 = 0) : regAddr p o % 4 = 0 := by
  unfold regAddr
  omega

theorem regAddr_whole {p o : Nat} (ho : o % 4 = 0) : regAddr p o / 4 * 4 = regAddr p o :=
  Nat.div_mul_cancel (Nat.dvd_of_mod_eq_zero (regAddr_aligned ho))

theorem word_regAddr_toNat {p o : Nat} (hp : p < 256) (ho : o < 0x10000) : (word (regAddr p o)).toNat = regAddr p o := by
  have high : regAddr p o < 2 ^ 32 := by unfold regAddr; omega
  rw [word, BitVec.toNat_ofNat, Nat.mod_eq_of_lt high]

/-- Q_CTRL, the one word that a quenched device still takes (R454), is no configuration word. -/
theorem regAddr_qCtrl {p o : Nat} (ho : o < 0x1000) : regAddr p o ≠ 0x400D1008 := by
  unfold regAddr
  omega

/-! ### The write of a word (R43, R99, R391) -/

/-- An agent's rights, the CF rule and the joint allow the write of a configuration word (R43, R99, R391). -/
abbrev State.allows (s : State) (a : Agent) (p o : Nat) (data : Word) : Prop :=
  s.mayWrite (s.agentRights a p) p o 0xFFFFFFFF#32 data = true ∧ s.blk p = 0 ∧ s.ownWord p o

section
variable {p o : Nat} {r : PageRow} {row : RegRow} (hw : ConfigWord p o r row) (s : State) (data : Word)
include hw

/-- The whole word written by the access codes of its row: the data in the bits that a write sets, 0 in those that a 1 clears. -/
theorem State.putRow_takesConfig : TakesConfig row p o data s (s.putRow r.kind p o 0xFFFFFFFF#32 data) := by
  have ones : ∀ w : Word, 0xFFFFFFFF#32 &&& w = w := fun w => BitVec.allOnes_and
  intro hs
  simp only [State.putRow, hw.row, ones]
  exact ⟨State.updReg_canonical p o _ hs, State.updReg_latched s p o _, State.reg_setReg_self s p o _ hs.regs⟩

theorem State.writeConfig_takesConfig :
    (s.writeConfig r.kind p o 0xFFFFFFFF#32 data).1 = .ok ∧ TakesConfig row p o data s (s.writeConfig r.kind p o 0xFFFFFFFF#32 data).2 := by
  have hTop : ¬ (p = pgGlobal ∧ o = 0x100) := fun h => hw.notTopology (Prod.ext h.1 h.2)
  have hProf : ¬ (p = pgGlobal ∧ o = 0x104) := fun h => hw.notProfile (Prod.ext h.1 h.2)
  have put := s.putRow_takesConfig hw data
  unfold State.writeConfig
  rw [if_neg hTop, if_neg hProf]
  generalize s.putRow r.kind p o 0xFFFFFFFF#32 data = t at put ⊢
  refine ⟨rfl, fun hs => ?_⟩
  obtain ⟨hc, hl, hr⟩ := put hs
  obtain ⟨hc', hl', hr'⟩ := with_parity t _ _ hc
  exact ⟨hc', hl'.trans hl, (hr' p o hw.low hw.high).trans hr⟩

/-- The CF rule: a write of a configuration word is refused while its block is not DISABLED (R13, R43). -/
theorem State.cfRefuses_config : s.cfRefuses p o = decide (s.blk p ≠ 0) := by
  rw [Bool.eq_iff_iff]
  simp [State.cfRefuses, hw.low, hw.high]

theorem State.writeWord_config (w : Who) (own : w.src = .own) :
    ConfigOutcome row p o data s (s.blk p = 0 ∧ s.ownWord p o) (s.writeWord w r p o 0xFFFFFFFF#32 data) := by
  have cfReject : LeavesConfig s (s.orReg p 0x0C 0x100#32) := LeavesConfig.orReg s p _ (by omega)
  unfold State.writeWord
  rw [s.cfRefuses_config hw]
  by_cases hb : s.blk p = 0
  · by_cases hm : s.ownWord p o
    · have header : ¬ o < 0x100 := Nat.not_lt.mpr hw.low
      refine ⟨fun _ => ?_, fun hn => absurd ⟨hb, hm⟩ hn⟩
      simpa [hb, hm, own, header, hw.high] using s.writeConfig_takesConfig hw data
    · have mine : (s.partnerJoined && mirrorWord p o) = true := by simpa using hm
      refine .of_refused (fun h => hm h.2) ?_ ?_ <;> simp [hb, own, mine, State.localReject_leavesConfig]
  · rw [decide_eq_true hb]
    refine .of_refused (fun h => hb h.1) ?_ ?_ <;> simp only [if_true, apply_ite Prod.fst, apply_ite Prod.snd]
    · simp
    · split
      · exact cfReject.trans (State.localReject_leavesConfig _ p o)
      · exact cfReject

/-- With the right that the word asks for (R99). -/
theorem State.writeAt_config (a : Agent) : ConfigOutcome row p o data s (s.allows a p o data) (s.writeAt (s.ownWho a p) r p o 0xFFFFFFFF#32 data) := by
  have high := hw.high
  have value : (p == pgPmu && decide (0x2100 ≤ o) && decide (o < 0x2900)) = false := by simp [show ¬ 0x2100 ≤ o by omega]
  have window : isStoreWin p o = false := by simp [isStoreWin, show ¬ 0x8000 ≤ o by omega]
  have checked : (s.ownWho a p).src.checked = true := rfl
  have rights : (s.ownWho a p).rights = s.agentRights a p := rfl
  have agent : (s.ownWho a p).agent = a := rfl
  unfold State.writeAt
  simp only [value, window, checked, rights, agent, Bool.not_false, Bool.true_and, Bool.false_eq_true, if_false]
  by_cases hr : s.mayWrite (s.agentRights a p) p o 0xFFFFFFFF#32 data = true
  · have touch := s.touchPage_leavesConfig a p
    obtain ⟨hregs, hlatched⟩ := s.touchPage_regs_latched a p
    simp only [hr, Bool.not_true, Bool.false_eq_true, if_false]
    generalize s.touchPage a p = t at touch hregs hlatched ⊢
    have write := (t.writeWord_config hw data (s.ownWho a p) rfl).preceded hw touch
    rw [State.blk_congr hregs, State.ownWord_congr hregs hlatched] at write
    generalize t.writeWord (s.ownWho a p) r p o 0xFFFFFFFF#32 data = x at write ⊢
    obtain ⟨st, u⟩ := x
    have journalled := write.followed hw (u.journalWrite_leavesConfig p o 0xFFFFFFFF#32 data)
    split
    · exact journalled.of_iff (and_iff_right hr)
    · exact write.of_iff (and_iff_right hr)
  · have hr' : s.mayWrite (s.agentRights a p) p o 0xFFFFFFFF#32 data = false := by simpa using hr
    have deny : LeavesConfig s s.deny := LeavesConfig.incReg s pgRoles (by omega)
    exact .of_refused (fun h => hr h.1) (by simp [hr']) (by simpa [hr'] using deny)

/-! ### The store of a word by each agent (R50, R53, R63, R66, R78)

A function whose body matches on what an address lies in is unfolded through a variable that stands for it (`generalize hf`, `delta`): Lean's
kernel would else compute with the address when it compares the body with the call. -/

/-- The bus takes the word at its address. -/
theorem State.busWrite_config (w : Who) : s.busWrite w (regAddr p o) 0xFFFFFFFF#32 data = s.writeAt w r p o 0xFFFFFFFF#32 data := by
  have high := hw.high
  have aligned := regAddr_aligned (p := p) hw.aligned
  have page := regAddr_page (p := p) hw.small
  have offset := regAddr_offset (p := p) hw.small
  generalize hf : State.busWrite = busWrite
  delta State.busWrite at hf
  subst hf
  beta_reduce
  generalize regAddr p o = addr at aligned page offset ⊢
  simp [page, offset, aligned, hw.page, show ¬ 0x8000 ≤ o by omega, show ¬ 0x4000 ≤ o by omega]

/-- An accepted write is an event of the performance monitor (R425). -/
theorem State.writeBus_config (a : Agent) : ConfigOutcome row p o data s (s.allows a p o data)
    (s.writeBus (s.ownWho a p) (regAddr p o) 0xFFFFFFFF#32 data) := by
  have write := s.writeAt_config hw data a
  rw [← s.busWrite_config hw data] at write
  have note : ∀ t : State, LeavesConfig t (t.noteAccess (s.ownWho a p) (regAddr p o) 0) := fun t => t.noteAccess_leavesConfig _ _ _
  generalize hf : State.writeBus = writeBus
  delta State.writeBus at hf
  generalize State.noteAccess = noteAccess at note hf
  generalize State.busWrite = busWrite at write hf
  subst hf
  beta_reduce
  generalize busWrite s (s.ownWho a p) (regAddr p o) 0xFFFFFFFF#32 data = x at write ⊢
  obtain ⟨st, t⟩ := x
  refine write.followed hw ?_
  split
  · exact note t
  · exact refl t

/-- A store of the word is its write, an audit record and a relay (R112, R389). -/
theorem State.storeWord_config (a : Agent) : ConfigOutcome row p o data s (s.allows a p o data) (s.storeWord a (regAddr p o) 0xFFFFFFFF#32 data) := by
  have addr : ∀ w, s.writeAddr w (regAddr p o) 0xFFFFFFFF#32 data = s.writeBus w (regAddr p o) 0xFFFFFFFF#32 data := fun w =>
    if_pos (regAddr_inPages hw.page_lt hw.small)
  have write := s.writeBus_config hw data a
  have audit : ∀ (t : State) (st : Status), LeavesConfig t (t.auditStore a st (regAddr p o) data) := fun t st => t.auditStore_leavesConfig _ _ _ _
  have mirror : ∀ t : State, LeavesConfig t (t.mirrorWrite a.id (regAddr p o) 0xFFFFFFFF#32 data) := fun t => t.mirrorWrite_leavesConfig _ _ _ _
  unfold State.storeWord
  rw [regAddr_page hw.small, addr]
  generalize State.auditStore = auditStore at audit ⊢
  generalize State.mirrorWrite = mirrorWrite at mirror ⊢
  generalize s.writeBus (s.ownWho a p) (regAddr p o) 0xFFFFFFFF#32 data = x at write ⊢
  obtain ⟨st, t⟩ := x
  refine (write.followed hw (audit t st)).followed hw ?_
  split
  · exact mirror _
  · exact refl _

theorem State.corePages_config (a : Agent) :
    s.corePages a (regAddr p o) .word (data.setWidth 64) = s.storeWord a (regAddr p o) 0xFFFFFFFF#32 data := by
  have same : (data.setWidth 64).setWidth 32 = data := BitVec.setWidth_setWidth_of_le data (by omega)
  unfold State.corePages
  simp only [regAddr_whole hw.aligned, laneMask, laneData, same]

theorem State.coreStore_config (k : Fin 4) :
    ConfigOutcome row p o data s (s.cp.halted.any (fun e => e.1 == k.val) = false ∧ s.allows (.core k) p o data)
      (s.coreStore k (regAddr p o) .word (data.setWidth 64)) := by
  have write := s.storeWord_config hw data (.core k)
  have page := regAddr_page (p := p) hw.small
  have inside := regAddr_inPages hw.page_lt hw.small
  have aligned : accAligned .word (regAddr p o) = true := decide_eq_true (regAddr_aligned hw.aligned)
  rw [← s.corePages_config hw data] at write
  have trap : ∀ (t : State) v, LeavesConfig t (t.coreTrap k.val false excStoreFault v) := fun t v => t.coreTrap_leavesConfig _ _ _ v
  generalize hf : State.coreStore = coreStore
  delta State.coreStore at hf
  subst hf
  beta_reduce
  generalize State.coreTrap = coreTrap at trap ⊢
  generalize regAddr p o = addr at page inside aligned write ⊢
  by_cases hh : s.cp.halted.any (fun e => e.1 == k.val) = true
  · rw [if_pos hh]
    exact .of_refused (fun h => by simp [hh] at h) (by simp) (refl s)
  · simp only [hh, page, inside, aligned, hw.page, Bool.not_true, Bool.false_eq_true, if_false, if_true, Option.isNone_some]
    generalize s.corePages (.core k) addr .word (data.setWidth 64) = x at write ⊢
    obtain ⟨st, t⟩ := x
    refine (write.followed hw ?_).of_iff (by simp)
    split
    · exact trap t _
    · exact refl t

theorem State.appStore_config (k : Fin 4) :
    ConfigOutcome row p o data s ((s.appOn k.val = true ∧ s.appMayStore (regAddr p o) 0xFFFFFFFF#32 data = true) ∧ s.allows (.app k) p o data)
      (s.appStore k (regAddr p o) .word (data.setWidth 64)) := by
  have write := s.storeWord_config hw data (.app k)
  have page := regAddr_page (p := p) hw.small
  have inside := regAddr_inPages hw.page_lt hw.small
  have aligned : accAligned .word (regAddr p o) = true := decide_eq_true (regAddr_aligned hw.aligned)
  have whole := regAddr_whole (p := p) hw.aligned
  rw [← s.corePages_config hw data] at write
  have trap : ∀ e v, LeavesConfig s (s.appTrap 1 k.val e v) := fun e v => s.appTrap_leavesConfig _ _ e v
  generalize hf : State.appStore = appStore
  delta State.appStore at hf
  subst hf
  beta_reduce
  generalize State.appTrap = appTrap at trap ⊢
  generalize regAddr p o = addr at page inside aligned whole write ⊢
  by_cases hon : s.appOn k.val = true
  · by_cases hmay : s.appMayStore addr 0xFFFFFFFF#32 data = true
    · simpa [hon, hmay, page, inside, aligned, whole, hw.page, laneMask, laneData, accBytes] using write
    · have hmay' : s.appMayStore addr 0xFFFFFFFF#32 data = false := by simpa using hmay
      refine .of_refused (fun h => hmay h.1.2) ?_ ?_ <;>
        simp [hon, hmay', page, inside, aligned, whole, hw.page, laneMask, laneData, trap]
  · have hon' : s.appOn k.val = false := by simpa using hon
    exact .of_refused (fun h => hon h.1.1) (by simp [hon']) (by simpa [hon'] using refl s)

/-- A whole-word write of a configuration word is taken just where it reaches the word, its block is DISABLED and no joined lead owns it. -/
theorem State.store_config (a : Agent) :
    ConfigOutcome row p o data s (s.reaches a p o data ∧ s.blk p = 0 ∧ s.ownWord p o) (s.store a (regAddr p o) .word (data.setWidth 64)) := by
  have word := s.storeWord_config hw data a
  have same : (data.setWidth 64).setWidth 32 = data := BitVec.setWidth_setWidth_of_le data (by omega)
  have other : (regAddr p o != 0x400D1008) = true := bne_iff_ne.mpr (regAddr_qCtrl hw.high)
  unfold State.store
  rw [other, Bool.and_true]
  by_cases hruns : (s.inReset || (s.stands && a != .bellows)) = true
  · rw [if_pos hruns]
    refine .of_refused (fun h => ?_) (by simp) (refl s)
    obtain ⟨⟨hreset, hstands, -⟩, -⟩ := h
    rcases hstands with h | h <;> simp [hreset, h] at hruns
  · rw [if_neg hruns]
    have hreset : s.inReset = false := by
      simp only [Bool.or_eq_true, not_or, Bool.not_eq_true] at hruns
      exact hruns.1
    have hstands : a ≠ .bellows → s.stands = false := by
      simp only [Bool.or_eq_true, Bool.and_eq_true, bne_iff_ne, not_or, not_and, Bool.not_eq_true] at hruns
      exact fun h => by_contra fun hs => hruns.2 (by simpa using hs) h
    cases a with
    | core k =>
      refine ((s.coreStore_config hw data k).retires hw (.core k)).of_iff ?_
      simp [State.allows, hreset, hstands, and_assoc]
    | app k =>
      refine ((s.appStore_config hw data k).retires hw (.app k)).of_iff ?_
      simp [State.allows, hreset, hstands, and_assoc]
    | debug =>
      by_cases hat : s.attached = true
      · simp only [hat, if_true, same]
        refine word.of_iff ?_
        simp [State.allows, hreset, hstands, hat, and_assoc]
      · simp only [hat]
        refine .of_refused (fun h => ?_) (by simp) (refl s)
        obtain ⟨⟨-, -, -, -, hdebug, -⟩, -⟩ := h
        exact hat (hdebug rfl)
    | i3c | mgmt | bellows =>
      rw [same]
      refine word.of_iff ?_
      simp [State.allows, hreset, hstands, and_assoc]

end

/-! ### The statement -/

theorem exec_registerWrite (a : Agent) (addr : Word) (z : AccSize) (d : BitVec 64) (s : State) :
    exec (.registerWrite a addr z d) s = .next (s.store a addr.toNat z d).2 := rfl

/-- Settles O11: a store of a configuration word is taken just where `State.store_config` says, and refused else. -/
theorem configWordWrite : Obligations.ConfigWordWrite := by
  intro s a p o r w data hs hp hpage hlow hhigh h4 hrow hTop hProf
  have hw : ConfigWord p o r w := ⟨hp, hpage, hlow, hhigh, h4, hrow, hTop, hProf⟩
  have outcome := s.store_config hw data a
  have run := exec_registerWrite a (word (regAddr p o)) .word (data.setWidth 64) s
  rw [word_regAddr_toNat hp hw.small] at run
  have notTaken : s.blk p ≠ 0 → ¬ (s.reaches a p o data ∧ s.blk p = 0 ∧ s.ownWord p o) := fun hb h => hb h.2.1
  refine ⟨fun hreach hb hown => (outcome.accepted ⟨hreach, hb, hown⟩).1, fun hacc => ⟨_, run, ?_⟩, fun hb => ⟨?_, _, run, ?_⟩⟩
  · have taken : s.reaches a p o data ∧ s.blk p = 0 ∧ s.ownWord p o := by
      by_contra hn
      exact (outcome.refused hn).1 hacc
    obtain ⟨-, hlatched, hreg⟩ := (outcome.accepted taken).2 hs
    refine ⟨hreg, fun q => ?_⟩
    unfold State.cfg
    rw [hlatched]
  · exact (outcome.refused (notTaken hb)).1
  · obtain ⟨-, -, hreg⟩ := (outcome.refused (notTaken hb)).2 hs
    exact hreg p o hlow hhigh

end Sys2Proof.Machine

/-! # The engine overview chapter (01_engine_overview.md)

TOPOLOGY and ENGINE_PROFILE. What an access records beside its word comes first: no page but PMU and PAIR, nor memory, shows it. Then a store of
any header, configuration or live word as the write of that word and such records; then what the two words take. -/
namespace Sys2Proof.Machine

/-! ### What an access records beside its word -/

/-- An operation from `s` to `t` leaves the configuration words, the memories and the registers of every page but PMU and PAIR. -/
structure Records (s t : State) : Prop where
  config : LeavesConfig s t
  rest : s.Canonical → KeepsMemory s t ∧ RegsBut [pgPmu, pgPair] s t

namespace Records

theorem refl (s : State) : Records s s := ⟨LeavesConfig.refl s, fun _ => ⟨⟨rfl, rfl, rfl⟩, fun _ _ _ _ _ => rfl⟩⟩

theorem trans {s t u : State} (h1 : Records s t) (h2 : Records t u) : Records s u := by
  refine ⟨h1.config.trans h2.config, fun hs => ?_⟩
  obtain ⟨⟨hp, hm, hb⟩, hr⟩ := h1.rest hs
  obtain ⟨⟨hp', hm', hb'⟩, hr'⟩ := h2.rest (h1.config hs).1
  exact ⟨⟨hp'.trans hp, hm'.trans hm, hb'.trans hb⟩, fun p o h h' hn => (hr' p o h h' hn).trans (hr p o h h' hn)⟩

/-- A loop whose every turn records; `st` gives the state that the loop carries. -/
theorem foldl {α β : Type} (st : β → State) {f : β → α → β} {l : List α} (h : ∀ b, ∀ x ∈ l, Records (st b) (st (f b x))) (b : β) :
    Records (st b) (st (l.foldl f b)) := by
  induction l generalizing b with
  | nil => exact refl (st b)
  | cons x l ih => exact (h b x (by simp)).trans (ih (fun b y hy => h b y (by simp [hy])) _)

/-- An update of none of the stores that hold registers, windows, memories and fence words, nor of the queue of commands. -/
theorem of_stores {s t : State} (hp : t.pending = s.pending) (hr : t.regs = s.regs) (hl : t.latched = s.latched) (hw : t.win = s.win)
    (hm : t.cp.mem = s.cp.mem) (hb : t.nvm.bytes = s.nvm.bytes) (hf : t.fences = s.fences) : Records s t :=
  ⟨LeavesConfig.of_stores hr hl hw hm hb hf, fun _ => ⟨⟨hp, hm, hb⟩, fun p o _ _ _ => State.reg_congr hr p o⟩⟩

theorem with_freeCtr (s : State) (n : Nat) : Records s { s with freeCtr := n } := of_stores rfl rfl rfl rfl rfl rfl rfl

theorem with_lastLow (s : State) (l : List (Nat × Nat)) : Records s { s with lastLow := l } := of_stores rfl rfl rfl rfl rfl rfl rfl

theorem with_readLatch (s : State) (l : List (Nat × Word)) : Records s { s with readLatch := l } := of_stores rfl rfl rfl rfl rfl rfl rfl

theorem with_stat (s : State) (x : StatSt) : Records s { s with stat := x } := of_stores rfl rfl rfl rfl rfl rfl rfl

theorem with_sprue (s : State) (x : SprueSt) : Records s { s with sprue := x } := of_stores rfl rfl rfl rfl rfl rfl rfl

theorem with_pair (s : State) (x : PairSt) : Records s { s with pair := x } := of_stores rfl rfl rfl rfl rfl rfl rfl

theorem with_nvm (s : State) (x : NvmSt) (h : x.bytes = s.nvm.bytes) : Records s { s with nvm := x } := of_stores rfl rfl rfl rfl rfl h rfl

/-- A write of a word of PMU or PAIR outside its configuration region. -/
theorem setReg (s : State) {p o : Nat} (v : Word) (hp : p ∈ [pgPmu, pgPair]) (ho : o < 0x100 ∨ 0x1000 ≤ o ∧ o < 0x10000) :
    Records s (s.setReg p o v) := by
  refine ⟨LeavesConfig.setReg s p v ho, fun hs => ⟨?_, fun q r _ hr hn => State.reg_setReg_other s v hs.regs fun hk => ?_⟩⟩
  · unfold KeepsMemory
    simp
  · obtain ⟨rfl, -⟩ := regKey_inj hr (by omega) hk
    exact hn hp

theorem setWin (s : State) (p u i : Nat) (v : Word) : Records s (s.setWin p u i v) := by
  refine ⟨LeavesConfig.setWin s p u i v, fun _ => ⟨?_, fun q r _ _ _ => State.setWin_reg s p u i q r v⟩⟩
  unfold KeepsMemory
  simp

/-- A word of PMU changed: its counters, their high words, its events. -/
theorem pmuReg (s : State) {o : Nat} (v : Word) (ho : o < 0x100 ∨ 0x1000 ≤ o ∧ o < 0x10000) : Records s (s.setReg pgPmu o v) :=
  setReg s v (by decide) ho

/-- A word of PAIR changed: its counters, its events. -/
theorem pairReg (s : State) {o : Nat} (v : Word) (ho : o < 0x100 ∨ 0x1000 ≤ o ∧ o < 0x10000) : Records s (s.setReg pgPair o v) :=
  setReg s v (by decide) ho

end Records

/-! ### The performance monitor (R424, R425, R429) -/

theorem State.pmuInc_records (s : State) {n : Nat} (hn : n < 256) : Records s (s.pmuInc n) := by
  have lo : pmuVal n < 0x100 ∨ 0x1000 ≤ pmuVal n ∧ pmuVal n < 0x10000 := by unfold pmuVal; omega
  have hi : pmuVal n + 4 < 0x100 ∨ 0x1000 ≤ pmuVal n + 4 ∧ pmuVal n + 4 < 0x10000 := by unfold pmuVal; omega
  unfold State.pmuInc
  extract_lets _ _ _ t u v keys w
  have two : Records s u := (Records.pmuReg s _ lo).trans (Records.pmuReg t _ hi)
  have carry : Records s w := (two.trans (Records.pmuReg u _ hi)).trans (Records.with_readLatch v _)
  split
  · exact two
  · split
    · exact carry.trans (Records.pmuReg w _ (by omega))
    · exact carry

theorem State.pmuTake_records (s : State) {n : Nat} (hn : n < 256) : Records s (s.pmuTake n).2 := by
  unfold State.pmuTake
  extract_lets t per c
  have inc : Records s t := s.pmuInc_records hn
  clear_value t
  split
  · exact inc
  · split <;> exact inc.trans (Records.setWin t _ _ _ _)

/-- As `takesEvent_leavesConfig`, and for its reason stated for any `take`. -/
theorem takesEvent_records (take : State → Nat → Bool × State) (ht : ∀ s n, n < 256 → Records s (take s n).2)
    (l : List Nat) (hl : ∀ n ∈ l, n < 256) (s : State) :
    Records s (l.foldl (fun (r : List Nat × State) n =>
      let (hit, s) := take r.2 n
      (if hit then r.1 ++ [n] else r.1, s)) ([], s)).2 :=
  Records.foldl Prod.snd (β := List Nat × State) (fun r n hn => ht r.2 n (hl n hn)) ([], s)

theorem State.pmuEvent_records (s : State) (e : PmuEvent) : Records s (s.pmuEvent e).2 := by
  unfold State.pmuEvent
  split
  · exact Records.refl s
  · exact takesEvent_records State.pmuTake (fun s _ hn => s.pmuTake_records hn) _ (fun n hn => List.mem_range.mp (List.mem_filter.mp hn).1) s

theorem State.sample_records (s : State) (r : List Byte) : Records s (s.sample r) := by
  unfold State.sample
  split
  · exact Records.refl s
  · split
    · exact ((Records.with_stat s _).trans (Records.pmuReg _ _ (by omega))).trans (Records.pmuReg _ _ (by omega))
    · exact Records.with_stat s _

theorem State.accessEvent_records (s : State) (code : Nat) (a : Agent) (space : Option (Nat × Nat)) (load : Nat) :
    Records s (s.accessEvent code a space load) := by
  have freeSample : ∀ (u : State) (r : List Byte), Records u (u.fresh.2.fresh.2.sample r) := fun u r =>
    ((Records.with_freeCtr u _).trans (Records.with_freeCtr _ _)).trans (State.sample_records _ r)
  unfold State.accessEvent
  extract_lets mode
  have event := s.pmuEvent_records ⟨code, mode, [agentMaster a], space, none⟩
  generalize s.pmuEvent ⟨code, mode, [agentMaster a], space, none⟩ = x at event ⊢
  obtain ⟨ns, t⟩ := x
  refine event.trans ?_
  cases a with
  | core k | app k => exact Records.foldl (fun u => u) (fun u n _ => freeSample u _) t
  | i3c | mgmt | debug | bellows => exact Records.refl t

theorem State.noteAccess_records (s : State) (w : Who) (addr load : Nat) : Records s (s.noteAccess w addr load) := by
  unfold State.noteAccess
  split
  · exact Records.refl s
  · exact State.accessEvent_records s _ _ _ _

theorem State.retired_records (s : State) (a : Agent) : Records s (s.retired a none) := by
  unfold State.retired
  split
  · exact Records.refl s
  · exact State.accessEvent_records s _ _ _ _

theorem storeRetires_records (a : Agent) (x : Status × State) : Records x.2 (storeRetires a x).2 := by
  unfold storeRetires
  dsimp only
  split
  · exact Records.refl x.2
  · exact x.2.retired_records a

/-! ### Journal, audit log, relays, held reads (R52, R112, R389, R402) -/

theorem State.touchPage_records (s : State) (a : Agent) (p : Nat) : Records s (s.touchPage a p) := by
  unfold State.touchPage
  extract_lets t
  have low : Records s t := Records.with_lastLow s _
  split
  · exact low.trans (Records.with_stat t _)
  · split
    · exact low.trans (Records.with_stat t _)
    · exact low

theorem State.journalWrite_records (s : State) (p o : Nat) (mask data : Word) : Records s (s.journalWrite p o mask data) := by
  have put : ∀ k i b, Records s (s.journalPut k i b) := by
    intro k i b
    unfold State.journalPut
    split
    · exact Records.refl s
    · split
      · exact (Records.with_pair s _).trans (Records.pairReg _ _ (by omega))
      · exact Records.with_pair s _
  unfold State.journalWrite State.journal
  split
  · split
    · exact put _ _ _
    · exact Records.refl s
  · exact Records.refl s

theorem State.audit_records (s : State) (r : AuditRec) : Records s (s.audit r) := by
  unfold State.audit
  split <;> exact Records.with_nvm s _ rfl

theorem State.auditWrite_records (s : State) (a : Agent) (st : Status) (addr : Nat) (data : Word) (n : Nat) (hit : Bool) :
    Records s (s.auditWrite a st addr data n hit) := by
  unfold State.auditWrite
  cases a with
  | core k | bellows => exact Records.refl s
  | i3c | mgmt | debug | app k =>
    dsimp only
    split
    · exact Records.refl s
    · split
      · exact s.audit_records _
      · split
        · exact s.audit_records _
        · exact Records.refl s

theorem State.countStore_records (s : State) : Records s s.countStore := by
  unfold State.countStore
  split <;> exact Records.with_nvm s _ rfl

theorem State.auditStore_records (s : State) (a : Agent) (st : Status) (addr : Nat) (data : Word) : Records s (s.auditStore a st addr data) := by
  have joins : ∀ j : Bool, Records s (if j then s.countStore else s.auditWrite a st addr data 1 true) := by
    intro j
    cases j with
    | true => exact s.countStore_records
    | false => exact s.auditWrite_records a st addr data 1 true
  unfold State.auditStore
  extract_lets p own
  split
  · exact s.auditWrite_records _ _ _ _ _ _
  · exact (joins _).trans (Records.with_nvm _ _ rfl)

theorem State.sendRelay_records (s : State) (r : Relay) : Records s (s.sendRelay r) := by
  unfold State.sendRelay State.sendRelayCell State.sendControl
  split
  · exact Records.refl s
  · exact Records.with_sprue s _

theorem State.putRelay_records (s : State) (r : Relay) : Records s (s.putRelay r) := by
  have send : ∀ (u : State) (r : Relay), Records u ((u.sendRelay r).incReg pgPair 0x202C) := fun u r =>
    (u.sendRelay_records r).trans (Records.pairReg _ _ (by omega))
  unfold State.putRelay State.pumpRelays
  exact ((Records.with_pair s _).trans (Records.with_pair _ _)).trans (Records.foldl id (fun u r _ => send u r) _)

theorem State.relayWords_records (s : State) (agent : Nat) (mirror read fixed : Bool) (addr : Nat) (mask : Option Word) (data : List Word) :
    Records s (s.relayWords agent mirror read fixed addr mask data) := by
  unfold State.relayWords
  exact Records.foldl Prod.fst (fun acc _ _ => acc.1.putRelay_records _) (s, addr)

theorem State.mirrorWrite_records (s : State) (agent addr : Nat) (mask data : Word) : Records s (s.mirrorWrite agent addr mask data) := by
  unfold State.mirrorWrite
  split
  · exact Records.refl s
  · split
    · exact Records.refl s
    · dsimp only
      split
      · exact Records.refl s
      · split <;> exact s.relayWords_records _ _ _ _ _ _ _

/-! ### A store of a whole word (R43, R50, R53, R63, R66, R78, R99)

`State.store_config` says what a configuration word other than TOPOLOGY and ENGINE_PROFILE takes. Here the store of any header, configuration or
live word is led back to `State.writeWord`, whatever that does. -/

/-- Offset `o` of page `p` is a header, configuration or live word, and not Q_CTRL, the one word that a quenched device still takes (R454). -/
structure PageWord (p o : Nat) (r : PageRow) : Prop where
  page_lt : p < 256
  page : pageRow p = some r
  high : o < 0x2000
  aligned : o % 4 = 0
  notQuench : (p, o) ≠ (pgDebug, 0x1008)

/-- The write of a whole word that the agent's rights allow, with its status, before anything is recorded of it. -/
def State.wordWrite (s : State) (a : Agent) (r : PageRow) (p o : Nat) (data : Word) : Status × State :=
  (s.touchPage a p).writeWord (s.ownWho a p) r p o 0xFFFFFFFF#32 data

/-- An answer `y` at `s` is that of the write `x`, with records of it, where the write is made, and else it is a refusal that leaves the
configuration words. -/
structure StoreOutcome (s : State) (x : Status × State) (made : Prop) (y : Status × State) : Prop where
  writes : made → y.1 = x.1 ∧ Records x.2 y.2
  refused : ¬ made → y.1 ≠ .ok ∧ LeavesConfig s y.2

section
variable {s : State} {x y : Status × State} {made : Prop}

theorem StoreOutcome.of_refused (hn : ¬ made) (hst : y.1 ≠ .ok) (hy : LeavesConfig s y.2) : StoreOutcome s x made y :=
  ⟨fun h => absurd h hn, fun _ => ⟨hst, hy⟩⟩

/-- More records follow. -/
theorem StoreOutcome.recorded {st : Status} {t u : State} (hy : StoreOutcome s x made (st, t)) (h : Records t u) : StoreOutcome s x made (st, u) where
  writes hm := ⟨(hy.writes hm).1, (hy.writes hm).2.trans h⟩
  refused hn := ⟨(hy.refused hn).1, (hy.refused hn).2.trans h.config⟩

/-- A store of a core retires its instruction (R425). -/
theorem StoreOutcome.retires (a : Agent) (hy : StoreOutcome s x made y) : StoreOutcome s x made (storeRetires a y) :=
  StoreOutcome.recorded (st := y.1) (t := y.2) hy (storeRetires_records a y)

/-- The condition on which the write is made, in other words. -/
theorem StoreOutcome.of_iff {made' : Prop} (hy : StoreOutcome s x made y) (h : made' ↔ made) : StoreOutcome s x made' y :=
  ⟨fun hm => hy.writes (h.mp hm), fun hn => hy.refused (fun hm => hn (h.mpr hm))⟩

end

section
variable {p o : Nat} {r : PageRow} (hw : PageWord p o r) (s : State) (a : Agent) (data : Word)
include hw

theorem PageWord.small : o < 0x10000 := by
  have := hw.high
  omega

theorem PageWord.regAddr_ne : regAddr p o ≠ 0x400D1008 := by
  intro h
  have small := hw.small
  have hp := regAddr_page (p := p) small
  have ho := regAddr_offset (p := p) small
  rw [h] at hp ho
  exact hw.notQuench (Prod.ext hp.symm ho.symm)

/-- With the right that the word asks for (R99). -/
theorem State.writeAt_pageWord : StoreOutcome s (s.wordWrite a r p o data) (s.mayWrite (s.agentRights a p) p o 0xFFFFFFFF#32 data = true)
    (s.writeAt (s.ownWho a p) r p o 0xFFFFFFFF#32 data) := by
  have high := hw.high
  have value : (p == pgPmu && decide (0x2100 ≤ o) && decide (o < 0x2900)) = false := by simp [show ¬ 0x2100 ≤ o by omega]
  have window : isStoreWin p o = false := by simp [isStoreWin, show ¬ 0x8000 ≤ o by omega]
  have checked : (s.ownWho a p).src.checked = true := rfl
  have rights : (s.ownWho a p).rights = s.agentRights a p := rfl
  have agent : (s.ownWho a p).agent = a := rfl
  unfold State.writeAt State.wordWrite
  simp only [value, window, checked, rights, agent, Bool.not_false, Bool.true_and, Bool.false_eq_true, if_false]
  by_cases hr : s.mayWrite (s.agentRights a p) p o 0xFFFFFFFF#32 data = true
  · simp only [hr, Bool.not_true, Bool.false_eq_true, if_false]
    generalize (s.touchPage a p).writeWord (s.ownWho a p) r p o 0xFFFFFFFF#32 data = x
    obtain ⟨st, u⟩ := x
    have write : StoreOutcome s (st, u) True (st, u) := ⟨fun _ => ⟨rfl, Records.refl u⟩, fun h => absurd trivial h⟩
    split
    · exact write.recorded (u.journalWrite_records p o 0xFFFFFFFF#32 data)
    · exact write
  · have hr' : s.mayWrite (s.agentRights a p) p o 0xFFFFFFFF#32 data = false := by simpa using hr
    have deny : LeavesConfig s s.deny := LeavesConfig.incReg s pgRoles (by omega)
    exact .of_refused hr (by simp [hr']) (by simpa [hr'] using deny)

/-- The bus takes the word at its address; its body is unfolded through a variable, as in `State.busWrite_config`. -/
theorem State.busWrite_pageWord (w : Who) : s.busWrite w (regAddr p o) 0xFFFFFFFF#32 data = s.writeAt w r p o 0xFFFFFFFF#32 data := by
  have high := hw.high
  have aligned := regAddr_aligned (p := p) hw.aligned
  have page := regAddr_page (p := p) hw.small
  have offset := regAddr_offset (p := p) hw.small
  generalize hf : State.busWrite = busWrite
  delta State.busWrite at hf
  subst hf
  beta_reduce
  generalize regAddr p o = addr at aligned page offset ⊢
  simp [page, offset, aligned, hw.page, show ¬ 0x8000 ≤ o by omega, show ¬ 0x4000 ≤ o by omega]

/-- An accepted write is an event of the performance monitor (R425). -/
theorem State.writeBus_pageWord : StoreOutcome s (s.wordWrite a r p o data) (s.mayWrite (s.agentRights a p) p o 0xFFFFFFFF#32 data = true)
    (s.writeBus (s.ownWho a p) (regAddr p o) 0xFFFFFFFF#32 data) := by
  have write := s.writeAt_pageWord hw a data
  rw [← s.busWrite_pageWord hw data] at write
  have note : ∀ t : State, Records t (t.noteAccess (s.ownWho a p) (regAddr p o) 0) := fun t => t.noteAccess_records _ _ _
  generalize hf : State.writeBus = writeBus
  delta State.writeBus at hf
  generalize State.noteAccess = noteAccess at note hf
  generalize State.busWrite = busWrite at write hf
  subst hf
  beta_reduce
  generalize busWrite s (s.ownWho a p) (regAddr p o) 0xFFFFFFFF#32 data = y at write ⊢
  obtain ⟨st, t⟩ := y
  refine write.recorded ?_
  split
  · exact note t
  · exact Records.refl t

/-- A store of the word is its write, an audit record and a relay (R112, R389). -/
theorem State.storeWord_pageWord : StoreOutcome s (s.wordWrite a r p o data) (s.mayWrite (s.agentRights a p) p o 0xFFFFFFFF#32 data = true)
    (s.storeWord a (regAddr p o) 0xFFFFFFFF#32 data) := by
  have addr : ∀ w, s.writeAddr w (regAddr p o) 0xFFFFFFFF#32 data = s.writeBus w (regAddr p o) 0xFFFFFFFF#32 data := fun w =>
    if_pos (regAddr_inPages hw.page_lt hw.small)
  have write := s.writeBus_pageWord hw a data
  have audit : ∀ (t : State) (st : Status), Records t (t.auditStore a st (regAddr p o) data) := fun t st => t.auditStore_records _ _ _ _
  have mirror : ∀ t : State, Records t (t.mirrorWrite a.id (regAddr p o) 0xFFFFFFFF#32 data) := fun t => t.mirrorWrite_records _ _ _ _
  unfold State.storeWord
  rw [regAddr_page hw.small, addr]
  generalize State.auditStore = auditStore at audit ⊢
  generalize State.mirrorWrite = mirrorWrite at mirror ⊢
  generalize s.writeBus (s.ownWho a p) (regAddr p o) 0xFFFFFFFF#32 data = y at write ⊢
  obtain ⟨st, t⟩ := y
  refine (write.recorded (audit t st)).recorded ?_
  split
  · exact mirror _
  · exact Records.refl _

theorem State.corePages_pageWord :
    s.corePages a (regAddr p o) .word (data.setWidth 64) = s.storeWord a (regAddr p o) 0xFFFFFFFF#32 data := by
  have same : (data.setWidth 64).setWidth 32 = data := BitVec.setWidth_setWidth_of_le data (by omega)
  unfold State.corePages
  simp only [regAddr_whole hw.aligned, laneMask, laneData, same]

/-- A running core's store of the word takes no exception but where the write answers ACCESS_FAULT (R53). -/
theorem State.coreStore_pageWord (k : Fin 4) (hx : (s.wordWrite (.core k) r p o data).1 ≠ .accessFault) :
    StoreOutcome s (s.wordWrite (.core k) r p o data)
      (s.cp.halted.any (fun e => e.1 == k.val) = false ∧ s.mayWrite (s.agentRights (.core k) p) p o 0xFFFFFFFF#32 data = true)
      (s.coreStore k (regAddr p o) .word (data.setWidth 64)) := by
  have write := s.storeWord_pageWord hw (.core k) data
  have page := regAddr_page (p := p) hw.small
  have inside := regAddr_inPages hw.page_lt hw.small
  have aligned : accAligned .word (regAddr p o) = true := decide_eq_true (regAddr_aligned hw.aligned)
  rw [← s.corePages_pageWord hw (.core k) data] at write
  have trap : ∀ (t : State) v, LeavesConfig t (t.coreTrap k.val false excStoreFault v) := fun t v => t.coreTrap_leavesConfig _ _ _ v
  generalize hf : State.coreStore = coreStore
  delta State.coreStore at hf
  subst hf
  beta_reduce
  generalize State.coreTrap = coreTrap at trap ⊢
  generalize regAddr p o = addr at page inside aligned write ⊢
  by_cases hh : s.cp.halted.any (fun e => e.1 == k.val) = true
  · rw [if_pos hh]
    exact .of_refused (fun h => by simp [hh] at h) (by simp) (LeavesConfig.refl s)
  · simp only [hh, page, inside, aligned, hw.page, Bool.not_true, Bool.false_eq_true, if_false, if_true, Option.isNone_some]
    generalize s.corePages (.core k) addr .word (data.setWidth 64) = y at write ⊢
    obtain ⟨st, t⟩ := y
    refine ⟨fun h => ?_, fun h => ?_⟩
    · obtain ⟨hst, hrec⟩ := write.writes h.2
      have quiet : st ≠ .accessFault := fun h => hx (hst.symm.trans h)
      exact ⟨hst, by rwa [if_neg quiet]⟩
    · obtain ⟨hst, hleaves⟩ := write.refused (fun hm => h ⟨by simp, hm⟩)
      refine ⟨hst, hleaves.trans ?_⟩
      split
      · exact trap t _
      · exact LeavesConfig.refl t

theorem State.appStore_pageWord (k : Fin 4) : StoreOutcome s (s.wordWrite (.app k) r p o data)
    ((s.appOn k.val = true ∧ s.appMayStore (regAddr p o) 0xFFFFFFFF#32 data = true)
      ∧ s.mayWrite (s.agentRights (.app k) p) p o 0xFFFFFFFF#32 data = true)
    (s.appStore k (regAddr p o) .word (data.setWidth 64)) := by
  have write := s.storeWord_pageWord hw (.app k) data
  have page := regAddr_page (p := p) hw.small
  have inside := regAddr_inPages hw.page_lt hw.small
  have aligned : accAligned .word (regAddr p o) = true := decide_eq_true (regAddr_aligned hw.aligned)
  have whole := regAddr_whole (p := p) hw.aligned
  rw [← s.corePages_pageWord hw (.app k) data] at write
  have trap : ∀ e v, LeavesConfig s (s.appTrap 1 k.val e v) := fun e v => s.appTrap_leavesConfig _ _ e v
  generalize hf : State.appStore = appStore
  delta State.appStore at hf
  subst hf
  beta_reduce
  generalize State.appTrap = appTrap at trap ⊢
  generalize regAddr p o = addr at page inside aligned whole write ⊢
  by_cases hon : s.appOn k.val = true
  · by_cases hmay : s.appMayStore addr 0xFFFFFFFF#32 data = true
    · simpa [hon, hmay, page, inside, aligned, whole, hw.page, laneMask, laneData, accBytes] using write
    · have hmay' : s.appMayStore addr 0xFFFFFFFF#32 data = false := by simpa using hmay
      refine .of_refused (fun h => hmay h.1.2) ?_ ?_ <;>
        simp [hon, hmay', page, inside, aligned, whole, hw.page, laneMask, laneData, trap]
  · have hon' : s.appOn k.val = false := by simpa using hon
    exact .of_refused (fun h => hon h.1.1) (by simp [hon']) (by simpa [hon'] using LeavesConfig.refl s)

/-- A whole-word store that reaches its word makes the write and records it, and any other is refused. -/
theorem State.store_pageWord (hx : (s.wordWrite a r p o data).1 ≠ .accessFault) :
    StoreOutcome s (s.wordWrite a r p o data) (s.reaches a p o data) (s.store a (regAddr p o) .word (data.setWidth 64)) := by
  have word := s.storeWord_pageWord hw a data
  have same : (data.setWidth 64).setWidth 32 = data := BitVec.setWidth_setWidth_of_le data (by omega)
  have other : (regAddr p o != 0x400D1008) = true := bne_iff_ne.mpr hw.regAddr_ne
  unfold State.store
  rw [other, Bool.and_true]
  have busy : (s.inReset || (s.stands && a != .bellows)) = true ↔ ¬ (s.inReset = false ∧ (s.stands = false ∨ a = .bellows)) := by
    cases s.inReset <;> cases s.stands <;> simp
  by_cases hruns : s.inReset = false ∧ (s.stands = false ∨ a = .bellows)
  · rw [if_neg (fun h => busy.mp h hruns)]
    obtain ⟨hreset, hor⟩ := hruns
    have hstands : a ≠ .bellows → s.stands = false := hor.resolve_right
    cases a with
    | core k =>
      refine ((s.coreStore_pageWord hw data k hx).retires (.core k)).of_iff ?_
      simp [State.reaches, hreset, hstands]
    | app k =>
      refine ((s.appStore_pageWord hw data k).retires (.app k)).of_iff ?_
      simp [State.reaches, hreset, hstands]
    | debug =>
      by_cases hat : s.attached = true
      · simp only [hat, if_true, same]
        refine word.of_iff ?_
        simp [State.reaches, hreset, hstands, hat]
      · simp only [hat]
        refine .of_refused (fun h => ?_) (by simp) (LeavesConfig.refl s)
        obtain ⟨-, -, -, -, hdebug, -⟩ := h
        exact hat (hdebug rfl)
    | i3c | mgmt | bellows =>
      rw [same]
      refine word.of_iff ?_
      simp [State.reaches, hreset, hstands]
  · rw [if_pos (busy.mpr hruns)]
    exact .of_refused (fun h => hruns ⟨h.1, h.2.1⟩) (by simp) (LeavesConfig.refl s)

end

/-! ### Masks of low bits -/

/-- The data of a whole-word write, whatever the word held. -/
theorem blend_ones (data old : Word) : blend 0xFFFFFFFF#32 data old = data := by
  have none : ~~~0xFFFFFFFF#32 = 0#32 := by decide
  have all : data &&& 0xFFFFFFFF#32 = data := BitVec.and_allOnes
  rw [blend, none, all, BitVec.and_zero, BitVec.zero_or]

/-- The low bits of a word as a number. -/
theorem toNat_and_low (w : Word) (n : Nat) (h : n < 32) : (w &&& word (2 ^ (n + 1) - 1)).toNat = fld w n 0 := by
  have fits : 2 ^ (n + 1) - 1 < 2 ^ 32 := lt_of_lt_of_le (Nat.sub_lt (Nat.two_pow_pos _) Nat.one_pos) (Nat.pow_le_pow_right (by omega) (by omega))
  rw [BitVec.toNat_and, word, BitVec.toNat_ofNat, Nat.mod_eq_of_lt fits, Nat.and_two_pow_sub_one_eq_mod, fld, Nat.pow_zero, Nat.div_one,
    Nat.sub_zero]

/-- The bits of TOPOLOGY. -/
theorem toNat_and_three (w : Word) : (w &&& 3#32).toNat = fld w 1 0 := toNat_and_low w 1 (by omega)

/-- The bits of ENGINE_PROFILE. -/
theorem toNat_and_seven (w : Word) : (w &&& 7#32).toNat = fld w 2 0 := toNat_and_low w 2 (by omega)

/-- A word that a number gives is that number's. -/
theorem word_of_toNat {w : Word} {n : Nat} (h : w.toNat = n) : word n = w := by
  rw [← h, word, BitVec.ofNat_toNat, BitVec.setWidth_eq]

theorem eq_word_iff {w : Word} {n k : Nat} (h : w.toNat = n) (hk : k < 2 ^ 32) : w = word k ↔ n = k := by
  rw [← BitVec.toNat_inj, h, word, BitVec.toNat_ofNat, Nat.mod_eq_of_lt hk]

/-! ### What TOPOLOGY and ENGINE_PROFILE take (R32) -/

/-- From `s` to `t` the memories and the latched configuration stay, and TOPOLOGY and ENGINE_PROFILE hold `topology` and `profile`. -/
structure HoldsMode (topology profile : Word) (s t : State) : Prop where
  canonical : t.Canonical
  latched : t.latched = s.latched
  memory : KeepsMemory s t
  topology : t.reg pgGlobal 0x100 = topology
  profile : t.reg pgGlobal 0x104 = profile

section
variable {topology profile : Word} {s t u : State}

theorem HoldsMode.refl (hs : s.Canonical) : HoldsMode (s.reg pgGlobal 0x100) (s.reg pgGlobal 0x104) s s := ⟨hs, rfl, ⟨rfl, rfl, rfl⟩, rfl, rfl⟩

/-- A register of GLOBAL under records. -/
theorem Records.global (h : Records s t) (hs : s.Canonical) {o : Nat} (ho : o < 0x10000) : t.reg pgGlobal o = s.reg pgGlobal o :=
  (h.rest hs).2 pgGlobal o (by decide) ho (by decide)

/-- Records follow. -/
theorem HoldsMode.recorded (h : HoldsMode topology profile s t) (hr : Records t u) : HoldsMode topology profile s u := by
  obtain ⟨hc, hl, -⟩ := hr.config h.canonical
  obtain ⟨⟨hp, hm, hb⟩, -⟩ := hr.rest h.canonical
  obtain ⟨hp', hm', hb'⟩ := h.memory
  exact ⟨hc, hl.trans h.latched, ⟨hp.trans hp', hm.trans hm', hb.trans hb'⟩, (hr.global h.canonical (by omega)).trans h.topology,
    (hr.global h.canonical (by omega)).trans h.profile⟩

theorem HoldsMode.cfg (h : HoldsMode topology profile s t) (p o : Nat) : t.cfg p o = s.cfg p o := by
  unfold State.cfg
  rw [h.latched]

theorem HoldsMode.reparity (h : HoldsMode topology profile s t) (l : List Nat) : HoldsMode topology profile s (t.reparity l) :=
  h.recorded (Records.of_stores rfl rfl rfl rfl rfl rfl rfl)

/-- A word of GLOBAL changed. -/
theorem HoldsMode.setReg {o : Nat} (v : Word) (h : HoldsMode topology profile s t) (ho : o < 0x10000) :
    HoldsMode (if o = 0x100 then v else topology) (if o = 0x104 then v else profile) s (t.setReg pgGlobal o v) := by
  have read : ∀ q, q < 0x10000 → (t.setReg pgGlobal o v).reg pgGlobal q = if o = q then v else t.reg pgGlobal q := by
    intro q hq
    split
    case isTrue he => rw [← he, State.reg_setReg_self t _ _ v h.canonical.regs]
    case isFalse hn => exact State.reg_setReg_other t v h.canonical.regs fun hk => hn (regKey_inj hq ho hk).2.symm
  refine ⟨State.setReg_canonical _ _ _ h.canonical, (State.setReg_latched _ _ _ _).trans h.latched, ?_, ?_, ?_⟩
  · simpa [KeepsMemory] using h.memory
  · rw [read 0x100 (by omega), h.topology]
  · rw [read 0x104 (by omega), h.profile]

theorem HoldsMode.setTopology (v : Word) (h : HoldsMode topology profile s t) : HoldsMode v profile s (t.setReg pgGlobal 0x100 v) :=
  h.setReg (o := 0x100) v (by omega)

theorem HoldsMode.setProfile (v : Word) (h : HoldsMode topology profile s t) : HoldsMode topology v s (t.setReg pgGlobal 0x104 v) :=
  h.setReg (o := 0x104) v (by omega)

/-- ENGINE_PROFILE after an admitted write of TOPOLOGY: entering TRUNKED makes it BALANCED, leaving it makes it FULL. -/
def profileAfter (data topology profile : Word) : Word :=
  if data &&& 3#32 = 2 ∧ fld topology 1 0 ≠ 2 then 4 else if data &&& 3#32 ≠ 2 ∧ fld topology 1 0 = 2 then 0 else profile

/-- The values of ENGINE_PROFILE that R32 admits under a topology: BALANCED with TRUNKED, one of the others with any other. -/
def ProfileAdmitted (data topology : Word) : Prop := (data &&& 7#32).toNat ≤ 4 ∧ (data &&& 7#32 = 4#32 ↔ fld topology 1 0 = 2)

theorem State.writeTopology_rejected (t : State) {data : Word} (hd : data &&& 3#32 = 3#32) :
    t.writeTopology 0xFFFFFFFF#32 data = (.cfgLocked, t.orReg pgGlobal 0x2000 0x10000#32) := by
  have new : fld data 1 0 = 3 := (eq_word_iff (toNat_and_three data) (by omega)).mp hd
  simp [State.writeTopology, blend_ones, new]

theorem HoldsMode.writeTopology_admitted (h : HoldsMode topology profile s t) {data : Word} (hd : data &&& 3#32 ≠ 3#32) :
    (t.writeTopology 0xFFFFFFFF#32 data).1 = .ok
      ∧ HoldsMode (data &&& 3#32) (profileAfter data topology profile) s (t.writeTopology 0xFFFFFFFF#32 data).2 := by
  have low := toNat_and_three data
  have new : fld data 1 0 ≠ 3 := fun hn => hd ((eq_word_iff low (by omega)).mpr hn)
  have two : data &&& 3#32 = 2#32 ↔ fld data 1 0 = 2 := eq_word_iff low (by decide)
  have old : t.regFld 0 0x100 1 0 = fld topology 1 0 := congrArg (fun w => fld w 1 0) h.topology
  have held := h.setTopology (data &&& 3#32)
  unfold State.writeTopology profileAfter
  simp only [blend_ones, new, old, if_false, word_of_toNat low, true_and]
  by_cases hn : fld data 1 0 = 2 <;> by_cases ho : fld topology 1 0 = 2
  · simpa [two, hn, ho] using held
  · simpa [two, hn, ho] using (held.setProfile 4).reparity [0x104]
  · simpa [two, hn, ho] using (held.setProfile 0).reparity [0x104]
  · simpa [two, hn, ho] using held

/-- The model's check of ENGINE_PROFILE is that of R32. -/
theorem State.writeProfile_eq (t : State) (data : Word) :
    (ProfileAdmitted data (t.reg pgGlobal 0x100) → t.writeProfile 0xFFFFFFFF#32 data = (.ok, t.setReg pgGlobal 0x104 (data &&& 7#32)))
      ∧ (¬ ProfileAdmitted data (t.reg pgGlobal 0x100) → t.writeProfile 0xFFFFFFFF#32 data = (.cfgLocked, t.profileReject)) := by
  have low := toNat_and_seven data
  have four : data &&& 7#32 = 4#32 ↔ fld data 2 0 = 4 := eq_word_iff low (by omega)
  unfold State.writeProfile
  extract_lets v trunked
  have hv : v = fld data 2 0 := congrArg (fun w => fld w 2 0) (blend_ones data _)
  have rejects : (4 < v ∨ (v == 4) ≠ trunked) ↔ ¬ ProfileAdmitted data (t.reg pgGlobal 0x100) := by
    unfold ProfileAdmitted
    rw [low, four, hv, not_and_or, Nat.not_le, ne_eq, Bool.eq_iff_iff, beq_iff_eq, beq_iff_eq]
    rfl
  refine ⟨fun ha => ?_, fun hn => if_pos (rejects.mpr hn)⟩
  rw [if_neg (fun hr => rejects.mp hr ha), hv, word_of_toNat low]

end

/-! ### The write of TOPOLOGY and of ENGINE_PROFILE, alone and as a store -/

/-- The page of GLOBAL. -/
theorem globalRow : ∃ r, pageRow pgGlobal = some r := ⟨_, rfl⟩

theorem pageWord_topology {r : PageRow} (h : pageRow pgGlobal = some r) : PageWord pgGlobal 0x100 r := ⟨by decide, h, by omega, by omega, by decide⟩

theorem pageWord_profile {r : PageRow} (h : pageRow pgGlobal = some r) : PageWord pgGlobal 0x104 r := ⟨by decide, h, by omega, by omega, by decide⟩

/-- The write `x` at `s` is no access fault and leaves `topology` and `profile` in the two words. -/
structure ModeWrite (topology profile : Word) (s : State) (x : Status × State) : Prop where
  status : x.1 ≠ .accessFault
  mode : HoldsMode topology profile s x.2

section
variable {s : State} {a : Agent} {r : PageRow} {data : Word} {topology profile : Word}

/-- What a write finds in the two words. -/
theorem HoldsMode.touched (hs : s.Canonical) (a : Agent) (p : Nat) :
    HoldsMode (s.reg pgGlobal 0x100) (s.reg pgGlobal 0x104) s (s.touchPage a p) := (HoldsMode.refl hs).recorded (s.touchPage_records a p)

/-- Where no lead owns the word, the CF rule alone stands before the write of a configuration word (R13, R43). -/
theorem State.wordWrite_config (hj : s.partnerJoined = false) {p o : Nat} (low : 0x100 ≤ o) (high : o < 0x1000) :
    s.wordWrite a r p o data = if s.blk p = 0 then (s.touchPage a p).writeConfig r.kind p o 0xFFFFFFFF#32 data
      else (.cfgLocked, (s.touchPage a p).orReg p 0x0C 0x100#32) := by
  obtain ⟨hregs, hlatched⟩ := s.touchPage_regs_latched a p
  have hj' : (s.touchPage a p).partnerJoined = false := (State.partnerJoined_congr hregs hlatched).trans hj
  have hb' : (s.touchPage a p).blk p = s.blk p := State.blk_congr hregs p
  unfold State.wordWrite
  generalize s.touchPage a p = u at hj' hb' ⊢
  unfold State.writeWord State.cfRefuses
  by_cases hb : s.blk p = 0 <;> simp [hj', hb', hb, low, high, Nat.not_lt.mpr low]

/-- While GLOBAL is not DISABLED a write of a configuration word leaves the two words. -/
theorem State.wordWrite_enabled (hs : s.Canonical) (hj : s.partnerJoined = false) (hb : s.blk pgGlobal ≠ 0) {o : Nat} (low : 0x100 ≤ o)
    (high : o < 0x1000) : ModeWrite (s.reg pgGlobal 0x100) (s.reg pgGlobal 0x104) s (s.wordWrite a r pgGlobal o data) := by
  rw [State.wordWrite_config hj low high, if_neg hb]
  exact ⟨by simp, (HoldsMode.touched hs a pgGlobal).setReg (o := 0x0C) _ (by omega)⟩

theorem State.wordWrite_topology (hj : s.partnerJoined = false) (hb : s.blk pgGlobal = 0) :
    s.wordWrite a r pgGlobal 0x100 data =
      let x := (s.touchPage a pgGlobal).writeTopology 0xFFFFFFFF#32 data
      (x.1, if x.1 = .ok then x.2.reparity [regKey pgGlobal 0x100] else x.2) := by
  rw [State.wordWrite_config hj (by omega) (by omega), if_pos hb]
  unfold State.writeConfig
  rw [if_pos ⟨rfl, rfl⟩]

theorem State.wordWrite_profile (hj : s.partnerJoined = false) (hb : s.blk pgGlobal = 0) :
    s.wordWrite a r pgGlobal 0x104 data =
      let x := (s.touchPage a pgGlobal).writeProfile 0xFFFFFFFF#32 data
      (x.1, if x.1 = .ok then x.2.reparity [regKey pgGlobal 0x104] else x.2) := by
  rw [State.wordWrite_config hj (by omega) (by omega), if_pos hb]
  unfold State.writeConfig
  rw [if_neg (by omega), if_pos ⟨rfl, rfl⟩]

theorem State.wordWrite_topology_admitted (hs : s.Canonical) (hj : s.partnerJoined = false) (hb : s.blk pgGlobal = 0)
    (hd : data &&& 3#32 ≠ 3#32) : ModeWrite (data &&& 3#32) (profileAfter data (s.reg pgGlobal 0x100) (s.reg pgGlobal 0x104)) s
      (s.wordWrite a r pgGlobal 0x100 data) := by
  obtain ⟨hok, held⟩ := (HoldsMode.touched hs a pgGlobal).writeTopology_admitted hd
  rw [State.wordWrite_topology hj hb]
  simp only [hok, if_true]
  exact ⟨by simp, held.reparity _⟩

/-- A flag of MODE_STATUS raised leaves the two words and reads as set. -/
theorem HoldsMode.flagged {t : State} (h : HoldsMode topology profile s t) (m : Word) {b : Nat} (hb : bit m b = true) :
    HoldsMode topology profile s (t.orReg pgGlobal 0x2000 m) ∧ bit ((t.orReg pgGlobal 0x2000 m).reg pgGlobal 0x2000) b = true := by
  refine ⟨h.setReg (o := 0x2000) _ (by omega), ?_⟩
  unfold State.orReg
  rw [State.updReg_eq, State.reg_setReg_self _ _ _ _ h.canonical.regs, bit_or, hb, Bool.or_true]

theorem State.wordWrite_topology_rejected (hs : s.Canonical) (hj : s.partnerJoined = false) (hb : s.blk pgGlobal = 0)
    (hd : data &&& 3#32 = 3#32) : ModeWrite (s.reg pgGlobal 0x100) (s.reg pgGlobal 0x104) s (s.wordWrite a r pgGlobal 0x100 data)
      ∧ bit ((s.wordWrite a r pgGlobal 0x100 data).2.reg pgGlobal 0x2000) 16 = true := by
  obtain ⟨held, flag⟩ := (HoldsMode.touched hs a pgGlobal).flagged 0x10000#32 (b := 16) (by decide)
  rw [State.wordWrite_topology hj hb, State.writeTopology_rejected _ hd]
  exact ⟨⟨by simp, held⟩, flag⟩

theorem State.wordWrite_profile_admitted (hs : s.Canonical) (hj : s.partnerJoined = false) (hb : s.blk pgGlobal = 0)
    (hd : ProfileAdmitted data (s.reg pgGlobal 0x100)) :
    ModeWrite (s.reg pgGlobal 0x100) (data &&& 7#32) s (s.wordWrite a r pgGlobal 0x104 data) := by
  have touched := HoldsMode.touched hs a pgGlobal
  rw [← touched.topology] at hd
  rw [State.wordWrite_profile hj hb, (State.writeProfile_eq _ data).1 hd]
  exact ⟨by simp, (touched.setProfile _).reparity _⟩

theorem State.wordWrite_profile_rejected (hs : s.Canonical) (hj : s.partnerJoined = false) (hb : s.blk pgGlobal = 0)
    (hd : ¬ ProfileAdmitted data (s.reg pgGlobal 0x100)) :
    ModeWrite (s.reg pgGlobal 0x100) (s.reg pgGlobal 0x104) s (s.wordWrite a r pgGlobal 0x104 data)
      ∧ bit ((s.wordWrite a r pgGlobal 0x104 data).2.reg pgGlobal 0x2000) 17 = true := by
  have touched := HoldsMode.touched hs a pgGlobal
  obtain ⟨held, flag⟩ := touched.flagged 0x20000#32 (b := 17) (by decide)
  rw [← touched.topology] at hd
  rw [State.wordWrite_profile hj hb, (State.writeProfile_eq _ data).2 hd]
  exact ⟨⟨by simp, held⟩, flag⟩

/-- A store that reaches a word of GLOBAL leaves in the two words, and in MODE_STATUS, what its write leaves. -/
theorem ModeWrite.store {o : Nat} (hw : PageWord pgGlobal o r) (hreach : s.reaches a pgGlobal o data)
    (h : ModeWrite topology profile s (s.wordWrite a r pgGlobal o data)) :
    HoldsMode topology profile s (s.regWrite a pgGlobal o data)
      ∧ (s.regWrite a pgGlobal o data).reg pgGlobal 0x2000 = (s.wordWrite a r pgGlobal o data).2.reg pgGlobal 0x2000 := by
  obtain ⟨-, records⟩ := (s.store_pageWord hw a data h.status).writes hreach
  exact ⟨h.mode.recorded records, records.global h.mode.canonical (by omega)⟩

/-- While GLOBAL is not DISABLED no store of a configuration word of it changes the two words. -/
theorem State.regWrite_enabled (hs : s.Canonical) (hj : s.partnerJoined = false) (hb : s.blk pgGlobal ≠ 0) {o : Nat}
    (hw : PageWord pgGlobal o r) (low : 0x100 ≤ o) (high : o < 0x1000) :
    (s.regWrite a pgGlobal o data).reg pgGlobal 0x100 = s.reg pgGlobal 0x100
      ∧ (s.regWrite a pgGlobal o data).reg pgGlobal 0x104 = s.reg pgGlobal 0x104 := by
  have write := State.wordWrite_enabled (a := a) (r := r) (data := data) hs hj hb low high
  by_cases hreach : s.reaches a pgGlobal o data
  · obtain ⟨held, -⟩ := write.store hw hreach
    exact ⟨held.topology, held.profile⟩
  · obtain ⟨-, leaves⟩ := (s.store_pageWord hw a data write.status).refused hreach
    obtain ⟨-, -, hreg⟩ := leaves hs
    exact ⟨hreg _ _ (by omega) (by omega), hreg _ _ (by omega) (by omega)⟩

end

/-! ### The statement -/

theorem exec_topologyWrite (a : Agent) (data : Word) (s : State) : exec (.topologyWrite a data) s = .next (s.regWrite a pgGlobal 0x100 data) := rfl

theorem exec_engineProfileWrite (a : Agent) (data : Word) (s : State) :
    exec (.engineProfileWrite a data) s = .next (s.regWrite a pgGlobal 0x104 data) := rfl

/-- Settles O13: each row is a store of its word, which leaves in the two words what the checks of R32 give. -/
theorem topologyAndProfile : Obligations.TopologyAndProfile := by
  intro s a data hs hj
  obtain ⟨r, hr⟩ := globalRow
  have topo := pageWord_topology hr
  have prof := pageWord_profile hr
  have runT := exec_topologyWrite a data s
  have runP := exec_engineProfileWrite a data s
  refine ⟨fun hreach hb => ⟨fun hd => ⟨_, runT, ?_⟩, fun hd => ⟨_, runT, ?_⟩⟩,
    fun hreach hb => ⟨fun hd => ⟨_, runP, ?_⟩, fun hd => ⟨_, runP, ?_⟩⟩, fun hb => ⟨⟨_, runT, ?_⟩, ⟨_, runP, ?_⟩⟩⟩
  · obtain ⟨held, -⟩ := (State.wordWrite_topology_admitted (r := r) hs hj hb hd).store topo hreach
    exact ⟨held.topology, held.profile, held.memory, held.cfg⟩
  · obtain ⟨write, flag⟩ := State.wordWrite_topology_rejected (a := a) (r := r) hs hj hb hd
    obtain ⟨held, status⟩ := write.store topo hreach
    exact ⟨held.topology, held.profile, by rw [status, flag]⟩
  · obtain ⟨held, -⟩ := (State.wordWrite_profile_admitted (r := r) hs hj hb hd).store prof hreach
    exact ⟨held.profile, held.topology, held.memory, held.cfg⟩
  · obtain ⟨write, flag⟩ := State.wordWrite_profile_rejected (a := a) (r := r) hs hj hb hd
    obtain ⟨held, status⟩ := write.store prof hreach
    exact ⟨held.profile, by rw [status, flag]⟩
  · exact State.regWrite_enabled hs hj hb topo (by omega) (by omega)
  · exact State.regWrite_enabled hs hj hb prof (by omega) (by omega)

end Sys2Proof.Machine

namespace Sys2Proof.Machine

/-! ## The register space and its stores -/

/-- Settles O3: every store of reset is empty, but the registers, which hold RESET_CAUSE alone. -/
theorem resetCanonical : Obligations.ResetCanonical := by
  have causeOnly : Store.wf regReset State.reset.regs = true := by decide +kernel
  exact ⟨⟨causeOnly, rfl, rfl, rfl, rfl, rfl⟩, rfl, rfl, rfl, rfl, rfl, rfl, rfl, rfl, fun t => by cases t <;> rfl, rfl, rfl, rfl, rfl, rfl, rfl, rfl⟩

/-- One byte put is the byte alone. -/
theorem State.putMemBytes_one (s : State) (a v : Nat) : s.putMemBytes a 1 v = s.putMem a (BitVec.ofNat 8 v) := by
  simp [State.putMemBytes]

/-- Settles O5, by the rules of the two stores. -/
theorem storedWordsReadBack : Obligations.StoredWordsReadBack := by
  refine ⟨fun s p o q r v hs ho hr => ⟨State.reg_setReg_self s p o v hs.1, fun hne => ?_, State.setReg_canonical p o v hs⟩,
    fun s a b v hs ha hb => ?_⟩
  · refine State.reg_setReg_other s v hs.1 fun hk => hne ?_
    obtain ⟨rfl, rfl⟩ := regKey_inj hr ho hk
    rfl
  · rw [State.putMemBytes_one]
    exact ⟨State.memByte_putMem_self s _ hs ha, fun hne => State.memByte_putMem_other s _ hs (Ne.symm hne)⟩

/-- The numbers of the pages that are not implemented (R37). -/
theorem pageRow_eq_none_iff : ∀ p < 256,
    (pageRow p = none ↔ (0x25 ≤ p ∧ p ≤ 0x2F) ∨ (0x56 ≤ p ∧ p ≤ 0x5F) ∨ (0x67 ≤ p ∧ p ≤ 0x6F) ∨ 0x76 ≤ p) := by
  have hdec : ∀ p < 256,
      (pageRow p).isNone = decide ((0x25 ≤ p ∧ p ≤ 0x2F) ∨ (0x56 ≤ p ∧ p ≤ 0x5F) ∨ (0x67 ≤ p ∧ p ≤ 0x6F) ∨ 0x76 ≤ p) := by
    decide +kernel
  intro p hp
  rw [← Option.isNone_iff_eq_none, hdec p hp, decide_eq_true_iff]

/-- A read of a page that is not implemented answers 0 and leaves the state; the body is unfolded through a variable, as in `State.busWrite_config`. -/
theorem State.busRead_noPage (s : State) (w : Who) {addr : Nat} (h : pageRow ((addr - 0x40000000) / 0x10000) = none) :
    s.busRead w addr = (.ok, 0, s) := by
  generalize hf : State.busRead = busRead
  delta State.busRead at hf
  subst hf
  beta_reduce
  simp only [h]

/-- A write to a page that is not implemented is ignored. -/
theorem State.busWrite_noPage (s : State) (w : Who) {addr : Nat} (mask data : Word) (h : pageRow ((addr - 0x40000000) / 0x10000) = none) :
    s.busWrite w addr mask data = (.ok, s) := by
  generalize hf : State.busWrite = busWrite
  delta State.busWrite at hf
  subst hf
  beta_reduce
  simp only [h]

/-- Settles O57: the arithmetic of an address, and the pages without a row. -/
theorem addressSpace : Obligations.AddressSpace := by
  refine ⟨fun addr => ?_, fun p o hp ho => ⟨?_, ?_, ?_, ?_⟩, pageRow_eq_none_iff, fun s w p o mask data hp ho hn => ?_⟩
  · simp only [inPages, Bool.and_eq_true, decide_eq_true_eq]
    omega
  · simp only [inPages, regAddr, Bool.and_eq_true, decide_eq_true_eq]
    omega
  · simp only [regAddr]
    omega
  · simp only [regAddr]
    omega
  · simp only [regAddr]
    omega
  · have page : (regAddr p o - 0x40000000) / 0x10000 = p := by
      simp only [regAddr]
      omega
    exact ⟨s.busRead_noPage w (by rw [page, hn]), s.busWrite_noPage w mask data (by rw [page, hn])⟩

end Sys2Proof.Machine

namespace Sys2Proof.Machine

section
variable {α : Type} [DecidableEq α]

/-- Canonical stores of which some entries are kept. -/
theorem Store.wf_filter (d : Nat → α) (q : Nat × α → Bool) (m : List (Nat × α)) (h : Store.wf d m = true) : Store.wf d (m.filter q) = true := by
  induction m with
  | nil => rfl
  | cons e t ih =>
    obtain ⟨k, v⟩ := e
    obtain ⟨hv, hlt, ht⟩ := (Store.wf_cons d k v t).1 h
    rw [List.filter_cons]
    split
    · exact (Store.wf_cons d k v _).2 ⟨hv, fun e he => hlt e (List.mem_filter.mp he).1, ih ht⟩
    · exact ih ht

/-- Canonical stores each of whose entries is changed to one that is no default. -/
theorem Store.wf_map (d : Nat → α) (f : Nat → α → α) (hf : ∀ k v, v ≠ d k → f k v ≠ d k) (m : List (Nat × α)) (h : Store.wf d m = true) :
    Store.wf d (m.map (fun e => (e.1, f e.1 e.2))) = true := by
  induction m with
  | nil => rfl
  | cons e t ih =>
    obtain ⟨k, v⟩ := e
    obtain ⟨hv, hlt, ht⟩ := (Store.wf_cons d k v t).1 h
    refine (Store.wf_cons d k (f k v) _).2 ⟨hf k v hv, ?_, ih ht⟩
    rintro _ he
    obtain ⟨x, hx, rfl⟩ := List.mem_map.mp he
    exact hlt x hx

/-- Writes, one after another, into a canonical store. -/
theorem Store.wf_foldl_put (d : Nat → α) (l : List (Nat × α)) (m : List (Nat × α)) (h : Store.wf d m = true) :
    Store.wf d (l.foldl (fun m e => Store.put d e.1 e.2 m) m) = true := by
  induction l generalizing m with
  | nil => exact h
  | cons e l ih => exact ih _ (Store.wf_put d e.1 e.2 m h)

end

/-! ### Rising keys -/

section
variable {α : Type}

theorem Store.setWf_cons (k : Nat) (t : List Nat) : Store.setWf (k :: t) = true ↔ (∀ j ∈ t, k < j) ∧ Store.setWf t = true := by
  induction t generalizing k with
  | nil => simp [Store.setWf]
  | cons j t ih =>
    have step : Store.setWf (k :: j :: t) = true ↔ k < j ∧ Store.setWf (j :: t) = true := by simp [Store.setWf]
    rw [step]
    constructor
    · rintro ⟨hkj, h⟩
      exact ⟨List.forall_mem_cons.2 ⟨hkj, fun i hi => hkj.trans (((ih j).1 h).1 i hi)⟩, h⟩
    · rintro ⟨hlt, h⟩
      exact ⟨hlt j List.mem_cons_self, h⟩

/-- Rising keys are the canonical form of a map none of whose values is a default. -/
theorem Store.setWf_insert (k : Nat) (v : α) (m : List (Nat × α)) (h : Store.setWf (m.map Prod.fst) = true) :
    Store.setWf ((Store.insert k v m).map Prod.fst) = true := by
  induction m with
  | nil => rfl
  | cons e t ih =>
    obtain ⟨j, u⟩ := e
    obtain ⟨hlt, ht⟩ := (Store.setWf_cons j _).1 h
    simp only [Store.insert]
    split
    case isTrue hj => exact (Store.setWf_cons k _).2 ⟨hj ▸ hlt, ht⟩
    case isFalse hj =>
      split
      case isTrue hk => exact (Store.setWf_cons k _).2 ⟨List.forall_mem_cons.2 ⟨hk, fun i hi => hk.trans (hlt i hi)⟩, h⟩
      case isFalse hk =>
        refine (Store.setWf_cons j _).2 ⟨fun i hi => ?_, ih ht⟩
        obtain ⟨e, he, rfl⟩ := List.mem_map.mp hi
        rcases Store.mem_insert he with rfl | he
        · show j < k
          omega
        · exact hlt e.1 (List.mem_map_of_mem he)

theorem Store.setWf_erase (k : Nat) (m : List (Nat × α)) (h : Store.setWf (m.map Prod.fst) = true) :
    Store.setWf ((Store.erase k m).map Prod.fst) = true := by
  induction m with
  | nil => rfl
  | cons e t ih =>
    obtain ⟨j, u⟩ := e
    obtain ⟨hlt, ht⟩ := (Store.setWf_cons j _).1 h
    simp only [Store.erase]
    split
    · exact ht
    · split
      · exact h
      · refine (Store.setWf_cons j _).2 ⟨fun i hi => ?_, ih ht⟩
        obtain ⟨e, he, rfl⟩ := List.mem_map.mp hi
        exact hlt e.1 (List.mem_map_of_mem (Store.mem_erase he))

theorem Store.setWf_filter (q : Nat × α → Bool) (m : List (Nat × α)) (h : Store.setWf (m.map Prod.fst) = true) :
    Store.setWf ((m.filter q).map Prod.fst) = true := by
  induction m with
  | nil => rfl
  | cons e t ih =>
    obtain ⟨hlt, ht⟩ := (Store.setWf_cons e.1 _).1 h
    rw [List.filter_cons]
    split
    · refine (Store.setWf_cons e.1 _).2 ⟨fun i hi => ?_, ih ht⟩
      obtain ⟨x, hx, rfl⟩ := List.mem_map.mp hi
      exact hlt x.1 (List.mem_map_of_mem (List.mem_filter.mp hx).1)
    · exact ih ht

end

/-! ### The form that every step keeps -/

/-- Every store is in canonical form and every map of an engine has its keys strictly rising: `State.Canonical` and `State.Keyed` by field. -/
structure State.Formed (s : State) : Prop where
  regs : Store.wf regReset s.regs = true
  latched : Store.wf regReset s.latched = true
  win : Store.wf winReset s.win = true
  mem : Store.wf (fun _ => 0#8) s.cp.mem = true
  bytes : Store.wf shipped s.nvm.bytes = true
  fences : Store.wf (fun _ => 0#32) s.fences = true
  coreRegs : Store.wf (fun _ => 0#64) s.cp.coreRegs = true
  fifo : Store.wf (fun _ => []) s.buf.fifo = true
  queues : Store.wf (fun _ => []) s.buf.queues = true
  spill : Store.setWf (s.buf.spill.map Prod.fst) = true
  arriving : Store.setWf (s.port.arriving.map Prod.fst) = true
  flow : Store.wf (fun _ => 0) s.sprue.flow = true
  nextSeq : Store.wf (fun _ => 0) s.pipe.nextSeq = true
  base : Store.wf (fun _ => []) s.tab.base = true
  tables : ∀ t, Store.wf (fun _ => []) (s.baseOf t) = true
  voqs : Store.setWf (s.voq.voqs.map Prod.fst) = true
  streams : Store.wf (fun _ => 0) s.voq.streams = true
  grants : Store.wf (fun _ => []) s.voq.grants = true
  txts : Store.wf (fun _ => []) s.time.txts = true
  part : Store.wf (fun _ => (0, 0)) s.stat.part = true
  back : Store.wf (fun _ => (0, 0)) s.stat.back = true
  flags : Store.wf (fun _ => 0) s.stat.flags = true

theorem State.formed_iff (s : State) : s.Formed ↔ s.Canonical ∧ s.Keyed := by
  constructor
  · intro h
    exact ⟨⟨h.regs, h.latched, h.win, h.mem, h.bytes, h.fences⟩, h.coreRegs, h.fifo, h.queues, h.spill, h.arriving, h.flow, h.nextSeq, h.base,
      h.tables, h.voqs, h.streams, h.grants, h.txts, h.part, h.back, h.flags⟩
  · rintro ⟨⟨hregs, hlatched, hwin, hmem, hbytes, hfences⟩, hcore, hfifo, hqueues, hspill, harriving, hflow, hseq, hbase, htables, hvoqs, hstreams,
      hgrants, htxts, hpart, hback, hflags⟩
    exact ⟨hregs, hlatched, hwin, hmem, hbytes, hfences, hcore, hfifo, hqueues, hspill, harriving, hflow, hseq, hbase, htables, hvoqs, hstreams,
      hgrants, htxts, hpart, hback, hflags⟩

/-- The state that a meaning answers is formed. -/
def Out.Formed (o : Out) : Prop := ∀ t, o = .next t → t.Formed

theorem Out.Formed.next {s : State} (h : s.Formed) : Out.Formed (.next s) := by
  rintro t ⟨⟩
  exact h

theorem Out.Formed.ite {c : Prop} [Decidable c] {x y : Out} (hx : Out.Formed x) (hy : Out.Formed y) : Out.Formed (if c then x else y) := by
  split
  · exact hx
  · exact hy

namespace State.Formed

section
variable {c : Prop} [Decidable c] {α β γ : Type}

theorem ite {s t : State} (hs : s.Formed) (ht : t.Formed) : (if c then s else t).Formed := by
  split
  · exact hs
  · exact ht

theorem ite_snd {x y : α × State} (hx : x.2.Formed) (hy : y.2.Formed) : (if c then x else y).2.Formed := by
  split
  · exact hx
  · exact hy

theorem ite_snd_snd {x y : α × β × State} (hx : x.2.2.Formed) (hy : y.2.2.Formed) : (if c then x else y).2.2.Formed := by
  split
  · exact hx
  · exact hy

theorem pair {a : α} {t : State} (h : t.Formed) : (a, t).2.Formed := h

theorem triple {a : α} {b : β} {t : State} (h : t.Formed) : (a, b, t).2.2.Formed := h

theorem of_snd {x : α × State} {a : α} {t : State} (e : x = (a, t)) (h : x.2.Formed) : t.Formed := by
  subst e
  exact h

theorem of_snd_snd {x : α × β × State} {a : α} {b : β} {t : State} (e : x = (a, b, t)) (h : x.2.2.Formed) : t.Formed := by
  subst e
  exact h

theorem of_fst {x : State × α} {a : α} {t : State} (e : x = (t, a)) (h : x.1.Formed) : t.Formed := by
  subst e
  exact h

/-- A loop whose every turn keeps the form. -/
theorem foldl {s : State} {f : State → α → State} {l : List α} (h : s.Formed) (hf : ∀ {t} {x : α}, t.Formed → (f t x).Formed) :
    (l.foldl f s).Formed := by
  induction l generalizing s with
  | nil => exact h
  | cons x l ih => exact ih (hf h)

/-- A loop that carries a value beside the state. -/
theorem foldl_snd {r : β × State} {f : β × State → α → β × State} {l : List α} (h : r.2.Formed) (hf : ∀ {t} {x : α}, t.2.Formed → (f t x).2.Formed) :
    (l.foldl f r).2.Formed := by
  induction l generalizing r with
  | nil => exact h
  | cons x l ih => exact ih (hf h)

theorem foldl_fst {r : State × β} {f : State × β → α → State × β} {l : List α} (h : r.1.Formed) (hf : ∀ {t} {x : α}, t.1.Formed → (f t x).1.Formed) :
    (l.foldl f r).1.Formed := by
  induction l generalizing r with
  | nil => exact h
  | cons x l ih => exact ih (hf h)

end

/-! Updates of what the form says nothing about. -/

section
variable {s : State} (h : s.Formed)
include h

theorem withPending {x : List Instr} : { s with pending := x }.Formed := { h with }
theorem withFreeCtr {x : Nat} : { s with freeCtr := x }.Formed := { h with }
theorem withUpset {x : List Nat} : { s with upset := x }.Formed := { h with }
theorem withReported {x : List Nat} : { s with reported := x }.Formed := { h with }
theorem withReadLatch {x : List (Nat × Word)} : { s with readLatch := x }.Formed := { h with }
theorem withLastLow {x : List (Nat × Nat)} : { s with lastLow := x }.Formed := { h with }
theorem withSigWords {x : Option (List (Nat × Word))} : { s with sigWords := x }.Formed := { h with }
theorem withResetPage {x : Option Nat} : { s with resetPage := x }.Formed := { h with }
theorem withHost {x : HostSt} : { s with host := x }.Formed := { h with }
theorem withOps {x : OpSt} : { s with ops := x }.Formed := { h with }
theorem withSched {x : SchedSt} : { s with sched := x }.Formed := { h with }
theorem withPair {x : PairSt} : { s with pair := x }.Formed := { h with }
theorem withLaunch {x : LaunchSt} : { s with launch := x }.Formed := { h with }
theorem withPow {x : PowSt} : { s with pow := x }.Formed := { h with }

/-- An update that leaves every store and every map. -/
theorem same {t : State} (hregs : t.regs = s.regs := by rfl) (hlatched : t.latched = s.latched := by rfl) (hwin : t.win = s.win := by rfl)
    (hmem : t.cp.mem = s.cp.mem := by rfl) (hbytes : t.nvm.bytes = s.nvm.bytes := by rfl) (hfences : t.fences = s.fences := by rfl)
    (hcore : t.cp.coreRegs = s.cp.coreRegs := by rfl) (hfifo : t.buf.fifo = s.buf.fifo := by rfl) (hqueues : t.buf.queues = s.buf.queues := by rfl)
    (hspill : t.buf.spill = s.buf.spill := by rfl) (harriving : t.port.arriving = s.port.arriving := by rfl)
    (hflow : t.sprue.flow = s.sprue.flow := by rfl) (hseq : t.pipe.nextSeq = s.pipe.nextSeq := by rfl) (hbase : t.tab.base = s.tab.base := by rfl)
    (hvoqs : t.voq.voqs = s.voq.voqs := by rfl) (hstreams : t.voq.streams = s.voq.streams := by rfl)
    (hgrants : t.voq.grants = s.voq.grants := by rfl) (htxts : t.time.txts = s.time.txts := by rfl) (hpart : t.stat.part = s.stat.part := by rfl)
    (hback : t.stat.back = s.stat.back := by rfl) (hflags : t.stat.flags = s.stat.flags := by rfl) : t.Formed where
  regs := hregs ▸ h.regs
  latched := hlatched ▸ h.latched
  win := hwin ▸ h.win
  mem := hmem ▸ h.mem
  bytes := hbytes ▸ h.bytes
  fences := hfences ▸ h.fences
  coreRegs := hcore ▸ h.coreRegs
  fifo := hfifo ▸ h.fifo
  queues := hqueues ▸ h.queues
  spill := hspill ▸ h.spill
  arriving := harriving ▸ h.arriving
  flow := hflow ▸ h.flow
  nextSeq := hseq ▸ h.nextSeq
  base := hbase ▸ h.base
  tables := fun t => by unfold State.baseOf; rw [hbase]; exact h.tables t
  voqs := hvoqs ▸ h.voqs
  streams := hstreams ▸ h.streams
  grants := hgrants ▸ h.grants
  txts := htxts ▸ h.txts
  part := hpart ▸ h.part
  back := hback ▸ h.back
  flags := hflags ▸ h.flags

theorem withWin {x : List (Nat × Word)} (hx : Store.wf winReset x = true) : { s with win := x }.Formed := { h with win := hx }

theorem withCp {x : CpSt} (hm : x.mem = s.cp.mem := by rfl) (hr : x.coreRegs = s.cp.coreRegs := by rfl) : { s with cp := x }.Formed :=
  { h with mem := hm ▸ h.mem, coreRegs := hr ▸ h.coreRegs }

theorem withNvm {x : NvmSt} (hb : x.bytes = s.nvm.bytes := by rfl) : { s with nvm := x }.Formed := { h with bytes := hb ▸ h.bytes }

theorem withBuf {x : BufSt} (hf : x.fifo = s.buf.fifo := by rfl) (hq : x.queues = s.buf.queues := by rfl) (hs : x.spill = s.buf.spill := by rfl) :
    { s with buf := x }.Formed := { h with fifo := hf ▸ h.fifo, queues := hq ▸ h.queues, spill := hs ▸ h.spill }

theorem withPort {x : PortSt} (ha : x.arriving = s.port.arriving := by rfl) : { s with port := x }.Formed := { h with arriving := ha ▸ h.arriving }

theorem withSprue {x : SprueSt} (hf : x.flow = s.sprue.flow := by rfl) : { s with sprue := x }.Formed := { h with flow := hf ▸ h.flow }

theorem withPipe {x : PipeSt} (hn : x.nextSeq = s.pipe.nextSeq := by rfl) : { s with pipe := x }.Formed := { h with nextSeq := hn ▸ h.nextSeq }

theorem withTab {x : TabSt} (hb : x.base = s.tab.base := by rfl) : { s with tab := x }.Formed :=
  { h with base := hb ▸ h.base, tables := fun t => by unfold State.baseOf; rw [hb]; exact h.tables t }

theorem withVoq {x : VoqSt} (hv : x.voqs = s.voq.voqs := by rfl) (hs : x.streams = s.voq.streams := by rfl) (hg : x.grants = s.voq.grants := by rfl) :
    { s with voq := x }.Formed := { h with voqs := hv ▸ h.voqs, streams := hs ▸ h.streams, grants := hg ▸ h.grants }

theorem withTime {x : TimeSt} (ht : x.txts = s.time.txts := by rfl) : { s with time := x }.Formed := { h with txts := ht ▸ h.txts }

theorem withStat {x : StatSt} (hp : x.part = s.stat.part := by rfl) (hb : x.back = s.stat.back := by rfl) (hf : x.flags = s.stat.flags := by rfl) :
    { s with stat := x }.Formed := { h with part := hp ▸ h.part, back := hb ▸ h.back, flags := hf ▸ h.flags }

end

end State.Formed

/-! ## Every operation of the model keeps the form

One lemma for each definition that answers a state, in the order of the model: its proof names the steps of the definition. -/

section
set_option Elab.async false
variable {s : State}

/-! ### Ops -/

theorem State.Formed.setReg (h : s.Formed) {p o : Nat} {v : Word} : (s.setReg p o v).Formed := { h with regs := Store.wf_put _ _ _ _ h.regs }

theorem State.Formed.updReg (h : s.Formed) {p o : Nat} {f : Word → Word} : (s.updReg p o f).Formed := h.setReg

theorem State.Formed.addReg (h : s.Formed) {p o n : Nat} : (s.addReg p o n).Formed := h.updReg

theorem State.Formed.incReg (h : s.Formed) {p o : Nat} : (s.incReg p o).Formed := h.addReg

theorem State.Formed.orReg (h : s.Formed) {p o : Nat} {m : Word} : (s.orReg p o m).Formed := h.updReg

theorem State.Formed.clrReg (h : s.Formed) {p o : Nat} {m : Word} : (s.clrReg p o m).Formed := h.updReg

theorem State.Formed.setRegFld (h : s.Formed) {p o hi lo v : Nat} : (s.setRegFld p o hi lo v).Formed := h.updReg

theorem State.Formed.maxReg (h : s.Formed) {p o n v : Nat} : (s.maxReg p o n v).Formed := .ite h.setRegFld h

theorem State.Formed.fresh (h : s.Formed) : s.fresh.2.Formed := h.withFreeCtr

theorem State.Formed.raise (h : s.Formed) {p b : Nat} : (s.raise p b).Formed := h.orReg

theorem State.Formed.setBlk (h : s.Formed) {p v : Nat} : (s.setBlk p v).Formed := .ite h h.setRegFld.raise

theorem State.Formed.blkFault (h : s.Formed) {p b : Nat} : (s.blkFault p b).Formed := h.orReg

theorem State.Formed.setWin (h : s.Formed) {p u i : Nat} {v : Word} : (s.setWin p u i v).Formed := by
  unfold State.setWin
  exact h.withWin (Store.wf_put _ _ _ _ h.win)

theorem State.Formed.setWinA (h : s.Formed) {p n : Nat} {v : Word} : (s.setWinA p n v).Formed := h.setWin

theorem State.Formed.updWin (h : s.Formed) {p u i : Nat} {f : Word → Word} : (s.updWin p u i f).Formed := h.setWin

theorem State.Formed.accessFault (h : s.Formed) {a : Agent} {addr : Nat} {wr : Bool} {kind : Nat} {page : Option Nat} :
    (s.accessFault a addr wr kind page).Formed := by
  unfold State.accessFault
  extract_lets +onlyGivenNames s1 s2
  have hs1 : s1.Formed := by
    unfold s1
    split
    · exact h.blkFault
    · exact h
  have hs2 : s2.Formed := .ite hs1.orReg hs1.setReg.setReg
  exact hs2.incReg

theorem State.Formed.deny (h : s.Formed) : s.deny.Formed := h.incReg

theorem State.Formed.audit (h : s.Formed) {r : AuditRec} : (s.audit r).Formed := .ite h.withNvm h.withNvm

theorem State.Formed.auditBy (h : s.Formed) {a : Agent} {kind status page : Nat} {addr data : Word} {count : Nat} :
    (s.auditBy a kind status page addr data count).Formed :=
  h.audit

theorem State.Formed.ibi (h : s.Formed) {code detail : Nat} : (s.ibi code detail).Formed := h.withHost

/-! ### Stats -/

theorem State.Formed.setPart (h : s.Formed) {i : Nat} {v : Nat × Nat} : (s.setPart i v).Formed := { h with part := Store.wf_put _ _ _ _ h.part }

theorem State.Formed.setBack (h : s.Formed) {i : Nat} {v : Nat × Nat} : (s.setBack i v).Formed := { h with back := Store.wf_put _ _ _ _ h.back }

theorem State.Formed.setFlags (h : s.Formed) {i v : Nat} : (s.setFlags i v).Formed := { h with flags := Store.wf_put _ _ _ _ h.flags }

theorem State.Formed.queueFlush (h : s.Formed) {i : Nat} : (s.queueFlush i).Formed := .ite h h.withStat.maxReg

theorem State.Formed.addPart (h : s.Formed) {i f b : Nat} : (s.addPart i f b).Formed := by
  unfold State.addPart
  split
  extract_lets +onlyGivenNames s1 v s2
  have hs1 : s1.Formed := .ite h.orReg h
  have hs2 : s2.Formed := hs1.setPart
  exact .ite hs2.queueFlush hs2

theorem State.Formed.count (h : s.Formed) {i f b : Nat} : (s.count i f b).Formed := .ite h.addPart h

theorem State.Formed.countFixed (h : s.Formed) {i f b : Nat} : (s.countFixed i f b).Formed := .ite h.count h

theorem State.Formed.backBad (h : s.Formed) {i : Nat} : (s.backBad i).Formed := h.setFlags.incReg.orReg.raise

theorem State.Formed.flushPair (h : s.Formed) {i : Nat} {uncorr : Bool} : (s.flushPair i uncorr).Formed := by
  unfold State.flushPair
  extract_lets +onlyGivenNames s1
  have hs1 : s1.Formed := .ite h.backBad h
  split
  split
  extract_lets +onlyGivenNames wf wb s2 s3
  have hs2 : s2.Formed := hs1.setPart.setBack
  have hs3 : s3.Formed := .ite hs2.setFlags.orReg.raise hs2
  exact hs3.incReg

theorem execStatsFlush_formed (h : s.Formed) {uncorr : Bool} : Out.Formed (execStatsFlush uncorr s) := by
  unfold execStatsFlush
  split
  · exact .next h
  · split
    · exact .next h
    · exact .next h.withStat.flushPair

theorem execStatsPeriodicFlush_formed (h : s.Formed) : Out.Formed (execStatsPeriodicFlush s) :=
  .ite (.next h) (.next (.foldl h fun h => h.queueFlush))

theorem State.Formed.readPair (h : s.Formed) {i : Nat} {uncorr : Bool} : (s.readPair i uncorr).2.Formed := by
  unfold State.readPair
  extract_lets +onlyGivenNames s1
  have hs1 : s1.Formed := .ite h.backBad h
  exact hs1

theorem State.Formed.readFramesLo (h : s.Formed) {a : Agent} {i : Nat} {uncorr : Bool} : (s.readFramesLo a i uncorr).2.Formed := h.readPair.withStat

theorem State.Formed.readPairWord (h : s.Formed) {a : Agent} {i k : Nat} : (s.readPairWord a i k).2.Formed := by
  unfold State.readPairWord
  split
  · exact h
  · split
    rename_i s1 e1
    have hs1 : s1.Formed := .of_snd e1 h.readPair
    exact hs1

theorem State.Formed.dropPairLatch (h : s.Formed) {a : Agent} : (s.dropPairLatch a).Formed := h.withStat

theorem State.Formed.setPair (h : s.Formed) {i f b : Nat} : (s.setPair i f b).Formed := .ite h h.setPart.setBack.setFlags

theorem State.Formed.setDone (h : s.Formed) : s.setDone.Formed := h.withStat.clrReg.raise

theorem State.Formed.setGo (h : s.Formed) : s.setGo.Formed := .ite h.orReg (.ite h.withStat.orReg h.setPair.raise)

theorem State.Formed.setTick (h : s.Formed) : s.setTick.Formed := by
  unfold State.setTick
  split
  · exact h
  · extract_lets +onlyGivenNames want s1
    have hs1 : s1.Formed := .foldl h fun h => h.setPair
    exact .ite hs1.setDone hs1.withStat

theorem State.Formed.setStop (h : s.Formed) : s.setStop.Formed := by
  unfold State.setStop
  split
  · exact h
  · exact h.withStat.clrReg

theorem State.Formed.pmuInc (h : s.Formed) {n : Nat} : (s.pmuInc n).Formed := by
  unfold State.pmuInc
  extract_lets +onlyGivenNames lo hi v s1 s2
  have hs1 : s1.Formed := h.setReg
  have hs2 : s2.Formed := hs1.setReg
  split
  · exact hs2
  · extract_lets +onlyGivenNames s3 keys s4
    have hs3 : s3.Formed := hs2.orReg
    have hs4 : s4.Formed := hs3.withReadLatch
    exact .ite hs4.raise hs4

theorem State.Formed.pmuTake (h : s.Formed) {n : Nat} : (s.pmuTake n).2.Formed := .ite_snd h.pmuInc (.ite_snd h.pmuInc.setWin h.pmuInc.setWin)

/-- Counters that take an event in turn by `take`. Stated for any `take` and any list, so that the kernel compares the loops without running
them. -/
theorem takesEvent_formed {take : State → Nat → Bool × State} (ht : ∀ {s n}, State.Formed s → (take s n).2.Formed) (l : List Nat) (h : s.Formed) :
    (l.foldl (fun (r : List Nat × State) n =>
      let (hit, s) := take r.2 n
      (if hit then r.1 ++ [n] else r.1, s)) ([], s)).2.Formed := .foldl_snd h fun h => ht h

theorem State.Formed.pmuEvent (h : s.Formed) {e : PmuEvent} : (s.pmuEvent e).2.Formed := by
  unfold State.pmuEvent
  split
  · exact h
  · exact takesEvent_formed (take := State.pmuTake) (fun h => h.pmuTake) _ h

theorem State.Formed.pmuCount (h : s.Formed) {e1 : PmuEvent} : (s.pmuCount e1).Formed := h.pmuEvent

theorem State.Formed.pmuResetAll (h : s.Formed) : s.pmuResetAll.Formed := .foldl h fun h => h.setReg.setReg

theorem State.Formed.pmuWriteHi (h : s.Formed) {a : Agent} {n : Nat} {v : Word} : (s.pmuWriteHi a n v).Formed := h.withStat

theorem State.Formed.pmuWriteLo (h : s.Formed) {a : Agent} {n : Nat} {v : Word} : (s.pmuWriteLo a n v).Formed := h.setReg.setReg

theorem State.Formed.pmuDropHold (h : s.Formed) {a : Agent} : (s.pmuDropHold a).Formed := h.withStat

theorem State.Formed.sampleLost (h : s.Formed) : s.sampleLost.Formed := h.withStat.incReg.raise

theorem State.Formed.sample (h : s.Formed) {r : List Byte} : (s.sample r).Formed := .ite h (.ite h.sampleLost h.withStat)

theorem State.Formed.sampleFrame (h : s.Formed) {ns : List (Nat × Nat)} {exit : Nat} {i : RecInfo} : (s.sampleFrame ns exit i).Formed :=
  .foldl h fun h => h.sample

theorem State.Formed.pmuFrame (h : s.Formed) {e1 : PmuEvent} {exit : Nat} {i : RecInfo} : (s.pmuFrame e1 exit i).Formed := h.pmuEvent.sampleFrame

theorem State.Formed.ringPut (h : s.Formed) {r : List Byte} : (s.ringPut r).Formed := h.withStat

theorem State.Formed.ringAdvance (h : s.Formed) : s.ringAdvance.Formed := by
  unfold State.ringAdvance
  extract_lets +onlyGivenNames s1
  have hs1 : s1.Formed := h.setRegFld.incReg
  exact .ite hs1.raise hs1

theorem execSampleRecordWrite_formed (h : s.Formed) : Out.Formed (execSampleRecordWrite s) := by
  unfold execSampleRecordWrite
  split
  · exact .next h
  · split
    · exact .next h
    · exact .ite (.next h) (.ite (.next h.withStat.sampleLost) (.next h.withStat.ringPut.ringAdvance))

theorem State.Formed.ringRead (h : s.Formed) {v : Nat} : (s.ringRead v).Formed := .ite h h.setRegFld

/-! ### TimeBase -/

theorem State.Formed.setDom (h : s.Formed) {d v : Nat} : (s.setDom d v).Formed := .ite h.withTime h.withTime

theorem State.Formed.noteStep (h : s.Formed) : s.noteStep.Formed := h.incReg.orReg.raise

theorem State.Formed.ppsTick (h : s.Formed) : s.ppsTick.Formed := h.withTime

theorem State.Formed.clockTick (h : s.Formed) : s.clockTick.Formed := by
  unfold State.clockTick
  split
  extract_lets +onlyGivenNames was s1 s2 s3 s4 slew s5
  have hs2 : s2.Formed := h.withTime
  have hs3 : s3.Formed := hs2.ppsTick
  have hs4 : s4.Formed := .ite hs3 hs3.incReg
  have hslew : slew.Formed := .ite hs4.noteStep hs4
  exact .ite hslew.updReg.raise hslew.updReg

theorem State.Formed.stepTb (h : s.Formed) {d : Int} : (s.stepTb d).Formed := h.withTime.noteStep

theorem State.Formed.applyFreq (h : s.Formed) {d : Nat} {f : Int} : (s.applyFreq d f).Formed := by
  unfold State.applyFreq
  extract_lets +onlyGivenNames c s1 s2
  have hs2 : s2.Formed := .ite h.withTime h.withTime
  exact .ite hs2 hs2.orReg.raise

theorem State.Formed.domRun (h : s.Formed) {o : DomOp} : (s.domRun o).Formed := .ite h.applyFreq (.ite h.setDom h.setDom)

theorem State.Formed.domDo (h : s.Formed) {d kind : Nat} {v : Int} {due : Option Nat} : (s.domDo d kind v due).Formed := .ite h.withTime h.domRun

theorem State.Formed.domTick (h : s.Formed) : s.domTick.Formed := .ite h (.foldl h.withTime fun h => h.domRun)

theorem State.Formed.freqWritten (h : s.Formed) {d : Nat} {due : Option Nat} : (s.freqWritten d due).Formed := .ite h.domDo h

theorem State.Formed.domGo (h : s.Formed) {d : Nat} {step set : Bool} {due : Option Nat} : (s.domGo d step set due).Formed := by
  unfold State.domGo
  split
  · exact h
  · extract_lets +onlyGivenNames s1
    have hs1 : s1.Formed := by
      unfold s1
      split
      · exact h
      · split
        · exact h.orReg
        · exact h.domDo
    exact .ite hs1.domDo hs1

theorem State.Formed.setServo (h : s.Formed) {v : Nat} : (s.setServo v).Formed := .ite h h.setRegFld.raise

theorem State.Formed.timeEnabled (h : s.Formed) : s.timeEnabled.Formed := h.applyFreq.applyFreq.withTime.updReg.setServo

theorem State.Formed.putClk (h : s.Formed) {off x : Nat} : (s.putClk off x).Formed := h.setReg.setReg.setReg

theorem State.Formed.snap (h : s.Formed) : s.snap.Formed := h.putClk.putClk.putClk

theorem State.Formed.queueStamp (h : s.Formed) {p : Nat} {x : TxStamp} : (s.queueStamp p x).Formed := by
  unfold State.queueStamp
  extract_lets q
  have queued : { s with time := { s.time with txts := Store.insert p (q ++ [x]) s.time.txts } }.Formed :=
    { h with txts := Store.wf_insert _ _ _ _ (by simp) h.txts }
  exact .ite h.updWin.updWin.raise (.ite queued.updWin.raise queued.updWin)

theorem State.Formed.popStamp (h : s.Formed) {p : Nat} : (s.popStamp p).Formed := { h with txts := Store.wf_put _ _ _ _ h.txts }

theorem execPpsOutEdge_formed (h : s.Formed) : Out.Formed (execPpsOutEdge s) := .ite (.next h) (.ite (.next h.withTime) (.next h))

theorem execPpsIn_formed (h : s.Formed) : Out.Formed (execPpsIn s) :=
  .ite (.next h) (.ite (.next h) (.next h.putClk.putClk.putClk.withTime.incReg.orReg.raise))

theorem State.Formed.squelch (h : s.Formed) {src : Nat} : (s.squelch src).Formed := .foldl h fun h => .ite h.withTime h

theorem State.Formed.laneFall (h : s.Formed) {lane : Nat} {signal : Bool} : (s.laneFall lane signal).Formed := by
  unfold State.laneFall
  extract_lets +onlyGivenNames pg k
  split
  · exact h
  · extract_lets +onlyGivenNames s'
    have hs' : s'.Formed := .ite h.incReg h
    exact hs'.updReg.squelch

theorem State.Formed.laneRise (h : s.Formed) {lane : Nat} : (s.laneRise lane).Formed := h.updReg

theorem execRclkSquelch_formed (h : s.Formed) {n : Fin 2} {signal : Bool} : Out.Formed (execRclkSquelch n signal s) := by
  unfold execRclkSquelch
  split
  · exact .next h
  · extract_lets +onlyGivenNames w src s1
    have hs1 : s1.Formed := .ite h.laneFall h
    exact .next (.ite hs1.withTime hs1)

theorem execRclkResume_formed (h : s.Formed) {n : Fin 2} : Out.Formed (execRclkResume n s) := .ite (.next h) (.ite (.next h.withTime) (.next h))

/-! ### Ports -/

theorem State.Formed.bankEnabling (h : s.Formed) {n : Nat} : (s.bankEnabling n).Formed := by
  unfold State.bankEnabling
  extract_lets +onlyGivenNames pg role c s1
  have hs1 : s1.Formed := h.updReg
  exact .ite hs1.raise (.ite hs1.setReg hs1.setReg.orReg.raise)

theorem State.Formed.flexEval (h : s.Formed) : s.flexEval.Formed := .foldl h fun h => .ite h h.updReg.raise

theorem State.Formed.flexEnabling (h : s.Formed) : s.flexEnabling.Formed := .foldl h fun h => h.updReg

theorem State.Formed.macCount (h : s.Formed) {p i : Nat} : (s.macCount p i).Formed :=
  .ite h.incReg (.ite (.ite h.incReg (.ite h.incReg h)) (.ite h.incReg h))

theorem State.Formed.calSwitchReq (h : s.Formed) {g : Nat} : (s.calSwitchReq g).Formed := .ite h h.withPort.orReg

theorem execCalendarSwitchAck_formed (h : s.Formed) {g : Fin 16} : Out.Formed (execCalendarSwitchAck g s) :=
  .ite (.next h) (.ite (.next h.withPort) (.next h))

theorem execCalendarSwitchTimeout_formed (h : s.Formed) {g : Fin 16} : Out.Formed (execCalendarSwitchTimeout g s) :=
  .ite (.next h) (.ite (.next h.updReg.raise) (.next h))

/-! ### Gates -/

theorem State.Formed.setGw (h : s.Formed) {p i : Nat} {v : Word} : (s.setGw p i v).Formed := h.setWinA

theorem State.Formed.gwInc (h : s.Formed) {p i : Nat} : (s.gwInc p i).Formed := h.setGw

theorem State.Formed.setCt (h : s.Formed) {p ct : Nat} : (s.setCt p ct).Formed := h.setGw.setGw.setGw

theorem State.Formed.gateRequest (h : s.Formed) {p : Nat} : (s.gateRequest p).Formed :=
  .ite h (.ite h.setGw.raise (.ite h.setGw.setCt (.ite h.setGw.setCt h.setGw.setCt.setGw.gwInc)))

theorem State.Formed.gateCancel (h : s.Formed) {p : Nat} : (s.gateCancel p).Formed := .ite h.setGw h

theorem State.Formed.gateDrop (h : s.Formed) {p : Nat} : (s.gateDrop p).Formed := h.setGw

theorem State.Formed.gateApply (h : s.Formed) {p : Nat} : (s.gateApply p).Formed := h.setGw.gwInc.incReg.raise

theorem State.Formed.gatesStepped (h : s.Formed) : s.gatesStepped.Formed := .foldl h fun h => h.gwInc

/-! ### Police -/

theorem State.Formed.setPol (h : s.Formed) {i : Nat} {b : Bucket × Bucket} : (s.setPol i b).Formed := h.withSched

theorem State.Formed.polTouch (h : s.Formed) {i : Nat} : (s.polTouch i).Formed := h.setPol

theorem State.Formed.polFill (h : s.Formed) {i : Nat} : (s.polFill i).Formed := h.setPol

theorem State.Formed.polTouchAll (h : s.Formed) : s.polTouchAll.Formed := .foldl h fun h => h.polTouch

theorem State.Formed.polSetTokens (h : s.Formed) {i : Nat} {e1 : Bool} {v : Nat} : (s.polSetTokens i e1 v).Formed := .ite h.setPol h.setPol

theorem State.Formed.meter (h : s.Formed) {i len col : Nat} : (s.meter i len col).2.Formed := h.setPol.incReg

theorem State.Formed.policer (h : s.Formed) {i len col : Nat} : (s.policer i len col).2.Formed := .ite_snd h (.ite h.meter.count h.meter)

theorem State.Formed.setBuckets (h : s.Formed) {k : Nat} {c p : Bucket} : (s.setBuckets k c p).Formed := h.withSched

theorem State.Formed.tmTouch (h : s.Formed) {k : Nat} : (s.tmTouch k).Formed := h.setBuckets

theorem State.Formed.tmFill (h : s.Formed) {k : Nat} : (s.tmFill k).Formed := h.withSched

theorem State.Formed.chargeNode (h : s.Formed) {k : Nat} {len : Int} : (s.chargeNode k len).Formed := h.setBuckets

theorem State.Formed.tmRateApply (h : s.Formed) {mask : Word} : (s.tmRateApply mask).Formed := by
  unfold State.tmRateApply
  split
  · exact h
  · extract_lets +onlyGivenNames s1
    have hs1 : s1.Formed := .foldl h fun h => h.tmTouch.setWin.setWin.updWin
    exact hs1.addReg.raise

theorem State.Formed.polRateApply (h : s.Formed) {mask : Word} : (s.polRateApply mask).Formed := by
  unfold State.polRateApply
  split
  · exact h
  · extract_lets +onlyGivenNames s1
    have hs1 : s1.Formed := .foldl h fun h => h.polTouch.setWin.setWin.updWin
    exact hs1.addReg.raise

theorem State.Formed.mapDrop (h : s.Formed) : s.mapDrop.Formed := h.incReg.raise

theorem State.Formed.tmNodeWrite (h : s.Formed) {k : Nat} {v : Word} : (s.tmNodeWrite k v).2.Formed := by
  unfold State.tmNodeWrite
  extract_lets +onlyGivenNames old v1 put fill
  have hput : ∀ {x0}, State.Formed x0 → State.Formed (put x0) := by
    intro x0 h
    unfold put
    exact h.setWin
  have hfill : ∀ {x0}, State.Formed x0 → State.Formed (fill x0) := by
    intro x0 h
    unfold fill
    exact .ite h.tmFill h
  split
  · exact (hfill (hput h))
  · split
    · exact (hfill (hput h).updWin)
    · split
      · dsimp only
        exact (hput h).updWin
      · exact .ite_snd h h.orReg.raise

theorem State.Formed.closeIfEmpty (h : s.Formed) {k : Nat} : (s.closeIfEmpty k).Formed := .ite h.updWin h

/-! ### Journal -/

theorem State.Formed.journalPut (h : s.Formed) {kind items : Nat} {body : List Word} : (s.journalPut kind items body).Formed :=
  .ite h (.ite h.withPair.orReg h.withPair)

theorem State.Formed.journal (h : s.Formed) {kind items : Nat} {body : List Word} : (s.journal kind items body).Formed := .ite h.journalPut h

/-! ### Skim -/

theorem State.Formed.aliasDrop (h : s.Formed) : s.aliasDrop.Formed := h.incReg

theorem State.Formed.pathTo (h : s.Formed) {dev : Nat} : (s.pathTo dev).2.Formed := by
  unfold State.pathTo
  split
  · exact h.incReg
  · split
    · exact h.aliasDrop
    · exact h

theorem State.Formed.skimDrop (h : s.Formed) {k : Nat} : (s.skimDrop k).Formed := h.incReg.raise

theorem State.Formed.skimTrigger (h : s.Formed) {k : Nat} : (s.skimTrigger k).2.Formed := .ite_snd h h.withStat

theorem State.Formed.skimMake (h : s.Formed) {k source : Nat} {fr : Frame} {h1 : Word} {dropped : Bool} {i : RecInfo} {stamp : Int} :
    (s.skimMake k source fr h1 dropped i stamp).Formed := by
  unfold State.skimMake
  extract_lets +onlyGivenNames ws seq
  split
  extract_lets +onlyGivenNames c w put
  have hput : ∀ {x0 x1}, State.Formed x0 → State.Formed (put x0 x1) := by
    intro x0 x1 h
    unfold put
    exact h.same
  split
  · exact h.skimDrop
  · split
    · exact .ite h.skimDrop (.ite h.mapDrop.skimDrop (hput h))
    · split
      next s1 e3 =>
        have hs1 : s1.Formed := .of_snd e3 h.pathTo
        exact hs1.skimDrop
      next s1 e3 =>
        have hs1 : s1.Formed := .of_snd e3 h.pathTo
        exact (hput hs1)

theorem State.Formed.skimFire (h : s.Formed) {k source : Nat} {fr : Frame} {h1 : Word} {dropped : Bool} {i : RecInfo} {stamp : Int} :
    (s.skimFire k source fr h1 dropped i stamp).Formed :=
  .ite h.skimTrigger.skimMake h.skimTrigger

theorem State.Formed.pmuCopy (h : s.Formed) {e1 : PmuEvent} {exit : Nat} {i : RecInfo} {fr : Frame} {h1 : Word} {mirror : Bool} :
    (s.pmuCopy e1 exit i fr h1 mirror).2.Formed := by
  unfold State.pmuCopy
  split
  rename_i s1 e1
  have hs1 : s1.Formed := .of_snd e1 h.pmuEvent
  extract_lets +onlyGivenNames s2
  have hs2 : s2.Formed := hs1.sampleFrame
  exact .ite_snd hs2 (.foldl_snd hs2 fun h => .ite_snd h h.skimFire)

/-! ### Tables -/

theorem State.Formed.stashHigh (h : s.Formed) {idx banks : Nat} {m : List Nat} : (s.stashHigh idx banks m).Formed := .ite h.raise h

theorem State.Formed.setMac (h : s.Formed) {m : List (Nat × MacEnt)} : (s.setMac m).Formed := h.withTab

theorem State.Formed.macInsert (h : s.Formed) {x : MacEnt} {i : Nat} {t : State} (e : s.macInsert x = some (i, t)) : t.Formed := by
  unfold State.macInsert at e
  dsimp only at e
  split at e
  · cases e
  · split at e
    · cases e
    · cases e
      exact h.fresh.setMac.setMac.stashHigh

theorem State.Formed.limitReached (h : s.Formed) {p : Nat} : (s.limitReached p).Formed := .ite h.raise h

theorem State.Formed.entryCame (h : s.Formed) {e1 : MacEnt} : (s.entryCame e1).Formed := .ite h h.limitReached

theorem State.Formed.noteLearn (h : s.Formed) {op : Nat} {r : LearnReq} : (s.noteLearn op r).Formed := by
  unfold State.noteLearn
  extract_lets +onlyGivenNames s1 s2
  have hs2 : s2.Formed := .ite h.withTab h
  exact hs2.journal

theorem State.Formed.setBase (h : s.Formed) {tab : Nat} {m : List (Nat × List Word)} (hm : Store.wf (fun _ => []) m = true) :
    (s.setBase tab m).Formed := by
  refine { h with base := Store.wf_put _ _ _ _ h.base, tables := fun t => ?_ }
  unfold State.baseOf State.setBase
  by_cases ht : t = tab
  · subst ht
    exact (Store.get_put_self _ t m s.tab.base h.base).symm ▸ hm
  · exact (Store.get_put_other _ m s.tab.base h.base ht _).symm ▸ h.tables t

theorem State.Formed.labelSlot (h : s.Formed) {key : Nat} {present : Bool} {t : State} (e : s.labelSlot key present = some t) : t.Formed := by
  unfold State.labelSlot at e
  dsimp only at e
  split at e
  · cases e
    exact h
  · cases e
    exact h.withTab
  · cases e
    exact h
  · split at e
    · cases e
    · cases e
      exact h.fresh.withTab.withTab.stashHigh

theorem State.Formed.writeBase (h : s.Formed) {tab key : Nat} {val : List Word} {t : State} (e : s.writeBase tab key val = some t) : t.Formed := by
  have based : (s.setBase tab (Store.set [] key val (s.baseOf tab))).Formed := h.setBase (Store.wf_put _ _ _ _ (h.tables tab))
  unfold State.writeBase at e
  dsimp only at e
  split at e
  · exact based.labelSlot e
  · cases e
    exact based

theorem State.Formed.verWrite (h : s.Formed) {tab key : Nat} {val : List Word} : (s.verWrite tab key val).2.Formed := by
  unfold State.verWrite
  split
  · exact h
  · split
    · split
      next s' e2 =>
        have hs' : s'.Formed := h.writeBase e2
        exact hs'
      · exact h
    · exact .ite_snd h.withTab (.ite_snd h (.ite h.withTab.raise h.withTab))

theorem State.Formed.twMacRun (h : s.Formed) {i : TwIn} : (s.twMacRun i).2.Formed := by
  unfold State.twMacRun
  split
  extract_lets +onlyGivenNames d0 ent
  split
  · split
    · exact h
    · split
      · exact h
      · exact h
  · split
    · exact .ite_snd h (.ite_snd h.setMac.entryCame (.ite_snd h.setMac h))
    · split
      · split
        next s1 e4 =>
          have hs1 : s1.Formed := h.macInsert e4
          exact hs1.entryCame
        · exact h
      · exact h

theorem State.Formed.twLabelRun (h : s.Formed) {i : TwIn} {v : View} : (s.twLabelRun i v).2.Formed := by
  unfold State.twLabelRun
  extract_lets +onlyGivenNames key val shown cap
  split
  · split
    · exact h
    · split
      · split
        · exact h
        · exact h
      · exact h
  · split
    · split
      · exact h
      · exact h.fresh
    · split
      · exact .ite_snd h (.ite_snd h.verWrite.fresh h.verWrite)
      · exact h
      · exact h
      · exact h.verWrite
      · exact h.verWrite

theorem State.Formed.twLpmRun (h : s.Formed) {i : TwIn} {v : View} : (s.twLpmRun i v).2.Formed := by
  unfold State.twLpmRun
  extract_lets +onlyGivenNames w addr len key cap
  split
  · split
    · exact h
    · exact h
  · split
    · split
      · exact h
      · exact h
    · split
      · exact h
      · split
        · split
          · exact h
          · exact h
        · split
          · exact h
          · exact h.verWrite
          · exact .ite_snd h h.verWrite

theorem State.Formed.twIndexRun (h : s.Formed) {i : TwIn} {v : View} : (s.twIndexRun i v).2.Formed :=
  .ite_snd h (.ite_snd h (.ite_snd h.verWrite (.ite_snd h h.verWrite)))

theorem State.Formed.twRun (h : s.Formed) {i : TwIn} : (s.twRun i).2.Formed :=
  .ite_snd h (.ite_snd h (.ite_snd h (.ite_snd h (.ite_snd h.twMacRun (.ite_snd h.twLabelRun (.ite_snd h.twLpmRun h.twIndexRun))))))

theorem State.Formed.twStart (h : s.Formed) {a : Agent} {w : Nat} {cmd : Word} : (s.twStart a w cmd).Formed :=
  .ite h.updWin (.ite h.setWin.updWin h.setWin.updWin.withTab)

theorem State.Formed.twFinish (h : s.Formed) {w : Nat} : (s.twFinish w).Formed := by
  unfold State.twFinish
  extract_lets +onlyGivenNames cmd i
  split
  rename_i s1 e
  have hs1 : s1.Formed := .of_snd e h.twRun
  extract_lets +onlyGivenNames s2 s3 s4 s5
  have hs2 : s2.Formed := hs1.updWin
  have hs3 : s3.Formed := by
    unfold s3
    split
    · exact hs2.setWin
    · exact hs2
  have hs4 : s4.Formed := .foldl hs3 fun h => h.setWin
  have hs5 : s5.Formed := .foldl hs4 fun h => h.setWin
  exact hs5.withTab

theorem State.Formed.twDiscard (h : s.Formed) : s.twDiscard.Formed := by
  unfold State.twDiscard
  extract_lets +onlyGivenNames s'
  have hs' : s'.Formed := .foldl h fun h => h.updWin
  exact hs'.withTab

theorem State.Formed.loadRecord (h : s.Formed) {tab : Nat} {r : List Word} : (s.loadRecord tab r).2.Formed := h.twRun

theorem State.Formed.flushMac (h : s.Formed) {flags sel : Word} : (s.flushMac flags sel).Formed := h.setMac

theorem State.Formed.setGrant (h : s.Formed) {bank r n : Nat} : (s.setGrant bank r n).Formed := h.withTab

theorem State.Formed.countXfer (h : s.Formed) {bank : Nat} {m : List (Nat × Nat)} : (s.countXfer bank m).Formed := h.pmuCount

theorem State.Formed.maintXfer (h : s.Formed) {bank r n : Nat} : (s.maintXfer bank r n).Formed := by
  unfold State.maintXfer
  split
  · exact h.setGrant
  · split
    · split
      · exact h.countXfer.twFinish.setGrant
      · exact h.setGrant
    · exact h.countXfer.setGrant

theorem State.Formed.maintRound (h : s.Formed) {bank : Nat} {requests : BitVec 8} : (s.maintRound bank requests).Formed := by
  unfold State.maintRound
  extract_lets +onlyGivenNames a
  split
  extract_lets +onlyGivenNames s1 s2
  have hs2 : s2.Formed := h.withTab
  extract_lets +onlyGivenNames s3
  have hs3 : s3.Formed := .foldl hs2 fun h => h.maxReg
  split
  · exact hs3.maintXfer
  · exact hs3

theorem execMaintArbRound_formed (h : s.Formed) {bank : BitVec 11} {requests : BitVec 8} : Out.Formed (execMaintArbRound bank requests s) := by
  unfold execMaintArbRound
  split
  · exact .next h
  · split
    · exact .next h
    · split
      · exact .ite (.next (.ite h h.maintXfer)) (.next h.setGrant.maintRound)
      · exact .next h.maintRound

theorem execTableEccScrub_formed (h : s.Formed) {bank row : BitVec 11} {uncorr : Option Bool} : Out.Formed (execTableEccScrub bank row uncorr s) := by
  unfold execTableEccScrub
  refine .ite (.next h) (.ite (.next h) ?_)
  split
  · exact .next h
  · exact .next h.incReg
  · extract_lets +onlyGivenNames s1 inRow gone s2 _ s3
    have hs1 : s1.Formed := h.incReg.setReg.raise
    have hs3 : s3.Formed := hs1.setMac.withTab
    exact .next (hs3.setBase (Store.wf_filter _ _ _ (hs3.tables 1)))

/-! ### Buffer -/

theorem State.Formed.takeCells (h : s.Formed) {p : Pool} {port n : Nat} : (s.takeCells p port n).Formed := .ite h.withBuf.raise h.withBuf

theorem State.Formed.giveCells (h : s.Formed) {p : Pool} {port n : Nat} : (s.giveCells p port n).Formed := h.withBuf

theorem State.Formed.setQueue (h : s.Formed) {q : Nat} {l : List Copy} : (s.setQueue q l).Formed := { h with queues := Store.wf_put _ _ _ _ h.queues }

theorem State.Formed.setSpill (h : s.Formed) {q : Nat} {x : SpillQ} : (s.setSpill q x).Formed := { h with spill := Store.setWf_insert _ _ _ h.spill }

theorem State.Formed.reserveEval (h : s.Formed) : s.reserveEval.Formed := .ite h (.ite h.updReg.raise h.updReg)

theorem State.Formed.setTesting (h : s.Formed) {l : List Nat} : (s.setTesting l).Formed := h.withBuf.reserveEval

theorem State.Formed.freeVoqs (h : s.Formed) : s.freeVoqs.Formed := { h with voqs := Store.setWf_filter _ _ h.voqs }

theorem State.Formed.setVoq (h : s.Formed) {v : Nat} {x : Voq} : (s.setVoq v x).Formed := { h with voqs := Store.setWf_insert _ _ _ h.voqs }

theorem State.Formed.noteCells (h : s.Formed) : s.noteCells.Formed := h.maxReg

theorem State.Formed.refuse (h : s.Formed) {r : Refuse} {port : Nat} {mcast : Bool} {session : Option Nat} :
    (s.refuse r port mcast session).Formed := by
  unfold State.refuse
  extract_lets +onlyGivenNames s1 s2 s3 s4
  have hs1 : s1.Formed := .incReg (.ite h h.incReg)
  have hs2 : s2.Formed := .ite hs1.raise hs1
  have hs3 : s3.Formed := .ite hs2.incReg (.ite hs2.incReg hs2)
  have hs4 : s4.Formed := .ite hs3.incReg hs3
  split
  · exact hs4.incReg.raise
  · exact hs4

theorem State.Formed.noteAdmit (h : s.Formed) {code outcome q port c : Nat} {isVoq : Bool} {i : RecInfo} {fr : Frame} {h1 : Word} {mirror : Bool} :
    (s.noteAdmit code outcome q port c isVoq i fr h1 mirror).2.Formed :=
  h.pmuCopy

theorem State.Formed.admitCopy (h : s.Formed) {a : Adm} {dev port q : Nat} {mcast : Bool} : (s.admitCopy a dev port q mcast).Formed := by
  unfold State.admitCopy
  extract_lets +onlyGivenNames isVoq c n _ _
  split
  · exact h.refuse.noteAdmit
  · extract_lets +onlyGivenNames ct
    split
    rename_i s1 e1
    have hs1 : s1.Formed := .of_snd e1 h.noteAdmit
    extract_lets +onlyGivenNames s2 k ct1 k1 s3 s4
    have hs2 : s2.Formed := hs1.takeCells
    have hs4 : s4.Formed := hs2.withBuf.setQueue
    extract_lets +onlyGivenNames s5
    have hs5 : s5.Formed := by
      unfold s5
      split
      · exact hs4
      · split
        · exact hs4.setSpill
        · exact hs4.incReg.setSpill
    split
    · exact hs5.incReg
    · exact hs5

theorem State.Formed.admitRemote (h : s.Formed) {a : Adm} {dev port ph : Nat} {mcast : Bool} : (s.admitRemote a dev port ph mcast).Formed := by
  unfold State.admitRemote
  split
  · exact h.refuse
  · split
    · exact h.admitCopy
    · split
      · exact h.refuse
      · exact h.setVoq.admitCopy.freeVoqs

theorem State.Formed.admitMember (h : s.Formed) {a : Adm} {m : Word} : (s.admitMember a m).Formed := by
  unfold State.admitMember
  extract_lets +onlyGivenNames dev port local_ ingress
  split
  · exact h
  · split
    · split
      next s1 e2 =>
        have hs1 : s1.Formed := .of_snd e2 h.pathTo
        exact hs1.incReg
      next s1 e2 =>
        have hs1 : s1.Formed := .of_snd e2 h.pathTo
        exact hs1.incReg.admitRemote
    · split
      · exact h.macCount.incReg
      · split
        · exact h.mapDrop.incReg
        · exact h.incReg.admitCopy

theorem State.Formed.admitGroup (h : s.Formed) {a : Adm} {g : Nat} : (s.admitGroup a g).Formed :=
  .ite h.incReg (.ite h.incReg.raise (.foldl h fun h => .ite h.admitMember h))

theorem State.Formed.cellBank (h : s.Formed) : s.cellBank.2.Formed := .ite_snd h.fresh h

theorem State.Formed.noteWrite (h : s.Formed) {s1 : State} {a : Adm} : (State.noteWrite s1 a s).Formed := by
  unfold State.noteWrite
  split
  · exact h
  · extract_lets +onlyGivenNames n t
    have ht : t.Formed := by
      unfold t
      refine .foldl h fun h1 => ?_
      exact h1.cellBank.pmuCopy
    exact ht.noteCells

theorem execAdmission_formed (h : s.Formed) : Out.Formed (execAdmission s) := by
  unfold execAdmission
  split
  · exact .next h
  · split
    · exact .next h
    · extract_lets +onlyGivenNames s1
      extract_lets +onlyGivenNames s2
      have hs2 : s2.Formed := h.withBuf
      split
      · exact .next hs2
      · split
        · exact .next hs2.admitCopy.noteWrite
        · exact .next hs2.admitGroup.noteWrite
        · exact .next hs2.admitRemote.noteWrite

theorem State.Formed.retireNow (h : s.Formed) {place : Nat} : (s.retireNow place).Formed := .ite h h.withBuf.incReg.raise.incReg.raise.reserveEval

theorem State.Formed.retireIngot (h : s.Formed) {place : Nat} : (s.retireIngot place).Formed := .ite h.withBuf h.retireNow

theorem State.Formed.retireFreed (h : s.Formed) : s.retireFreed.Formed := .foldl h fun h => h.withBuf.retireNow

theorem State.Formed.stackUncorr (h : s.Formed) {place offset : Nat} : (s.stackUncorr place offset).Formed := h.incReg.setReg.raise

theorem State.Formed.setPfWait (h : s.Formed) {q : Nat} {on : Bool} : (s.setPfWait q on).Formed := h.withBuf

theorem State.Formed.askIngot (h : s.Formed) {q : Nat} : (s.askIngot q).Formed := by
  unfold State.askIngot
  split
  · exact h.setPfWait
  · split
    · exact h.setPfWait
    · exact .ite h.setPfWait (.ite h.setPfWait h.setPfWait.takeCells.setSpill)

theorem State.Formed.givePre (h : s.Formed) {n : Nat} : (s.givePre n).Formed := .ite h (.foldl h.giveCells fun h => h.askIngot)

theorem State.Formed.releaseCopy (h : s.Formed) {c : Copy} : (s.releaseCopy c).Formed := .givePre (.ite h h.giveCells)

theorem State.Formed.giveRuns (h : s.Formed) {l : List Run} : (s.giveRuns l).Formed := .foldl h fun h => h.giveCells

theorem State.Formed.unspill (h : s.Formed) {q : Nat} : (s.unspill q).Formed := by
  unfold State.unspill
  split
  · have erased : { s with buf := { s.buf with spill := Store.erase q s.buf.spill } }.Formed := { h with spill := Store.setWf_erase _ _ h.spill }
    exact .ite erased.setPfWait h
  · exact h

theorem State.Formed.freeDead (h : s.Formed) {q : Nat} : (s.freeDead q).Formed := by
  unfold State.freeDead
  split
  · exact h
  · exact .ite h h.setSpill.retireFreed

theorem State.Formed.dequeue (h : s.Formed) {c : Copy} : (s.dequeue c).Formed := h.setQueue.unspill

theorem State.Formed.removeCopy (h : s.Formed) {c : Copy} : (s.removeCopy c).Formed := by
  unfold State.removeCopy
  extract_lets +onlyGivenNames s1 s2
  have hs1 : s1.Formed := h.setQueue
  have hs2 : s2.Formed := by
    unfold s2
    split
    · exact hs1
    · exact hs1.giveRuns.setSpill.freeDead
  exact hs2.unspill.releaseCopy

theorem State.Formed.trimCopy (h : s.Formed) {c : Copy} : (s.trimCopy c).2.Formed := by
  unfold State.trimCopy
  extract_lets +onlyGivenNames excess d e s1
  have trimmed : s1.Formed := by
    refine .ite h ?_
    split
    · exact h
    · extract_lets +onlyGivenNames cut s2
      have given : s2.Formed := by
        unfold s2
        cases List.find? _ _ with
        | none => exact h
        | some r => exact h.giveCells
      exact given.setSpill
  exact .ite trimmed trimmed.giveCells

theorem State.Formed.ingotEvent (h : s.Formed) {code q num : Nat} {runs : List (Nat × Nat)} : (s.ingotEvent code q num runs).Formed := by
  unfold State.ingotEvent
  extract_lets +onlyGivenNames ch
  split
  · exact h.pmuCopy
  · exact h.pmuCount

theorem State.Formed.writeIngot (h : s.Formed) {q ingot n : Nat} {x : SpillQ} : (s.writeIngot q ingot n x).Formed :=
  h.giveRuns.setSpill.incReg.ingotEvent

theorem execIngotWrite_formed (h : s.Formed) {q : BitVec 21} {ingot : BitVec 24} : Out.Formed (execIngotWrite q ingot s) := by
  unfold execIngotWrite
  split
  · exact .next h
  · split
    · exact .ite (.next h.writeIngot) (.next h)
    · exact .next h

theorem execStageHoldExpire_formed (h : s.Formed) {q : BitVec 21} {ingot : BitVec 24} : Out.Formed (execStageHoldExpire q ingot s) := by
  unfold execStageHoldExpire
  split
  · exact .next h
  · split
    · exact .ite (.next h.writeIngot.incReg) (.next h)
    · exact .next h

theorem State.Formed.fillCopies (h : s.Formed) {q : Nat} {pre : Bool} {runs : List (Nat × Nat × Bool)} : (s.fillCopies q pre runs).Formed :=
  .foldl h fun h => h.setQueue

theorem State.Formed.relink (h : s.Formed) {q : Nat} {x : SpillQ} : (s.relink q x).Formed := h.fillCopies.setSpill.incReg.unspill

theorem execPrefetchRequest_formed (h : s.Formed) {q : BitVec 21} : Out.Formed (execPrefetchRequest q s) := by
  unfold execPrefetchRequest
  split
  · exact .next h
  · extract_lets +onlyGivenNames q1
    split
    · exact .ite (.next h) (.ite (.next h.relink) (.next h.askIngot))
    · exact .next h

theorem execIngotReadComplete_formed (h : s.Formed) {q : BitVec 21} {latency : BitVec 16} {uncorr : Option (BitVec 7)} :
    Out.Formed (execIngotReadComplete q latency uncorr s) := by
  unfold execIngotReadComplete
  split
  · exact .next h
  · extract_lets +onlyGivenNames q1
    split
    · exact .next h
    · split
      · exact .next h
      · split
        · exact .next h
        · extract_lets +onlyGivenNames place dead s1 s2 s3 s4 s5
          have hs1 : s1.Formed := h.setSpill
          have hs2 : s2.Formed := hs1.fillCopies
          have hs3 : s3.Formed := hs2.incReg.maxReg
          have hs4 : s4.Formed := hs3.ingotEvent
          have hs5 : s5.Formed := by
            unfold s5
            split
            · exact hs4.stackUncorr.raise.retireIngot
            · exact hs4
          exact .next hs5.retireFreed.unspill.noteCells.givePre

theorem execIngotPatrolScrub_formed (h : s.Formed) {stack : Fin 4} {j : BitVec 22} {err : Option (Option (BitVec 7))} :
    Out.Formed (execIngotPatrolScrub stack j err s) := by
  unfold execIngotPatrolScrub
  split
  · exact .next h
  · extract_lets +onlyGivenNames pg
    split
    · exact .next h
    · split
      · exact .next h
      · exact .next h.incReg
      · exact .next h.stackUncorr.raise.retireIngot

theorem State.Formed.setChannel (h : s.Formed) {ch r n : Nat} : (s.setChannel ch r n).Formed := h.withBuf

theorem State.Formed.channelRound (h : s.Formed) {ch : Nat} {requests : BitVec 8} : (s.channelRound ch requests).Formed := by
  unfold State.channelRound
  extract_lets +onlyGivenNames pg cfg a
  split
  extract_lets +onlyGivenNames s1 s2 lost s3
  have hs2 : s2.Formed := h.withBuf
  have hlost : lost.Formed := .foldl hs2 fun h => h.maxReg
  extract_lets +onlyGivenNames s4
  have hs4 : s4.Formed := .foldl hlost fun h => h.pmuCount
  split
  · exact hs4.setChannel
  · exact hs4

theorem execChannelArbRound_formed (h : s.Formed) {ch : BitVec 7} {requests : BitVec 8} {outstanding : BitVec 11} :
    Out.Formed (execChannelArbRound ch requests outstanding s) := by
  unfold execChannelArbRound
  split
  · exact .next h
  · extract_lets +onlyGivenNames pg
    split
    · exact .next h
    · extract_lets +onlyGivenNames s1
      have hs1 : s1.Formed := by
        unfold s1
        split
        · exact .ite h.setChannel h.setChannel.channelRound
        · exact h.channelRound
      exact .next hs1.maxReg

theorem State.Formed.sendPfc (h : s.Formed) {p : Nat} {cls : Nat → Bool} : (s.sendPfc p cls).Formed := by
  unfold State.sendPfc
  split
  · exact h
  · extract_lets +onlyGivenNames off f s1
    extract_lets +onlyGivenNames s2
    have hs2 : s2.Formed := .ite h.withPort h
    exact hs2.macCount

theorem State.Formed.pfcEvalPort (h : s.Formed) {p : Nat} : (s.pfcEvalPort p).Formed := .ite h h.setRegFld.sendPfc

theorem execPfcXoffEval_formed (h : s.Formed) : Out.Formed (execPfcXoffEval s) := .ite (.next h) (.next (.foldl h fun h => .ite h.pfcEvalPort h))

theorem execPfcRefresh_formed (h : s.Formed) {port : Fin 240} : Out.Formed (execPfcRefresh port s) :=
  .ite (.next h) (.ite (.next h.sendPfc) (.next h))

/-! ### Epoch -/

theorem State.Formed.setOp (h : s.Formed) {slot : Nat} {r : OpRec} : (s.setOp slot r).Formed := h.withOps

theorem State.Formed.updOp (h : s.Formed) {slot : Nat} {f : OpRec → OpRec} : (s.updOp slot f).Formed := by
  unfold State.updOp
  split
  · exact h.setOp
  · exact h

theorem State.Formed.endOp (h : s.Formed) {slot : Nat} {st : OpState} {result : Status} : (s.endOp slot st result).Formed := .ite h.updOp.ibi h.updOp

theorem State.Formed.opCreate (h : s.Formed) {slot : Nat} {kind : OpKind} {agent rights session : Nat} {locks : List Nat} {params : List Word} :
    (s.opCreate slot kind agent rights session locks params).2.Formed :=
  h.withOps.setOp

theorem State.Formed.refUp (h : s.Formed) {e1 : Nat} : (s.refUp e1).Formed := h.withTab

theorem State.Formed.refDown (h : s.Formed) {f : Frame} : (s.refDown f).Formed := by
  unfold State.refDown
  split
  · exact h.withTab
  · exact h

theorem State.Formed.commitDone (h : s.Formed) {slot : Nat} : (s.commitDone slot).Formed := h.endOp.withTab

theorem State.Formed.advanceEpoch (h : s.Formed) {no : Nat} {late : Bool} {rec : AuditRec} : (s.advanceEpoch no late rec).Formed := by
  unfold State.advanceEpoch
  extract_lets +onlyGivenNames st s1 s2 ss s3 s4 s5 s6
  have hs1 : s1.Formed := h.setReg
  have hs2 : s2.Formed := hs1.setReg
  have hs4 : s4.Formed := hs2.withTab
  have hs5 : s5.Formed := hs4.setReg.setReg.setReg
  have hs6 : s6.Formed := hs5.incReg.raise
  extract_lets +onlyGivenNames s7
  have hs7 : s7.Formed := .ite hs6.orReg hs6
  exact hs7.audit.journal

theorem State.Formed.mergeSlot (h : s.Formed) : s.mergeSlot.Formed := by
  unfold State.mergeSlot
  split
  · exact h
  next x t e =>
    obtain ⟨y, -, hy⟩ := List.exists_of_findSome?_eq_some e
    obtain ⟨u, hu, hx⟩ := Option.map_eq_some_iff.mp hy
    cases hx
    exact (h.writeBase hu).withTab

theorem State.Formed.mergeAlone (h : s.Formed) : s.mergeAlone.Formed := .ite h.mergeSlot.raise h.mergeSlot

theorem State.Formed.mergeFor (h : s.Formed) {slot : Nat} {r : OpRec} : (s.mergeFor slot r).Formed := .ite h h.mergeSlot.updOp

theorem execEpochMergeSlot_formed (h : s.Formed) : Out.Formed (execEpochMergeSlot s) := by
  unfold execEpochMergeSlot
  split
  · exact .next h
  · split
    · exact .next h
    · split
      · exact .next h
      · extract_lets +onlyGivenNames s1
        have hs1 : s1.Formed := h.countXfer.setGrant
        split
        · exact .next hs1.mergeFor
        · exact .next hs1.mergeAlone

theorem State.Formed.retire (h : s.Formed) : s.retire.Formed := h.maxReg.setReg.withTab.raise

theorem execEpochRetire_formed (h : s.Formed) : Out.Formed (execEpochRetire s) := by
  unfold execEpochRetire
  split
  · exact .next h
  · split
    · exact .next h
    · exact .ite (.next h.retire) (.next h)

theorem execRetireForced_formed (h : s.Formed) : Out.Formed (execRetireForced s) := by
  unfold execRetireForced
  split
  · exact .next h
  · split
    · exact .next h
    · exact .ite (.next h) (.next h.orReg.raise.retire)

theorem State.Formed.freePending (h : s.Formed) : s.freePending.Formed := h.withTab

theorem State.Formed.pendingDiscard (h : s.Formed) : s.pendingDiscard.Formed := .ite h.orReg h.freePending

/-! ### Respond -/

theorem State.Formed.nrError (h : s.Formed) {a : Agent} {r : Response} : (s.nrError a r).Formed := .ite h.orReg h.setReg.raise

theorem State.Formed.sendOn (h : s.Formed) {route : Route} {r : Response} : (s.sendOn route r).Formed := by
  unfold State.sendOn
  split
  · exact .ite h.withHost.ibi h.withHost
  · exact .ite h h.withHost.incReg
  · exact h.withHost
  · exact h

theorem State.Formed.respond (h : s.Formed) {a : Agent} {route : Route} {noResponse : Bool} {r : Response} :
    (s.respond a route noResponse r).Formed :=
  .ite (.ite h h.nrError) h.sendOn

/-! ### Twicel -/

theorem State.Formed.setTwicel (h : s.Formed) {v : Nat} : (s.setTwicel v).Formed := .ite h h.setRegFld.raise

theorem State.Formed.failWaiting (h : s.Formed) {from_ : Nat} : (s.failWaiting from_).Formed := .foldl h.withHost fun h => h.respond

theorem State.Formed.discardVoqs (h : s.Formed) {sel : Voq → Bool} {page off : Nat} : (s.discardVoqs sel page off).Formed := by
  unfold State.discardVoqs
  refine .foldl h fun h1 => ?_
  refine .foldl h1 fun h2 => ?_
  extract_lets +onlyGivenNames s1
  have hs1 : s1.Formed := h2.removeCopy.incReg
  exact .ite hs1.incReg hs1

theorem State.Formed.dropContexts (h : s.Formed) {src : Nat} : (s.dropContexts src).Formed := by
  unfold State.dropContexts
  refine .foldl h fun h1 => ?_
  split
  · exact h1
  · extract_lets +onlyGivenNames s1
    have hs1 : s1.Formed := .ite h1 h1.incReg.raise
    exact hs1.withVoq

theorem State.Formed.splitActions (h : s.Formed) : s.splitActions.Formed := by
  unfold State.splitActions
  extract_lets +onlyGivenNames s1 s2 s3
  have hs1 : s1.Formed := h.discardVoqs
  have hs2 : s2.Formed := hs1.freeVoqs.dropContexts
  extract_lets +onlyGivenNames s4 s5
  have hs5 : s5.Formed := hs2.same.failWaiting
  exact .ite hs5.setServo hs5

theorem State.Formed.relaysRestart (h : s.Formed) : s.relaysRestart.Formed := h.withPair

theorem State.Formed.jointDown (h : s.Formed) : s.jointDown.Formed := by
  unfold State.jointDown
  split
  · exact h.splitActions.incReg.setTwicel
  · split
    · extract_lets +onlyGivenNames s1 s2
      have hs1 : s1.Formed := .ite h.freePending h
      have hs2 : s2.Formed := by
        unfold s2
        split
        · exact hs1.endOp
        · exact hs1
      exact hs2.splitActions.setTwicel
    · split
      · exact h.withPair.updOp
      · exact h

theorem State.Formed.jointFell (h : s.Formed) : s.jointFell.Formed := h.jointDown.relaysRestart

theorem State.Formed.setSync (h : s.Formed) {v : Nat} : (s.setSync v).Formed := .ite h h.setRegFld.raise

theorem State.Formed.faultEval (h : s.Formed) : s.faultEval.Formed := .ite h.setReg h.setReg.orReg.raise

theorem State.Formed.rdyEval (h : s.Formed) : s.rdyEval.Formed := .ite h.updReg h.updReg.updReg.raise

theorem State.Formed.pinsEval (h : s.Formed) : s.pinsEval.Formed := h.faultEval.rdyEval

theorem State.Formed.syncBegin (h : s.Formed) {slot : Nat} {r : OpRec} : (s.syncBegin slot r).Formed :=
  .ite h.endOp h.incReg.withPair.setReg.journalPut.setOp

theorem State.Formed.autoSync (h : s.Formed) : s.autoSync.Formed := by
  unfold State.autoSync
  split
  · exact h
  · split
    · exact h
    · exact .ite h.opCreate.syncBegin h.opCreate

theorem State.Formed.pairGroupChanged (h : s.Formed) {up : Bool} : (s.pairGroupChanged up).Formed := by
  unfold State.pairGroupChanged
  extract_lets +onlyGivenNames s1 s2
  have hs2 : s2.Formed := .ite h.withPair.setSync h
  extract_lets +onlyGivenNames s3
  have hs3 : s3.Formed := .ite hs2.autoSync hs2
  exact hs3.rdyEval

theorem State.Formed.upChanged (h : s.Formed) {g : Nat} {up : Bool} : (s.upChanged g up).Formed :=
  .ite h.jointFell (.ite h.pairGroupChanged h.withVoq)

/-! ### Sprue -/

theorem State.Formed.setMemBit (h : s.Formed) {g m b : Nat} {v : Bool} : (s.setMemBit g m b v).Formed := h.updReg

theorem State.Formed.countCell (h : s.Formed) {g : Nat} {ctl first rx : Bool} {len : Nat} : (s.countCell g ctl first rx len).Formed :=
  .ite h.countFixed (.ite h.countFixed.countFixed h.countFixed)

theorem State.Formed.putCell (h : s.Formed) {k l : Nat} {h1 : CellHdr} {payload : List Byte} : (s.putCell k l h1 payload).Formed := h.withSprue

theorem State.Formed.sendCell (h : s.Formed) {g m : Nat} {h1 : CellHdr} {payload : List Byte} : (s.sendCell g m h1 payload).Formed :=
  .ite h.putCell.countCell (.ite h.withSprue.putCell.countCell h.withVoq.putCell.countCell)

theorem State.Formed.queueCtl (h : s.Formed) {k dst len : Nat} {payload : List Byte} : (s.queueCtl k dst len payload).Formed := h.withSprue

theorem State.Formed.queueData (h : s.Formed) {k : Nat} {h1 : CellHdr} {payload : List Byte} : (s.queueData k h1 payload).Formed := h.withSprue

theorem State.Formed.sendLocal (h : s.Formed) {g m len : Nat} {payload : List Byte} : (s.sendLocal g m len payload).Formed := .ite h.queueCtl h

theorem State.Formed.dropCells (h : s.Formed) {g : Nat} : (s.dropCells g).Formed := h.withSprue

theorem State.Formed.sendIdle (h : s.Formed) {g m : Nat} : (s.sendIdle g m).Formed := h.sendCell

theorem State.Formed.sendMarkers (h : s.Formed) {g : Nat} {outOfTurn : Bool} : (s.sendMarkers g outOfTurn).Formed :=
  .foldl h.incReg fun h => .ite h.sendCell h

theorem State.Formed.oweMarker (h : s.Formed) {g : Nat} {outOfTurn : Bool} : (s.oweMarker g outOfTurn).Formed := h.withSprue

theorem State.Formed.sendControl (h : s.Formed) {gs : List Nat} {dst len : Nat} {payload : List Byte} {t : State}
    (e : s.sendControl gs dst len payload = some t) : t.Formed := by
  unfold State.sendControl at e
  split at e
  · cases e
  · cases e
    exact h.queueCtl

theorem State.Formed.dropMembers (h : s.Formed) {g : Nat} : (s.dropMembers g).Formed := by
  unfold State.dropMembers
  refine .foldl h fun h1 => ?_
  extract_lets +onlyGivenNames ok on s1
  have hs1 : s1.Formed := .ite h1.updReg.incReg h1
  exact hs1.setMemBit

theorem State.Formed.groupEval (h : s.Formed) {g : Nat} {before : Word × Word} : (s.groupEval g before).Formed := by
  unfold State.groupEval
  extract_lets +onlyGivenNames pg s1 s2 rx tx up was s3 s4
  have hs1 : s1.Formed := h.dropMembers
  have hs2 : s2.Formed := hs1.setRegFld
  have hs3 : s3.Formed := hs2.updReg
  have hs4 : s4.Formed := hs3.raise
  extract_lets +onlyGivenNames s5
  have hs5 : s5.Formed := .ite hs3 (.ite hs4.oweMarker hs4)
  exact .ite hs5 (.upChanged (.ite hs5.raise hs5.raise.orReg))

theorem State.Formed.sprueEval (h : s.Formed) {g : Nat} : (s.sprueEval g).Formed := h.groupEval

theorem State.Formed.rxClear (h : s.Formed) {g : Nat} : (s.rxClear g).Formed := h.withSprue

theorem State.Formed.groupStop (h : s.Formed) {g : Nat} : (s.groupStop g).Formed := by
  unfold State.groupStop
  extract_lets +onlyGivenNames r s1 s2
  have hs1 : s1.Formed := .foldl h.rxClear fun h => h.setReg
  have hs2 : s2.Formed := hs1.setRegFld.setRegFld
  exact hs2.groupEval

theorem State.Formed.sprueEnabling (h : s.Formed) {g : Nat} : (s.sprueEnabling g).Formed := .ite h.updReg h.updReg.raise

theorem State.Formed.binAdd (h : s.Formed) {g e1 i n : Nat} : (s.binAdd g e1 i n).Formed := h.setWinA

theorem State.Formed.binMark (h : s.Formed) {g e1 : Nat} : (s.binMark g e1).Formed := h.setWinA

theorem State.Formed.slotLost (h : s.Formed) {g m : Nat} : (s.slotLost g m).Formed := .ite h h.withSprue.binAdd.incReg.incReg.binAdd

theorem State.Formed.cellErr (h : s.Formed) {g m word_ : Nat} : (s.cellErr g m word_).Formed := by
  unfold State.cellErr
  extract_lets +onlyGivenNames k now l s1 s2
  have hs2 : s2.Formed := h.withSprue.binAdd
  extract_lets +onlyGivenNames s3
  have hs3 : s3.Formed := .ite hs2.binAdd hs2
  exact .ite hs3.setMemBit.sprueEval hs3

theorem State.Formed.toHunt (h : s.Formed) {g m : Nat} {lossOfSync : Bool} : (s.toHunt g m lossOfSync).Formed := by
  unfold State.toHunt
  extract_lets +onlyGivenNames s1 s2 s3
  have hs1 : s1.Formed := .ite h.incReg h
  have hs2 : s2.Formed := hs1.updReg
  exact hs2.withSprue.binMark.sprueEval

theorem State.Formed.binSuspect (h : s.Formed) {g : Nat} : (s.binSuspect g).Formed := h.withSprue

theorem State.Formed.binsStepped (h : s.Formed) : s.binsStepped.Formed := .foldl h fun h => h.binSuspect

theorem State.Formed.binCopy (h : s.Formed) {g e1 src dst : Nat} : (s.binCopy g e1 src dst).Formed := .foldl h fun h => h.setWinA

theorem State.Formed.binClear (h : s.Formed) {g e1 b : Nat} : (s.binClear g e1 b).Formed := .foldl h fun h => h.setWinA

theorem State.Formed.binCommit (h : s.Formed) {g e1 sec : Nat} {words : List Nat} {suspect : Bool} : (s.binCommit g e1 sec words suspect).Formed := by
  unfold State.binCommit
  extract_lets +onlyGivenNames s1 s2
  have hs1 : s1.Formed := by
    unfold s1
    refine .foldl h fun h1 => ?_
    extract_lets +onlyGivenNames s3
    have hs3 : s3.Formed := .foldl h1 fun h => h.setWinA
    exact hs3.setWinA
  have hs2 : s2.Formed := .ite (.binClear (.foldl hs1 fun h => h.binCopy)) hs1
  exact .ite hs2.binCopy.binClear hs2

theorem State.Formed.secCount (h : s.Formed) {u : SecUnit} {es ses uas suspect : Bool} : (s.secCount u es ses uas suspect).Formed := by
  unfold State.secCount
  extract_lets +onlyGivenNames words go
  have hgo : ∀ {x0 x1 x2}, State.Formed x0 → State.Formed (go x0 x1 x2) := by
    intro x0 x1 x2 h
    unfold go
    exact .foldl h fun h => h.incReg
  split
  · exact (hgo h)
  · exact (hgo h)
  · exact (hgo h)
  · exact h.binCommit
  · exact h.binCommit

theorem State.Formed.secCommit (h : s.Formed) {u : SecUnit} {h1 : SecHist} : (s.secCommit u h1).1.Formed := by
  unfold State.secCommit
  split
  · exact h
  · extract_lets +onlyGivenNames ten un s1
    have hs1 : s1.Formed := by
      unfold s1
      split
      · exact h.raise
      · exact h
    exact hs1.secCount

theorem State.Formed.secTake (h : s.Formed) {u : SecUnit} {t1 : SecTally} : (s.secTake u t1).Formed := by
  unfold State.secTake
  split
  · exact h.binClear
  · exact h.withSprue.binClear
  · exact .ite h.addReg.orReg h
  · exact h.addReg.addReg
  · exact h

theorem execSecondCommit_formed (h : s.Formed) {u : SecUnit} {t : SecTally} : Out.Formed (execSecondCommit u t s) := by
  unfold execSecondCommit
  refine .ite (.next h) ?_
  extract_lets +onlyGivenNames h1
  split
  extract_lets +onlyGivenNames h2 s1 _ s2
  have hs2 : s2.Formed := h.secTake.withSprue
  split
  next e =>
    refine .next (State.Formed.withPort (.of_fst e ?_))
    split
    · exact hs2
    · exact hs2.secCommit

theorem execHeaderCandidate_formed (h : s.Formed) {g m : Fin 16} {hdr : BitVec 64} {payload : List Byte} {expected : Bool} :
    Out.Formed (execHeaderCandidate g m hdr payload expected s) :=
  .ite (.next h) (.ite (.next h) (.ite (.ite (.next h.laneRise.setRegFld.withSprue) (.next h.laneRise)) (.ite (.ite (.next h.laneRise.toHunt) (.ite (.next h.laneRise.setRegFld.withSprue.sprueEval) (.next h.laneRise.withSprue))) (.next h.laneRise))))

theorem State.Formed.badHeader (h : s.Formed) {g m : Nat} : (s.badHeader g m).Formed := by
  unfold State.badHeader
  extract_lets +onlyGivenNames k n s1
  have hs1 : s1.Formed := h.incReg.cellErr.slotLost
  exact .ite hs1.toHunt hs1.withSprue

theorem execMarkerTimeout_formed (h : s.Formed) {g m : Fin 16} : Out.Formed (execMarkerTimeout g m s) :=
  .ite (.next h) (.ite (.next h.toHunt) (.next h))

theorem execLossOfSignal_formed (h : s.Formed) {g m : Fin 16} : Out.Formed (execLossOfSignal g m s) := by
  unfold execLossOfSignal
  split
  · exact .next h
  · split
    · exact .next h
    · exact .ite (.next h.laneFall.sprueEval) (.next h.laneFall.toHunt)

theorem execSkewFail_formed (h : s.Formed) {g m : Fin 16} : Out.Formed (execSkewFail g m s) :=
  .ite (.next h) (.ite (.next h.setMemBit.sprueEval) (.next h))

theorem execMemberAccept_formed (h : s.Formed) {g m : Fin 16} : Out.Formed (execMemberAccept g m s) :=
  .ite (.next h) (.ite (.next h) (.next h.setMemBit.updReg.groupEval))

theorem execMemberRemove_formed (h : s.Formed) {g m : Fin 16} {cond : MemberCond} : Out.Formed (execMemberRemove g m cond s) :=
  .ite (.next h) (.ite (.next h.sprueEval) (.ite (.next h.sprueEval) (.next h.setMemBit.sprueEval)))

theorem State.Formed.rdiIn (h : s.Formed) {g m : Nat} {rdi : Bool} : (s.rdiIn g m rdi).Formed := .ite h h.setMemBit.sprueEval

theorem State.Formed.rxStep (h : s.Formed) {g m : Nat} : (s.rxStep g m).Formed := h.withSprue

theorem execIdleRx_formed (h : s.Formed) {g m : Fin 16} {rdi : Bool} : Out.Formed (execIdleRx g m rdi s) :=
  .ite (.next h) (.ite (.next h.rdiIn.rxStep) (.next h))

theorem State.Formed.markLag (h : s.Formed) {g m seq : Nat} : (s.markLag g m seq).2.Formed := by
  unfold State.markLag
  extract_lets +onlyGivenNames k x now mark
  split
  · exact .ite_snd h.withSprue (.ite_snd h.withSprue h.withSprue)
  · exact h.withSprue

theorem State.Formed.markerIn (h : s.Formed) {g m : Nat} {rdi : Bool} {gid mem seq active rx : Nat} :
    (s.markerIn g m rdi gid mem seq active rx).Formed := by
  unfold State.markerIn
  extract_lets +onlyGivenNames pg r idBad memBad s1 s2
  have hs1 : s1.Formed := h.setMemBit
  have hs2 : s2.Formed := by
    unfold s2
    split
    · exact hs1.updReg
    · split
      rename_i s3 e1
      have hs3 : s3.Formed := .of_snd e1 hs1.updReg.markLag
      extract_lets +onlyGivenNames s4
      have hs4 : s4.Formed := by
        unfold s4
        split
        · exact hs3.setRegFld.setMemBit
        · exact hs3.setMemBit
      exact hs4.setRegFld.setRegFld
  exact hs2.groupEval

theorem execMarkerRx_formed (h : s.Formed) {g m : Fin 16} {rdi : Bool} {gid : BitVec 16} {mem : BitVec 4} {seq : BitVec 32} {active rx : BitVec 16} :
    Out.Formed (execMarkerRx g m rdi gid mem seq active rx s) :=
  .ite (.next h) (.ite (.next h.markerIn.rxStep) (.next h))

theorem execMarkerTx_formed (h : s.Formed) {g : Fin 16} : Out.Formed (execMarkerTx g s) := .ite (.next h) (.next (.ite h.oweMarker h))

theorem State.Formed.testCtrl (h : s.Formed) {g : Nat} {badHec : Bool} : (s.testCtrl g badHec).Formed := .ite h.withSprue h

theorem State.Formed.flowIn (h : s.Formed) {g m : Nat} {es : List (Nat × Nat)} : (s.flowIn g m es).Formed := h.incReg.withSprue

theorem State.Formed.flowTake (h : s.Formed) : s.flowTake.Formed := { h with flow := Store.wf_foldl_put _ _ _ h.flow }

theorem execFlowStatusRx_formed (h : s.Formed) {g m : Fin 16} {entries : List (BitVec 12 × Byte)} : Out.Formed (execFlowStatusRx g m entries s) :=
  .ite (.next h) (.ite (.next h.flowIn.rxStep) (.next h))

theorem execFlowStatusExpire_formed (h : s.Formed) {g m : Fin 16} {dev : BitVec 12} : Out.Formed (execFlowStatusExpire g m dev s) := by
  unfold execFlowStatusExpire
  extract_lets k
  have erased : { s with sprue := { s.sprue with flow := Store.erase k s.sprue.flow } }.Formed := { h with flow := Store.wf_erase _ _ _ h.flow }
  exact .ite (.next h) (.ite (.next h) (.next erased.incReg))

theorem State.Formed.spareIdle (h : s.Formed) {l : Nat} : (s.spareIdle l).Formed := by
  unfold State.spareIdle
  exact h.withSprue.putCell

theorem State.Formed.rehome (h : s.Formed) {g : Nat} : (s.rehome g).Formed := by
  unfold State.rehome
  split
  · exact h
  · exact .foldl h fun h => .ite h h.withSprue

theorem State.Formed.sendSlot (h : s.Formed) {g m : Nat} : (s.sendSlot g m).Formed := by
  unfold State.sendSlot
  extract_lets +onlyGivenNames k
  split
  · exact h.sendIdle
  · split
    · exact h.withSprue.sendCell
    · extract_lets +onlyGivenNames q
      split
      · split
        · exact h.withSprue.sendCell
        · exact h.sendIdle
      · exact h.sendIdle

theorem State.Formed.takeMask (h : s.Formed) {g : Nat} : (s.takeMask g).Formed := .ite h h.withSprue

theorem State.Formed.sprueSlot (h : s.Formed) : s.sprueSlot.Formed := by
  unfold State.sprueSlot
  extract_lets +onlyGivenNames s1 s2 s3
  have hs1 : s1.Formed := h.flowTake
  have hs2 : s2.Formed := by
    unfold s2
    refine .foldl hs1 fun h1 => ?_
    split
    · exact h1
    · extract_lets +onlyGivenNames s4 s5 s6
      have hs4 : s4.Formed := .foldl h1 fun h => .ite h h.slotLost.binMark
      have hs5 : s5.Formed := .ite hs4 hs4.binMark
      have hs6 : s6.Formed := hs5.takeMask.rehome
      split
      · exact .ite hs6.withSprue.sendMarkers hs6.withSprue
      · exact .foldl hs6 fun h => .ite h.sendSlot h
  have hs3 : s3.Formed := .foldl hs2 fun h => h.spareIdle
  exact hs3.withSprue

/-! ### Relay -/

theorem State.Formed.sendRelayCell (h : s.Formed) {flags seq : Nat} {addr mask : Word} {data : List Word} :
    (s.sendRelayCell flags seq addr mask data).Formed := by
  unfold State.sendRelayCell
  cases e : s.sendControl s.jointGroups s.otherDev (20 + 4 * data.length) (relayBytes flags seq data.length addr mask data) with
  | none => exact h
  | some t => exact h.sendControl e

theorem State.Formed.sendRelay (h : s.Formed) {r : Relay} : (s.sendRelay r).Formed := h.sendRelayCell

theorem State.Formed.pumpRelays (h : s.Formed) : s.pumpRelays.Formed := .foldl h.withPair fun h => h.sendRelay.incReg

theorem State.Formed.putRelay (h : s.Formed) {r : Relay} : (s.putRelay r).Formed := h.withPair.pumpRelays

theorem State.Formed.relayWords (h : s.Formed) {agent : Nat} {mirror read fixed : Bool} {addr : Nat} {mask : Option Word} {data : List Word} :
    (s.relayWords agent mirror read fixed addr mask data).Formed :=
  .foldl_fst h fun h => h.putRelay

theorem State.Formed.relayTold (h : s.Formed) {agent addr : Nat} {l : List Word} : (s.relayTold agent addr l).Formed := h.relayWords

theorem State.Formed.journalWrite (h : s.Formed) {p o : Nat} {mask data : Word} : (s.journalWrite p o mask data).Formed := .ite h.journal h

/-! ### Commit -/

theorem State.Formed.relayArm (h : s.Formed) {r : OpRec} {t1 : Nat} : (s.relayArm r t1).Formed := h.relayTold

theorem State.Formed.relayAbort (h : s.Formed) {r : OpRec} : (s.relayAbort r).Formed := .ite h.relayTold h

theorem State.Formed.freeBoth (h : s.Formed) {r : OpRec} : (s.freeBoth r).Formed := .freePending (.ite h.relayTold h)

theorem State.Formed.askPartner (h : s.Formed) {r : OpRec} {k : Word} : (s.askPartner r k).Formed := .ite h h.relayTold

theorem State.Formed.dropCommit (h : s.Formed) : s.dropCommit.Formed := h.withTab

theorem State.Formed.failCommit (h : s.Formed) {slot : Nat} {r : OpRec} {res : Status} : (s.failCommit slot r res).Formed :=
  h.setOp.relayAbort.endOp.dropCommit

theorem State.Formed.switchEpoch (h : s.Formed) {slot : Nat} {r : OpRec} {late : Bool} : (s.switchEpoch slot r late).Formed := by
  unfold State.switchEpoch
  extract_lets +onlyGivenNames st pe n s1 s2 s3
  have hs2 : s2.Formed := h.withTab
  have hs3 : s3.Formed := hs2.advanceEpoch
  exact .ite hs3.setOp.commitDone hs3.setOp

theorem State.Formed.drivenSwitch (h : s.Formed) {no : Nat} : (s.drivenSwitch no).Formed := by
  unfold State.drivenSwitch
  extract_lets +onlyGivenNames s1
  have hs1 : s1.Formed := .ite h.retire h
  exact hs1.advanceEpoch.clrReg

theorem State.Formed.armCommit (h : s.Formed) {slot : Nat} {r : OpRec} : (s.armCommit slot r).Formed :=
  .ite h.setOp.endOp.dropCommit (.ite h.setOp.withTab.relayArm.journal (.ite h.switchEpoch (.ite h.setOp.withTab.journal h.setOp)))

theorem State.Formed.pairedSwitch (h : s.Formed) {slot : Nat} {r : OpRec} : (s.pairedSwitch slot r).Formed := by
  unfold State.pairedSwitch
  split
  · exact h
  · exact .ite (.ite h.switchEpoch h) (.ite h.failCommit.orReg h)

theorem State.Formed.armedSwitch (h : s.Formed) {slot : Nat} {r : OpRec} : (s.armedSwitch slot r).Formed := .ite h.pairedSwitch (.ite h h.switchEpoch)

theorem State.Formed.dueSwitch (h : s.Formed) : s.dueSwitch.Formed := by
  unfold State.dueSwitch
  split
  · exact .ite h.armedSwitch h
  · exact h

theorem State.Formed.waitCommit (h : s.Formed) {slot : Nat} {r : OpRec} : (s.waitCommit slot r).Formed := .ite h (.ite h.askPartner h.armCommit)

theorem execEpochSwitch_formed (h : s.Formed) : Out.Formed (execEpochSwitch s) := by
  unfold execEpochSwitch
  split
  · exact .next h
  · split
    · exact .next h
    · split
      · split
        · exact .next (.ite h.drivenSwitch h)
        · exact .next h
      · split
        · exact .next h
        · exact .ite (.next h) (.ite (.next h.waitCommit) (.ite (.next h.armedSwitch) (.next h)))

theorem execMergeDone_formed (h : s.Formed) : Out.Formed (execMergeDone s) := by
  unfold execMergeDone
  split
  · exact .next h
  · split
    · exact .ite (.next h) (.ite (.next h.askPartner) (.next h.commitDone.raise))
    · exact .next h

theorem State.Formed.epochStepped (h : s.Formed) : s.epochStepped.Formed := by
  unfold State.epochStepped
  split
  · exact h
  · split
    · split
      · exact h.failCommit
      · split
        · exact h.switchEpoch
        · split
          · exact .ite h.withTab.relayArm h
          · exact h
    · exact h

theorem State.Formed.epochLeft (h : s.Formed) : s.epochLeft.Formed := by
  unfold State.epochLeft
  extract_lets +onlyGivenNames l s1
  have hs1 : s1.Formed := .ite h.dropCommit h
  exact .foldl hs1 fun h => .ite h.failCommit h.setOp.endOp

theorem State.Formed.epochDisabled (h : s.Formed) : s.epochDisabled.Formed := h.epochLeft.freePending

/-! ### Login -/

theorem State.Formed.answer (h : s.Formed) {st : Status} : (s.answer st).2.2.Formed := h

theorem State.Formed.setSession (h : s.Formed) {a : Agent} {n rights : Nat} : (s.setSession a n rights).Formed := by
  unfold State.setSession
  split
  · exact h.setReg
  · exact h.setReg
  · exact h.withHost
  · exact h

theorem State.Formed.endSession (h : s.Formed) {a : Agent} {cause : Nat} : (s.endSession a cause).Formed := .ite h h.setSession.audit

theorem State.Formed.loginFail (h : s.Formed) {a : Agent} {role cause : Nat} : (s.loginFail a role cause).Formed := by
  unfold State.loginFail
  extract_lets +onlyGivenNames n s1 s2 s3
  have hs2 : s2.Formed := h.withHost
  have hs3 : s3.Formed := hs2.incReg.raise
  exact .ite hs3.audit hs3.audit.withHost

theorem loginChallenge_formed (h : s.Formed) {a : Agent} {ws : List Word} : (loginChallenge a ws s).2.2.Formed :=
  .ite_snd_snd h.loginFail.answer (.ite_snd_snd h.answer (.ite_snd_snd h.loginFail.answer h.fresh.withHost))

theorem loginResponse_formed (h : s.Formed) {a : Agent} {ws : List Word} : (loginResponse a ws s).2.2.Formed := by
  unfold loginResponse
  extract_lets +onlyGivenNames w0 role ch _ s1
  have hs1 : s1.Formed := h.withHost
  clear_value ch
  split
  · exact hs1.loginFail.answer
  · exact .ite_snd_snd hs1.answer (.ite_snd_snd hs1.loginFail.answer (.ite_snd_snd hs1.loginFail.answer hs1.withHost.fresh.setSession.audit))

theorem logoutCmd_formed (h : s.Formed) {a : Agent} {session : Nat} : (logoutCmd a session s).2.2.Formed := .ite_snd_snd h.answer h.endSession.answer

theorem State.Formed.resetSession (h : s.Formed) {a : Agent} : (s.resetSession a).Formed := h.endSession

theorem State.Formed.keyCommit (h : s.Formed) {a : Agent} {role : Nat} : (s.keyCommit a role).2.Formed := .ite_snd h.orReg h.orReg.withNvm

theorem State.Formed.noteWear (h : s.Formed) {k : Nat} : (s.noteWear k).Formed := by
  unfold State.noteWear
  extract_lets +onlyGivenNames n s1 m s2
  have hm : m.Formed := h.withNvm
  exact .ite hm.setReg.raise hm.setReg

theorem State.Formed.dropRight (h : s.Formed) {keep : Agent × Nat} {role : Nat} {a : Agent} : (s.dropRight keep role a).Formed :=
  .ite h (.ite h.endSession h.setSession)

theorem execKeyCommitDone_formed (h : s.Formed) : Out.Formed (execKeyCommitDone s) := by
  unfold execKeyCommitDone
  refine .ite (.next h) ?_
  split
  · exact .next h
  · refine .ite (.next h.clrReg.orReg.withNvm) ?_
    extract_lets +onlyGivenNames v gen _ nv place s1 s2 s3 s4 s5 s6
    have kept : nv.bytes = s.nvm.bytes := by
      unfold nv
      split <;> rfl
    have hs1 : s1.Formed := (h.withNvm kept).noteWear
    have hs4 : s4.Formed := .foldl hs1.setRegFld.clrReg.updReg fun h => h.setReg
    exact .next hs4.raise.auditBy.dropRight.dropRight.dropRight

theorem execChallengeExpire_formed (h : s.Formed) {h1 : HostAgent} : Out.Formed (execChallengeExpire h1 s) := .ite (.next h) (.next h.withHost)

theorem execSessionIdleExpire_formed (h : s.Formed) {h1 : HostAgent} : Out.Formed (execSessionIdleExpire h1 s) :=
  .ite (.next h) (.next (.ite h h.endSession))

theorem execLockoutExpire_formed (h : s.Formed) {h1 : HostAgent} : Out.Formed (execLockoutExpire h1 s) := .ite (.next h) (.next h.withHost)

theorem State.Formed.auditSlot (h : s.Formed) {agent target slot : Nat} : (s.auditSlot agent target slot).Formed := h.audit

theorem State.Formed.storeAudit (h : s.Formed) {r : AuditRec} : (s.storeAudit r).Formed := by
  unfold State.storeAudit
  extract_lets +onlyGivenNames n r1 s1 s2 s3 n1 s4
  have hs2 : s2.Formed := h.withNvm
  have hs3 : s3.Formed := hs2.setReg
  have hn1 : n1.Formed := .ite hs3.incReg hs3
  exact .ite hn1.setReg.raise hn1.setReg

theorem State.Formed.auditOverrun (h : s.Formed) : s.auditOverrun.Formed := .ite h h.withNvm.raise

theorem execAuditRecordWrite_formed (h : s.Formed) : Out.Formed (execAuditRecordWrite s) := by
  unfold execAuditRecordWrite
  split
  · exact .next h
  · split
    · exact .next h
    · exact .next h.withNvm.storeAudit.auditOverrun

theorem logReadCmd_formed (h : s.Formed) {rights : Nat} {ws : List Word} : (logReadCmd rights ws s).2.2.Formed :=
  .ite_snd_snd h.deny.answer (.ite_snd_snd h.answer h)

/-! ### Locks -/

theorem State.Formed.cancelWork (h : s.Formed) {r : OpRec} : (s.cancelWork r).Formed := by
  unfold State.cancelWork
  split
  · exact h.relayAbort.freeBoth.dropCommit
  · exact h.setTesting
  · exact .ite h.clrReg.auditSlot h
  · exact h

theorem State.Formed.opCancel (h : s.Formed) {slot : Nat} {r : OpRec} {broken : Bool} : (s.opCancel slot r broken).2.Formed := by
  unfold State.opCancel
  extract_lets +onlyGivenNames s1 r1 res end_
  have hs1 : s1.Formed := .ite h.dueSwitch h
  have hend_ : ∀ {x0}, State.Formed x0 → State.Formed (end_ x0) := by
    intro x0 h
    unfold end_
    exact h.updOp.endOp
  split
  · exact (hend_ (.ite hs1.setOp.freeBoth hs1))
  · exact .ite_snd (hend_ hs1.setOp.cancelWork) hs1
  · exact .ite_snd (hend_ hs1.setOp.cancelWork) hs1
  · exact hs1

theorem State.Formed.lockWrite (h : s.Formed) {a : Agent} {k v : Nat} : (s.lockWrite a k v).2.Formed := by
  unfold State.lockWrite
  extract_lets +onlyGivenNames o
  split
  · exact .ite_snd h (.ite_snd h (.ite_snd h h.setReg))
  · split
    · split
      · exact h
      · split
        · dsimp only
          exact h.updReg
        · exact h
    · exact h

theorem State.Formed.breakOps (h : s.Formed) {k id : Nat} : (s.breakOps k id).Formed := by
  unfold State.breakOps
  refine .foldl h fun h1 => ?_
  split
  · exact h1
  · split
    · split
      next s1 e2 =>
        have hs1 : s1.Formed := .of_snd e2 h1.opCancel
        exact hs1
      next s1 _ e3 =>
        have hs1 : s1.Formed := .of_snd e3 h1.opCancel
        exact hs1.updOp
    · exact h1

theorem State.Formed.breakLock (h : s.Formed) {id k : Nat} : (s.breakLock id k).Formed := h.breakOps.updReg.orReg

theorem State.Formed.breakLocks (h : s.Formed) {id : Nat} : (s.breakLocks id).Formed := by
  unfold State.breakLocks
  extract_lets +onlyGivenNames l s1
  have hs1 : s1.Formed := .foldl h fun h => h.breakLock
  exact .ite hs1 hs1.raise

theorem State.Formed.ownerReset (h : s.Formed) {a : Agent} : (s.ownerReset a).Formed := h.breakLocks.resetSession

theorem execMgmtLinkLoss_formed (h : s.Formed) : Out.Formed (execMgmtLinkLoss s) := .ite (.next h) (.ite (.next h) (.next h.ownerReset))

theorem execFatalFaultEntry_formed (h : s.Formed) {k : Fin 4} : Out.Formed (execFatalFaultEntry k s) := .ite (.next h) (.next h.ownerReset)

/-! ### Sched -/

theorem State.Formed.setV (h : s.Formed) {n b v : Nat} : (s.setV n b v).Formed := h.withSched

theorem State.Formed.offerF (h : s.Formed) {k len : Nat} : (s.offerF k len).Formed := h.setWin

theorem State.Formed.joinR (h : s.Formed) {n k : Nat} : (s.joinR n k).Formed := h.setWin.withSched

theorem State.Formed.leaveR (h : s.Formed) {n k : Nat} : (s.leaveR n k).Formed := h.withSched

theorem State.Formed.pickChild (h : s.Formed) {n : Nat} {r : List Nat} {flat : Bool} {k : Nat} {t : State} (e : s.pickChild n r flat = some (k, t)) :
    t.Formed := by
  unfold State.pickChild at e
  dsimp only at e
  split at e
  · cases e
  · split at e
    · cases e
    · cases e
      exact h.setV

theorem State.Formed.served (h : s.Formed) {n k len : Nat} {r : List Nat} : (s.served n k len r).Formed := by
  unfold State.served
  extract_lets +onlyGivenNames b rb w s1 m v s2
  have hs1 : s1.Formed := h.setWin
  have hs2 : s2.Formed := hs1.setV
  exact .ite hs2.setWin hs2

theorem State.Formed.closeAfter (h : s.Formed) {q : Nat} : (s.closeAfter q).Formed := .ite h.closeIfEmpty.closeIfEmpty h.closeIfEmpty

theorem State.Formed.dropHeld (h : s.Formed) {c : Copy} : (s.dropHeld c).Formed := by
  unfold State.dropHeld
  extract_lets +onlyGivenNames s1 s2
  have hs1 : s1.Formed := h.removeCopy.closeAfter
  have hs2 : s2.Formed := .ite hs1.freeVoqs hs1
  exact .ite hs2.incReg hs2

theorem State.Formed.purgeHead (h : s.Formed) {p q : Nat} {flush : Bool} {n : Nat} : (s.purgeHead p q flush n).Formed := by
  induction n generalizing s with
  | zero => exact h
  | succ n ih =>
    unfold State.purgeHead
    split
    · exact h
    · exact .ite (ih h.dropHeld.incReg) (.ite (.ite (ih h.dropHeld.gwInc.incReg.raise) h.setQueue) h)

theorem State.Formed.noteShortage (h : s.Formed) {p q : Nat} : (s.noteShortage p q).Formed := .ite h (.ite h.withBuf.gwInc h.withBuf)

theorem State.Formed.refreshQueue (h : s.Formed) {p q : Nat} {flush : Bool} : (s.refreshQueue p q flush).Formed := by
  unfold State.refreshQueue
  extract_lets +onlyGivenNames s1 g in_
  have hs1 : s1.Formed := h.purgeHead.noteShortage
  split
  · exact .ite hs1.leaveR hs1
  · split
    · exact hs1
    · extract_lets +onlyGivenNames s2
      have hs2 : s2.Formed := .ite hs1 hs1.joinR
      exact .ite hs2 hs2.offerF.withSched

theorem State.Formed.refreshGroup (h : s.Formed) {p : Nat} {qs : List Nat} {flush : Bool} {g : Nat} : (s.refreshGroup p qs flush g).Formed := by
  unfold State.refreshGroup
  extract_lets +onlyGivenNames r in_
  split
  · exact .ite h.leaveR h
  · extract_lets +onlyGivenNames o
    split
    · exact h
    · split
      · exact h
      next s1 e2 =>
        have hs1 : s1.Formed := h.pickChild e2
        extract_lets +onlyGivenNames len s2 s3
        have hs2 : s2.Formed := .ite hs1 hs1.joinR
        have hs3 : s3.Formed := hs2.offerF
        exact hs3.withSched

theorem State.Formed.refreshPort (h : s.Formed) {p : Nat} {flush : Bool} : (s.refreshPort p flush).Formed := by
  unfold State.refreshPort
  extract_lets +onlyGivenNames s1 qs s2
  have hs1 : s1.Formed := h.purgeHead
  have hs2 : s2.Formed := .foldl hs1 fun h => h.refreshQueue
  exact .foldl hs2 fun h => h.refreshGroup

theorem State.Formed.ecnRelease (h : s.Formed) {c : Copy} : (s.ecnRelease c).2.Formed := by
  unfold State.ecnRelease
  extract_lets +onlyGivenNames q w
  split
  · exact h
  · split
    rename_i s1 e1
    have hs1 : s1.Formed := .of_snd e1 h.fresh
    extract_lets +onlyGivenNames t hit f
    split
    · exact hs1
    · exact hs1.incReg
    · exact hs1.incReg
    · exact .ite_snd hs1.incReg hs1

theorem State.Formed.stampCopy (h : s.Formed) {p : Nat} {c : Copy} : (s.stampCopy p c).2.Formed := by
  unfold State.stampCopy
  extract_lets +onlyGivenNames f
  split
  · exact h
  · split
    · exact h
    · extract_lets +onlyGivenNames d st c1 w own sync
      split
      · exact h
      · split
        · dsimp only
          exact h.updWin
        · exact .ite_snd h.queueStamp h

theorem State.Formed.fifoDiscard (h : s.Formed) {p : Nat} {c : Copy} {ringFull : Bool} {t : State} (e : s.fifoDiscard p c ringFull = some t) :
    t.Formed := by
  unfold State.fifoDiscard at e
  dsimp only at e
  split at e
  · split at e
    · cases e
      exact h.incReg
    · cases e
  · split at e
    · cases e
      exact .ite h.incReg h.macCount
    · split at e
      · cases e
        exact h.incReg
      · cases e

theorem State.Formed.noteCellReads (h : s.Formed) {c : Copy} : (s.noteCellReads c).2.Formed := by
  unfold State.noteCellReads
  refine .foldl_snd h fun h1 => ?_
  exact h1.cellBank.pmuCopy

theorem State.Formed.eccFound (h : s.Formed) {ecc : Option Bool} : (s.eccFound ecc).Formed := by
  unfold State.eccFound
  split
  · exact h.incReg.raise.incReg
  · exact h.incReg
  · exact h

theorem State.Formed.startTx (h : s.Formed) {p : Nat} {c : Copy} {ringFull : Bool} {ecc : Option Bool} : (s.startTx p c ringFull ecc).Formed := by
  unfold State.startTx
  extract_lets +onlyGivenNames lost
  have hlost : ∀ {s : State}, s.Formed → (lost s).Formed := fun h => .ite h.releaseCopy.incReg h.releaseCopy
  split
  next info t e =>
    have ht : t.Formed := .of_snd e h.noteCellReads
    extract_lets +onlyGivenNames c1 s1
    have hs1 : s1.Formed := ht.eccFound
    refine .ite (hlost hs1) ?_
    split
    next u e => exact hlost (hs1.fifoDiscard e)
    · extract_lets +onlyGivenNames s2
      have hs2 : s2.Formed := .ite hs1.incReg hs1
      split
      next c2 u e =>
        have hu : u.Formed := .of_snd e hs2.stampCopy
        have sent : { u with buf := { u.buf with fifo := Store.set [] p [c2] u.buf.fifo } }.Formed :=
          { hu with fifo := Store.wf_put _ p [c2] _ hu.fifo }
        exact .ite sent.skimFire sent

theorem State.Formed.chargePath (h : s.Formed) {p q : Nat} {len : Int} : (s.chargePath p q len).Formed :=
  .ite h.chargeNode.chargeNode.chargeNode h.chargeNode

theorem State.Formed.takeCopy (h : s.Formed) {p : Nat} {c : Copy} {flush ringFull : Bool} {ecc : Option Bool} :
    (s.takeCopy p c flush ringFull ecc).Formed := by
  unfold State.takeCopy
  extract_lets +onlyGivenNames len s1
  have hs1 : s1.Formed := .ite h h.chargePath
  split
  rename_i s2 e
  have hs2 : s2.Formed := .of_snd e (.ite_snd hs1 hs1.ecnRelease)
  extract_lets +onlyGivenNames s3 c1
  have hs3 : s3.Formed := hs2.dequeue.closeAfter
  exact .ite (.ite hs3.releaseCopy.mapDrop.incReg hs3.releaseCopy.mapDrop) (.ite (.ite hs3.releaseCopy.incReg hs3.releaseCopy) hs3.startTx)

theorem State.Formed.selectTree (h : s.Formed) {p : Nat} {flush ringFull : Bool} {ecc : Option Bool} :
    (s.selectTree p flush ringFull ecc).Formed := by
  unfold State.selectTree
  extract_lets +onlyGivenNames qs gs
  split
  · exact h
  · split
    · exact h
    next s1 e1 =>
      have hs1 : s1.Formed := h.pickChild e1
      extract_lets +onlyGivenNames q1
      split
      · exact hs1
      · exact .ite hs1 hs1.served.served.withSched.takeCopy

theorem State.Formed.selectOne (h : s.Formed) {p : Nat} {ringFull : Bool} {ecc : Option Bool} : (s.selectOne p ringFull ecc).Formed := by
  unfold State.selectOne
  extract_lets +onlyGivenNames flush s1
  have hs1 : s1.Formed := h.refreshPort
  split
  · exact hs1
  · split
    · split
      · exact .ite hs1.takeCopy hs1
      · exact hs1
    · exact hs1.selectTree

theorem execTmSelect_formed (h : s.Formed) {port : Fin 242} {ringFull : Bool} {ecc : Option Bool} : Out.Formed (execTmSelect port ringFull ecc s) :=
  .ite (.next h) (.ite (.next h) (.ite (.next h.selectOne.selectTree) (.next h.selectOne)))

theorem execWdTrip_formed (h : s.Formed) {port : Fin 240} {cls : Fin 8} : Out.Formed (execWdTrip port cls s) :=
  .ite (.next h) (.ite (.next h.orReg.incReg.raise) (.next h))

theorem execWdRestore_formed (h : s.Formed) {port : Fin 240} {cls : Fin 8} : Out.Formed (execWdRestore port cls s) := .ite (.next h) (.next h.clrReg)

theorem execDownHoldExpire_formed (h : s.Formed) {port : Fin 242} : Out.Formed (execDownHoldExpire port s) := .ite (.next h) (.next h.withSched)

theorem execGateSwitch_formed (h : s.Formed) {port : Fin 242} : Out.Formed (execGateSwitch port s) :=
  .ite (.next h) (.ite (.next h) (.ite (.next h.gateDrop) (.next (.foldl h.gateApply fun h => h.purgeHead))))

theorem execGateTransition_formed (h : s.Formed) {port : Fin 242} : Out.Formed (execGateTransition port s) :=
  .ite (.next h) (.next (.ite h.refreshPort h))

/-! ### Mac -/

theorem State.Formed.mapFrames (h : s.Formed) {id : Nat} {f : Frame → Frame} : (s.mapFrames id f).Formed := by
  have kept : ∀ (g : Copy → Copy) (m : List (Nat × List Copy)), Store.wf (fun _ => []) m = true →
      Store.wf (fun _ => []) (m.map (fun e => (e.1, e.2.map g))) = true := fun g m =>
    Store.wf_map _ (fun _ l => l.map g) (fun _ _ hl => fun hm => hl (List.map_eq_nil_iff.mp hm)) m
  exact { h with queues := kept _ _ h.queues, fifo := kept _ _ h.fifo }

theorem State.Formed.txAbort (h : s.Formed) {p : Nat} : (s.txAbort p).Formed := by
  unfold State.txAbort
  split
  · exact h
  next c _ _ =>
    extract_lets +onlyGivenNames wire _ _ s1 s2
    have sent : { s with buf := { s.buf with fifo := Store.erase p s.buf.fifo }, port := { s.port with wire := wire } }.Formed :=
      { h with fifo := Store.wf_erase _ _ _ h.fifo }
    have hs2 : s2.Formed := .ite sent.releaseCopy.incReg sent.releaseCopy
    exact State.Formed.macCount (.ite hs2.incReg hs2)

theorem State.Formed.setFifo (h : s.Formed) {p : Nat} {l : List Copy} :
    { s with buf := { s.buf with fifo := Store.set [] p l s.buf.fifo } }.Formed := { h with fifo := Store.wf_put _ _ _ _ h.fifo }

theorem State.Formed.mapFifo (h : s.Formed) {f : Copy → Copy} :
    { s with buf := { s.buf with fifo := s.buf.fifo.map (fun (e : Nat × List Copy) => (e.1, e.2.map f)) } }.Formed :=
  { h with fifo := Store.wf_map _ (fun _ l => l.map f) (fun _ _ hl => fun hm => hl (List.map_eq_nil_iff.mp hm)) _ h.fifo }

theorem State.Formed.frameEnd (h : s.Formed) {p id : Nat} {rest : List Byte} {bad : Bool} : (s.frameEnd p id rest bad).Formed := by
  unfold State.frameEnd
  extract_lets +onlyGivenNames _ s1 s2 mine
  have hs1 : s1.Formed := { h with arriving := Store.setWf_erase _ _ h.arriving }
  have hs2 : s2.Formed := hs1.mapFrames
  split
  · extract_lets +onlyGivenNames s3 ct fifo
    have hs3 : s3.Formed := .foldl hs2 fun h => h.dropHeld
    exact hs3.mapFifo.addReg.incReg
  · extract_lets +onlyGivenNames s3 s4 s5
    have hs3 : s3.Formed := .foldl hs2 fun h => h.trimCopy.setQueue
    have hs4 : s4.Formed := .foldl hs3 fun h => .foldl h fun h => .ite h h.trimCopy.setFifo
    exact .foldl hs4.noteCells fun h => .foldl h fun h => .ite h.chargePath h

theorem State.Formed.portFell (h : s.Formed) {p : Nat} : (s.portFell p).Formed := by
  unfold State.portFell
  extract_lets +onlyGivenNames s1 s2 s3
  have hs1 : s1.Formed := h.txAbort
  have hs2 : s2.Formed := by
    unfold s2
    split
    · exact hs1.frameEnd
    · exact hs1
  exact .ite hs2.withPort.withSched hs2.withPort

theorem State.Formed.portRose (h : s.Formed) {p : Nat} : (s.portRose p).Formed := h.withSched

theorem State.Formed.clientsFollow (h : s.Formed) {old : State} : (State.clientsFollow old s).Formed :=
  .foldl h fun h => .ite h.portFell (.ite h.portRose h)

theorem State.Formed.setLine (h : s.Formed) {p : Nat} {up : Bool} : (s.setLine p up).Formed :=
  .ite h (.clientsFollow (.flexEval (.ite h.updReg.raise.portRose h.updReg.raise.portFell)))

theorem State.Formed.setMgmtUp (h : s.Formed) {up : Bool} : (s.setMgmtUp up).Formed := by
  unfold State.setMgmtUp
  split
  · exact h
  · extract_lets +onlyGivenNames s1
    have hs1 : s1.Formed := h.updReg.updReg
    exact .ite hs1.portRose hs1.portFell.squelch

theorem execLinkUp_formed (h : s.Formed) {port : Fin 242} : Out.Formed (execLinkUp port s) := by
  unfold execLinkUp
  split
  · exact .next h
  · extract_lets +onlyGivenNames p
    split
    · split
      · extract_lets +onlyGivenNames s1 s2
        have hs1 : s1.Formed := .foldl h fun h => h.laneRise
        have hs2 : s2.Formed := hs1.updReg
        exact .next (.ite hs2.setLine hs2)
      · exact .next h
    · exact .ite (.ite (.next (.ite h.clrReg.setMgmtUp h.clrReg)) (.next h)) (.next h)

theorem execLinkDown_formed (h : s.Formed) {port : Fin 242} {localFault remoteFault : Bool} {noSignal noLock : optParam Byte 0} :
    Out.Formed (execLinkDown port localFault remoteFault s noSignal noLock) := by
  unfold execLinkDown
  split
  · exact .next h
  · extract_lets +onlyGivenNames p
    split
    · extract_lets +onlyGivenNames s1
      have hs1 : s1.Formed := by
        unfold s1
        refine .foldl h fun h1 => ?_
        extract_lets +onlyGivenNames s2
        have hs2 : s2.Formed := .ite h1.laneFall h1
        exact .ite hs2.laneFall hs2
      exact .next hs1.updReg.setLine
    · exact .ite (.next h.updReg.setMgmtUp) (.next h)

theorem State.Formed.pfcReceived (h : s.Formed) {p enable : Nat} {quanta : Nat → Nat} : (s.pfcReceived p enable quanta).Formed :=
  .ite h.macCount h.macCount.updReg

theorem State.Formed.stampIn (h : s.Formed) {p : Nat} {f : List Byte} {ended : Bool} : (s.stampIn p f ended).2.Formed := by
  unfold State.stampIn
  split
  · exact h
  · split
    · dsimp only
      exact h.updWin
    · exact h

theorem State.Formed.countRx (h : s.Formed) {p : Nat} {f : List Byte} : (s.countRx p f).Formed := h.countFixed

theorem State.Formed.enterFifo (h : s.Formed) {p : Nat} {f : List Byte} {ended fifoFull : Bool} : (s.enterFifo p f ended fifoFull).Formed := by
  unfold State.enterFifo
  extract_lets +onlyGivenNames full _ s1
  have hs1 : s1.Formed := h.withBuf
  refine .ite hs1.incReg (.ite hs1.updWin ?_)
  split
  next st t e =>
    have ht : t.Formed := .of_snd e hs1.stampIn
    extract_lets +onlyGivenNames id seq x fifos arr _ s2
    have rising : Store.setWf (arr.map Prod.fst) = true := by
      unfold arr
      split
      · exact ht.arriving
      · exact Store.setWf_insert _ _ _ ht.arriving
    have hs2 : s2.Formed := { ht with arriving := rising }
    exact .ite hs2.countRx hs2

theorem State.Formed.rxWhole (h : s.Formed) {p : Nat} {f : List Byte} {fcsOk fifoFull : Bool} : (s.rxWhole p f fcsOk fifoFull).Formed :=
  .ite h.enterFifo (.ite h.enterFifo (.ite h.pfcReceived h.macCount))

theorem State.Formed.farFrame (h : s.Formed) {p : Nat} {f : List Byte} {fcsOk : Bool} : (s.farFrame p f fcsOk).Formed := .ite h.withPort h

theorem execFrameRx_formed (h : s.Formed) {port : Fin 242} {bytes : List Byte} {complete fcsOk fifoFull : Bool} :
    Out.Formed (execFrameRx port bytes complete fcsOk fifoFull s) := by
  unfold execFrameRx
  split
  · exact .next h
  · extract_lets +onlyGivenNames p whole s1
    have hs1 : s1.Formed := .ite h.farFrame h
    exact .ite (.next hs1) (.ite (.next hs1.rxWhole) (.ite (.next hs1.withPort) (.next hs1.enterFifo)))

theorem State.Formed.rxEnd (h : s.Formed) {p : Nat} {rest : List Byte} {fcsOk : Bool} : (s.rxEnd p rest fcsOk).Formed := by
  unfold State.rxEnd
  split
  · exact h.withPort.rxWhole
  · split
    · exact h
    · extract_lets +onlyGivenNames above rest1 bad s1 s2 first pcp s3
      have hs1 : s1.Formed := .ite h.incReg h
      have hs2 : s2.Formed := .ite hs1.macCount (.ite hs1.macCount hs1)
      have hs3 : s3.Formed := hs2.countFixed
      exact hs3.frameEnd

theorem execFrameEndRx_formed (h : s.Formed) {port : Fin 242} {rest : List Byte} {fcsOk : Bool} : Out.Formed (execFrameEndRx port rest fcsOk s) :=
  .ite (.next h) (.next h.rxEnd)

/-! ### Sched -/

theorem State.Formed.txDone (h : s.Formed) {p : Nat} {ecc : Option Bool} {f : List Byte} {good : Bool} {t : State}
    (e : s.txDone p ecc = some (f, good, t)) : t.Formed := by
  unfold State.txDone at e
  split at e
  · cases e
  next c rest _ =>
    split at e
    · cases e
    · extract_lets +onlyGivenNames f1 e1 bad wire _ _ s1 s2 s3 s4 s5 i at e
      have sent : { s with buf := { s.buf with fifo := Store.set [] p rest s.buf.fifo }, port := { s.port with wire := wire } }.Formed :=
        { h with fifo := Store.wf_put _ _ _ _ h.fifo }
      have hs3 : s3.Formed := sent.releaseCopy.eccFound.countFixed
      have hs4 : s4.Formed := .ite hs3.incReg hs3
      have hs5 : s5.Formed := .ite hs4.gwInc hs4
      simp only [Option.some.injEq, Prod.mk.injEq] at e
      obtain ⟨-, -, rfl⟩ := e
      exact hs5.pmuCopy

/-! ### Mac -/

theorem execFrameTxEnd_formed (h : s.Formed) {port : Fin 242} {ecc : Option Bool} : Out.Formed (execFrameTxEnd port ecc s) := by
  unfold execFrameTxEnd
  refine .ite (.next h) ?_
  extract_lets +onlyGivenNames p
  split
  · exact .next h
  next e =>
    have ht := h.txDone e
    exact .next (.ite ht.rxWhole ht)

theorem execPfcRx_formed (h : s.Formed) {port : Fin 240} {enable : Byte} {quanta : List (BitVec 16)} : Out.Formed (execPfcRx port enable quanta s) :=
  .ite (.next h) (.ite (.next h.pfcReceived) (.next h))

theorem execPfcPauseExpire_formed (h : s.Formed) {port : Fin 240} {cls : Fin 8} : Out.Formed (execPfcPauseExpire port cls s) :=
  .ite (.next h) (.next h.clrReg)

theorem execFlexeOverheadRx_formed (h : s.Formed) {g : Fin 16} {o : FlexeOverhead} : Out.Formed (execFlexeOverheadRx g o s) :=
  .ite (.next h) (.ite (.next h) (.next h.setRegFld.updReg.withPort.flexEval.clientsFollow))

theorem execCalendarSwitch_formed (h : s.Formed) {g : Fin 16} : Out.Formed (execCalendarSwitch g s) :=
  .ite (.next h) (.ite (.next h.updReg.withPort.raise.clientsFollow) (.next h))

/-! ### Learn -/

theorem State.Formed.refreshSeen (h : s.Formed) {ix : Nat} {e1 : MacEnt} : (s.refreshSeen ix e1).Formed := .ite h.setMac h

theorem State.Formed.learnRequest (h : s.Formed) {r : LearnReq} : (s.learnRequest r).Formed := .ite h.withTab (.ite h.incReg.raise h.withTab)

theorem State.Formed.countMove (h : s.Formed) {p : Nat} : (s.countMove p).Formed := by
  unfold State.countMove
  extract_lets +onlyGivenNames sec n s1 s2
  have hs2 : s2.Formed := .ite h h.withTab
  exact hs2.updWin.incReg

theorem State.Formed.learnOne (h : s.Formed) {r : LearnReq} : (s.learnOne r).Formed := by
  unfold State.learnOne
  extract_lets +onlyGivenNames dest
  split
  · split
    · exact h.updWin
    · split
      · exact h
      next s1 e2 =>
        have hs1 : s1.Formed := h.macInsert e2
        exact hs1.incReg.noteLearn.limitReached
  · exact .ite h (.ite h.refreshSeen (.ite h.incReg (.ite h.updWin h.setMac.countMove.noteLearn.limitReached)))

theorem execLearnInsert_formed (h : s.Formed) : Out.Formed (execLearnInsert s) := by
  unfold execLearnInsert
  split
  · exact .next h
  · split
    · exact .next h
    · exact .ite (.next h.withTab.learnOne) (.next h)

theorem execAgeSweep_formed (h : s.Formed) {row : BitVec 22} : Out.Formed (execAgeSweep row s) :=
  .ite (.next h) (.ite (.next h) (.next (.foldl h.setMac fun h => h.incReg.noteLearn)))

theorem execMoveStorm_formed (h : s.Formed) {port : Fin 243} : Out.Formed (execMoveStorm port s) := by
  unfold execMoveStorm
  split
  · exact .next h
  · extract_lets +onlyGivenNames p
    split
    exact .ite (.next (.ite h.raise.updWin h.raise)) (.next h)

theorem execMoveFreezeExpire_formed (h : s.Formed) {port : Fin 243} : Out.Formed (execMoveFreezeExpire port s) := .ite (.next h) (.next h.updWin)

/-! ### Pipeline -/

theorem State.Formed.pipesEval (h : s.Formed) : s.pipesEval.Formed := by
  unfold State.pipesEval
  refine .foldl h fun h1 => ?_
  exact .ite h1.setReg h1.setReg.raise

theorem State.Formed.pbpTest (h : s.Formed) {k : Nat} {f : Frame} : (s.pbpTest k f).2.Formed := by
  unfold State.pbpTest
  refine .foldl_snd h fun {r b} h => ?_
  obtain ⟨f, t⟩ := r
  refine .ite_snd h (.ite_snd h.setWin ?_)
  exact .ite h.updWin.updWin h.updWin

theorem State.Formed.enterPipe (h : s.Formed) {k : Nat} {f : Frame} : (s.enterPipe k f).Formed := by
  unfold State.enterPipe
  extract_lets +onlyGivenNames s1 s2
  have hs1 : s1.Formed := h.incReg
  have hs2 : s2.Formed := .ite hs1.incReg hs1
  exact .withPipe (.pbpTest (.ite_snd hs2.refUp hs2))

theorem State.Formed.takeRecirc (h : s.Formed) {q : Nat} {f : Frame} {t : State} (e : s.takeRecirc q = some (f, t)) : t.Formed := by
  unfold State.takeRecirc at e
  split at e
  · cases e
  · split at e
    · cases e
    · cases e
      exact h.withPipe

theorem State.Formed.takePort (h : s.Formed) {q p : Nat} {f : Frame} {t : State} (e : s.takePort q p = some (f, t)) : t.Formed := by
  unfold State.takePort at e
  split at e
  · cases e
  · split at e
    · cases e
    · cases e
      exact h.same

theorem State.Formed.fillPipes (h : s.Formed) {q : Nat} {l : List Nat} : (s.fillPipes q l).Formed := by
  induction l generalizing s with
  | nil => exact h
  | cons k l ih =>
    unfold State.fillPipes
    split
    next e => exact ih (h.takeRecirc e).enterPipe
    next =>
      split
      · exact h
      next =>
        split
        next e => exact ih (h.takePort e).withPipe.enterPipe
        · exact h

theorem State.Formed.lookupStall (h : s.Formed) {banks : List (BitVec 11)} : (s.lookupStall banks).Formed := .foldl h.incReg.raise fun h => h.pmuCount

theorem execSpray_formed (h : s.Formed) {q : Fin 4} {stall : List (BitVec 11)} {first : Bool} : Out.Formed (execSpray q stall first s) :=
  .ite (.next h) (.ite (.next (.ite h.lookupStall h)) (.ite (.next h) (.next h.fillPipes)))

theorem State.Formed.learnFrom (h : s.Formed) {fr : Frame} {p : Parsed} {vid : Nat} : (s.learnFrom fr p vid).2.Formed := by
  unfold State.learnFrom
  extract_lets +onlyGivenNames f src
  split
  · exact h
  · extract_lets +onlyGivenNames mac v drop
    split
    · exact h.learnRequest
    · exact .ite_snd h.refreshSeen (.ite_snd h.incReg h.learnRequest)

theorem State.Formed.setPunt (h : s.Formed) {r : Nat} {b : Bucket} : (s.setPunt r b).Formed := h.withPipe

theorem State.Formed.puntDrop (h : s.Formed) {r : Nat} : (s.puntDrop r).Formed := h.incReg.raise

theorem State.Formed.puntTake (h : s.Formed) {r : Nat} : (s.puntTake r).2.Formed :=
  .ite_snd h.puntDrop (.ite_snd h.puntDrop (.ite_snd h.puntDrop.incReg h.setPunt.setPunt.incReg))

theorem State.Formed.ruleHit (h : s.Formed) {x : Pass} {r : List Word} : (s.ruleHit x r).2.Formed := .ite h.count h

theorem State.Formed.policeFrame (h : s.Formed) {x : Pass} : (s.policeFrame x).2.Formed :=
  .ite_snd (.raise (.incReg (.foldl_snd h fun h => h.policer))) (.foldl_snd h fun h => h.policer)

theorem State.Formed.resolvePunt (h : s.Formed) {x : Pass} {r : Nat} : (s.resolvePunt x r).2.Formed := .ite_snd h.puntTake h.puntTake

theorem State.Formed.resolvePort (h : s.Formed) {x : Pass} {n nh : Nat} {rw : Rewrite} : (s.resolvePort x n nh rw).2.Formed := by
  unfold State.resolvePort
  extract_lets +onlyGivenNames c rw1 vid h1
  split
  split
  · exact .ite_snd h h.mapDrop
  · split
    next s1 e2 =>
      have hs1 : s1.Formed := .of_snd e2 h.pathTo
      exact hs1
    next s1 e2 =>
      have hs1 : s1.Formed := .of_snd e2 h.pathTo
      exact hs1

theorem State.Formed.resolveGroup (h : s.Formed) {x : Pass} {g nh : Nat} {rw : Rewrite} : (s.resolveGroup x g nh rw).2.Formed := h

theorem State.Formed.resolveFwd (h : s.Formed) {x : Pass} {r : Fwd} : (s.resolveFwd x r).2.Formed := by
  unfold State.resolveFwd
  extract_lets +onlyGivenNames none_
  split
  · exact h
  · exact h.resolvePunt
  · exact h.resolveGroup
  · exact h.resolvePort
  · split
    · exact h
    · exact .ite_snd h.resolvePort (.ite_snd h.resolveGroup (.ite_snd h.resolvePunt h))

theorem State.Formed.useLooked (h : s.Formed) {x : Pass} {g : Fwd → Fwd} : (s.useLooked x g).2.Formed := .foldl h fun h => h.incReg

theorem State.Formed.transitDecide (h : s.Formed) {x : Pass} : (s.transitDecide x).2.Formed := by
  unfold State.transitDecide
  split
  · extract_lets +onlyGivenNames a
    split
    · split
      rename_i s1 e3
      have hs1 : s1.Formed := .of_snd e3 h.useLooked
      exact hs1
    · split
      · split
        rename_i s1 e4
        have hs1 : s1.Formed := .of_snd e4 h.useLooked
        exact hs1
      · exact .ite_snd h (.ite_snd h h)
  · extract_lets +onlyGivenNames p s1 a
    have hs1 : s1.Formed := h.updWin
    split
    · split
      rename_i s2 e2
      have hs2 : s2.Formed := .of_snd e2 hs1.useLooked
      exact hs2
    · exact .ite_snd hs1 hs1

theorem State.Formed.parseStage (h : s.Formed) {x : Pass} : (s.parseStage x).2.Formed := by
  unfold State.parseStage
  extract_lets +onlyGivenNames x1 s1
  have hs1 : s1.Formed := .ite h.updWin h
  exact .ite hs1.updWin hs1

theorem State.Formed.formeStage (h : s.Formed) {x : Pass} : (s.formeStage x).2.Formed := by
  unfold State.formeStage
  split
  · exact h.ruleHit
  · exact h

theorem State.Formed.lookupStage (h : s.Formed) {x : Pass} : (s.lookupStage x).2.Formed := by
  unfold State.lookupStage
  extract_lets +onlyGivenNames s1
  have hs1 : s1.Formed := .ite h h.updWin
  exact .ite_snd hs1 (.ite_snd hs1.learnFrom hs1)

theorem State.Formed.rulesStage (h : s.Formed) {x : Pass} : (s.rulesStage x).2.Formed := by
  unfold State.rulesStage
  extract_lets +onlyGivenNames rule
  have hrule : ∀ {x0 x1 x2}, State.Formed x0 → State.Formed (rule x0 x1 x2).2 := by
    intro x0 x1 x2 h
    unfold rule
    split
    · exact h.ruleHit
    · exact h
  exact .ite_snd (.ite_snd h.incReg (hrule h.incReg)) (.ite_snd (hrule h).transitDecide (.ite_snd h h))

theorem State.Formed.policeStage (h : s.Formed) {x : Pass} : (s.policeStage x).2.Formed := .ite_snd h.policeFrame h

theorem State.Formed.resolveStage (h : s.Formed) {x : Pass} : (s.resolveStage x).2.Formed := by
  unfold State.resolveStage
  split
  · exact h
  · split
    · exact h.resolveFwd
    · exact h.resolvePort
    · exact .ite_snd h.resolvePunt h

theorem State.Formed.stageWork {n : Nat} {x : Pass} (h : s.Formed) : (State.stageWork n (x, s)).2.Formed := by
  unfold State.stageWork
  split
  · exact h.parseStage
  · exact h.formeStage
  · exact h.lookupStage
  · exact h.rulesStage
  · exact h.policeStage
  · exact h

theorem State.Formed.passUpTo (h : s.Formed) {x : InPipe} {n : Nat} : (s.passUpTo x n).2.Formed := by
  unfold State.passUpTo
  split
  exact .foldl_snd h fun h => h.stageWork

theorem State.Formed.lookupUncorr (h : s.Formed) {bank row : BitVec 11} : (s.lookupUncorr bank row).Formed := h.incReg.setReg.raise

theorem State.Formed.passEvents (h : s.Formed) {x : Pass} {o : Resolved} {banks : List (BitVec 11)} : (s.passEvents x o banks).2.Formed := by
  unfold State.passEvents
  extract_lets +onlyGivenNames pr ms run r1 r2 r3
  have hrun : ∀ {r : List (Nat × Nat) × State} {e : PmuEvent}, r.2.Formed → (run r e).2.Formed := fun h => h.pmuEvent
  have hr1 : r1.2.Formed := .foldl_snd h fun h => hrun h
  have hr3 : r3.2.Formed := .ite_snd (hrun (hrun hr1)) (hrun hr1)
  split
  · exact hrun hr3
  · exact hr3

theorem State.Formed.emitResult (h : s.Formed) {x : Pass} {o : Resolved} {resid : BitVec 60} {banks : List (BitVec 11)} :
    (s.emitResult x o resid banks).2.Formed := by
  unfold State.emitResult
  split
  rename_i s1 e
  have hs1 : s1.Formed := .of_snd e h.passEvents
  extract_lets +onlyGivenNames src rx ms act outcome s2
  have hs2 : s2.Formed := .ite hs1.incReg hs1
  exact hs2

theorem State.Formed.disposed (h : s.Formed) {f : Frame} : (s.disposed f).Formed := h.refDown

theorem State.Formed.reorderIn (h : s.Formed) {q : Nat} {r : Result} : (s.reorderIn q r).Formed := .ite h.incReg.disposed h.withPipe

theorem State.Formed.runPass (h : s.Formed) {x : InPipe} {resid : BitVec 60} {banks : List (BitVec 11)} {ecc : Option (BitVec 11 × BitVec 11)} :
    (s.runPass x resid banks ecc).Formed := by
  unfold State.runPass
  extract_lets +onlyGivenNames dead
  split
  next t e =>
    have ht : t.Formed := .of_snd e h.passUpTo
    split
    next o u e =>
      have hu : u.Formed := by
        refine .of_snd e (.ite_snd ht.incReg ?_)
        split
        · exact ht.lookupUncorr
        · exact ht.resolveStage
      exact (hu.emitResult (resid := resid)).reorderIn

theorem State.Formed.holeFor (h : s.Formed) {h1 : InPipe} : (s.holeFor h1).Formed := h.incReg.reorderIn

theorem State.Formed.leavePipe (h : s.Formed) {x : InPipe} : (s.leavePipe x).Formed := h.withPipe.maxReg

theorem execPassResult_formed (h : s.Formed) {pipe : Fin 16} {residence : BitVec 60} {banks : List (BitVec 11)} {ecc : Option (BitVec 11 × BitVec 11)} :
    Out.Formed (execPassResult pipe residence banks ecc s) := by
  unfold execPassResult
  split
  · exact .next h
  · split
    · exact .next h
    · exact .ite (.next h) (.next h.leavePipe.runPass)

theorem State.Formed.toAdmit (h : s.Formed) {a : Adm} : (s.toAdmit a).Formed := h.withBuf

theorem State.Formed.recircIn (h : s.Formed) {f : Frame} {strip : Nat} : (s.recircIn f strip).Formed := .ite h.incReg.disposed h.same.incReg

theorem State.Formed.releaseResult (h : s.Formed) {x : Held} : (s.releaseResult x).Formed := by
  unfold State.releaseResult
  extract_lets +onlyGivenNames _ _ r hash s1 dropped s2
  have hs1 : s1.Formed := by
    unfold s1
    split
    · exact h.disposed
    · exact h.disposed
    · exact h.toAdmit.disposed
    · exact h.toAdmit.disposed
    · exact h.recircIn
  have hs2 : s2.Formed := .foldl hs1 fun h => h.skimFire
  split
  rename_i t e
  have ht : t.Formed := by
    refine .of_snd e ?_
    split
    · exact hs2.pmuEvent
    · exact hs2
  exact ht.sampleFrame

theorem State.Formed.releaseNext (h : s.Formed) {q n : Nat} : (s.releaseNext q n).Formed := by
  induction n generalizing s with
  | zero => exact h
  | succ n ih =>
    unfold State.releaseNext
    split
    · exact h
    next x e =>
      have advanced : { s with pipe := { s.pipe with held := s.pipe.held.filter (fun y => !(y == x)), nextSeq := Store.set 0 x.stream ((x.seq + 1) % 65536) s.pipe.nextSeq } }.Formed :=
        { h with nextSeq := Store.wf_put _ _ _ _ h.nextSeq }
      exact ih advanced.releaseResult

theorem execReorderRelease_formed (h : s.Formed) {q : Fin 4} : Out.Formed (execReorderRelease q s) := .ite (.next h) (.next h.releaseNext)

theorem execReorderSkip_formed (h : s.Formed) {stream : Fin 1004} : Out.Formed (execReorderSkip stream s) := by
  unfold execReorderSkip
  extract_lets +onlyGivenNames st mine next
  have skipped : { s with pipe := { s.pipe with nextSeq := Store.set 0 st ((next + 1) % 65536) s.pipe.nextSeq } }.Formed :=
    { h with nextSeq := Store.wf_put _ _ _ _ h.nextSeq }
  split
  · exact .next h
  · split
    · exact .next h
    · exact .ite (.next h) (.next skipped.incReg.raise)

/-! ### Debug -/

theorem State.Formed.showHeld (h : s.Formed) {b k : Nat} {stage : Option Nat} : (s.showHeld b k stage).Formed := by
  unfold State.showHeld
  exact h.setWin.updReg.updReg

theorem State.Formed.mapInside (h : s.Formed) {f : InPipe → InPipe} : (s.mapInside f).Formed := h.withPipe

theorem State.Formed.showStage (h : s.Formed) {x : InPipe} {stage : Option Nat} : (s.showStage x stage).Formed := by
  unfold State.showStage
  split
  · exact h.showHeld
  · exact h

theorem State.Formed.letGo (h : s.Formed) {x : InPipe} : (s.letGo x).Formed := h.showStage.mapInside

theorem State.Formed.holdAt (h : s.Formed) {x : InPipe} {n : Nat} : (s.holdAt x n).Formed := h.passUpTo.showStage.mapInside

theorem State.Formed.pbpRelease (h : s.Formed) {k : Nat} : (s.pbpRelease k).Formed := by
  unfold State.pbpRelease
  split
  · exact h
  · exact h.letGo.pipesEval

theorem execPbpHit_formed (h : s.Formed) {pipe : Fin 16} : Out.Formed (execPbpHit pipe s) := by
  unfold execPbpHit
  split
  · exact .next h
  · extract_lets +onlyGivenNames k
    split
    · split
      · exact .next h
      · exact .next h.holdAt.raise.pipesEval
    · exact .next h

theorem State.Formed.pbpStep (h : s.Formed) {k : Nat} {resid : BitVec 60} {banks : List (BitVec 11)} {ecc : Option (BitVec 11 × BitVec 11)} :
    (s.pbpStep k resid banks ecc).Formed := by
  unfold State.pbpStep
  split
  · exact h
  · split
    · split
      · exact h.holdAt
      · extract_lets +onlyGivenNames s1
        have hs1 : s1.Formed := h.letGo
        split
        · exact hs1.leavePipe.runPass.pipesEval
        · exact hs1
    · exact h

theorem State.Formed.showHalts (h : s.Formed) : s.showHalts.Formed := h.setRegFld.setReg

theorem State.Formed.setHalted (h : s.Formed) {l : List (Nat × HaltCause)} : (s.setHalted l).Formed := h.withCp.showHalts

theorem State.Formed.haltCore (h : s.Formed) {k : Nat} {c : HaltCause} : (s.haltCore k c).Formed := h.setHalted.raise

theorem State.Formed.debugDetach (h : s.Formed) : s.debugDetach.Formed :=
  .ite h (.foldl h.clrReg.raise.ownerReset.withCp.setHalted fun h => h.pbpRelease)

theorem execDebugAttach_formed (h : s.Formed) : Out.Formed (execDebugAttach s) := .ite (.next h) (.ite (.next h) (.next h.orReg.incReg.raise))

theorem execDebugDetach_formed (h : s.Formed) : Out.Formed (execDebugDetach s) := .ite (.next h) (.next h.debugDetach)

theorem execDetachIdleExpire_formed (h : s.Formed) : Out.Formed (execDetachIdleExpire s) := .ite (.next h) (.ite (.next h) (.next h.debugDetach))

theorem execDebugLineReset_formed (h : s.Formed) : Out.Formed (execDebugLineReset s) := .ite (.next h) (.ite (.next h.incReg) (.next h))

theorem execTriggerHit_formed (h : s.Formed) {k i : Fin 4} {acc : TrigAccess} {addr : BitVec 64} {user : Bool} :
    Out.Formed (execTriggerHit k i acc addr user s) := by
  unfold execTriggerHit
  split
  · exact .next h
  · split
    · exact .next h
    · exact .ite (.next h) (.next h.haltCore)

theorem State.Formed.quench (h : s.Formed) {src : Nat} : (s.quench src).Formed := .ite h.incReg h.updReg.setReg.setReg.setReg.incReg.raise.clrReg

theorem execQuenchPin_formed (h : s.Formed) : Out.Formed (execQuenchPin s) := .ite (.next h) (.ite (.next h.quench) (.next h))

theorem State.Formed.thaw (h : s.Formed) {us : Nat} : (s.thaw us).Formed := by
  unfold State.thaw
  split
  · exact h
  · extract_lets +onlyGivenNames s1 s2 s3 s4 s5
    have hs1 : s1.Formed := h.updReg
    have hs2 : s2.Formed := hs1.setReg.raise
    have hs3 : s3.Formed := .foldl hs2 fun h => h.setLine
    have hs4 : s4.Formed := hs3.setMgmtUp
    have hs5 : s5.Formed := .foldl hs4 fun h => .foldl h fun h => .ite h h.toHunt
    exact hs5.pinsEval

/-! ### TimeX -/

theorem State.Formed.setSlotW (h : s.Formed) {k i : Nat} {v : Word} : (s.setSlotW k i v).Formed := h.setWinA

theorem State.Formed.launchStepped (h : s.Formed) {before : Nat} : (s.launchStepped before).Formed := h.withLaunch

theorem State.Formed.afterStep (h : s.Formed) {before : Nat} : (s.afterStep before).Formed := h.gatesStepped.epochStepped.launchStepped.binsStepped

theorem State.Formed.exchLost (h : s.Formed) : s.exchLost.Formed := by
  unfold State.exchLost
  split
  · exact h
  · exact h.withTime.incReg

theorem execTimeExchangeStart_formed (h : s.Formed) : Out.Formed (execTimeExchangeStart s) := by
  unfold execTimeExchangeStart
  split
  · exact .next h
  · split
    · exact .next h
    · extract_lets +onlyGivenNames s1
      have hs1 : s1.Formed := h.exchLost
      split
      · exact .next hs1
      · split
        · exact .next hs1
        · exact .next hs1.withTime.sendLocal

theorem State.Formed.timeRequest (h : s.Formed) {g m id t1 : Nat} : (s.timeRequest g m id t1).Formed := .ite h h.sendLocal.incReg

theorem execTimeRequestRx_formed (h : s.Formed) {g m : Fin 16} {id : BitVec 16} {t1 : BitVec 96} : Out.Formed (execTimeRequestRx g m id t1 s) :=
  .ite (.next h) (.next h.timeRequest)

theorem State.Formed.loopUpdate (h : s.Formed) : s.loopUpdate.Formed := h.fresh.withTime.setReg

theorem State.Formed.servoStep (h : s.Formed) {d : Int} : (s.servoStep d).Formed := h.stepTb.afterStep

theorem State.Formed.lockLost (h : s.Formed) : s.lockLost.Formed := h.orReg

theorem State.Formed.acquire (h : s.Formed) : s.acquire.Formed := h.withTime.setServo

theorem State.Formed.servo (h : s.Formed) {th : Int} : (s.servo th).Formed := by
  unfold State.servo
  extract_lets +onlyGivenNames a step st
  split
  · exact .ite h.servoStep.lockLost.acquire (.ite (.ite h.loopUpdate.lockLost.acquire h.loopUpdate.withTime) h.loopUpdate.withTime)
  · extract_lets +onlyGivenNames s1
    have hs1 : s1.Formed := .ite h h.acquire
    split
    · exact hs1.servoStep.withTime
    · split
      · extract_lets +onlyGivenNames n s2 s3
        have hs2 : s2.Formed := hs1.loopUpdate
        exact .ite hs2.withTime.setServo hs2.withTime
      · exact hs1.loopUpdate.withTime

theorem State.Formed.timeResponse (h : s.Formed) {g m id t1 t2 t3 : Nat} : (s.timeResponse g m id t1 t2 t3).Formed := by
  unfold State.timeResponse
  split
  · exact h
  · split
    · exact h
    · split
      · exact h.exchLost
      · extract_lets +onlyGivenNames t4 out back th s1 s2 s3
        have hs2 : s2.Formed := h.withTime.incReg
        have hs3 : s3.Formed := hs2.setReg
        exact .ite hs3.setReg hs3.setReg.servo

theorem execTimeResponseRx_formed (h : s.Formed) {g m : Fin 16} {id : BitVec 16} {t1 t2 t3 : BitVec 96} :
    Out.Formed (execTimeResponseRx g m id t1 t2 t3 s) :=
  .ite (.next h) (.next h.timeResponse)

theorem execTimeExchangeLost_formed (h : s.Formed) : Out.Formed (execTimeExchangeLost s) := .ite (.next h) (.next h.exchLost)

theorem execServoHoldover_formed (h : s.Formed) : Out.Formed (execServoHoldover s) :=
  .ite (.next h) (.ite (.next h.withTime.lockLost.setServo) (.next h))

theorem State.Formed.timeRoleEval (h : s.Formed) : s.timeRoleEval.Formed := .ite h (.ite h.updReg.acquire h.updReg.withTime.setServo)

/-! ### Trunk -/

theorem State.Formed.sendFrame (h : s.Formed) {phys c : Nat} {bytes : List Byte} {first : Bool} {n : Nat} :
    (s.sendFrame phys c bytes first n).Formed := by
  induction n generalizing s bytes first with
  | zero => exact h
  | succ n ih =>
    unfold State.sendFrame
    split
    · exact h
    · extract_lets +onlyGivenNames part rest sq v s1 s2
      have hs1 : s1.Formed := { h with streams := Store.wf_put _ _ _ _ h.streams }
      exact .ite hs1.queueData (ih hs1.queueData)

theorem execVoqServe_formed (h : s.Formed) {ecc : optParam (Option Bool) none} : Out.Formed (execVoqServe s ecc) := by
  unfold execVoqServe
  split
  · exact .next h
  · split
    · exact .next h
    · split
      · exact .next h
      · split
        · exact .next h
        · extract_lets +onlyGivenNames v lost s1
          have hlost : ∀ {x0}, State.Formed x0 → State.Formed (lost x0) := by
            intro x0 h
            unfold lost
            exact .freeVoqs (.ite h.removeCopy.incReg h.removeCopy)
          have hs1 : s1.Formed := .ite h h.eccFound
          split
          · exact .next ((hlost hs1.incReg))
          · split
            · exact .next ((hlost hs1))
            · extract_lets +onlyGivenNames f charge probe b v1 s2 s3 s4
              have hs2 : s2.Formed := hs1.noteCellReads.setVoq
              have hs4 : s4.Formed := hs2.withVoq
              extract_lets +onlyGivenNames s5
              have hs5 : s5.Formed := .ite hs4.incReg hs4
              exact .next hs5.sendFrame.removeCopy.freeVoqs

theorem State.Formed.creditIn (h : s.Formed) {src port cls units : Nat} : (s.creditIn src port cls units).Formed := by
  unfold State.creditIn
  extract_lets +onlyGivenNames s1
  have hs1 : s1.Formed := h.incReg
  split
  · exact hs1.incReg
  · extract_lets +onlyGivenNames v cap c s2
    have hs2 : s2.Formed := .ite hs1.incReg hs1
    exact hs2.setVoq

theorem execCreditGrantRx_formed (h : s.Formed) {src : BitVec 12} {entries : List (BitVec 16 × Fin 8 × BitVec 16)} :
    Out.Formed (execCreditGrantRx src entries s) :=
  .ite (.next h) (.next (.foldl h fun h => h.creditIn))

theorem State.Formed.sendGrants (h : s.Formed) {src : Nat} : (s.sendGrants src).Formed := by
  unfold State.sendGrants
  split
  · exact h
  · extract_lets +onlyGivenNames l es
    split
    · exact h
    next t e =>
      have ht : t.Formed := h.sendControl e
      extract_lets +onlyGivenNames _ s1
      have hs1 : s1.Formed := { ht with grants := Store.wf_put _ _ _ _ ht.grants }
      exact hs1.addReg.incReg

theorem addUnit_ne_nil (l : List (Nat × Nat)) (key : Nat) : addUnit l key ≠ [] := by
  unfold addUnit
  split
  next e =>
    rintro hm
    rw [List.map_eq_nil_iff.mp hm] at e
    cases e
  · exact List.append_ne_nil_of_right_ne_nil _ (List.cons_ne_nil _ _)

theorem execCreditEarn_formed (h : s.Formed) {port : Fin 242} : Out.Formed (execCreditEarn port s) := by
  unfold execCreditEarn
  refine .ite (.next h) ?_
  extract_lets +onlyGivenNames p
  refine .ite (.next h) ?_
  split
  · exact .next h
  · extract_lets +onlyGivenNames src v l s1
    have hs1 : s1.Formed := { h with grants := Store.wf_insert _ _ _ _ (addUnit_ne_nil _ _) h.grants }
    exact .next (.ite hs1.sendGrants hs1)

theorem execGrantCellSend_formed (h : s.Formed) {src : BitVec 12} : Out.Formed (execGrantCellSend src s) :=
  .ite (.next h) (.ite (.next h.sendGrants) (.next h))

theorem State.Formed.setCtx (h : s.Formed) {k : Nat} {x : RxCtx} : (s.setCtx k x).Formed := h.withVoq

/-- The idle time is named first, so that the kernel does not compute with it. -/
theorem State.Formed.dataCell (h : s.Formed) {src cls : Nat} {x : DataCell} : (s.dataCell src cls x).Formed := by
  unfold State.dataCell
  obtain ⟨span, hspan⟩ : ∃ n, n = orIfZero (s.cfgFld pgCredit 0x108 31 16) 100 * 1562500 := ⟨_, rfl⟩
  rw [← hspan]
  refine .ite h.incReg (.ite h ?_)
  extract_lets k now
  split
  · exact .ite h.incReg (.ite h.incReg h.setCtx)
  · extract_lets idle next1 next2 c2
    clear_value next2
    split
    · exact .ite h.setCtx.incReg (.ite h.setCtx.incReg h.setCtx)
    · exact .ite h.setCtx.incReg h.setCtx

theorem execDataCellRx_formed (h : s.Formed) {src : BitVec 12} {cls : Fin 8} {seq : BitVec 16} {first last : Bool} {payload : List Byte} :
    Out.Formed (execDataCellRx src cls seq first last payload s) :=
  .ite (.next h) (.next h.dataCell)

theorem State.Formed.frameErr (h : s.Formed) : s.frameErr.Formed := h.incReg.raise

theorem State.Formed.frameOut (h : s.Formed) {src cls cells : Nat} {b : List Byte} : (s.frameOut src cls cells b).Formed := by
  unfold State.frameOut
  extract_lets +onlyGivenNames dst b2 len
  split
  · exact h.frameErr
  · extract_lets +onlyGivenNames s1 k f probe s2 f1 s3 bytes stamp fr s4 h1 vid tc info kind mcast q
    have hs1 : s1.Formed := h.incReg
    have hs2 : s2.Formed := .ite hs1.incReg hs1
    have hbytes : bytes.Formed := hs2.withVoq
    have hvid : vid.Formed := hbytes.withPort
    exact .ite (.ite hvid.mapDrop.incReg hvid.mapDrop) hvid.toAdmit

theorem State.Formed.assemble (h : s.Formed) {k : Nat} {x : DataCell} {c : RxCtx} : (s.assemble k x c).1.Formed := by
  unfold State.assemble
  extract_lets +onlyGivenNames s1
  have hs1 : s1.Formed := .ite h.frameErr h
  split
  · exact .ite hs1 hs1.frameErr
  · extract_lets +onlyGivenNames parts
    split
    · exact hs1.frameOut
    · exact hs1

theorem State.Formed.drainCtx (h : s.Formed) {k : Nat} {c : RxCtx} {n : Nat} : (s.drainCtx k c n).1.Formed := by
  induction n generalizing s c with
  | zero => exact h
  | succ n ih =>
    unfold State.drainCtx
    split
    · exact h
    · split
      · exact h
      · exact ih h.assemble

theorem execReassemblyRelease_formed (h : s.Formed) : Out.Formed (execReassemblyRelease s) := by
  unfold execReassemblyRelease
  split
  · exact .next h
  · refine .next ?_
    refine .foldl h fun h1 => ?_
    exact h1.drainCtx.setCtx

theorem execRbSkip_formed (h : s.Formed) {src : BitVec 12} {cls : Fin 8} : Out.Formed (execRbSkip src cls s) := by
  unfold execRbSkip
  split
  · exact .next h
  · extract_lets +onlyGivenNames k
    split
    · exact .next h
    · split
      · exact .next h
      · split
        · exact .next h
        · split
          · exact .next h
          · extract_lets +onlyGivenNames s1 cut s2
            have hs1 : s1.Formed := h.incReg.raise
            have hs2 : s2.Formed := .ite hs1.frameErr hs1
            exact .next hs2.setCtx

theorem execContextSync_formed (h : s.Formed) {src : BitVec 12} {cls : Fin 8} : Out.Formed (execContextSync src cls s) := by
  unfold execContextSync
  split
  · exact .next h
  · extract_lets +onlyGivenNames k
    split
    · exact .next h
    · split
      · exact .ite (.next h) (.next h.setCtx)
      · exact .next h

theorem State.Formed.sendFlow (h : s.Formed) {xoff : Bool} : (s.sendFlow xoff).Formed := .foldl h fun h => .foldl h fun h => .ite h.sendLocal h

theorem execRbXoff_formed (h : s.Formed) : Out.Formed (execRbXoff s) :=
  .ite (.next h) (.ite (.next h.withVoq.incReg.raise.sendFlow) (.ite (.next h.withVoq.sendFlow) (.next h)))

theorem execFlowStatusRepeat_formed (h : s.Formed) : Out.Formed (execFlowStatusRepeat s) := .ite (.next h) (.next (.ite h.sendFlow h))

theorem execVoqFreeHoldExpire_formed (h : s.Formed) {v : BitVec 18} : Out.Formed (execVoqFreeHoldExpire v s) := by
  unfold execVoqFreeHoldExpire
  extract_lets n
  have freed : { s with voq := { s.voq with voqs := Store.erase n s.voq.voqs } }.Formed := { h with voqs := Store.setWf_erase _ _ h.voqs }
  exact .ite (.next h) (.ite (.next freed) (.next h))

theorem execUnreachExpire_formed (h : s.Formed) {phys : BitVec 12} : Out.Formed (execUnreachExpire phys s) :=
  .ite (.next h) (.ite (.next h) (.next h.discardVoqs.freeVoqs.withVoq.raise))

theorem State.Formed.takeoverIn (h : s.Formed) {logical new old : Nat} : (s.takeoverIn logical new old).Formed :=
  .ite h.setWinA.incReg.orReg.raise h.incReg

theorem execTakeoverRx_formed (h : s.Formed) {logical new old : BitVec 12} : Out.Formed (execTakeoverRx logical new old s) :=
  .ite (.next h) (.next h.takeoverIn)

/-! ### Blocks -/

theorem State.Formed.dropQueues (h : s.Formed) {sel : Nat → Bool} : (s.dropQueues sel).Formed := .foldl h fun h => h.dropHeld

theorem State.Formed.setSlotState (h : s.Formed) {k v : Nat} : (s.setSlotState k v).Formed := h.setSlotW

theorem State.Formed.cancelSlot (h : s.Formed) {k : Nat} : (s.cancelSlot k).Formed := h.withLaunch.setSlotState.incReg

theorem State.Formed.dropInside (h : s.Formed) {sel : InPipe → Bool} : (s.dropInside sel).Formed := by
  unfold State.dropInside
  extract_lets +onlyGivenNames s1 gone s2
  have hs1 : s1.Formed := .foldl h fun h => h.letGo
  exact .foldl hs1.withPipe fun h => h.holeFor

theorem State.Formed.stopApp (h : s.Formed) : s.stopApp.Formed := h.clrReg

theorem State.Formed.breakJournal (h : s.Formed) : s.breakJournal.Formed := h.orReg.withPair

/-- Entries of the spill changed under their keys. -/
theorem State.Formed.mapSpill (h : s.Formed) {f : Nat × SpillQ → Nat × SpillQ} {w : List Nat} (hf : ∀ e, (f e).1 = e.1) :
    { s with buf := { s.buf with spill := s.buf.spill.map f, pfWait := w } }.Formed := by
  have keys : (s.buf.spill.map f).map Prod.fst = s.buf.spill.map Prod.fst := by
    rw [List.map_map]
    exact List.map_congr_left fun e _ => hf e
  exact { h with spill := keys ▸ h.spill }

theorem State.Formed.dropWork (h : s.Formed) {p : Nat} : (s.dropWork p).Formed := by
  unfold State.dropWork
  split
  · exact .foldl h fun h => h.txAbort
  · exact .foldl h fun h => h.txAbort
  · exact .foldl h fun h => h.txAbort
  · exact h.dropCells
  · exact h.dropInside
  · exact h.dropInside
  · exact h.dropInside
  · exact .foldl h.withPipe fun h => h.disposed
  · exact h.twDiscard
  · exact h.withTab
  · exact h.freePending
  · exact h.withBuf
  · exact h.dropQueues
  · refine .foldl ?_ fun h => h.freeDead
    refine State.Formed.giveCells (h.mapSpill ?_)
    exact fun _ => rfl
  · exact h.withBuf
  · exact h.dropQueues
  · exact h.dropQueues.freeVoqs
  · exact .foldl h fun h => .ite h.gateDrop h
  · exact h.withTime
  · exact .foldl h fun h => h.cancelSlot
  · exact h.withVoq
  · exact .ite h h.breakJournal
  · exact h.setStop
  · exact h.withStat
  · exact h.withHost
  · exact h.clrReg.withNvm
  · exact h.stopApp
  · exact .foldl h fun h => h.pbpRelease
  · exact h

theorem State.Formed.discardWork (h : s.Formed) {p : Nat} : (s.discardWork p).Formed := h.dropWork.addReg

theorem State.Formed.linesDown (h : s.Formed) : s.linesDown.Formed := by
  unfold State.linesDown
  extract_lets +onlyGivenNames s1 s2 s3
  have hs1 : s1.Formed := .foldl h fun h => .ite (.foldl h fun h => h.setLine) h
  have hs2 : s2.Formed := .foldl hs1 fun h => .ite h h.laneFall
  have hs3 : s3.Formed := by
    unfold s3
    refine .foldl hs2 fun h1 => ?_
    refine .foldl h1 fun h2 => ?_
    split
    · exact .ite h2 h2.toHunt
    · exact h2
  exact .ite hs3.setMgmtUp hs3

theorem State.Formed.settle (h : s.Formed) {old : State} : (s.settle old).Formed := by
  unfold State.settle
  extract_lets +onlyGivenNames s1 s2
  have hs1 : s1.Formed := h.linesDown.pipesEval.flexEval.clientsFollow
  have hs2 : s2.Formed := .foldl hs1 fun h => .ite h.groupStop h.sprueEval
  exact hs2.timeRoleEval.reserveEval.pinsEval

theorem State.Formed.leaveEnabled (h : s.Formed) {p : Nat} : (s.leaveEnabled p).Formed := by
  unfold State.leaveEnabled
  split
  · exact h.epochLeft
  · exact h.binSuspect
  · exact h.stopApp
  · exact .ite h.setSync h
  · exact .foldl h fun h => h.pbpRelease
  · exact h

theorem State.Formed.toSafe (h : s.Formed) {p : Nat} : (s.toSafe p).Formed := by
  unfold State.toSafe
  extract_lets +onlyGivenNames old s1 s2 s3
  have hold : old.Formed := h
  have hs1 : s1.Formed := .ite h.leaveEnabled (.ite h.discardWork h)
  have hs2 : s2.Formed := hs1.setBlk
  have hs3 : s3.Formed := .ite hs2.debugDetach hs2
  exact hs3.settle

theorem State.Formed.clearHeld (h : s.Formed) {p : Nat} : (s.clearHeld p).Formed := by
  unfold State.clearHeld
  split
  · exact h.clrReg
  · exact h.clrReg
  · exact h.setReg
  · exact h.clrReg
  · exact h.clrReg
  · exact h

theorem State.Formed.toDisabled (h : s.Formed) {p : Nat} : (s.toDisabled p).Formed := by
  unfold State.toDisabled
  extract_lets +onlyGivenNames old s1
  have hold : old.Formed := h
  have hs1 : s1.Formed := .ite h.epochLeft h
  exact hs1.setBlk.clearHeld.settle

theorem State.Formed.latchPage (h : s.Formed) {p : Nat} : (s.latchPage p).Formed :=
  { h with latched := Store.wf_foldl_put _ _ _ (Store.wf_filter _ _ _ h.latched) }

theorem State.Formed.parityFlags (h : s.Formed) {k : Nat} : (s.parityFlags k).Formed := by
  unfold State.parityFlags
  extract_lets +onlyGivenNames p w s1
  have hs1 : s1.Formed := .ite h h.setReg
  exact hs1.blkFault

theorem State.Formed.parityReport (h : s.Formed) {k : Nat} : (s.parityReport k).Formed := .ite h h.withReported.updReg.incReg

theorem State.Formed.parityFound (h : s.Formed) {k : Nat} : (s.parityFound k).Formed := by
  unfold State.parityFound
  split
  · exact h
  · extract_lets +onlyGivenNames p s1
    have hs1 : s1.Formed := h.parityReport.parityFlags
    exact .ite hs1 hs1.toSafe

theorem State.Formed.strike (h : s.Formed) {k b : Nat} : (s.strike k b).Formed := .ite h.updReg.withUpset h

theorem State.Formed.scrubEnd (h : s.Formed) : s.scrubEnd.Formed := by
  unfold State.scrubEnd
  extract_lets +onlyGivenNames s1 x
  have hs1 : s1.Formed := .foldl h fun h => h.parityFound
  have hx : x.Formed := hs1.updReg
  exact hx.withSigWords

theorem State.Formed.clearTable (h : s.Formed) {t : Nat} : (s.clearTable t).Formed := by
  unfold State.clearTable
  extract_lets _ s1 s2
  have hs1 : s1.Formed := h.withTab
  have hs2 : s2.Formed := hs1.setBase rfl
  exact .ite hs1.setMac (.ite hs2.withTab hs2)

theorem State.Formed.tablesEnabling (h : s.Formed) : s.tablesEnabling.Formed := by
  unfold State.tablesEnabling
  split
  · exact h.setReg.raise
  · exact .foldl h.setReg fun h => .ite h h.clearTable.withTab

theorem State.Formed.parseEnabling (h : s.Formed) : s.parseEnabling.Formed := .ite h.setReg h.setReg.raise

theorem State.Formed.renumber (h : s.Formed) {old : State} : (s.renumber old).Formed := by
  unfold State.renumber
  split
  · exact h
  · extract_lets +onlyGivenNames due s1
    extract_lets +onlyGivenNames s2
    have hs2 : s2.Formed := .foldl h.withBuf fun h => .ite h.dropQueues h.setSpill
    exact hs2.withBuf.retireFreed

theorem State.Formed.avsPoint (h : s.Formed) {v : Nat} : (s.avsPoint v).Formed := h.withPow.setRegFld

theorem State.Formed.globalEnabling (h : s.Formed) : s.globalEnabling.Formed := by
  unfold State.globalEnabling
  extract_lets +onlyGivenNames old t f s1 s2 s3 s4
  have hold : old.Formed := h
  have hs1 : s1.Formed := h.updReg
  have hs2 : s2.Formed := hs1.avsPoint
  have hs3 : s3.Formed := .foldl hs2 fun h => .ite h.orReg h.clrReg
  have hs4 : s4.Formed := hs3.renumber
  exact .ite hs4 hs4.setTwicel

theorem State.Formed.seqRestart (h : s.Formed) {l : List Nat} : (s.seqRestart l).Formed := by
  refine { h with nextSeq := ?_ }
  have erased : ∀ m, Store.wf (fun _ => 0) m = true → Store.wf (fun _ => 0) (l.foldl (fun (m : List (Nat × Nat)) p => Store.erase p m) m) = true := by
    induction l with
    | nil => exact fun m hm => hm
    | cons p l ih => exact fun m hm => ih _ (Store.wf_erase _ _ _ hm)
  exact erased _ h.nextSeq

theorem State.Formed.tmEnabling (h : s.Formed) : s.tmEnabling.Formed := h.withSched

theorem State.Formed.enablingChecks (h : s.Formed) {p : Nat} : (s.enablingChecks p).Formed := by
  unfold State.enablingChecks
  have restarted : { s with voq := { s.voq with streams := [] } }.Formed := { h with streams := rfl }
  split
  · exact h.globalEnabling
  · exact h.bankEnabling.seqRestart
  · exact h.flexEnabling.seqRestart
  · exact h.seqRestart
  · exact h.sprueEnabling
  · exact h.parseEnabling
  · exact h.tablesEnabling
  · exact .ite h.orReg.raise h
  · exact .ite restarted.orReg.raise restarted
  · exact h.tmEnabling
  · exact .ite h.orReg h
  · exact h

theorem State.Formed.journalEnd (h : s.Formed) : s.journalEnd.Formed := by
  unfold State.journalEnd
  extract_lets +onlyGivenNames s1 s2
  have hs2 : s2.Formed := h.withPair
  split
  · exact hs2.endOp
  · exact hs2

theorem State.Formed.setRole (h : s.Formed) {r : Nat} : (s.setRole r).Formed := .ite h h.setRegFld.raise.timeRoleEval.pinsEval

theorem State.Formed.pairEnabled (h : s.Formed) : s.pairEnabled.Formed := by
  unfold State.pairEnabled
  extract_lets +onlyGivenNames r s1 s2
  have hs1 : s1.Formed := h.journalEnd
  extract_lets +onlyGivenNames s3 s4
  have hs3 : s3.Formed := .ite h hs1.withPair.clrReg
  have hs4 : s4.Formed := hs3.setRole
  exact .ite hs4.setTwicel.relaysRestart hs4

theorem State.Formed.cpctlEnabled (h : s.Formed) : s.cpctlEnabled.Formed := by
  unfold State.cpctlEnabled
  split
  · exact h.setReg
  · exact h.orReg

theorem State.Formed.enabledHook (h : s.Formed) {p : Nat} : (s.enabledHook p).Formed := by
  unfold State.enabledHook
  split
  · exact h.timeEnabled
  · exact h.pairEnabled
  · exact h.cpctlEnabled
  · exact h.binSuspect
  · exact h

theorem State.Formed.blockEnable (h : s.Formed) {p : Nat} : (s.blockEnable p).Formed := by
  unfold State.blockEnable
  split
  · exact h
  · extract_lets +onlyGivenNames old s1 bad
    have hold : old.Formed := h
    have hs1 : s1.Formed := h.latchPage.setBlk.enablingChecks.settle
    exact .ite hs1 (.toSafe (.foldl hs1 fun h => h.parityReport.parityFlags))

theorem execBlockEnable_formed (h : s.Formed) {page : Fin 256} : Out.Formed (execBlockEnable page s) := .ite (.next h) (.next h.blockEnable)

theorem State.Formed.blockReady (h : s.Formed) {p : Nat} : (s.blockReady p).Formed := .ite h h.setBlk.enabledHook.settle

theorem execBlockReady_formed (h : s.Formed) {page : Fin 256} : Out.Formed (execBlockReady page s) := .ite (.next h) (.next h.blockReady)

theorem execBlockDisable_formed (h : s.Formed) {page : Fin 256} : Out.Formed (execBlockDisable page s) := by
  unfold execBlockDisable
  split
  · exact .next h
  · extract_lets +onlyGivenNames p
    split
    · exact .next h
    · split
      · exact .next h.toDisabled
      · exact .ite (.next (.toDisabled (.discardWork (.ite h h.leaveEnabled)))) (.next h.leaveEnabled.setBlk.settle)
      · exact .next h.discardWork.toDisabled
      · exact .next h

theorem execDrainComplete_formed (h : s.Formed) {page : Fin 256} : Out.Formed (execDrainComplete page s) :=
  .ite (.next h) (.ite (.next h.toDisabled) (.next h))

theorem execDrainTimeout_formed (h : s.Formed) {page : Fin 256} : Out.Formed (execDrainTimeout page s) :=
  .ite (.next h) (.ite (.next h) (.ite (.next h.toDisabled) (.next (.toDisabled (.ite h.discardWork h.discardWork.blkFault)))))

theorem State.Formed.drainDiscard (h : s.Formed) {p : Nat} : (s.drainDiscard p).Formed := .ite h.discardWork.toDisabled h

/-! ### Mem -/

theorem State.Formed.putStore (h : s.Formed) {o : Nat} {b : Byte} : (s.putStore o b).Formed := { h with bytes := Store.wf_put _ _ _ _ h.bytes }

theorem State.Formed.putStoreBytes (h : s.Formed) {o : Nat} {l : List Byte} : (s.putStoreBytes o l).Formed := .foldl_fst h fun h => h.putStore

theorem State.Formed.putMem (h : s.Formed) {a : Nat} {b : Byte} : (s.putMem a b).Formed := by
  have put : { s with cp := { s.cp with mem := Store.set (0 : Byte) a b s.cp.mem } }.Formed := { h with mem := Store.wf_put _ _ _ _ h.mem }
  exact .ite put h

theorem State.Formed.putMemBytes (h : s.Formed) {a n v : Nat} : (s.putMemBytes a n v).Formed := .foldl h fun h => h.putMem

theorem State.Formed.putMemWord (h : s.Formed) {a : Nat} {mask data : Word} : (s.putMemWord a mask data).Formed := h.putMemBytes

/-! ### Image -/

theorem State.Formed.bootSlot (h : s.Formed) {target : Nat} : (s.bootSlot target).2.Formed := .ite_snd h (.ite_snd h.updReg.auditSlot h)

theorem State.Formed.bellowsLoad (h : s.Formed) : s.bellowsLoad.Formed := by
  unfold State.bellowsLoad
  exact h.bootSlot.updReg

theorem State.Formed.bellowsRestart (h : s.Formed) : s.bellowsRestart.Formed := h.ownerReset.incReg.raise.bellowsLoad

/-! ### Reset -/

theorem State.Formed.keepReg (h : s.Formed) {old : State} {p o : Nat} {m : Word} : (s.keepReg old p o m).Formed := h.updReg

theorem State.Formed.keepRegs (h : s.Formed) {old : State} {p : Nat} {l : List Nat} : (s.keepRegs old p l).Formed := .foldl h fun h => h.keepReg

theorem State.Formed.keepPage (h : s.Formed) {old : State} {p : Nat} : (s.keepPage old p).Formed := .foldl h fun h => h.setReg

theorem State.Formed.keepStore (h : s.Formed) {old : State} : (s.keepStore old).Formed := h.keepReg.keepRegs.keepRegs

/-! ### State -/

theorem State.reset_formed : State.reset.Formed := (State.formed_iff _).2 resetCanonical

/-! ### Reset -/

theorem State.Formed.coldReset (h : s.Formed) {cause : Nat} : (s.coldReset cause).Formed := by
  unfold State.coldReset
  extract_lets +onlyGivenNames _ nvm _ pow _ t
  have ht : t.Formed := { State.reset_formed with bytes := h.bytes }
  exact ht.keepStore.keepReg

theorem State.Formed.warmReset (h : s.Formed) {cause : Nat} : (s.warmReset cause).Formed := by
  unfold State.warmReset
  extract_lets +onlyGivenNames _ nvm _ host _ cp _ ops _ pow win _ port _ t1 t2 _ t3 t4 t5 t6
  have ht1 : t1.Formed := { State.reset_formed with
    bytes := h.bytes, mem := Store.wf_filter _ _ _ h.mem, win := Store.wf_filter _ _ _ h.win }
  have ht2 : t2.Formed := ht1.keepStore.keepPage
  have kept : (t2.keepPage s pgClocks).Formed := ht2.keepPage
  have ht3 : t3.Formed := { kept with latched := Store.wf_filter _ _ _ h.latched }
  have ht6 : t6.Formed := ht3.setReg.keepRegs.keepReg.keepRegs.keepReg
  exact State.Formed.keepReg (.foldl ht6 fun h => h.keepRegs)

theorem State.Formed.warmRequest (h : s.Formed) {cause : Nat} : (s.warmRequest cause).Formed := .ite h h.warmReset

theorem State.Formed.pageReset (h : s.Formed) {p : Nat} : (s.pageReset p).Formed := by
  unfold State.pageReset
  split
  · exact h
  · extract_lets +onlyGivenNames mine s1 s2 s3 s4 s5
    have hs1 : s1.Formed := .foldl h fun h => .ite h (.ite h.setReg h.setReg)
    have hs3 : s3.Formed := hs1.clrReg.setReg.setReg.setReg
    clear_value s3
    have hs4 : s4.Formed := hs3.withWin (Store.wf_filter _ _ _ hs3.win)
    clear_value s4
    have hs5 : s5.Formed := hs4.same
    have stamps : { s5 with time := { s5.time with txts := [] } }.Formed := { hs5 with txts := rfl }
    split
    · exact stamps.applyFreq.applyFreq
    · exact .foldl hs5 fun h => h.clrReg
    · exact .foldl hs5 fun h => h.setGw
    · exact hs5

theorem State.Formed.blockReset (h : s.Formed) {p : Nat} : (s.blockReset p).Formed := .ite h.orReg h.withResetPage.setReg.pageReset

theorem State.Formed.winPut (h : s.Formed) {k : Nat} {v : Word} : { s with win := Store.put winReset k v s.win }.Formed :=
  h.withWin (Store.wf_put _ _ _ _ h.win)

theorem State.Formed.resetComplete (h : s.Formed) {p : Nat} : (s.resetComplete p).Formed := by
  unfold State.resetComplete
  extract_lets +onlyGivenNames race mine s1 wins s2
  have hrace : ∀ {s : State} {put : State → State}, s.Formed → (∀ {t : State}, t.Formed → (put t).Formed) → (race s put).Formed :=
    fun h hput => .ite h.fresh (hput h.fresh)
  have hs1 : s1.Formed := .foldl h fun h => hrace h fun h => h.setReg
  have hs2 : s2.Formed := .foldl hs1 fun h => hrace h fun h => h.winPut
  exact hs2.withResetPage.clrReg

theorem execBlockResetComplete_formed (h : s.Formed) : Out.Formed (execBlockResetComplete s) := by
  unfold execBlockResetComplete
  split
  · exact .next h
  · split
    · exact .next h.resetComplete
    · exact .next h

theorem State.Formed.endByReset (h : s.Formed) {slot : Nat} {r : OpRec} : (s.endByReset slot r).Formed := by
  unfold State.endByReset
  split
  · exact h
  · split
    · exact .ite h.updOp (.ite h.failCommit h.endOp)
    · extract_lets +onlyGivenNames s1
      have hs1 : s1.Formed := .ite (.setTwicel (.ite h.freePending h)) h
      exact hs1.endOp
    · exact .ite h.endOp h.cancelWork.endOp

theorem State.Formed.coresReset (h : s.Formed) : s.coresReset.Formed := by
  unfold State.coresReset
  extract_lets +onlyGivenNames s1 s2 s3
  have hs1 : s1.Formed := .foldl h fun h => h.ownerReset
  have hs2 : s2.Formed := by
    unfold s2
    refine .foldl hs1 fun h1 => ?_
    split
    · exact h1.endByReset
    · exact h1
  have hs3 : s3.Formed := hs2.clrReg.clrReg
  exact hs3.withPow.setHalted

theorem State.Formed.coreReset (h : s.Formed) {k : Nat} : (s.coreReset k).Formed := h.ownerReset.setHalted

theorem execWdtExpired_formed (h : s.Formed) : Out.Formed (execWdtExpired s) :=
  .ite (.next h) (.ite (.next h) (.next h.orReg.raise.orReg.withPair.coresReset.pinsEval))

/-! ### Flags -/

theorem State.Formed.forgetGroups (h : s.Formed) : s.forgetGroups.Formed := .ite h h.withHost

/-! ### BusRead -/

theorem State.Formed.setFence (h : s.Formed) {id p o : Nat} {v : Word} :
    (s.setFence id p o v).Formed := { h with fences := Store.wf_put _ _ _ _ h.fences }

theorem State.Formed.touchPage (h : s.Formed) {a : Agent} {p : Nat} : (s.touchPage a p).Formed :=
  .ite h.withLastLow.dropPairLatch (.ite h.withLastLow.pmuDropHold h.withLastLow)

theorem State.Formed.setLow (h : s.Formed) {id p o : Nat} : (s.setLow id p o).Formed := h.withLastLow

theorem State.Formed.setLatch (h : s.Formed) {key : Nat} {w : Word} : (s.setLatch key w).Formed := h.withReadLatch

theorem State.Formed.readNow (h : s.Formed) {a : Agent} {o : Nat} : (s.readNow a o).2.Formed := by
  unfold State.readNow
  extract_lets +onlyGivenNames k last live s1
  have hs1 : s1.Formed := h.touchPage
  exact .ite_snd hs1.setLatch.setLatch.setLow (.ite_snd hs1.setLow (.ite_snd hs1 hs1))

theorem State.Formed.readPmu (h : s.Formed) {a : Agent} {o : Nat} : (s.readPmu a o).2.Formed := by
  unfold State.readPmu
  extract_lets +onlyGivenNames k last s1
  have hs1 : s1.Formed := h.touchPage
  exact .ite_snd hs1.setLatch.setLow (.ite_snd hs1 hs1)

theorem State.Formed.readStats (h : s.Formed) {a : Agent} {o : Nat} {uncorr : Bool} : (s.readStats a o uncorr).2.Formed := by
  unfold State.readStats
  extract_lets +onlyGivenNames n i w
  split
  · exact h.readFramesLo
  · split
    · exact .ite_snd h.readPairWord h.touchPage.readPairWord
    · dsimp only
      exact h.touchPage

theorem State.Formed.readReg (h : s.Formed) {a : Agent} {k : Kind} {p o : Nat} : (s.readReg a k p o).2.Formed := by
  unfold State.readReg
  split
  · exact h.readNow
  · split
    · exact h.readPmu
    · extract_lets +onlyGivenNames v s1 s2 s3
      have hs1 : s1.Formed := h.touchPage
      have hs2 : s2.Formed := .ite hs1.setReg hs1
      have hs3 : s3.Formed := .ite hs2.fresh hs2
      exact .ite hs3.parityFound hs3

theorem State.Formed.readWin (h : s.Formed) {w : Who} {k : Kind} {p o : Nat} : (s.readWin w k p o).2.2.Formed := by
  by_cases stats : k = .stats
  · subst stats
    rw [State.readWin]
    split
    next e => exact .of_snd e h.readStats
  by_cases cpctl : k = .cpctl
  · subst cpctl
    rw [State.readWin]
    split
    · exact .triple h.touchPage
    · exact .triple h.accessFault
  by_cases pstore : k = .pstore
  · subst pstore
    rw [State.readWin]
    split
    · exact .triple h.accessFault
    · extract_lets place
      split
      · exact .triple h.touchPage
      · exact .triple h.deny
  rw [State.readWin]
  · refine .triple (State.Formed.touchPage ?_)
    exact .ite h.fresh h
  · exact stats
  · exact cpctl
  · exact pstore

/-- The page and the offset of the address are named first, so that the kernel does not compute with them. -/
theorem State.Formed.busRead (h : s.Formed) {w : Who} {addr : Nat} : (s.busRead w addr).2.2.Formed := by
  obtain ⟨p, hp⟩ : ∃ p, p = (addr - 0x40000000) / 0x10000 := ⟨_, rfl⟩
  obtain ⟨o, ho⟩ : ∃ o, o = addr % 0x10000 := ⟨_, rfl⟩
  generalize hf : State.busRead = f
  delta State.busRead at hf
  subst hf
  beta_reduce
  rw [← hp, ← ho]
  cases hr : pageRow p with
  | none =>
    simp only [hr]
    exact h
  | some r =>
    simp only [hr]
    refine .ite_snd_snd (.triple h.accessFault) (.ite_snd_snd (.triple h.readReg) (.ite_snd_snd (.triple h.touchPage) ?_))
    exact .ite_snd_snd (.triple h.accessFault) h.readWin

/-! ### WinWrite -/

theorem State.Formed.armSlot (h : s.Formed) {w : Who} {k : Nat} : (s.armSlot w k).Formed := by
  unfold State.armSlot
  split
  · exact h
  · split
    · exact h.setSlotW.orReg.raise
    · exact h.setSlotW.withLaunch

theorem State.Formed.editReject (h : s.Formed) : s.editReject.Formed := h.orReg

theorem State.Formed.writeSlotCtrl (h : s.Formed) {w : Who} {k : Nat} {mask data : Word} : (s.writeSlotCtrl w k mask data).2.Formed := by
  unfold State.writeSlotCtrl
  extract_lets +onlyGivenNames old new arm cancel busy s1
  have hs1 : s1.Formed := .ite h.cancelSlot h
  exact .ite_snd (.ite_snd hs1 hs1.editReject) (.ite hs1.setSlotW.armSlot hs1.setSlotW)

theorem State.Formed.winLaunch (h : s.Formed) {w : Who} {o : Nat} {mask data : Word} : (s.winLaunch w o mask data).2.Formed :=
  .ite_snd h.writeSlotCtrl (.ite_snd (.ite_snd h.editReject h.setSlotW) h)

theorem State.Formed.putWin (h : s.Formed) {p u i : Nat} {m mask data : Word} : (s.putWin p u i m mask data).Formed := h.updWin

theorem State.Formed.putWinA (h : s.Formed) {p n : Nat} {m mask data : Word} : (s.putWinA p n m mask data).Formed := h.putWin

theorem State.Formed.winTime (h : s.Formed) {n : Nat} {mask data : Word} : (s.winTime n mask data).Formed :=
  .ite h (.ite h.putWin (.ite h.putWin (.ite h.updWin (.ite h.popStamp h))))

theorem State.Formed.winPmu (h : s.Formed) {o : Nat} {mask data : Word} : (s.winPmu o mask data).Formed := .ite h.putWin.setWin h

theorem State.Formed.winStats (h : s.Formed) {o : Nat} {mask data : Word} : (s.winStats o mask data).Formed := .ite h.setFlags h

theorem State.Formed.winDebug (h : s.Formed) {o : Nat} {mask data : Word} : (s.winDebug o mask data).Formed :=
  .ite h (.ite h.putWin (.ite h.putWin (.ite h.putWin h)))

theorem State.Formed.winFlexe (h : s.Formed) {o : Nat} {mask data : Word} : (s.winFlexe o mask data).2.Formed :=
  .ite_snd h (.ite_snd h.orReg.raise h.putWinA)

theorem State.Formed.winCommand (h : s.Formed) {wh : Who} {w : Nat} {cmd : Word} : (s.winCommand wh w cmd).Formed := .ite h.twStart.twFinish h.twStart

theorem State.Formed.winTables (h : s.Formed) {wh : Who} {o : Nat} {mask data : Word} : (s.winTables wh o mask data).Formed :=
  .ite (.ite h.winCommand (.ite h.updWin (.ite h.putWin (.ite h.putWin h)))) (.ite h.putWinA (.ite h.putWinA h))

theorem State.Formed.winLearn (h : s.Formed) {n : Nat} {mask data : Word} : (s.winLearn n mask data).Formed := .ite h.putWin.limitReached h

theorem State.Formed.tmWrite (h : s.Formed) {lvl k i : Nat} {mask data : Word} : (s.tmWrite lvl k i mask data).2.Formed :=
  .ite_snd h.tmNodeWrite (.ite_snd h.putWin (.putWin (.ite h.tmTouch h)))

theorem State.Formed.winTm (h : s.Formed) {n : Nat} {mask data : Word} : (s.winTm n mask data).2.Formed := .ite_snd h.tmWrite h

theorem State.Formed.winPolice (h : s.Formed) {n : Nat} {mask data : Word} : (s.winPolice n mask data).Formed := by
  unfold State.winPolice
  extract_lets +onlyGivenNames i w
  split
  · exact h.polTouch.putWin
  · split
    · extract_lets +onlyGivenNames t
      have ht : t.Formed := h.polTouch.putWin
      exact .ite ht.polFill ht
    · exact .ite h.putWin (.ite h.putWin (.ite h.polSetTokens (.ite h.putWin h)))

theorem State.Formed.winVoq (h : s.Formed) {o : Nat} {mask data : Word} : (s.winVoq o mask data).Formed :=
  .ite (.ite h h.putWinA) (.ite h.putWinA.withVoq h)

theorem State.Formed.gateListWrite (h : s.Formed) {p l i : Nat} {m mask data : Word} : (s.gateListWrite p l i m mask data).2.Formed :=
  .ite_snd h.setGw.raise h.putWinA

theorem State.Formed.gateCtrl (h : s.Formed) {p : Nat} {mask data : Word} : (s.gateCtrl p mask data).Formed := by
  unfold State.gateCtrl
  extract_lets +onlyGivenNames s1 s2
  have hs1 : s1.Formed := h.putWinA
  have hs2 : s2.Formed := .ite hs1.gateCancel hs1
  exact .ite hs2.gateRequest hs2

theorem State.Formed.winGates (h : s.Formed) {i : Nat} {mask data : Word} : (s.winGates i mask data).2.Formed :=
  .ite_snd h (.ite_snd h.gateListWrite (.ite_snd (.ite_snd h.gateListWrite h) (.ite_snd h.gateCtrl (.ite_snd h.setGw (.ite_snd h.putWinA h)))))

theorem State.Formed.winMcast (h : s.Formed) {o : Nat} {mask data : Word} : (s.winMcast o mask data).Formed := .ite h.putWinA (.ite h h.putWinA)

theorem State.Formed.winStore (h : s.Formed) {w : Who} {o : Nat} {mask data : Word} : (s.winStore w o mask data).2.Formed := by
  unfold State.winStore
  split
  · dsimp only
    exact h.accessFault
  · exact .ite_snd h.putStoreBytes.noteWear h.incReg.deny

theorem State.Formed.winCpctl (h : s.Formed) {w : Who} {o : Nat} {mask data : Word} : (s.winCpctl w o mask data).2.Formed := by
  unfold State.winCpctl
  split
  · dsimp only
    exact h.accessFault
  · dsimp only
    exact h.putMemWord

theorem State.Formed.writeWin (h : s.Formed) {w : Who} {k : Kind} {o : Nat} {mask data : Word} : (s.writeWin w k o mask data).2.Formed := by
  unfold State.writeWin
  extract_lets +onlyGivenNames n
  split
  · exact h.winLaunch
  · exact h.winTime
  · exact h.winPmu
  · exact h.winStats
  · exact h.winDebug
  · exact h.winFlexe
  · exact h.winTables
  · exact h.winLearn
  · exact .ite h.putWinA h
  · exact h.winTm
  · exact h.winPolice
  · exact h.winVoq
  · exact h.winGates
  · exact h.winMcast
  · exact h.winCpctl
  · exact h.winStore
  · exact h

/-! ### BusWrite -/

theorem State.Formed.putRow (h : s.Formed) {k : Kind} {p o : Nat} {mask data : Word} : (s.putRow k p o mask data).Formed := by
  unfold State.putRow
  split
  · exact h
  · exact h.updReg

theorem State.Formed.writeHeader (h : s.Formed) {k : Kind} {p o : Nat} {mask data : Word} : (s.writeHeader k p o mask data).Formed := by
  unfold State.writeHeader
  extract_lets +onlyGivenNames s1 s2
  have hs1 : s1.Formed := h.putRow
  have hs2 : s2.Formed := .ite hs1.drainDiscard hs1
  exact hs2.forgetGroups

theorem State.Formed.reparity (h : s.Formed) {l : List Nat} : (s.reparity l).Formed := h.same

theorem State.Formed.writeTopology (h : s.Formed) {mask data : Word} : (s.writeTopology mask data).2.Formed :=
  .ite_snd h.orReg (.ite h.setReg h.setReg.setReg.reparity)

theorem State.Formed.profileReject (h : s.Formed) : s.profileReject.Formed := h.orReg

theorem State.Formed.writeProfile (h : s.Formed) {mask data : Word} : (s.writeProfile mask data).2.Formed := .ite_snd h.profileReject h.setReg

theorem State.Formed.writeConfig (h : s.Formed) {k : Kind} {p o : Nat} {mask data : Word} : (s.writeConfig k p o mask data).2.Formed :=
  .ite (.reparity (.ite_snd h.writeTopology (.ite_snd h.writeProfile h.putRow))) (.ite_snd h.writeTopology (.ite_snd h.writeProfile h.putRow))

theorem State.Formed.writeResetCtrl (h : s.Formed) {acts : Word} : (s.writeResetCtrl acts).Formed := .ite h.coldReset.withPow (.ite h.warmRequest h)

theorem State.Formed.writeFence (h : s.Formed) {id p : Nat} {v : Word} : (s.writeFence id p v).Formed := h.setFence.withHost

theorem State.Formed.liveGlobal (h : s.Formed) {a : Agent} {o : Nat} {mask data : Word} : (s.liveGlobal a o mask data).Formed :=
  .ite h.writeFence (.ite h.writeResetCtrl (.ite (.ite h.blockReset.forgetGroups h.setReg) (.ite h.clrReg h.putRow)))

theorem State.Formed.liveRoles (h : s.Formed) {a : Agent} {o : Nat} {mask data : Word} : (s.liveRoles a o mask data).2.Formed := by
  unfold State.liveRoles
  split
  · exact .ite h h.putRow
  · split
    · extract_lets +onlyGivenNames v
      split
      next t e2 =>
        have ht : t.Formed := .of_snd e2 h.keyCommit
        exact ht.setReg
      · exact h.keyCommit
    · exact h.putRow

theorem State.Formed.liveCpctl (h : s.Formed) {o : Nat} {mask data : Word} : (s.liveCpctl o mask data).Formed :=
  .ite (.ite h.coresReset (.foldl h fun h => .ite h.coreReset h)) (.ite h h.putRow)

theorem State.Formed.liveLocks (h : s.Formed) {a : Agent} {o : Nat} {mask data : Word} : (s.liveLocks a o mask data).2.Formed :=
  .ite_snd (.ite_snd h h.lockWrite) h.putRow

theorem State.Formed.liveTime (h : s.Formed) {due : Option Nat} {o : Nat} {mask data : Word} : (s.liveTime due o mask data).Formed :=
  .ite (.ite h.putRow.snap h.putRow) (.ite h.putRow.freqWritten (.ite h.putRow.domGo h.putRow))

theorem State.Formed.livePmu (h : s.Formed) {a : Agent} {o : Nat} {mask data : Word} : (s.livePmu a o mask data).Formed :=
  .ite (.ite h.putRow.pmuResetAll h.putRow) (.ite h.ringRead (.ite (.ite h.pmuWriteLo.pmuDropHold h.pmuWriteHi) h.putRow))

theorem State.Formed.liveDebug (h : s.Formed) {o : Nat} {mask data : Word} : (s.liveDebug o mask data).Formed := by
  unfold State.liveDebug
  extract_lets +onlyGivenNames acts s1
  have hs1 : s1.Formed := h.putRow
  split
  · extract_lets +onlyGivenNames k s2
    have hs2 : s2.Formed := .ite hs1.fresh.pbpStep hs1
    exact .ite hs2.pbpRelease hs2
  · exact .ite hs1.fresh.thaw hs1

theorem State.Formed.writeFaultCtrl (h : s.Formed) {acts : Word} : (s.writeFaultCtrl acts).Formed := by
  unfold State.writeFaultCtrl
  extract_lets +onlyGivenNames s1
  have hs1 : s1.Formed := .ite h.setReg.faultEval h
  split
  · extract_lets +onlyGivenNames s2
    have hs2 : s2.Formed := hs1.setReg.clrReg
    exact .pinsEval (.ite hs2.clrReg hs2)
  · exact hs1.pinsEval

theorem State.Formed.livePair (h : s.Formed) {o : Nat} {mask data : Word} : (s.livePair o mask data).Formed :=
  .ite h.withPair (.ite h.writeFaultCtrl h.putRow)

theorem State.Formed.liveBank (h : s.Formed) {p o : Nat} {mask data : Word} : (s.liveBank p o mask data).Formed :=
  .ite (.foldl h.putRow fun h => .ite h h.setLine) h.putRow

theorem State.Formed.liveFlexe (h : s.Formed) {o : Nat} {mask data : Word} : (s.liveFlexe o mask data).Formed :=
  .ite (.ite h.putRow.calSwitchReq h.putRow) (.ite h.putRow.clientsFollow h.putRow)

theorem State.Formed.liveClassify (h : s.Formed) {o : Nat} {mask data : Word} : (s.liveClassify o mask data).Formed := .putRow (.ite h.setPunt h)

theorem State.Formed.liveSprue (h : s.Formed) {p o : Nat} {mask data : Word} : (s.liveSprue p o mask data).Formed :=
  .ite h.putRow.sprueEval (.ite h.putRow.testCtrl h.putRow)

theorem State.Formed.writeLive (h : s.Formed) {w : Who} {k : Kind} {p o : Nat} {mask data : Word} : (s.writeLive w k p o mask data).2.Formed := by
  unfold State.writeLive
  extract_lets +onlyGivenNames acts plain
  have hplain : plain.Formed := h.putRow
  split
  · exact h.liveGlobal
  · exact .ite h.bellowsRestart hplain
  · exact h.liveRoles
  · exact .ite h.clrReg hplain
  · exact h.liveCpctl
  · exact h.liveLocks
  · exact h.liveTime
  · exact h.livePmu
  · exact .ite hplain.setGo hplain
  · exact h.liveDebug
  · exact h.livePair
  · exact .ite hplain.setMgmtUp hplain
  · exact h.liveBank
  · exact h.liveFlexe
  · exact h.liveClassify
  · exact .ite h.pendingDiscard hplain
  · exact .ite h.writeFence hplain
  · exact .ite h.tmRateApply hplain
  · exact .ite h.polRateApply hplain
  · exact h.liveSprue
  · exact hplain

theorem State.Formed.localReject (h : s.Formed) {p o : Nat} : (s.localReject p o).Formed := .ite h.orReg.profileReject h.orReg

theorem State.Formed.writeWord (h : s.Formed) {w : Who} {r : PageRow} {p o : Nat} {mask data : Word} : (s.writeWord w r p o mask data).2.Formed := by
  unfold State.writeWord
  extract_lets +onlyGivenNames mine cf s'
  have hs' : s'.Formed := .ite h.orReg h
  exact .ite_snd hs'.localReject (.ite_snd hs' (.ite_snd h.writeHeader (.ite_snd h.writeConfig (.ite_snd h.writeLive h.writeWin))))

theorem State.Formed.writeAt (h : s.Formed) {w : Who} {r : PageRow} {p o : Nat} {mask data : Word} : (s.writeAt w r p o mask data).2.Formed := by
  unfold State.writeAt
  split
  · exact h.deny
  · extract_lets +onlyGivenNames value s1
    have hs1 : s1.Formed := .ite h.withLastLow h.touchPage
    exact .ite_snd hs1.writeWord.journalWrite hs1.writeWord

theorem State.Formed.busWrite (h : s.Formed) {w : Who} {addr : Nat} {mask data : Word} : (s.busWrite w addr mask data).2.Formed := by
  obtain ⟨p, hp⟩ : ∃ p, p = (addr - 0x40000000) / 0x10000 := ⟨_, rfl⟩
  obtain ⟨o, ho⟩ : ∃ o, o = addr % 0x10000 := ⟨_, rfl⟩
  generalize hf : State.busWrite = f
  delta State.busWrite at hf
  subst hf
  beta_reduce
  rw [← hp, ← ho]
  cases hr : pageRow p with
  | none =>
    simp only [hr]
    exact h
  | some r =>
    simp only [hr]
    refine .ite_snd (.pair h.accessFault) (.ite_snd (.pair h.accessFault) (.ite_snd (.ite_snd h h.writeAt) ?_))
    exact .ite_snd h h.writeAt

theorem State.Formed.accessEvent (h : s.Formed) {code : Nat} {a : Agent} {space : Option (Nat × Nat)} {load : Nat} :
    (s.accessEvent code a space load).Formed := by
  unfold State.accessEvent
  extract_lets +onlyGivenNames mode
  split
  rename_i s1 e
  have hs1 : s1.Formed := .of_snd e h.pmuEvent
  split
  · refine .foldl hs1 fun h1 => ?_
    exact h1.fresh.fresh.sample
  · refine .foldl hs1 fun h1 => ?_
    exact h1.fresh.fresh.sample
  · exact hs1

theorem State.Formed.noteAccess (h : s.Formed) {w : Who} {addr load : Nat} : (s.noteAccess w addr load).Formed := .ite h h.accessEvent

/-- The kernel must not compute with the address that the bus decodes: `State.busRead` is unfolded through a variable, as in
`State.busWrite_config`, here and below. -/
theorem State.Formed.readBus (h : s.Formed) {w : Who} {addr : Nat} : (s.readBus w addr).2.2.Formed := by
  obtain ⟨g, hg, read⟩ : ∃ g, State.busRead = g ∧ (g s w addr).2.2.Formed := ⟨_, rfl, h.busRead⟩
  generalize hf : State.readBus = f
  delta State.readBus at hf
  rw [hg] at hf
  subst hf
  exact .ite read.noteAccess read

theorem State.Formed.writeBus (h : s.Formed) {w : Who} {addr : Nat} {mask data : Word} : (s.writeBus w addr mask data).2.Formed := by
  obtain ⟨g, hg, write⟩ : ∃ g, State.busWrite = g ∧ (g s w addr mask data).2.Formed := ⟨_, rfl, h.busWrite⟩
  generalize hf : State.writeBus = f
  delta State.writeBus at hf
  rw [hg] at hf
  subst hf
  exact .ite write.noteAccess write

/-! ### CtrlProc -/

theorem State.Formed.readOutside (h : s.Formed) {a : Agent} {addr : Nat} : (s.readOutside a addr).2.2.Formed :=
  .ite_snd_snd (.triple h.accessFault) (.ite_snd_snd (.triple h.accessFault) (.ite_snd_snd (.triple h.deny) (.ite_snd_snd (.triple h.deny) h)))

theorem State.Formed.writeOutside (h : s.Formed) {a : Agent} {addr : Nat} {mask data : Word} : (s.writeOutside a addr mask data).2.Formed :=
  .ite_snd (.pair h.accessFault) (.ite_snd (.pair h.accessFault) (.ite_snd (.pair h.deny) (.pair h.putMemWord)))

theorem State.Formed.readAddr (h : s.Formed) {a : Agent} {addr : Nat} : (s.readAddr a addr).2.2.Formed := .ite_snd_snd h.readBus h.readOutside

theorem State.Formed.writeAddr (h : s.Formed) {w : Who} {addr : Nat} {mask data : Word} : (s.writeAddr w addr mask data).2.Formed :=
  .ite_snd h.writeBus h.writeOutside

theorem State.Formed.auditWrite (h : s.Formed) {a : Agent} {st : Status} {addr : Nat} {data : Word} {n : Nat} {hit : Bool} :
    (s.auditWrite a st addr data n hit).Formed := by
  unfold State.auditWrite
  extract_lets +onlyGivenNames p
  split
  · exact h
  · exact h
  · exact .ite h (.ite h.auditBy (.ite h.auditBy h))

theorem State.Formed.countStore (h : s.Formed) : s.countStore.Formed := by
  unfold State.countStore
  extract_lets +onlyGivenNames more
  split
  · exact h.withNvm
  · exact h.withNvm

theorem State.Formed.auditStore (h : s.Formed) {a : Agent} {st : Status} {addr : Nat} {data : Word} : (s.auditStore a st addr data).Formed := by
  unfold State.auditStore
  extract_lets +onlyGivenNames p own
  split
  · exact h.auditWrite
  · extract_lets +onlyGivenNames joined room t
    have ht : t.Formed := .ite h.countStore h.auditWrite
    exact ht.withNvm

theorem State.Formed.mirrorWrite (h : s.Formed) {agent addr : Nat} {mask data : Word} : (s.mirrorWrite agent addr mask data).Formed := by
  unfold State.mirrorWrite
  split
  · exact h
  · split
    · exact h
    · exact .ite h (.ite h.relayWords h.relayWords)

theorem State.Formed.setCoreReg (h : s.Formed) {k n : Nat} {v : BitVec 64} : (s.setCoreReg k n v).Formed := by
  have set : { s with cp := { s.cp with coreRegs := Store.set 0#64 (k * 65536 + n) v s.cp.coreRegs } }.Formed :=
    { h with coreRegs := Store.wf_put _ _ _ _ h.coreRegs }
  exact .ite h set

theorem State.Formed.coreTrap (h : s.Formed) {k : Nat} {user : Bool} {cause : Nat} {tval : BitVec 64} : (s.coreTrap k user cause tval).Formed :=
  h.setCoreReg.setCoreReg.setCoreReg.setCoreReg.setCoreReg

theorem State.Formed.appStopped (h : s.Formed) {cause k : Nat} {addr : Word} : (s.appStopped cause k addr).Formed :=
  h.stopApp.setReg.setReg.incReg.raise

theorem State.Formed.storeWord (h : s.Formed) {a : Agent} {addr : Nat} {mask data : Word} : (s.storeWord a addr mask data).2.Formed := by
  unfold State.storeWord
  split
  rename_i s1 e
  have hs1 : s1.Formed := .of_snd e h.writeAddr
  exact .ite hs1.auditStore.mirrorWrite hs1.auditStore

theorem State.Formed.corePages (h : s.Formed) {a : Agent} {addr : Nat} {z : AccSize} {d : BitVec 64} : (s.corePages a addr z d).2.Formed := by
  unfold State.corePages
  extract_lets +onlyGivenNames w
  split
  · exact .ite_snd h.storeWord h.storeWord.storeWord
  · exact h.storeWord

theorem State.Formed.coreStore (h : s.Formed) {k : Fin 4} {addr : Nat} {z : AccSize} {d : BitVec 64} : (s.coreStore k addr z d).2.Formed := by
  obtain ⟨g, hg, pages⟩ : ∃ g, State.corePages = g ∧ (g s (.core k) addr z d).2.Formed := ⟨_, rfl, h.corePages⟩
  generalize hf : State.coreStore = f
  delta State.coreStore at hf
  rw [hg] at hf
  subst hf
  beta_reduce
  extract_lets p
  split
  · exact h
  · split
    next e =>
      have ht := State.Formed.of_snd e (.ite_snd (.ite_snd (.pair h.putMemBytes) (.pair h))
        (.ite_snd (.pair h) (.ite_snd pages (.pair h.accessFault))))
      exact .ite ht.coreTrap ht

theorem State.Formed.appTrap (h : s.Formed) {cause k exc : Nat} {addr : Word} : (s.appTrap cause k exc addr).Formed := h.coreTrap.appStopped

theorem State.Formed.appStore (h : s.Formed) {k : Fin 4} {addr : Nat} {z : AccSize} {d : BitVec 64} : (s.appStore k addr z d).2.Formed := by
  obtain ⟨g, hg, pages⟩ : ∃ g, State.corePages = g ∧ (g s (.app k) addr z d).2.Formed := ⟨_, rfl, h.corePages⟩
  generalize hf : State.appStore = f
  delta State.appStore at hf
  rw [hg] at hf
  subst hf
  beta_reduce
  obtain ⟨bare, hbare⟩ : ∃ b, b = (pageRow ((addr - 0x40000000) / 0x10000)).isNone := ⟨_, rfl⟩
  rw [← hbare]
  split
  · exact h
  · split
    · exact .ite_snd (.pair h.appTrap) (.ite_snd h pages)
    · exact .ite_snd (.pair h.appTrap) (.ite_snd (.pair h.appTrap) (.pair h.putMemBytes))

theorem State.Formed.loadWord (h : s.Formed) {a : Agent} {addr : Nat} : (s.loadWord a addr).2.2.Formed := h.readBus

theorem State.Formed.loadPages (h : s.Formed) {a : Agent} {addr : Nat} {z : AccSize} : (s.loadPages a addr z).2.2.Formed := by
  obtain ⟨g, hg, load⟩ : ∃ g, State.loadWord = g ∧ ∀ {s addr}, s.Formed → (g s a addr).2.2.Formed := ⟨_, rfl, fun h => h.loadWord⟩
  generalize hf : State.loadPages = f
  delta State.loadPages at hf
  rw [hg] at hf
  subst hf
  beta_reduce
  split
  next e =>
    have ht := State.Formed.of_snd_snd e (load h)
    split
    · split
      next e => exact .of_snd_snd e (load ht)
      next e => exact .of_snd_snd e (load ht)
    · exact ht
  next e => exact .of_snd_snd e (load h)

theorem State.Formed.dramUncorr (h : s.Formed) {addr : Nat} : (s.dramUncorr addr).Formed := h.stackUncorr

theorem State.Formed.coreLoad (h : s.Formed) {k : Fin 4} {addr : Nat} {z : AccSize} {uncorr : Bool} : (s.coreLoad k addr z uncorr).2.2.Formed := by
  obtain ⟨g, hg, load⟩ : ∃ g, State.loadPages = g ∧ (g s (.core k) addr z).2.2.Formed := ⟨_, rfl, h.loadPages⟩
  generalize hf : State.coreLoad = f
  delta State.coreLoad at hf
  rw [hg] at hf
  subst hf
  beta_reduce
  extract_lets p
  split
  · exact h
  · split
    next e =>
      have ht := State.Formed.of_snd_snd e (.ite_snd_snd (.ite_snd_snd (.triple h) (.ite_snd_snd load (.triple h.accessFault)))
        (.ite_snd_snd (.triple h) (.ite_snd_snd (.triple h.dramUncorr) (.triple h))))
      exact .ite ht.coreTrap ht

theorem State.Formed.appLoad (h : s.Formed) {k : Fin 4} {addr : Nat} {z : AccSize} {uncorr : Bool} : (s.appLoad k addr z uncorr).2.2.Formed := by
  obtain ⟨g, hg, load⟩ : ∃ g, State.loadPages = g ∧ (g s (.app k) addr z).2.2.Formed := ⟨_, rfl, h.loadPages⟩
  generalize hf : State.appLoad = f
  delta State.appLoad at hf
  rw [hg] at hf
  subst hf
  beta_reduce
  obtain ⟨bare, hbare⟩ : ∃ b, b = (pageRow ((addr - 0x40000000) / 0x10000)).isNone := ⟨_, rfl⟩
  rw [← hbare]
  split
  · exact h
  · split
    · exact .ite_snd_snd (.triple h.appTrap) (.ite_snd_snd h load)
    · refine .ite_snd_snd (.triple h.appTrap) (.ite_snd_snd (.triple h.appTrap) ?_)
      exact .ite_snd_snd (.triple h.dramUncorr.appTrap) h

theorem State.Formed.retired (h : s.Formed) {a : Agent} {load : Option Nat} : (s.retired a load).Formed := by
  unfold State.retired
  split
  · exact h
  · extract_lets +onlyGivenNames s1
    have hs1 : s1.Formed := h.accessEvent
    split
    · exact .ite hs1.accessEvent hs1
    · exact hs1

theorem State.Formed.load (h : s.Formed) {l : CoreLoad} : (s.load l).Formed :=
  .ite h (.ite (.retired (.setCoreReg (.ite_snd_snd h.appLoad h.coreLoad))) (.ite_snd_snd h.appLoad h.coreLoad))

theorem State.Formed.storeRetires {x : Status × State} {a : Agent} (h : x.2.Formed) : (storeRetires a x).2.Formed := .ite h h.retired

theorem State.Formed.store (h : s.Formed) {a : Agent} {addr : Nat} {z : AccSize} {d : BitVec 64} : (s.store a addr z d).2.Formed := by
  unfold State.store
  split
  · exact h
  · split
    · exact h.coreStore.storeRetires
    · exact h.appStore.storeRetires
    · exact .ite_snd h.storeWord h
    · exact h.storeWord

theorem State.Formed.regWrite (h : s.Formed) {a : Agent} {p o : Nat} {data : Word} : (s.regWrite a p o data).Formed := h.store

theorem execRegisterWrite_formed (h : s.Formed) {a : Agent} {addr : Word} {size : AccSize} {data : BitVec 64} :
    Out.Formed (execRegisterWrite a addr size data s) :=
  .next h.store

theorem execBitAliasWrite_formed (h : s.Formed) {a : Agent} {page : Fin 256} {w : Fin 128} {b : Fin 32} {data : Word} :
    Out.Formed (execBitAliasWrite a page w b data s) :=
  .next h.regWrite

theorem execDrainDiscard_formed (h : s.Formed) {a : Agent} {page : Fin 256} : Out.Formed (execDrainDiscard a page s) := .next h.regWrite

theorem execTopologyWrite_formed (h : s.Formed) {a : Agent} {data : Word} : Out.Formed (execTopologyWrite a data s) := .next h.regWrite

theorem execEngineProfileWrite_formed (h : s.Formed) {a : Agent} {data : Word} : Out.Formed (execEngineProfileWrite a data s) := .next h.regWrite

theorem execFenceWrite_formed (h : s.Formed) {a : Agent} {token : Word} : Out.Formed (execFenceWrite a token s) := .next h.regWrite

theorem execTablesFenceWrite_formed (h : s.Formed) {a : Agent} {token : Word} : Out.Formed (execTablesFenceWrite a token s) := .next h.regWrite

theorem execFenceDone_formed (h : s.Formed) {a : Agent} : Out.Formed (execFenceDone a s) := .ite (.next h) (.next (.ite h.setFence h))

theorem execTablesFenceDone_formed (h : s.Formed) {a : Agent} : Out.Formed (execTablesFenceDone a s) := .ite (.next h) (.next (.ite h h.setFence))

theorem execLockAcquire_formed (h : s.Formed) {a : Agent} {k : Fin 64} : Out.Formed (execLockAcquire a k s) := .next h.regWrite

theorem execLockRelease_formed (h : s.Formed) {a : Agent} {k : Fin 64} : Out.Formed (execLockRelease a k s) := .next h.regWrite

theorem execAppFault_formed (h : s.Formed) {k : Fin 4} {cause : AppCause} {faultAddr : Word} : Out.Formed (execAppFault k cause faultAddr s) := by
  unfold execAppFault
  split
  · exact .next h
  · split
    · exact .next h
    · split
      · exact .next h.appTrap
      · split
        rename_i s1 e2
        have hs1 : s1.Formed := .of_snd e2 h.fresh
        exact .next hs1.appTrap
      · split
        rename_i s1 e2
        have hs1 : s1.Formed := .of_snd e2 h.fresh
        exact .next hs1.appTrap

theorem execAppCpuLimit_formed (h : s.Formed) {k : Fin 4} : Out.Formed (execAppCpuLimit k s) := .ite (.next h) (.next (.ite h.appStopped h))

theorem execWdtKick_formed (h : s.Formed) {a : Agent} {data : Word} : Out.Formed (execWdtKick a data s) := .next h.regWrite

theorem execCoreResetAll_formed (h : s.Formed) {a : Agent} : Out.Formed (execCoreResetAll a s) := .next h.regWrite

theorem execCoreResetOne_formed (h : s.Formed) {a : Agent} {k : Fin 3} : Out.Formed (execCoreResetOne a k s) := .next h.regWrite

theorem execKeyCommit_formed (h : s.Formed) {a : Agent} {role : BitVec 2} : Out.Formed (execKeyCommit a role s) := .next h.regWrite

/-! ### LongOps -/

theorem State.Formed.opBegin (h : s.Formed) {slot : Nat} : (s.opBegin slot).Formed := by
  unfold State.opBegin
  split
  · exact h
  · extract_lets +onlyGivenNames r1
    split
    · exact .ite h.endOp h.setOp.withTab
    · exact h.setOp
    · exact h.setOp
    · exact h.setOp
    · exact h.withOps.setOp
    · exact h.syncBegin
    · exact h.setOp.setTesting
    · exact h.setOp
    · exact h.setOp

theorem opStart_formed (h : s.Formed) {a : Agent} {rights session : Nat} {ws : List Word} : (opStart a rights session ws s).2.2.Formed := by
  unfold opStart
  split
  · exact h.answer
  · split
    · exact h.deny.answer
    · split
      · exact h.answer
      · split
        · exact h.answer
        · exact .ite h.opCreate.opBegin h.opCreate

theorem State.Formed.journalLoad (h : s.Formed) {tab : Nat} {l : List Word} : (s.journalLoad tab l).Formed := .ite (.foldl h fun h => h.journal) h

theorem State.Formed.failLoad (h : s.Formed) {slot i res dev : Nat} : (s.failLoad slot i res dev).Formed := h.updOp.endOp

theorem State.Formed.badRecord (h : s.Formed) {slot : Nat} {r : OpRec} {res dev : Nat} : (s.badRecord slot r res dev).2.Formed :=
  .ite_snd h.setOp h.failLoad

theorem State.Formed.loadRun (h : s.Formed) {slot n : Nat} : (s.loadRun slot n).Formed := by
  induction n generalizing s with
  | zero => exact h
  | succ n ih =>
    unfold State.loadRun
    split
    · exact h
    · extract_lets tab i
      refine .ite h (.ite (ih h.setOp) ?_)
      extract_lets
      split
      next e =>
        have loaded := State.Formed.of_snd e h.loadRecord
        split
        · split
          next e =>
            have skipped := State.Formed.of_snd e loaded.badRecord
            exact .ite (ih skipped) skipped
        · exact .ite loaded.journalLoad.setOp.relayTold (ih loaded.journalLoad.setOp)

theorem State.Formed.journalDeletes (h : s.Formed) {gone : List MacEnt} : (s.journalDeletes gone).Formed :=
  .ite h (.foldl h fun h => h.journal.journal)

theorem State.Formed.flushRun (h : s.Formed) {slot : Nat} {r : OpRec} {upto : Nat} : (s.flushRun slot r upto).Formed := by
  unfold State.flushRun
  extract_lets +onlyGivenNames banks mine t keep gone s1
  have ht : t.Formed := h.flushMac
  have hs1 : s1.Formed := .ite h.relayTold h
  exact hs1.setMac.journalDeletes.setOp

theorem State.Formed.saveRun (h : s.Formed) {slot n : Nat} : (s.saveRun slot n).Formed := by
  induction n generalizing s with
  | zero => exact h
  | succ n ih =>
    unfold State.saveRun
    split
    · exact h
    · extract_lets +onlyGivenNames i
      split
      · exact h
      · extract_lets +onlyGivenNames place t1 t2
        have ht1 : t1.Formed := h.putStoreBytes
        have ht2 : t2.Formed := .ite ht1.noteWear ht1
        exact ih ht2.setOp

theorem State.Formed.saveEnd (h : s.Formed) {slot : Nat} {r : OpRec} {good : Bool} : (s.saveEnd slot r good).Formed := by
  unfold State.saveEnd
  extract_lets +onlyGivenNames b s1
  have hs1 : s1.Formed := h.putStoreBytes
  exact .ite hs1.updReg.endOp hs1.endOp

theorem State.Formed.restoreWord (h : s.Formed) {a : Agent} {rights p o : Nat} {v : Word} : (s.restoreWord a rights p o v).2.Formed := by
  obtain ⟨g, hg, write⟩ : ∃ g, State.busWrite = g ∧ ∀ {w i m d}, (g s w i m d).2.Formed := ⟨_, rfl, h.busWrite⟩
  generalize hf : State.restoreWord = f
  delta State.restoreWord at hf
  rw [hg] at hf
  subst hf
  exact .ite (State.Formed.mirrorWrite write) write

theorem State.Formed.restorePage (h : s.Formed) {a : Agent} {r : OpRec} {b : Bool} {i : Nat} {pr : PageRow} {p : Nat} :
    (s.restorePage a r b i pr p).Formed := by
  obtain ⟨g, hg, restore⟩ : ∃ g, State.restoreWord = g ∧ ∀ {s rights p o v}, s.Formed → (g s a rights p o v).2.Formed :=
    ⟨_, rfl, fun h => h.restoreWord⟩
  generalize hf : State.restorePage = f
  delta State.restorePage at hf
  rw [hg] at hf
  subst hf
  beta_reduce
  extract_lets offs
  clear_value offs
  split
  next e =>
    have ht := State.Formed.of_fst e (.foldl_fst h fun h => restore h)
    exact .ite ht.audit ht

theorem State.Formed.restoreNext (h : s.Formed) {slot : Nat} {r : OpRec} : (s.restoreNext slot r).Formed := by
  unfold State.restoreNext
  extract_lets +onlyGivenNames b i w0 p r1
  split
  · exact h
  · split
    · exact .ite h.setOp.endOp h.restorePage.setOp.withOps
    · exact h.setOp.endOp

theorem State.Formed.restoreSettle (h : s.Formed) : s.restoreSettle.Formed := by
  unfold State.restoreSettle
  split
  · exact h
  · split
    · exact h
    · split
      · exact h.withOps
      · split
        · exact h
        · extract_lets +onlyGivenNames r1 t
          extract_lets +onlyGivenNames t1
          have ht1 : t1.Formed := h.withOps.setOp
          exact .ite ht1.endOp (.ite ht1.restoreNext ht1)

theorem State.Formed.restoreCompare (h : s.Formed) : s.restoreCompare.Formed := by
  unfold State.restoreCompare
  split
  · exact h
  · extract_lets +onlyGivenNames differs t
    have ht : t.Formed := .ite h h.updOp
    exact ht.withOps.restoreSettle

theorem execScrubPass_formed (h : s.Formed) {upsets : List (Word × Fin 32)} : Out.Formed (execScrubPass upsets s) :=
  .ite (.next h) (.next (.restoreCompare (.scrubEnd (.foldl h fun h => h.strike))))

theorem State.Formed.restoreOpen (h : s.Formed) {slot : Nat} {r : OpRec} : (s.restoreOpen slot r).Formed := by
  unfold State.restoreOpen
  extract_lets +onlyGivenNames b
  split
  · exact h
  · split
    · exact h.endOp
    · exact h.setOp

theorem State.Formed.testIngot (h : s.Formed) {slot : Nat} {bad : Bool} {place : Nat} : (s.testIngot slot bad place).Formed :=
  .ite h.updOp (.ite h.retireIngot.updOp (.ite h.withBuf.updReg.updReg.updOp h.updOp))

theorem State.Formed.testRun (h : s.Formed) {slot : Nat} {found : List Word} : (s.testRun slot found).Formed := by
  unfold State.testRun
  split
  · exact h
  · extract_lets +onlyGivenNames l s1
    extract_lets +onlyGivenNames s2
    have hs2 : s2.Formed := .foldl h.withBuf fun h => h.testIngot
    split
    · exact .ite hs2.reserveEval.endOp hs2.setTesting
    · exact hs2

theorem State.Formed.updatePhase (h : s.Formed) {slot : Nat} {r : OpRec} {good : Bool} : (s.updatePhase slot r good).Formed := by
  unfold State.updatePhase
  split
  extract_lets +onlyGivenNames f
  split
  · exact .ite h.setOp h.endOp
  · split
    · extract_lets +onlyGivenNames s1
      have hs1 : s1.Formed := .ite h.clrReg.auditSlot h
      exact hs1.putStoreBytes.noteWear.setOp
    · exact .ite (.ite h.setOp h.endOp) h.updReg.auditSlot.endOp

theorem State.Formed.updateRun (h : s.Formed) {slot : Nat} {good : Bool} {n : Nat} : (s.updateRun slot good n).Formed := by
  induction n generalizing s with
  | zero => exact h
  | succ n ih =>
    unfold State.updateRun
    split
    · exact .ite h (.ite h.endOp (ih h.updatePhase))
    · exact h

theorem State.Formed.sendEntries (h : s.Formed) {sel : MacEnt → Bool} : (s.sendEntries sel).Formed := h.withTab

theorem State.Formed.rejoinAsk (h : s.Formed) {ag : Nat} {k : Word} {l : List Word} : (s.rejoinAsk ag k l).Formed := h.withPair.relayTold

theorem State.Formed.rejoinTime (h : s.Formed) {ag : Nat} : (s.rejoinTime ag).Formed := .foldl h fun h => h.relayWords.relayWords.relayWords

theorem State.Formed.sendVersioned (h : s.Formed) {ag addr : Nat} : (s.sendVersioned ag addr).Formed := .foldl h fun h => h.relayTold

theorem State.Formed.copyWindows (h : s.Formed) {ag : Nat} : (s.copyWindows ag).Formed := by
  unfold State.copyWindows
  refine .foldl h fun h1 => ?_
  split
  · exact h1
  · refine .foldl h1 fun h2 => ?_
    extract_lets +onlyGivenNames v t2
    have hv : v.Formed := by
      unfold v
      split
      · exact h.setReg
      · exact h
    have ht2 : t2.Formed := by
      unfold t2
      split
      · exact h2.relayWords
      · exact h2
    exact ht2.relayWords

theorem State.Formed.copyLive (h : s.Formed) {ag : Nat} : (s.copyLive ag).Formed := by
  unfold State.copyLive
  refine .foldl h fun h1 => ?_
  split
  · exact h1
  · exact .foldl h1 fun h => .ite h.relayWords h

theorem State.Formed.rejoinMerge (h : s.Formed) {slot : Nat} {r : OpRec} {differing : Word} : (s.rejoinMerge slot r differing).Formed := by
  unfold State.rejoinMerge
  extract_lets +onlyGivenNames ag t t1 t2 t3
  have ht : t.Formed := h.setTwicel.rejoinAsk.sendVersioned
  have ht1 : t1.Formed := .foldl ht fun h => .ite h.relayTold h
  have ht2 : t2.Formed := ht1.copyWindows.copyLive.sendEntries
  have ht3 : t3.Formed := ht2.rejoinAsk
  exact ht3.setOp

theorem State.Formed.rejoinDone (h : s.Formed) {slot : Nat} {r : OpRec} {mask : Word} : (s.rejoinDone slot r mask).Formed := by
  unfold State.rejoinDone
  extract_lets +onlyGivenNames s1 s2
  have hs1 : s1.Formed := h.setOp
  have hs2 : s2.Formed := .ite hs1 hs1.orReg
  exact hs2.setTwicel.incReg.endOp

theorem State.Formed.rejoinRun (h : s.Formed) {slot : Nat} {r : OpRec} : (s.rejoinRun slot r).Formed := by
  unfold State.rejoinRun
  extract_lets +onlyGivenNames ag
  split
  · exact h
  · split
    · split
      · exact h.rejoinDone
      · exact h
    · split
      · exact h.setOp
      · split
        · exact .ite h.setOp.rejoinAsk h.rejoinAsk
        · split
          · exact .ite h.setOp.rejoinTime.rejoinAsk h.rejoinAsk
          · split
            · exact .ite h.setOp.sendVersioned.rejoinAsk h.rejoinAsk
            · split
              · exact h
              · exact .ite h.setOp.endOp h.rejoinMerge

theorem State.Formed.sharedDone (h : s.Formed) {slot : Nat} {r : OpRec} : (s.sharedDone slot r).Formed := .ite h h.endOp

theorem State.Formed.loadWork (h : s.Formed) {slot : Nat} {r : OpRec} {n : Nat} : (s.loadWork slot r n).Formed := by
  unfold State.loadWork
  extract_lets +onlyGivenNames t
  have ht : t.Formed := h.loadRun
  split
  · exact .ite ht.sharedDone ht
  · exact ht

theorem State.Formed.saveWork (h : s.Formed) {slot n : Nat} {good : Bool} : (s.saveWork slot n good).Formed := by
  unfold State.saveWork
  extract_lets +onlyGivenNames t
  have ht : t.Formed := h.saveRun
  split
  · exact .ite ht.saveEnd ht
  · exact ht

theorem State.Formed.restoreWork (h : s.Formed) {slot : Nat} {r : OpRec} : (s.restoreWork slot r).Formed := by
  unfold State.restoreWork
  extract_lets +onlyGivenNames s1
  have hs1 : s1.Formed := h.restoreOpen
  split
  · split
    · exact hs1
    · split
      · exact hs1.endOp
      · extract_lets +onlyGivenNames t
        have ht : t.Formed := hs1.restoreSettle
        split
        · exact .ite ht.restoreNext ht
        · exact ht
  · exact hs1

theorem State.Formed.testWork (h : s.Formed) {slot n : Nat} {found : List Word} : (s.testWork slot n found).Formed := by
  unfold State.testWork
  refine .foldl h fun h1 => ?_
  split
  · exact .ite h1.testRun h1
  · exact h1

theorem State.Formed.opWork (h : s.Formed) {slot n : Nat} {good : Bool} {found : List Word} : (s.opWork slot n good found).Formed := by
  unfold State.opWork
  split
  · exact h
  · split
    · exact h
    · split
      · exact h.endOp
      · split
        · exact h
        · exact h
        · exact h.loadWork
        · split
          · exact h
          · extract_lets +onlyGivenNames upto t
            have ht : t.Formed := h.flushRun
            split
            · split
              · exact ht.sharedDone
              · exact ht
            · exact ht
        · exact h.saveWork
        · exact h.restoreWork
        · exact h.testWork
        · exact h.updateRun
        · exact h.rejoinRun

theorem State.Formed.loadAnswered (h : s.Formed) {slot res : Nat} : (s.loadAnswered slot res).Formed := by
  unfold State.loadAnswered
  split
  · exact h
  · exact .ite h (.ite h.setOp h.badRecord)

theorem State.Formed.entryAnswered (h : s.Formed) : s.entryAnswered.Formed := by
  unfold State.entryAnswered
  split
  · exact h.updOp
  · exact h

theorem State.Formed.opAnswered (h : s.Formed) {addr : Nat} {l : List Word} {status : Nat} {data : List Word} :
    (s.opAnswered addr l status data).Formed := by
  unfold State.opAnswered
  extract_lets +onlyGivenNames k
  split
  · exact h.loadAnswered.opWork
  · split
    · exact .ite h h.entryAnswered
    · split
      · extract_lets +onlyGivenNames s1
        extract_lets +onlyGivenNames s2
        have hs2 : s2.Formed := h.withPair
        split
        · exact .ite hs2.opWork hs2
        · exact hs2
      · split
        · split
          · exact h.sharedDone
          · exact h
        · exact h

theorem execOpQueuedStart_formed (h : s.Formed) {slot : Fin 16} : Out.Formed (execOpQueuedStart slot s) := by
  unfold execOpQueuedStart
  split
  · exact .next h
  · split
    · exact .ite (.next h.opBegin) (.next h)
    · exact .next h

theorem execOpComplete_formed (h : s.Formed) {slot : Fin 16} {good : Bool} {found : List Word} : Out.Formed (execOpComplete slot good found s) :=
  .ite (.next h) (.next h.opWork)

theorem execOpRecordExpire_formed (h : s.Formed) {slot : Fin 16} : Out.Formed (execOpRecordExpire slot s) := by
  unfold execOpRecordExpire
  split
  · exact .next h
  · split
    · exact .ite (.next h.withOps) (.next h)
    · exact .next h

/-! ### Commands -/

theorem State.Formed.refused (h : s.Formed) {a : Agent} {addr : Nat} {wr : Bool} {st : Status} : (s.refused a addr wr st).Formed :=
  .ite h.accessFault h

theorem State.Formed.readSum (h : s.Formed) {a : Agent} {addr : Nat} {w : Work} : (s.readSum a addr w).2.Formed := by
  unfold State.readSum
  extract_lets +onlyGivenNames o i last
  split
  · exact .ite_snd h h.readPair.relayWords
  · exact .ite_snd h h.readPair.relayWords

theorem State.Formed.readLocal (h : s.Formed) {a : Agent} {rights addr : Nat} : (s.readLocal a rights addr).2.2.Formed :=
  .ite_snd_snd h (.ite_snd_snd h.readBus h.readOutside)

theorem State.Formed.readWords (h : s.Formed) {a : Agent} {rights : Nat} {fixed : Bool} {n : Nat} {l : List Nat} {w : Work} :
    (s.readWords a rights fixed n l w).2.Formed := by
  induction n generalizing s l w with
  | zero => exact h
  | succ n ih =>
    cases l with
    | nil => exact h
    | cons addr rest =>
      unfold State.readWords
      split
      · split
        · exact h.refused
        · exact .ite_snd h.deny (ih h.relayWords)
      · split
        · split
          · exact h.refused
          · exact ih h.readSum
        · split
          next e => exact ih (.of_snd_snd e h.readLocal)
          next e => exact .of_snd_snd e h.readLocal

theorem State.Formed.cmdRead (h : s.Formed) {a : Agent} {rights : Nat} {ws : List Word} : (s.cmdRead a rights ws).2.Formed := h.readWords

theorem State.Formed.mirrorRun (h : s.Formed) {agent : Nat} {fixed : Bool} {n : Nat} {l : List (Nat × Word)} :
    (s.mirrorRun agent fixed n l).Formed := by
  induction n generalizing s l with
  | zero => exact h
  | succ n ih =>
    cases l with
    | nil => exact h
    | cons e rest => exact .ite h (.ite (ih h.relayWords) (ih h.mirrorWrite))

theorem State.Formed.writeWords (h : s.Formed) {a : Agent} {rights : Nat} {fixed : Bool} {mask : Word} {masked : Bool} {n : Nat}
    {l : List (Nat × Word)} {w : Written} : (s.writeWords a rights fixed mask masked n l w).2.Formed := by
  induction n generalizing s l w with
  | zero => exact h
  | succ n ih =>
    cases l with
    | nil => exact h
    | cons e rest =>
      unfold State.writeWords
      split
      · split
        · exact h.refused
        · exact .ite_snd h.deny (ih h.relayWords)
      · split
        · exact .pair h.refused
        · split
          next e => exact ih (.of_snd e h.writeAddr)
          next e => exact .of_snd e h.writeAddr

theorem State.Formed.writeEnd (h : s.Formed) {a : Agent} {w : Written} {first : Nat} {data : Word} : (s.writeEnd a w first data).2.Formed :=
  h.auditWrite

theorem State.Formed.cmdWrite (h : s.Formed) {a : Agent} {rights : Nat} {ws : List Word} : (s.cmdWrite a rights ws).2.Formed :=
  h.writeWords.mirrorRun.writeEnd

theorem State.Formed.cmdMasked (h : s.Formed) {a : Agent} {rights : Nat} {ws : List Word} : (s.cmdMasked a rights ws).2.Formed := by
  unfold State.cmdMasked
  extract_lets +onlyGivenNames addr m d
  split
  · exact h
  · split
    rename_i s1 e1
    have hs1 : s1.Formed := .of_snd e1 h.writeWords
    extract_lets +onlyGivenNames s2
    have hs2 : s2.Formed := .ite hs1 hs1.mirrorWrite
    exact hs2.writeEnd

theorem State.Formed.workBefore (h : s.Formed) {slot units : Nat} : (s.workBefore slot units).Formed := .ite h h.opWork

theorem State.Formed.opSuspend (h : s.Formed) {rights : Nat} {h1 : Word} {units : Nat} : (s.opSuspend rights h1 units).2.2.Formed := by
  unfold State.opSuspend
  split
  · exact h.answer
  · split
    · exact h.deny.answer
    · extract_lets +onlyGivenNames s1 s2
      have hs1 : s1.Formed := h.workBefore
      have hs2 : s2.Formed := .ite hs1.dueSwitch hs1
      split
      · split
        · extract_lets +onlyGivenNames s3 s4 s5
          have hs3 : s3.Formed := .ite hs2.relayAbort hs2
          have hs5 : s5.Formed := .ite hs3.withTab hs3
          extract_lets +onlyGivenNames s6
          have hs6 : s6.Formed := .ite hs5.setTesting hs5
          exact hs6.setOp.answer
        · exact hs2.answer
      · exact hs2.answer

theorem State.Formed.opResume (h : s.Formed) {rights : Nat} {h1 : Word} : (s.opResume rights h1).2.2.Formed := by
  unfold State.opResume
  split
  · exact h.answer
  · exact .ite_snd_snd h.deny.answer (.ite_snd_snd (.answer (.ite h.setOp.setTesting h.setOp)) h.answer)

theorem State.Formed.opCancelCmd (h : s.Formed) {rights : Nat} {h1 : Word} {units : Nat} : (s.opCancelCmd rights h1 units).2.2.Formed := by
  unfold State.opCancelCmd
  split
  · exact h.answer
  · split
    · exact h.deny.answer
    · extract_lets +onlyGivenNames s1
      have hs1 : s1.Formed := h.workBefore
      split
      · exact hs1.opCancel.answer
      · exact hs1.answer

theorem State.Formed.opStatus (h : s.Formed) {a : Agent} {h1 : Word} {units : Nat} : (s.opStatus a h1 units).2.2.Formed := by
  unfold State.opStatus
  split
  · exact h.answer
  · extract_lets +onlyGivenNames s1
    have hs1 : s1.Formed := h.workBefore
    split
    · exact hs1.answer
    · extract_lets +onlyGivenNames s'
      extract_lets +onlyGivenNames s'1
      have hs'1 : s'1.Formed := .ite hs1.withOps hs1
      exact hs'1

theorem State.Formed.cmdHalt (h : s.Formed) {ws : List Word} : (s.cmdHalt ws).Formed := .foldl h fun h => .ite h.haltCore h

theorem State.Formed.cmdResume (h : s.Formed) {ws : List Word} : (s.cmdResume ws).Formed := h.setHalted

theorem State.Formed.cmdStep (h : s.Formed) {ws : List Word} {env : CmdEnv} : (s.cmdStep ws env).2.2.Formed := by
  unfold State.cmdStep
  extract_lets +onlyGivenNames k
  split
  · exact h.answer
  · extract_lets +onlyGivenNames s1
    have hs1 : s1.Formed := .foldl h fun h => h.setCoreReg
    exact hs1.setCoreReg.haltCore.answer

theorem State.Formed.cmdRegRead (h : s.Formed) {ws : List Word} : (s.cmdRegRead ws).2.2.Formed := .ite_snd_snd h.answer (.ite_snd_snd h.answer h)

theorem State.Formed.cmdRegWrite (h : s.Formed) {ws : List Word} : (s.cmdRegWrite ws).2.2.Formed := by
  unfold State.cmdRegWrite
  extract_lets +onlyGivenNames k n c
  split
  · exact h.answer
  · extract_lets +onlyGivenNames good v s1
    have hs1 : s1.Formed := .foldl h fun h => h.setCoreReg
    exact hs1

theorem State.Formed.cmdTrigger (h : s.Formed) {ws : List Word} : (s.cmdTrigger ws).Formed := h.withCp

theorem State.Formed.spaceWords (h : s.Formed) {space : Nat} {bad : Option Nat} {n addr : Nat} {l : List Word} :
    (s.spaceWords space bad n addr l).2.2.Formed := by
  induction n generalizing s addr l with
  | zero => exact h
  | succ n ih =>
    unfold State.spaceWords
    split
    · exact h.deny
    · split
      · exact h
      · exact .ite_snd_snd h (ih h.fresh)
      · exact h

theorem State.Formed.cmdQread (h : s.Formed) {ws : List Word} {bad : Option Nat} : (s.cmdQread ws bad).2.2.Formed :=
  .ite_snd_snd h.answer (.ite_snd_snd h.answer h.spaceWords)

theorem State.Formed.debugCmd (h : s.Formed) {op : Nat} {ws : List Word} {env : CmdEnv} : (s.debugCmd op ws env).2.2.Formed :=
  .ite_snd_snd h.deny.answer (.ite_snd_snd h.deny.answer (.ite_snd_snd h.cmdHalt.answer (.ite_snd_snd h.cmdResume.answer (.ite_snd_snd h.cmdStep (.ite_snd_snd h.cmdRegRead (.ite_snd_snd h.cmdRegWrite (.ite_snd_snd h.cmdTrigger.answer (.ite_snd_snd h.quench.answer (.ite_snd_snd h (.ite_snd_snd h.cmdQread (.ite_snd_snd (.ite_snd_snd h.thaw.answer h.answer) h.debugDetach.answer)))))))))))

theorem State.Formed.runCmd (h : s.Formed) {a : Agent} {op rights session : Nat} {ws : List Word} {env : CmdEnv} :
    (s.runCmd a op rights session ws env).2.Formed :=
  .ite_snd h.cmdRead (.ite_snd h.cmdWrite (.ite_snd h.cmdMasked (.ite_snd h (.ite_snd h (.ite_snd (loginChallenge_formed h)
    (.ite_snd (loginResponse_formed h) (.ite_snd (logoutCmd_formed h) (.ite_snd (opStart_formed h) (.ite_snd h.opSuspend (.ite_snd h.opResume
    (.ite_snd h.opCancelCmd (.ite_snd h.opStatus (.ite_snd (logReadCmd_formed h) h.debugCmd)))))))))))))

theorem State.Formed.latchSum (h : s.Formed) {w : Waiting} : (s.latchSum w).Formed := by
  unfold State.latchSum
  split
  · exact .ite h.same h
  · exact h

theorem State.Formed.finish (h : s.Formed) {a : Agent} {route : Route} {op : Nat} {rq : Request} {first : Nat} {w : Work} :
    (s.finish a route op rq first w).Formed := by
  unfold State.finish
  extract_lets +onlyGivenNames nr last resp x t
  have ht : t.Formed := .ite h.incReg h
  clear_value last
  split
  · exact ht.withHost
  · exact ht.respond

theorem State.Formed.execute (h : s.Formed) {a : Agent} {rights : Nat} {route : Route} {op : Nat} {rq : Request} {env : CmdEnv} :
    (s.execute a rights route op rq env).Formed :=
  h.runCmd.finish

theorem State.Formed.reject (h : s.Formed) {a : Agent} {route : Route} {rq : Request} {st : Status} {check : Bool} :
    (s.reject a route rq st check).Formed := by
  unfold State.reject
  extract_lets +onlyGivenNames s1 s2
  have hs1 : s1.Formed := .ite h.incReg (.ite h.incReg h)
  have hs2 : s2.Formed := .ite hs1.incReg hs1
  exact hs2.respond

theorem State.Formed.countCmd (h : s.Formed) {a : Agent} : (s.countCmd a).Formed := by
  unfold State.countCmd
  split
  · exact h.incReg
  · exact h.incReg
  · exact h

theorem State.Formed.defer (h : s.Formed) {a : Agent} {route : Route} {op : Nat} {rq : Request} {ordered : Bool} :
    (s.defer a route op rq ordered).Formed :=
  h.withHost

theorem State.Formed.hostCommand (h : s.Formed) {a : Agent} {route : Route} {op : Nat} {rq : Request} {env : CmdEnv} :
    (s.hostCommand a route op rq env).Formed := by
  unfold State.hostCommand
  extract_lets +onlyGivenNames s1
  have hs1 : s1.Formed := h.countCmd
  split
  · exact hs1.reject
  · exact .ite hs1.reject (.ite hs1.defer hs1.execute)

theorem State.Formed.i3cWrite (h : s.Formed) {op : Nat} {rq : Request} {env : CmdEnv} : (s.i3cWrite op rq env).Formed :=
  .ite h.withHost h.withHost.hostCommand

theorem State.Formed.command (h : s.Formed) {op : Nat} {rq : Request} {env : CmdEnv} : (s.command op rq env).Formed := by
  unfold State.command
  split
  · exact h
  · split
    · exact h.i3cWrite
    · exact h.hostCommand
    · exact .ite h.hostCommand h
    · exact .ite h.execute h
    · exact h

theorem execReadWords_formed (h : s.Formed) {r : ReadAct} : Out.Formed (execReadWords r s) := by
  unfold execReadWords
  split
  · exact .next h.command
  · exact .next h.load

theorem execWriteWords_formed (h : s.Formed) {rq : Request} : Out.Formed (execWriteWords rq s) := .next h.command

theorem execWriteMasked_formed (h : s.Formed) {rq : Request} : Out.Formed (execWriteMasked rq s) := .next h.command

theorem execFence_formed (h : s.Formed) {rq : Request} : Out.Formed (execFence rq s) := .next h.command

theorem execEcho_formed (h : s.Formed) {rq : Request} : Out.Formed (execEcho rq s) := .next h.command

theorem execLoginChallenge_formed (h : s.Formed) {rq : Request} : Out.Formed (execLoginChallenge rq s) := .next h.command

theorem execLoginResponse_formed (h : s.Formed) {rq : Request} : Out.Formed (execLoginResponse rq s) := .next h.command

theorem execLogout_formed (h : s.Formed) {rq : Request} : Out.Formed (execLogout rq s) := .next h.command

theorem execOpSuspend_formed (h : s.Formed) {rq : Request} {units : Nat} : Out.Formed (execOpSuspend rq units s) := .next h.command

theorem execOpResume_formed (h : s.Formed) {rq : Request} : Out.Formed (execOpResume rq s) := .next h.command

theorem execOpCancel_formed (h : s.Formed) {rq : Request} {units : Nat} : Out.Formed (execOpCancel rq units s) := .next h.command

theorem execOpStatus_formed (h : s.Formed) {rq : Request} {units : Nat} : Out.Formed (execOpStatus rq units s) := .next h.command

theorem execLogRead_formed (h : s.Formed) {rq : Request} : Out.Formed (execLogRead rq s) := .next h.command

theorem execEpochCommit_formed (h : s.Formed) {rq : Request} : Out.Formed (execEpochCommit rq s) := .next h.command

theorem execTableLoad_formed (h : s.Formed) {rq : Request} : Out.Formed (execTableLoad rq s) := .next h.command

theorem execTableFlush_formed (h : s.Formed) {rq : Request} : Out.Formed (execTableFlush rq s) := .next h.command

theorem execSnapshotSave_formed (h : s.Formed) {rq : Request} : Out.Formed (execSnapshotSave rq s) := .next h.command

theorem execSnapshotRestore_formed (h : s.Formed) {rq : Request} : Out.Formed (execSnapshotRestore rq s) := .next h.command

theorem execStateSync_formed (h : s.Formed) {rq : Request} : Out.Formed (execStateSync rq s) := .next h.command

theorem execMemTest_formed (h : s.Formed) {rq : Request} : Out.Formed (execMemTest rq s) := .next h.command

theorem execFwUpdate_formed (h : s.Formed) {rq : Request} : Out.Formed (execFwUpdate rq s) := .next h.command

theorem execTwicelRejoin_formed (h : s.Formed) {rq : Request} : Out.Formed (execTwicelRejoin rq s) := .next h.command

theorem execCoreHalt_formed (h : s.Formed) {rq : Request} : Out.Formed (execCoreHalt rq s) := .next h.command

theorem execCoreResume_formed (h : s.Formed) {rq : Request} : Out.Formed (execCoreResume rq s) := .next h.command

theorem execCoreStep_formed (h : s.Formed) {rq : Request} {pc : BitVec 64} {effects : List (BitVec 16 × BitVec 64)} :
    Out.Formed (execCoreStep rq pc effects s) :=
  .next h.command

theorem execCoreRegRead_formed (h : s.Formed) {rq : Request} : Out.Formed (execCoreRegRead rq s) := .next h.command

theorem execCoreRegWrite_formed (h : s.Formed) {rq : Request} : Out.Formed (execCoreRegWrite rq s) := .next h.command

theorem execTriggerSet_formed (h : s.Formed) {rq : Request} : Out.Formed (execTriggerSet rq s) := .next h.command

theorem execQuench_formed (h : s.Formed) {rq : Request} : Out.Formed (execQuench rq s) := .next h.command

theorem execQinfo_formed (h : s.Formed) {rq : Request} : Out.Formed (execQinfo rq s) := .next h.command

theorem execQread_formed (h : s.Formed) {rq : Request} {uncorr : optParam (Option (BitVec 8)) none} : Out.Formed (execQread rq s uncorr) :=
  .next h.command

theorem execThaw_formed (h : s.Formed) {rq : Request} {us : Word} : Out.Formed (execThaw rq us s) := .next h.command

theorem execDetach_formed (h : s.Formed) {rq : Request} : Out.Formed (execDetach rq s) := .next h.command

/-! ### Joint -/

theorem State.Formed.jointCell (h : s.Formed) {src : Nat} : (s.jointCell src).Formed := .ite h (.ite h.setTwicel (.ite h.setTwicel.relaysRestart h))

theorem execConflictDetect_formed (h : s.Formed) {src : BitVec 12} : Out.Formed (execConflictDetect src s) := .ite (.next h) (.next h.jointCell)

theorem execJoinProbe_formed (h : s.Formed) : Out.Formed (execJoinProbe s) := .ite (.next h) (.ite (.next h.putRelay) (.next h))

theorem State.Formed.joinAnswer (h : s.Formed) {code : Nat} : (s.joinAnswer code).Formed :=
  .ite h (.ite h.setTwicel (.ite h.setTwicel h.withPair.orReg))

theorem State.Formed.probeAnswered (h : s.Formed) {code : Nat} : (s.probeAnswered code).Formed := h.withPair.joinAnswer

theorem execJoinProbeAnswer_formed (h : s.Formed) {status : Byte} : Out.Formed (execJoinProbeAnswer status s) :=
  .ite (.next h) (.ite (.next h.probeAnswered) (.next h))

theorem State.Formed.partnerCommit (h : s.Formed) {l : List Word} : (s.partnerCommit l).2.Formed :=
  .ite_snd h.withTab.journal (.ite_snd h (.ite_snd h (.ite h.withTab.freePending h.withTab)))

theorem State.Formed.mergeEntry (h : s.Formed) {tab key : Nat} {val : List Word} : (s.mergeEntry tab key val).2.Formed := by
  unfold State.mergeEntry
  extract_lets +onlyGivenNames s1 s2
  have hs2 : s2.Formed := h.withPair
  split
  · exact hs2
  · split
    next t e1 =>
      have ht : t.Formed := .of_snd e1 hs2.verWrite
      exact ht
    next t _ e2 =>
      have ht : t.Formed := .of_snd e2 hs2.verWrite
      exact ht

theorem State.Formed.mergeStatic (h : s.Formed) {key data : List Word} : (s.mergeStatic key data).2.Formed := by
  unfold State.mergeStatic
  split
  extract_lets +onlyGivenNames d e1
  split
  · exact h.setMac
  · split
    next s1 e3 =>
      have hs1 : s1.Formed := h.macInsert e3
      exact hs1
    · exact h

theorem State.Formed.compareEntry (h : s.Formed) {tab key : Nat} {val : List Word} : (s.compareEntry tab key val).Formed := h.withPair

theorem State.Formed.mergeBegin (h : s.Formed) : s.mergeBegin.Formed := h.freePending.setMac.withPair.setTwicel.orReg.sendEntries

theorem State.Formed.mergeEnd (h : s.Formed) : s.mergeEnd.Formed := by
  unfold State.mergeEnd
  extract_lets +onlyGivenNames s1
  have hs1 : s1.Formed := .foldl h fun h => h.verWrite
  exact hs1.withPair.setTwicel

theorem State.Formed.rejoinAnswer (h : s.Formed) {k : Nat} {l : List Word} : (s.rejoinAnswer k l).2.Formed := by
  unfold State.rejoinAnswer
  extract_lets +onlyGivenNames tell
  have htell : ∀ {x0 x1}, State.Formed x1 → State.Formed (tell x0 x1).2 := by
    intro x0 x1 h
    unfold tell
    exact h
  split
  · exact (htell h)
  · exact (htell h)
  · exact (htell (.ite h.withPair h))
  · exact h.mergeBegin
  · exact h.mergeEnd
  · exact h

theorem State.Formed.partnerTold (h : s.Formed) {addr : Nat} {l : List Word} : (s.partnerTold addr l).2.Formed :=
  .ite_snd h.partnerCommit (.ite_snd h.flushMac.journalDeletes (.ite_snd (.ite h.loadRecord.journalLoad h.loadRecord) (.ite_snd h.rejoinAnswer (.ite_snd h.compareEntry (.ite_snd (.ite_snd h.mergeStatic h.mergeEntry) h)))))

theorem State.Formed.relayWrite (h : s.Formed) {w : Who} {addr step : Nat} {mask : Word} {n : Nat} {l : List Word} :
    (s.relayWrite w addr step mask n l).2.2.Formed := by
  obtain ⟨g, hg, write⟩ : ∃ g, State.busWrite = g ∧ ∀ {s addr d}, s.Formed → (g s w addr mask d).2.Formed := ⟨_, rfl, fun h => h.busWrite⟩
  generalize hf : State.relayWrite = f
  delta State.relayWrite State.relayWrite._f at hf
  rw [hg] at hf
  have done : ∀ s addr n, f s w addr step mask n [] = (0, n, s) := by
    subst hf
    exact fun _ _ _ => rfl
  have next : ∀ s addr n d l, f s w addr step mask n (d :: l) = match g s w addr mask d with
      | (.ok, s) => f s w (addr + step) step mask (n + 1) l
      | (st, s) => (st.code, n, s) := by
    subst hf
    exact fun _ _ _ _ _ => rfl
  clear hf
  induction l generalizing s addr n with
  | nil =>
    rw [done]
    exact h
  | cons d l ih =>
    rw [next]
    split
    next e => exact ih (.of_snd e (write h))
    next e => exact .of_snd e (write h)

theorem State.Formed.relayRead (h : s.Formed) {addr step : Nat} {l : List Word} {n : Nat} : (s.relayRead addr step l n).2.2.Formed := by
  obtain ⟨g, hg, read⟩ : ∃ g, State.busRead = g ∧ ∀ {s addr}, s.Formed → (g s (relayWho none) addr).2.2.Formed := ⟨_, rfl, fun h => h.busRead⟩
  generalize hf : State.relayRead = f
  delta State.relayRead State.relayRead._f at hf
  rw [hg] at hf
  have done : ∀ s addr l, f s addr step l 0 = (0, l, s) := by
    subst hf
    exact fun _ _ _ => rfl
  have next : ∀ s addr l n, f s addr step l (n + 1) = match g s (relayWho none) addr with
      | (.ok, v, s) => f s (addr + step) step (l ++ [v]) n
      | (st, _, s) => (st.code, l, s) := by
    subst hf
    exact fun _ _ _ _ => rfl
  clear hf
  induction n generalizing s addr l with
  | zero =>
    rw [done]
    exact h
  | succ n ih =>
    rw [next]
    split
    next e => exact ih (.of_snd_snd e (read h))
    next e => exact .of_snd_snd e (read h)

theorem State.Formed.applyRelay (h : s.Formed) {flags : Nat} {addr mask : Word} {data : List Word} :
    (s.applyRelay flags addr mask data).2.Formed := by
  unfold State.applyRelay
  extract_lets +onlyGivenNames masked step a
  split
  · exact h.joinAnswer
  · split
    · exact h
    · split
      · split
        rename_i s1 e3
        have hs1 : s1.Formed := .of_snd_snd e3 h.relayRead
        exact hs1
      · split
        · split
          rename_i s1 e4
          have hs1 : s1.Formed := .of_snd e4 h.partnerTold
          exact hs1
        · split
          · split
            rename_i s1 e5
            have hs1 : s1.Formed := .of_snd e5 h.busWrite
            exact hs1
          · split
            rename_i s1 e5
            have hs1 : s1.Formed := .of_snd_snd e5 h.relayWrite
            exact hs1

theorem State.Formed.sendAck (h : s.Formed) {seq : Nat} {x : Nat × Nat × List Word} : (s.sendAck seq x).Formed := h.sendRelayCell

theorem State.Formed.relayIn (h : s.Formed) {flags seq : Nat} {addr mask : Word} {data : List Word} :
    (s.relayIn flags seq addr mask data).Formed := by
  unfold State.relayIn
  split
  · exact h
  · extract_lets +onlyGivenNames d
    split
    · exact h.applyRelay.withPair.sendAck
    · split
      · split
        · exact h.sendAck
        · exact h
      · exact h

theorem State.Formed.answerReady (h : s.Formed) : s.answerReady.Formed := .foldl h.withHost fun h => h.latchSum.respond

theorem State.Formed.relaysOf (h : s.Formed) {d : Deferred} : (s.relaysOf d).Formed := h.withHost

theorem State.Formed.releaseOrdered (h : s.Formed) {n : Nat} : (s.releaseOrdered n).Formed := by
  induction n generalizing s with
  | zero => exact h
  | succ n ih =>
    unfold State.releaseOrdered
    split
    · exact h
    · exact ih h.withHost.execute.relaysOf

theorem State.Formed.orderedNow (h : s.Formed) : s.orderedNow.Formed := h.releaseOrdered

theorem State.Formed.relayDone (h : s.Formed) {r : Relay} {status words : Nat} {data : List Word} : (s.relayDone r status words data).Formed := by
  unfold State.relayDone
  split
  · split
    · exact .ite h.withTab h
    · exact h
  · exact .ite (.ite h.withTab h) (.ite h.opAnswered (.ite h.orReg.setReg h))

theorem State.Formed.ackIn (h : s.Formed) {seq status words : Nat} {data : List Word} : (s.ackIn seq status words data).Formed := by
  unfold State.ackIn
  split
  · exact h
  · exact .ite h.probeAnswered h.same.relayDone.pumpRelays.answerReady.orderedNow.restoreSettle

theorem State.Formed.configRelayIn (h : s.Formed) {flags seq : Nat} {addr mask : Word} {data : List Word} :
    (s.configRelayIn flags seq addr mask data).Formed :=
  .ite h.ackIn h.relayIn

theorem execConfigRelayRx_formed (h : s.Formed) {flags : Byte} {seq : BitVec 16} {addr mask : Word} {data : List Word} :
    Out.Formed (execConfigRelayRx flags seq addr mask data s) :=
  .ite (.next h) (.next h.configRelayIn)

theorem execRelayAckRx_formed (h : s.Formed) {seq : BitVec 16} {status words : Byte} {data : List Word} :
    Out.Formed (execRelayAckRx seq status words data s) :=
  .ite (.next h) (.next h.ackIn)

theorem State.Formed.relayFail (h : s.Formed) {r : Relay} : (s.relayFail r).Formed := .foldl h.withHost.orReg.raise fun h => h.respond

theorem execRelayRetx_formed (h : s.Formed) : Out.Formed (execRelayRetx s) := by
  unfold execRelayRetx
  split
  · exact .next h
  · split
    · exact .next h
    · extract_lets +onlyGivenNames s1 sent l
      have hs1 : s1.Formed := .ite h.relayFail h
      exact .next (.foldl hs1.withPair fun h => h.sendRelay.incReg)

theorem execLearnBatchSend_formed (h : s.Formed) : Out.Formed (execLearnBatchSend s) := by
  unfold execLearnBatchSend
  split
  · exact .next h
  · extract_lets +onlyGivenNames l
    split
    · exact .next h
    · extract_lets +onlyGivenNames es
      split
      · exact .next h
      next s1 e2 =>
        have hs1 : s1.Formed := h.sendControl e2
        exact .next hs1.same.addReg

theorem State.Formed.putLearned (h : s.Formed) {x : LearnEnt} {t : State} (e : s.putLearned x = some t) : t.Formed := by
  unfold State.putLearned at e
  extract_lets port at e
  split at e
  · obtain ⟨⟨i, u⟩, hu, rfl⟩ := Option.map_eq_some_iff.mp e
    exact (h.macInsert hu).entryCame
  · cases e
    exact h.setMac.entryCame

theorem State.Formed.learnApplied (h : s.Formed) {e1 : LearnEnt} : (s.learnApplied e1).Formed := h.incReg.journal

theorem State.Formed.learnIn (h : s.Formed) {e1 : LearnEnt} : (s.learnIn e1).Formed := by
  unfold State.learnIn
  split
  · extract_lets +onlyGivenNames wins
    split
    · split
      next s' e3 =>
        have hs' : s'.Formed := h.putLearned e3
        exact hs'.learnApplied
      · exact h
    · exact h
  · split
    · split
      · exact .ite h.setMac.learnApplied h
      · exact h
    · exact h

theorem State.Formed.learnBatch (h : s.Formed) {seq : Nat} {es : List LearnEnt} : (s.learnBatch seq es).Formed := by
  unfold State.learnBatch
  split
  · exact h
  · extract_lets +onlyGivenNames want d
    split
    · exact h
    · extract_lets +onlyGivenNames s1
      have hs1 : s1.Formed := .ite h h.addReg.raise
      exact .foldl hs1.withPair fun h => h.learnIn

theorem execLearnRx_formed (h : s.Formed) {seq : BitVec 16} {entries : List (BitVec 128)} : Out.Formed (execLearnRx seq entries s) :=
  .ite (.next h) (.next h.learnBatch)

theorem execSyncWalk_formed (h : s.Formed) : Out.Formed (execSyncWalk s) := .ite (.next h) (.ite (.next h.sendEntries) (.next h))

/-! ### Protect -/

theorem execActInFall_formed (h : s.Formed) : Out.Formed (execActInFall s) :=
  .ite (.next h) (.ite (.next h) (.ite (.next h.clrReg) (.next h.clrReg.withPair.orReg.setRole)))

theorem State.Formed.dropPause (h : s.Formed) : s.dropPause.Formed := .foldl h fun h => h.clrReg

theorem execWindDownEnd_formed (h : s.Formed) : Out.Formed (execWindDownEnd s) :=
  .ite (.next h) (.ite (.next h) (.next h.discardWork.discardWork.dropPause.journalEnd.clrReg.setSync.pinsEval))

theorem execActInRise_formed (h : s.Formed) : Out.Formed (execActInRise s) := by
  unfold execActInRise
  split
  · exact .next h
  · split
    · exact .next h
    · extract_lets +onlyGivenNames s1
      have hs1 : s1.Formed := h.orReg
      split
      · exact .next hs1
      · split
        · exact .next hs1.clrReg.setRole
        · extract_lets +onlyGivenNames s2 w stale s3 s4 s5
          have hs2 : s2.Formed := hs1.dropPause
          have hs3 : s3.Formed := hs2.setRegFld.setReg
          have hs4 : s4.Formed := .ite hs3.orReg hs3
          have hs5 : s5.Formed := hs4.journalEnd
          exact .next hs5.withPair.incReg.setRole

theorem State.Formed.sendTakeover (h : s.Formed) : s.sendTakeover.Formed := by
  unfold State.sendTakeover
  extract_lets +onlyGivenNames b
  refine .foldl h fun h1 => ?_
  split
  next s' e =>
    have hs' : s'.Formed := h1.sendControl e
    exact hs'.incReg
  · exact h1

theorem execTakeoverForwardStart_formed (h : s.Formed) : Out.Formed (execTakeoverForwardStart s) := by
  unfold execTakeoverForwardStart
  split
  · exact .next h
  · split
    · exact .next h
    · extract_lets +onlyGivenNames s1 s2
      have hs2 : s2.Formed := h.withPair.dropPause
      extract_lets +onlyGivenNames s3 s4
      have hs4 : s4.Formed := .ite hs2.withPair.sendTakeover hs2
      exact .next hs4.autoSync

theorem execTakeoverRepeat_formed (h : s.Formed) : Out.Formed (execTakeoverRepeat s) :=
  .ite (.next h) (.ite (.next h) (.next h.withPair.sendTakeover))

theorem execHbToggle_formed (h : s.Formed) : Out.Formed (execHbToggle s) := .ite (.next h) (.next (.ite h.updReg.withPair h.updReg))

theorem State.Formed.sendJournalCell (h : s.Formed) {flags seq gen : Nat} {r : List Word} {t : State} (e : s.sendJournalCell flags seq gen r = some t) :
    t.Formed := h.sendControl e

theorem State.Formed.putTokens (h : s.Formed) {i : Nat} : (s.putTokens i).2.Formed := h.journalPut

theorem State.Formed.putCounters (h : s.Formed) {i : Nat} : (s.putCounters i).2.Formed := h.journalPut

theorem State.Formed.putMacs (h : s.Formed) {i : Nat} : (s.putMacs i).2.2.Formed := h.journalPut

theorem State.Formed.bulkRecord (h : s.Formed) {slot : Nat} {r : OpRec} : (s.bulkRecord slot r).Formed :=
  .ite h.journalPut.setOp (.ite h.putMacs.setOp (.ite h.putTokens.setOp (.ite h.putTokens.setOp (.ite h.putCounters.setOp (.ite h.putCounters.setOp (.ite h.journalPut.setOp.withPair h))))))

theorem State.Formed.nextRecord (h : s.Formed) : s.nextRecord.Formed := by
  unfold State.nextRecord
  split
  · exact h
  · split
    · exact h.withPair.journalPut
    · split
      · exact .ite h h.bulkRecord
      · split
        · exact h
        · exact .withPair (.ite_snd h.putCounters h.putTokens)

theorem State.Formed.sendRecord (h : s.Formed) {r : Nat × List Word} {t : State} (e : s.sendRecord r = some t) : t.Formed := by
  obtain ⟨u, hu, rfl⟩ := Option.map_eq_some_iff.mp e
  exact (h.sendJournalCell hu).setReg.incReg

theorem State.Formed.recordSend (h : s.Formed) : s.recordSend.Formed := by
  unfold State.recordSend
  split
  · exact h
  · extract_lets +onlyGivenNames s1
    have hs1 : s1.Formed := h.nextRecord
    split
    · exact hs1
    · split
      · exact hs1
      next s2 e2 =>
        have hs2 : s2.Formed := hs1.sendRecord e2
        extract_lets +onlyGivenNames t t1
        have ht1 : t1.Formed := hs2.withPair
        split
        · exact ht1.setOp
        · exact ht1

theorem execJournalRecordSend_formed (h : s.Formed) : Out.Formed (execJournalRecordSend s) := .ite (.next h) (.next h.recordSend)

theorem execJournalRetx_formed (h : s.Formed) : Out.Formed (execJournalRetx s) := by
  unfold execJournalRetx
  split
  · exact .next h
  · split
    · exact .next h
    · refine .next ?_
      refine .foldl h fun h1 => ?_
      split
      next s' e2 =>
        have hs' : s'.Formed := h1.sendJournalCell e2
        exact hs'.incReg
      · exact h1

/-- A cell that is sent or not. -/
theorem State.Formed.getD {x : Option State} (h : s.Formed) (hx : ∀ {t}, x = some t → t.Formed) : (x.getD s).Formed := by
  cases x with
  | none => exact h
  | some t => exact hx rfl

theorem State.Formed.journalAck (h : s.Formed) {gen : Nat} {refuse : Bool} : (s.journalAck gen refuse).Formed := h.getD fun e => h.sendJournalCell e

theorem execJournalHeartbeat_formed (h : s.Formed) : Out.Formed (execJournalHeartbeat s) :=
  .ite (.next h) (.ite (.next h.journalAck) (.ite (.next h.journalPut.recordSend) (.next h)))

theorem execJournalSweep_formed (h : s.Formed) : Out.Formed (execJournalSweep s) := .ite (.next h) (.ite (.next h.withPair) (.next h))

theorem State.Formed.journalAcked (h : s.Formed) {gen ack : Nat} {refuse : Bool} : (s.journalAcked gen ack refuse).Formed := by
  unfold State.journalAcked
  split
  · exact h
  · split
    · extract_lets +onlyGivenNames s1
      extract_lets +onlyGivenNames s2
      have hs2 : s2.Formed := h.withPair
      split
      · exact hs2.endOp
      · exact hs2
    · extract_lets +onlyGivenNames n sent s1
      extract_lets +onlyGivenNames s2
      have hs2 : s2.Formed := h.withPair.setReg
      split
      · exact hs2
      · exact .ite hs2.setOp (.ite hs2.endOp hs2)

theorem execJournalAckRx_formed (h : s.Formed) {generation ack : Word} {refuse : Bool} : Out.Formed (execJournalAckRx generation ack refuse s) :=
  .ite (.next h) (.next h.journalAcked)

theorem State.Formed.journalRefused (h : s.Formed) {addr : Nat} : (s.journalRefused addr).Formed := h.orReg.setReg

theorem State.Formed.applyWrites (h : s.Formed) {addr : Nat} {mask : Word} {l : List Word} : (s.applyWrites addr mask l).Formed := by
  obtain ⟨g, hg, write⟩ : ∃ g, State.busWrite = g ∧ ∀ {s addr d}, s.Formed → (g s ⟨.core 0, 7, .journal, none⟩ addr mask d).2.Formed :=
    ⟨_, rfl, fun h => h.busWrite⟩
  generalize hf : State.applyWrites = f
  delta State.applyWrites State.applyWrites._f at hf
  rw [hg] at hf
  have done : ∀ s addr, f s addr mask [] = s := by
    subst hf
    exact fun _ _ => rfl
  have next : ∀ s addr d l, f s addr mask (d :: l) =
      let (st, s) := g s ⟨.core 0, 7, .journal, none⟩ addr mask d
      f (if st = .ok then s else s.journalRefused addr) (addr + 4) mask l := by
    subst hf
    exact fun _ _ _ _ => rfl
  clear hf
  induction l generalizing s addr with
  | nil =>
    rw [done]
    exact h
  | cons d l ih =>
    rw [next]
    split
    next e =>
      have ht := State.Formed.of_snd e (write h)
      exact ih (.ite ht ht.journalRefused)

theorem State.Formed.applyMac (h : s.Formed) {l : List Word} : (s.applyMac l).Formed := by
  have put : ∀ {e : LearnEnt}, ((s.putLearned e).getD s).Formed := h.getD fun e => h.putLearned e
  unfold State.applyMac
  extract_lets e
  clear_value e
  split
  · exact .ite h (.ite h.setMac put)
  · exact .ite h put

theorem State.Formed.applyToken (h : s.Formed) {l : List Word} : (s.applyToken l).Formed := by
  unfold State.applyToken
  extract_lets +onlyGivenNames w b ix k
  split
  · exact h.setPol
  · exact h.setPol
  · exact h.setBuckets
  · exact h.setBuckets

theorem State.Formed.applyCounters (h : s.Formed) {i : Nat} {l : List (List Word)} : (s.applyCounters i l).Formed := by
  induction l generalizing s i with
  | nil => exact h
  | cons r l ih => exact ih h.setPair

theorem State.Formed.followSwitch (h : s.Formed) {no : Nat} : (s.followSwitch no).Formed := by
  unfold State.followSwitch
  extract_lets +onlyGivenNames s1
  have hs1 : s1.Formed := .ite h h.drivenSwitch
  exact hs1.withTab

theorem State.Formed.applyRecord (h : s.Formed) {r : List Word} : (s.applyRecord r).Formed := by
  unfold State.applyRecord
  extract_lets +onlyGivenNames items b w
  split
  · exact h.applyWrites
  · exact .foldl h fun h => h.applyMac
  · exact h.withTab
  · exact h.followSwitch
  · exact .foldl h fun h => h.applyToken
  · exact h.applyCounters
  · exact h.setReg
  · exact h.withPair
  · exact h.setSync
  · exact h

theorem State.Formed.syncAfter (h : s.Formed) : s.syncAfter.Formed := by
  unfold State.syncAfter
  extract_lets +onlyGivenNames s1
  have hs1 : s1.Formed := .ite h.setSync h
  exact .ite hs1.setSync hs1

theorem State.Formed.recordApplied (h : s.Formed) {gen seq : Nat} {r : List Word} : (s.recordApplied gen seq r).Formed :=
  h.withPair.setReg.incReg.syncAfter.rdyEval.journalAck

theorem State.Formed.syncStart (h : s.Formed) {gen : Nat} {r : List Word} : (s.syncStart gen r).Formed := by
  unfold State.syncStart
  extract_lets w
  split
  · exact h.getD fun e => h.sendJournalCell e
  · exact h.withPair.setReg.setSync.recordApplied

theorem State.Formed.journalIn (h : s.Formed) {gen seq : Nat} {r : List Word} : (s.journalIn gen seq r).Formed :=
  .ite h (.ite h.incReg.orReg (.ite h (.ite h.syncStart (.ite h (.ite h.journalAck h.applyRecord.recordApplied)))))

theorem execJournalRx_formed (h : s.Formed) {generation seq : Word} {records : List Word} : Out.Formed (execJournalRx generation seq records s) :=
  .ite (.next h) (.next (.ite h.journalAcked h.journalIn))

/-! ### CellRx -/

theorem State.Formed.seqGap (h : s.Formed) {g k seq : Nat} : (s.seqGap g k seq).Formed := .ite h.withSprue.addReg h.withSprue

theorem State.Formed.timeCellIn (h : s.Formed) {g m : Nat} {p : List Byte} : (s.timeCellIn g m p).Formed := .ite h.timeRequest (.ite h.timeResponse h)

theorem State.Formed.grantCellIn (h : s.Formed) {src : Nat} {p : List Byte} : (s.grantCellIn src p).Formed := .foldl h fun h => h.creditIn

theorem State.Formed.journalCellIn (h : s.Formed) {p : List Byte} : (s.journalCellIn p).Formed := .ite h.journalAcked h.journalIn

theorem State.Formed.controlCell (h : s.Formed) {g m : Nat} {h1 : CellHdr} {p : List Byte} : (s.controlCell g m h1 p).Formed := by
  unfold State.controlCell
  extract_lets +onlyGivenNames n s1
  have hs1 : s1.Formed := .ite h.jointCell h
  split
  · exact hs1.rdiIn
  · exact hs1.markerIn
  · exact hs1.grantCellIn
  · exact hs1.flowIn
  · exact hs1.timeCellIn
  · exact .ite hs1.learnBatch hs1
  · exact .ite hs1.journalCellIn hs1
  · exact hs1.takeoverIn
  · exact .ite hs1.configRelayIn hs1

theorem State.Formed.deliver (h : s.Formed) {g m : Nat} {c : WaitCell} : (s.deliver g m c).Formed :=
  .ite h.seqGap.countCell.controlCell h.countCell.dataCell

theorem State.Formed.deskew (h : s.Formed) {g n : Nat} : (s.deskew g n).Formed := by
  induction n generalizing s with
  | zero => exact h
  | succ n ih =>
    unfold State.deskew
    split
    · exact h
    · exact ih h.withSprue.deliver

theorem State.Formed.deskewAll (h : s.Formed) : s.deskewAll.Formed := .foldl h fun h => h.deskew

theorem State.Formed.holdCell (h : s.Formed) {g m : Nat} {h1 : CellHdr} {p : List Byte} : (s.holdCell g m h1 p).Formed := h.withSprue

theorem State.Formed.controlIn (h : s.Formed) {g m : Nat} {h1 : CellHdr} {p : List Byte} : (s.controlIn g m h1 p).Formed := by
  unfold State.controlIn
  extract_lets +onlyGivenNames pg ty local_
  split
  · exact h.incReg
  · split
    · exact h.incReg
    · exact .ite h.incReg (.ite h.incReg (.ite h.seqGap.countCell.controlCell (.ite h.holdCell h)))

theorem State.Formed.cellIn (h : s.Formed) {g m : Nat} {h1 : CellHdr} {p : List Byte} {fecBad : Bool} : (s.cellIn g m h1 p fecBad).Formed :=
  .ite h.incReg.cellErr.slotLost (.ite h.incReg (.ite h (.ite h.incReg (.ite h.controlIn (.ite h.holdCell h)))))

theorem execCellRx_formed (h : s.Formed) {g m : Fin 16} {hdr : BitVec 64} {payload : List Byte} {fecBad : Bool} {ctlBlocks : List (Nat × Nat)} :
    Out.Formed (execCellRx g m hdr payload fecBad ctlBlocks s) := by
  unfold execCellRx
  split
  · exact .next h
  · extract_lets +onlyGivenNames g1 m1 k l
    split
    · exact .next h
    · extract_lets +onlyGivenNames cell hdr1
      split
      extract_lets +onlyGivenNames s1 block s2
      have hblock : block.Formed := h.withSprue
      extract_lets +onlyGivenNames s3 s4
      have hs4 : s4.Formed := .ite (.badHeader (.ite hblock.incReg.cellErr hblock)) hblock.withSprue.cellIn
      exact .next hs4.rxStep.deskewAll

/-! ### Clock -/

theorem State.Formed.slotTick (h : s.Formed) : s.slotTick.Formed := .ite h.sprueSlot.deskewAll.pinsEval h

theorem State.Formed.cycleEvent (h : s.Formed) : s.cycleEvent.Formed := h.pmuCount

theorem State.Formed.clockRun (h : s.Formed) : s.clockRun.Formed := .ite h.clockTick.afterStep h.clockTick

theorem execTimeBaseTick_formed (h : s.Formed) : Out.Formed (execTimeBaseTick s) :=
  .ite (.next h) (.ite (.next h) (.next h.clockRun.domTick.setTick.slotTick.orderedNow.cycleEvent))

/-! ### I3c -/

theorem State.Formed.i3cReply (h : s.Formed) {r : BusReply} : (s.i3cReply r).Formed := h.withHost

theorem State.Formed.setDyn (h : s.Formed) {a : BitVec 7} : (s.setDyn a).Formed := h.setRegFld

theorem execEntdaa_formed (h : s.Formed) {addr : BitVec 7} : Out.Formed (execEntdaa addr s) :=
  .ite (.next h) (.next (.ite h.i3cReply h.setDyn.i3cReply))

theorem execSetdasa_formed (h : s.Formed) {target addr : BitVec 7} : Out.Formed (execSetdasa target addr s) :=
  .ite (.next h) (.next (.ite h.setDyn.i3cReply h.i3cReply))

theorem execSetnewda_formed (h : s.Formed) {target addr : BitVec 7} : Out.Formed (execSetnewda target addr s) :=
  .ite (.next h) (.next (.ite h.setDyn.i3cReply h.i3cReply))

theorem execRstdaa_formed (h : s.Formed) : Out.Formed (execRstdaa s) := .ite (.next h) (.next h.setRegFld.i3cReply)

theorem State.Formed.cccRead (h : s.Formed) {target : BitVec 7} {bytes : List Byte} : (s.cccRead target bytes).Formed := h.i3cReply

theorem execGetpid_formed (h : s.Formed) {target : BitVec 7} : Out.Formed (execGetpid target s) := .ite (.next h) (.next h.cccRead)

theorem execGetbcr_formed (h : s.Formed) {target : BitVec 7} : Out.Formed (execGetbcr target s) := .ite (.next h) (.next h.cccRead)

theorem execGetdcr_formed (h : s.Formed) {target : BitVec 7} : Out.Formed (execGetdcr target s) := .ite (.next h) (.next h.cccRead)

theorem execGetstatus_formed (h : s.Formed) {target : BitVec 7} : Out.Formed (execGetstatus target s) := by
  unfold execGetstatus
  split
  · exact .next h
  · split
    rename_i s1 e1
    have hs1 : s1.Formed := .of_snd e1 h.fresh
    exact .next hs1.cccRead

theorem execGetmxds_formed (h : s.Formed) {target : BitVec 7} : Out.Formed (execGetmxds target s) := .ite (.next h) (.next h.cccRead)

theorem State.Formed.setIbiOff (h : s.Formed) {target : Option (BitVec 7)} {off : Bool} : (s.setIbiOff target off).Formed :=
  .ite h.withHost h.i3cReply

theorem execEnec_formed (h : s.Formed) {target : Option (BitVec 7)} : Out.Formed (execEnec target s) := .ite (.next h) (.next h.setIbiOff)

theorem execDisec_formed (h : s.Formed) {target : Option (BitVec 7)} : Out.Formed (execDisec target s) := .ite (.next h) (.next h.setIbiOff)

theorem execEnthdr0_formed (h : s.Formed) : Out.Formed (execEnthdr0 s) := .ite (.next h) (.next (.ite h.withHost h.i3cReply))

theorem execUnsupportedCcc_formed (h : s.Formed) {x : Byte} {target : Option (BitVec 7)} : Out.Formed (execUnsupportedCcc x target s) :=
  .ite (.next h) (.next h.i3cReply)

theorem State.Formed.i3cReset (h : s.Formed) : s.i3cReset.Formed := h.ownerReset.withHost

theorem execI3cTargetReset_formed (h : s.Formed) : Out.Formed (execI3cTargetReset s) := .ite (.next h) (.next h.i3cReset)

theorem execRstactWholeReset_formed (h : s.Formed) : Out.Formed (execRstactWholeReset s) :=
  .ite (.next h) (.next (.ite h.i3cReset.warmRequest h.i3cReset))

theorem execI3cBusReset_formed (h : s.Formed) : Out.Formed (execI3cBusReset s) := .ite (.next h) (.next h.withHost.ownerReset)

theorem State.Formed.i3cRead (h : s.Formed) : s.i3cRead.Formed := by
  unfold State.i3cRead
  split
  · exact h.i3cReply
  · exact h.withHost

theorem execPrivateRead_formed (h : s.Formed) : Out.Formed (execPrivateRead s) := .ite (.next h) (.next h.i3cRead)

theorem execI2cTransfer_formed (h : s.Formed) {addr : BitVec 7} {dir : I2cDir} : Out.Formed (execI2cTransfer addr dir s) := by
  unfold execI2cTransfer
  split
  · exact .next h
  · split
    · exact .next h.i3cReply
    · split
      · exact .next h.i3cRead
      · split
        exact .next h.i3cWrite

theorem execIbiRequest_formed (h : s.Formed) {acked : Bool} : Out.Formed (execIbiRequest acked s) := by
  unfold execIbiRequest
  split
  · exact .next h
  · extract_lets +onlyGivenNames s1
    have hs1 : s1.Formed := h.forgetGroups
    split
    · exact .next hs1
    · split
      · exact .next hs1.withHost
      · split
        · exact .next hs1.withHost
        · exact .next hs1

theorem execMgmtFrameRx_formed (h : s.Formed) {frame : List Byte} {fcsOk : Bool} {fifoFull : optParam Bool false} :
    Out.Formed (execMgmtFrameRx frame fcsOk s fifoFull) := by
  unfold execMgmtFrameRx
  split
  · exact .next h
  · split
    · exact .next h.rxEnd
    · split
      · exact .next h
      · extract_lets +onlyGivenNames s1 r
        have hs1 : s1.Formed := h.incReg
        split
        · exact .next hs1.macCount
        · split
          · exact .next hs1.rxWhole
          · exact .next hs1.incReg
          · split
            exact .next hs1.hostCommand

/-! ### Launch -/

theorem State.Formed.slotDone (h : s.Formed) {k : Nat} : (s.slotDone k).Formed := h.withLaunch

theorem State.Formed.launchWrite (h : s.Formed) {a : Agent} {k i : Nat} : (s.launchWrite a k i).Formed := by
  generalize hf : State.launchWrite = f
  delta State.launchWrite at hf
  subst hf
  beta_reduce
  extract_lets +onlyGivenNames addr m d
  split
  rename_i s1 e
  have hs1 : s1.Formed := .of_snd e h.busWrite
  exact .ite hs1.mirrorWrite hs1

theorem State.Formed.applySlot (h : s.Formed) {k : Nat} {late : Bool} : (s.applySlot k late).Formed := by
  unfold State.applySlot
  extract_lets +onlyGivenNames c quench a s1 s2 s3 s4 s5
  have hs1 : s1.Formed := .foldl h fun h => h.launchWrite
  have hs2 : s2.Formed := hs1.setSlotState.updWin.slotDone
  have hs3 : s3.Formed := hs2.incReg.raise
  have hs4 : s4.Formed := .ite hs3.incReg.raise hs3
  have hs5 : s5.Formed := hs4.setSlotW.setSlotW.setSlotW
  exact .ite hs5.quench hs5

theorem State.Formed.missSlot (h : s.Formed) {k : Nat} : (s.missSlot k).Formed := h.setSlotState.slotDone.incReg.raise

theorem execLaunchPlaced_formed (h : s.Formed) {k : BitVec 8} : Out.Formed (execLaunchPlaced k s) :=
  .ite (.next h) (.ite (.next h) (.ite (.next h.setSlotState) (.ite (.next h.applySlot) (.next h.missSlot))))

theorem execLaunchApply_formed (h : s.Formed) {k : BitVec 8} : Out.Formed (execLaunchApply k s) := .ite (.next h) (.ite (.next h.applySlot) (.next h))

theorem execLaunchMissed_formed (h : s.Formed) {k : BitVec 8} : Out.Formed (execLaunchMissed k s) :=
  .ite (.next h) (.ite (.next h.missSlot) (.next h))

/-! ### Power -/

theorem State.Formed.setPhase (h : s.Formed) {n : Nat} : (s.setPhase n).Formed := h.withPow

theorem State.Formed.bringUp (h : s.Formed) {p : Nat} : (s.bringUp p).Formed := h.orReg.blockEnable.blockReady

theorem execResetNFall_formed (h : s.Formed) : Out.Formed (execResetNFall s) := .next h.coldReset

theorem State.Formed.powerLost (h : s.Formed) : s.powerLost.Formed := h.coldReset.withPow

theorem execPwrgoodFall_formed (h : s.Formed) : Out.Formed (execPwrgoodFall s) := .next h.powerLost

theorem execSupplyOutOfRange_formed (h : s.Formed) : Out.Formed (execSupplyOutOfRange s) := .next h.powerLost

theorem State.Formed.endRun (h : s.Formed) {cause : Nat} : (s.endRun cause).Formed := h.coldReset.withPow

theorem State.Formed.sampleStraps (h : s.Formed) {straps : Nat} : (s.sampleStraps straps).Formed := h.setReg.setReg

theorem execColdResetRelease_formed (h : s.Formed) {rise : Bool} {straps : BitVec 4} {hot : Bool} :
    Out.Formed (execColdResetRelease rise straps hot s) :=
  .ite (.next h) (.next h.updReg.sampleStraps.withPow)

theorem State.Formed.setVcore (h : s.Formed) {v : Nat} : (s.setVcore v).Formed := h.withPow.setReg

theorem State.Formed.loadLvds (h : s.Formed) : s.loadLvds.Formed := by
  unfold State.loadLvds
  split
  · exact h.setReg
  · exact h

theorem State.Formed.startRails (h : s.Formed) : s.startRails.Formed := h.loadLvds.withPow.setVcore

theorem execBellowsImageVerify_formed (h : s.Formed) : Out.Formed (execBellowsImageVerify s) := by
  unfold execBellowsImageVerify
  split
  · exact .next h
  · split
    · exact .next h
    · extract_lets +onlyGivenNames s1
      have hs1 : s1.Formed := h.bellowsLoad.setPhase
      exact .next (.ite hs1 hs1.startRails)

theorem execThermalRecheck_formed (h : s.Formed) {hot : Bool} : Out.Formed (execThermalRecheck hot s) :=
  .ite (.next h) (.ite (.next h) (.next (.ite h.withPow.startRails h.withPow)))

theorem execRailInRange_formed (h : s.Formed) : Out.Formed (execRailInRange s) := by
  unfold execRailInRange
  split
  · exact .next h
  · split
    · exact .next h
    · exact .ite (.next h) (.next h.withPow)

theorem execRailStartTimeout_formed (h : s.Formed) : Out.Formed (execRailStartTimeout s) := .ite (.next h) (.next (.ite h.endRun h))

theorem execRootPllLock_formed (h : s.Formed) {cold : Bool} : Out.Formed (execRootPllLock cold s) := by
  unfold execRootPllLock
  split
  · exact .next h
  · split
    · exact .next h
    · extract_lets +onlyGivenNames s1 s2
      have hs1 : s1.Formed := h.updReg.raise.orReg
      have hs2 : s2.Formed := hs1.bringUp.bringUp
      exact .next (.ite hs2.orReg.setPhase hs2.setPhase)

theorem execWarmUpEnd_formed (h : s.Formed) {reached : Bool} : Out.Formed (execWarmUpEnd reached s) :=
  .ite (.next h) (.ite (.next h) (.next (.setPhase (.ite h.clrReg h.clrReg.orReg))))

theorem execStackTrained_formed (h : s.Formed) {n : Fin 4} : Out.Formed (execStackTrained n s) :=
  .ite (.next h) (.ite (.next h) (.next (.ite h.orReg.setPhase h.orReg)))

theorem execCpBoot_formed (h : s.Formed) : Out.Formed (execCpBoot s) := by
  unfold execCpBoot
  split
  · exact .next h
  · split
    · exact .next h
    · split
      rename_i s1 e2
      have hs1 : s1.Formed := .of_snd e2 (.ite_snd h h.bootSlot)
      extract_lets +onlyGivenNames s2
      have hs2 : s2.Formed := hs1.orReg.setPhase
      split
      · exact .next hs2.orReg
      · extract_lets +onlyGivenNames s3 s4 c
        have hs3 : s3.Formed := hs2.updReg
        have hs4 : s4.Formed := hs3.setReg
        exact .next (.ite hs4.audit hs4)

theorem State.Formed.loadMac (h : s.Formed) : s.loadMac.Formed := .ite h h.setReg.setReg

theorem State.Formed.firmwareReady (h : s.Formed) : s.firmwareReady.Formed := h.orReg.orReg.same.ibi

theorem execFwReady_formed (h : s.Formed) : Out.Formed (execFwReady s) :=
  .ite (.next h) (.ite (.next h) (.ite (.next h.firmwareReady) (.next (.firmwareReady (.foldl h.loadMac fun h => h.bringUp)))))

theorem execBellowsWdtExpire_formed (h : s.Formed) : Out.Formed (execBellowsWdtExpire s) := .ite (.next h) (.next (.ite h h.bellowsRestart))

theorem execRefclkLoss_formed (h : s.Formed) : Out.Formed (execRefclkLoss s) := .ite (.next h) (.ite (.next h) (.next h.updReg.incReg.raise.raise))

theorem execRefclkReturn_formed (h : s.Formed) : Out.Formed (execRefclkReturn s) := .ite (.next h) (.ite (.next h) (.next h.updReg.raise))

theorem execRootLockLoss_formed (h : s.Formed) : Out.Formed (execRootLockLoss s) := .ite (.next h) (.next (.ite h.coldReset h))

theorem State.Formed.avsMove (h : s.Formed) {x : Int} {lo hi v : Nat} {held : Bool} : (s.avsMove x lo hi v held).Formed :=
  .ite h.setVcore.incReg (.ite (.ite h.setVcore.orReg.raise h.setVcore) (.ite h.setVcore h))

theorem execAvsStep_formed (h : s.Formed) {slack : BitVec 16} {held : Bool} : Out.Formed (execAvsStep slack held s) := by
  unfold execAvsStep
  split
  · exact .next h
  · extract_lets +onlyGivenNames v
    split
    extract_lets +onlyGivenNames x1
    split
    · exact .next h
    · extract_lets +onlyGivenNames s1
      extract_lets +onlyGivenNames s2
      have hs2 : s2.Formed := .ite h.withPow h
      exact .next hs2.avsMove

theorem State.Formed.levelAt (h : s.Formed) {k : Nat} {on enter below : Bool} : (s.levelAt k on enter below).2.Formed := h.withPow

theorem State.Formed.stackTemp (h : s.Formed) {n : Nat} {t1 : Byte} : (s.stackTemp n t1).Formed := .ite h.updReg.raise h.updReg

theorem State.Formed.holdStacks (h : s.Formed) {ts : List Byte} : (s.holdStacks ts).Formed := by
  unfold State.holdStacks
  refine .foldl h fun h1 => ?_
  exact h1.levelAt.withPow

theorem execTempSample_formed (h : s.Formed) {logic t0 t1 t2 t3 : Byte} : Out.Formed (execTempSample logic t0 t1 t2 t3 s) := by
  unfold execTempSample
  split
  · exact .next h
  · split
    · exact .next h
    · extract_lets +onlyGivenNames ts d l s1 s2 imp warned slow
      have hs1 : s1.Formed := .foldl h fun h => h.stackTemp
      have hs2 : s2.Formed := hs1.setReg.setReg
      split
      rename_i s3 e2
      have hs3 : s3.Formed := .of_snd e2 hs2.levelAt
      split
      rename_i s4 e3
      have hs4 : s4.Formed := .of_snd e3 hs3.levelAt
      split
      rename_i s5 e4
      have hs5 : s5.Formed := .of_snd e4 hs4.levelAt
      extract_lets +onlyGivenNames hot s6 lv s7 s8 s9
      have hlv : lv.Formed := hs5.withPow.holdStacks
      have hs8 : s8.Formed := hlv.updReg
      have hs9 : s9.Formed := .ite hs8.raise hs8
      extract_lets +onlyGivenNames s10
      have hs10 : s10.Formed := .ite hs9.raise.incReg hs9
      exact .next hs10.pipesEval.pinsEval

theorem execThermalShutdown_formed (h : s.Formed) : Out.Formed (execThermalShutdown s) := .ite (.next h) (.ite (.next h.endRun.withPow) (.next h))

theorem execThermalTrip_formed (h : s.Formed) : Out.Formed (execThermalTrip s) := .next h.coldReset.withPow.orReg

theorem State.Formed.regulatorFault (h : s.Formed) {r : Nat} : (s.regulatorFault r).Formed :=
  .ite (.foldl h.incReg.raise.withPow fun h => .ite h h.toSafe) h.incReg.raise.endRun

theorem execPmbusPoll_formed (h : s.Formed) {vout iout : List (BitVec 16)} {silent : List (Fin 7)} :
    Out.Formed (execPmbusPoll vout iout silent s) := by
  unfold execPmbusPoll
  split
  · exact .next h
  · split
    · exact .next h
    · extract_lets +onlyGivenNames rails mute s1 s2 bad
      have hs1 : s1.Formed := .foldl h fun h => .ite h h.setReg.setReg
      have hs2 : s2.Formed := hs1.setReg
      exact .next (.foldl hs2 fun h => .ite h h.regulatorFault)

theorem execPmbAlert_formed (h : s.Formed) {r : Fin 7} {voltage overCurrent : Bool} : Out.Formed (execPmbAlert r voltage overCurrent s) :=
  .ite (.next h) (.ite (.next h) (.ite (.next h.regulatorFault) (.next (.ite h.incReg h))))

theorem execSerdesRailCycle_formed (h : s.Formed) : Out.Formed (execSerdesRailCycle s) := .ite (.next h) (.next h.withPow)

/-! ### Triggers -/

theorem State.Formed.windowCommand (h : s.Formed) {a : Agent} {w : Fin 4} {op : Nat} {tab : BitVec 4} {view : Bool} :
    (s.windowCommand a w op tab view).Formed :=
  .ite h.regWrite.twFinish h.regWrite

theorem execInsert_formed (h : s.Formed) {a : Agent} {w : Fin 4} {tab : BitVec 4} {view : Bool} : Out.Formed (execInsert a w tab view s) :=
  .next h.windowCommand

theorem execUpdate_formed (h : s.Formed) {a : Agent} {w : Fin 4} {tab : BitVec 4} {view : Bool} : Out.Formed (execUpdate a w tab view s) :=
  .next h.windowCommand

theorem execDelete_formed (h : s.Formed) {a : Agent} {w : Fin 4} {tab : BitVec 4} {view : Bool} : Out.Formed (execDelete a w tab view s) :=
  .next h.windowCommand

theorem execFind_formed (h : s.Formed) {a : Agent} {w : Fin 4} {tab : BitVec 4} {view : Bool} : Out.Formed (execFind a w tab view s) :=
  .next h.windowCommand

theorem execMatchPrefix_formed (h : s.Formed) {a : Agent} {w : Fin 4} {tab : BitVec 4} {view : Bool} : Out.Formed (execMatchPrefix a w tab view s) :=
  .next h.windowCommand

theorem execReadIndex_formed (h : s.Formed) {a : Agent} {w : Fin 4} {tab : BitVec 4} {view : Bool} : Out.Formed (execReadIndex a w tab view s) :=
  .next h.windowCommand

theorem execWriteIndex_formed (h : s.Formed) {a : Agent} {w : Fin 4} {tab : BitVec 4} {view : Bool} : Out.Formed (execWriteIndex a w tab view s) :=
  .next h.windowCommand

theorem execAddPrefix_formed (h : s.Formed) {a : Agent} {w : Fin 4} {tab : BitVec 4} {view : Bool} : Out.Formed (execAddPrefix a w tab view s) :=
  .next h.windowCommand

theorem execPendingDiscard_formed (h : s.Formed) {a : Agent} : Out.Formed (execPendingDiscard a s) := .next h.regWrite

theorem execTmNodeWrite_formed (h : s.Formed) {a : Agent} {i : BitVec 9} {data : Word} : Out.Formed (execTmNodeWrite a i data s) := .next h.regWrite

theorem execTmRateApply_formed (h : s.Formed) {a : Agent} {data : Word} : Out.Formed (execTmRateApply a data s) := .next h.regWrite

theorem execPoliceRateApply_formed (h : s.Formed) {a : Agent} {data : Word} : Out.Formed (execPoliceRateApply a data s) := .next h.regWrite

theorem execGateSwitchReq_formed (h : s.Formed) {a : Agent} {data : Word} : Out.Formed (execGateSwitchReq a data s) := .next h.regWrite

theorem execGateSwitchCancel_formed (h : s.Formed) {a : Agent} {data : Word} : Out.Formed (execGateSwitchCancel a data s) := .next h.regWrite

theorem execCalendarSwitchReq_formed (h : s.Formed) {a : Agent} {g : Fin 16} : Out.Formed (execCalendarSwitchReq a g s) := .next h.regWrite

theorem execBadHecInject_formed (h : s.Formed) {a : Agent} {g : Fin 16} {data : Word} : Out.Formed (execBadHecInject a g data s) := .next h.regWrite

theorem execStepGo_formed (h : s.Formed) {a : Agent} {d : Fin 2} : Out.Formed (execStepGo a d s) := .next h.regWrite

theorem execSetGo_formed (h : s.Formed) {a : Agent} {d : Fin 2} : Out.Formed (execSetGo a d s) := .next h.regWrite

theorem execFreqWrite_formed (h : s.Formed) {a : Agent} {d : Fin 2} {data : Word} : Out.Formed (execFreqWrite a d data s) := .next h.regWrite

theorem execSnap_formed (h : s.Formed) {a : Agent} : Out.Formed (execSnap a s) := .next h.regWrite

theorem execTxtsPop_formed (h : s.Formed) {a : Agent} {port : Fin 242} {data : Word} : Out.Formed (execTxtsPop a port data s) := .next h.regWrite

theorem execLaunchArm_formed (h : s.Formed) {a : Agent} {data : Word} : Out.Formed (execLaunchArm a data s) := .next h.regWrite

theorem execLaunchCancel_formed (h : s.Formed) {a : Agent} {data : Word} : Out.Formed (execLaunchCancel a data s) := .next h.regWrite

theorem execStatsRead_formed (h : s.Formed) {a : Agent} {pair : Fin 1024} {uncorr : Bool} : Out.Formed (execStatsRead a pair uncorr s) := by
  unfold execStatsRead
  split
  · exact .next h
  · extract_lets +onlyGivenNames o go
    have hgo : ∀ {x0}, State.Formed x0 → State.Formed (go x0) := by
      intro x0 h
      unfold go
      exact h.readStats.noteAccess
    split
    · exact .ite (.next h) (.ite (.next ((hgo h).retired)) (.next h.appTrap))
    · exact .ite (.next h) (.next ((hgo h).retired))
    · exact .ite (.next ((hgo h))) (.next h)
    · exact .next ((hgo h))

theorem execStatsSet_formed (h : s.Formed) {a : Agent} {data : Word} : Out.Formed (execStatsSet a data s) := .next h.regWrite

theorem execPmuResetAll_formed (h : s.Formed) {a : Agent} : Out.Formed (execPmuResetAll a s) := .next h.regWrite

theorem execPmuValueWrite_formed (h : s.Formed) {a : Agent} {n : Fin 256} {high : Bool} {data : Word} :
    Out.Formed (execPmuValueWrite a n high data s) :=
  .next h.regWrite

theorem execRingRdWrite_formed (h : s.Formed) {a : Agent} {data : Word} : Out.Formed (execRingRdWrite a data s) := .next h.regWrite

theorem execPbpStep_formed (h : s.Formed) {a : Agent} {data : Word} {residence : BitVec 60} {banks : List (BitVec 11)} {ecc : Option (BitVec 11 × BitVec 11)} :
    Out.Formed (execPbpStep a data residence banks ecc s) := by
  unfold execPbpStep
  split
  rename_i s1 e
  have hs1 : s1.Formed := .of_snd e h.store
  exact .ite (.next (.ite hs1.pbpStep.pbpRelease hs1.pbpStep)) (.next hs1)

theorem execPbpRelease_formed (h : s.Formed) {a : Agent} {data : Word} : Out.Formed (execPbpRelease a data s) := .next h.regWrite

theorem execQCtrlThaw_formed (h : s.Formed) {a : Agent} {data us : Word} : Out.Formed (execQCtrlThaw a data us s) := by
  unfold execQCtrlThaw
  split
  rename_i s1 e
  have hs1 : s1.Formed := .of_snd e h.store
  exact .next (.ite hs1.thaw hs1)

theorem execHbKick_formed (h : s.Formed) {a : Agent} {data : Word} : Out.Formed (execHbKick a data s) := .next h.regWrite

theorem execFaultAssert_formed (h : s.Formed) {a : Agent} : Out.Formed (execFaultAssert a s) := .next h.regWrite

theorem execFaultClear_formed (h : s.Formed) {a : Agent} : Out.Formed (execFaultClear a s) := .next h.regWrite

theorem execWarmReset_formed (h : s.Formed) {a : Agent} : Out.Formed (execWarmReset a s) := .next h.regWrite

theorem execPowerOff_formed (h : s.Formed) {a : Agent} : Out.Formed (execPowerOff a s) := .next h.regWrite

theorem execBlockReset_formed (h : s.Formed) {a : Agent} {page : BitVec 8} : Out.Formed (execBlockReset a page s) := .next h.regWrite

theorem execBellowsRestart_formed (h : s.Formed) {a : Agent} : Out.Formed (execBellowsRestart a s) := .next h.regWrite

/-! ### Dispatch -/

theorem exec_formed (h : s.Formed) {i : Instr} : Out.Formed (exec i s) := by
  unfold exec
  split
  · exact execRegisterWrite_formed h
  · exact execBitAliasWrite_formed h
  · exact execBlockEnable_formed h
  · exact execBlockReady_formed h
  · exact execBlockDisable_formed h
  · exact execDrainComplete_formed h
  · exact execDrainTimeout_formed h
  · exact execDrainDiscard_formed h
  · exact execScrubPass_formed h
  · exact execTopologyWrite_formed h
  · exact execEngineProfileWrite_formed h
  · exact execFenceWrite_formed h
  · exact execFenceDone_formed h
  · exact execTablesFenceWrite_formed h
  · exact execTablesFenceDone_formed h
  · exact execLockAcquire_formed h
  · exact execLockRelease_formed h
  · exact execMgmtLinkLoss_formed h
  · exact execFatalFaultEntry_formed h
  · exact execAppFault_formed h
  · exact execAppCpuLimit_formed h
  · exact execWdtKick_formed h
  · exact execWdtExpired_formed h
  · exact execCoreResetAll_formed h
  · exact execCoreResetOne_formed h
  · exact execFwReady_formed h
  · exact execEntdaa_formed h
  · exact execSetdasa_formed h
  · exact execSetnewda_formed h
  · exact execRstdaa_formed h
  · exact execGetpid_formed h
  · exact execGetbcr_formed h
  · exact execGetdcr_formed h
  · exact execGetstatus_formed h
  · exact execGetmxds_formed h
  · exact execEnec_formed h
  · exact execDisec_formed h
  · exact execEnthdr0_formed h
  · exact execUnsupportedCcc_formed h
  · exact execI3cTargetReset_formed h
  · exact execRstactWholeReset_formed h
  · exact execI3cBusReset_formed h
  · exact execPrivateRead_formed h
  · exact execI2cTransfer_formed h
  · exact execIbiRequest_formed h
  · exact execMgmtFrameRx_formed h
  · exact execReadWords_formed h
  · exact execWriteWords_formed h
  · exact execWriteMasked_formed h
  · exact execFence_formed h
  · exact execEcho_formed h
  · exact execLoginChallenge_formed h
  · exact execLoginResponse_formed h
  · exact execLogout_formed h
  · exact execChallengeExpire_formed h
  · exact execSessionIdleExpire_formed h
  · exact execLockoutExpire_formed h
  · exact execOpSuspend_formed h
  · exact execOpResume_formed h
  · exact execOpCancel_formed h
  · exact execOpStatus_formed h
  · exact execOpQueuedStart_formed h
  · exact execOpComplete_formed h
  · exact execOpRecordExpire_formed h
  · exact execLogRead_formed h
  · exact execKeyCommit_formed h
  · exact execKeyCommitDone_formed h
  · exact execAuditRecordWrite_formed h
  · exact execEpochCommit_formed h
  · exact execTableLoad_formed h
  · exact execTableFlush_formed h
  · exact execSnapshotSave_formed h
  · exact execSnapshotRestore_formed h
  · exact execStateSync_formed h
  · exact execMemTest_formed h
  · exact execFwUpdate_formed h
  · exact execTwicelRejoin_formed h
  · exact execLinkUp_formed h
  · exact execLinkDown_formed h
  · exact execFrameRx_formed h
  · exact execFrameEndRx_formed h
  · exact execPfcRx_formed h
  · exact execPfcPauseExpire_formed h
  · exact execPfcXoffEval_formed h
  · exact execPfcRefresh_formed h
  · exact execFrameTxEnd_formed h
  · exact execSecondCommit_formed h
  · exact execCalendarSwitchReq_formed h
  · exact execCalendarSwitchAck_formed h
  · exact execCalendarSwitch_formed h
  · exact execCalendarSwitchTimeout_formed h
  · exact execFlexeOverheadRx_formed h
  · exact execCellRx_formed h
  · exact execMarkerTimeout_formed h
  · exact execIdleRx_formed h
  · exact execMarkerRx_formed h
  · exact execMarkerTx_formed h
  · exact execMemberAccept_formed h
  · exact execMemberRemove_formed h
  · exact execBadHecInject_formed h
  · exact execFlowStatusRx_formed h
  · exact execFlowStatusExpire_formed h
  · exact execSpray_formed h
  · exact execPassResult_formed h
  · exact execReorderRelease_formed h
  · exact execReorderSkip_formed h
  · exact execInsert_formed h
  · exact execUpdate_formed h
  · exact execDelete_formed h
  · exact execFind_formed h
  · exact execMatchPrefix_formed h
  · exact execReadIndex_formed h
  · exact execWriteIndex_formed h
  · exact execAddPrefix_formed h
  · exact execLearnInsert_formed h
  · exact execAgeSweep_formed h
  · exact execMoveStorm_formed h
  · exact execMoveFreezeExpire_formed h
  · exact execTableEccScrub_formed h
  · exact execMaintArbRound_formed h
  · exact execEpochSwitch_formed h
  · exact execEpochMergeSlot_formed h
  · exact execMergeDone_formed h
  · exact execEpochRetire_formed h
  · exact execRetireForced_formed h
  · exact execPendingDiscard_formed h
  · exact execAdmission_formed h
  · exact execIngotWrite_formed h
  · exact execStageHoldExpire_formed h
  · exact execPrefetchRequest_formed h
  · exact execIngotReadComplete_formed h
  · exact execChannelArbRound_formed h
  · exact execIngotPatrolScrub_formed h
  · exact execWdTrip_formed h
  · exact execWdRestore_formed h
  · exact execTmSelect_formed h
  · exact execTmNodeWrite_formed h
  · exact execTmRateApply_formed h
  · exact execPoliceRateApply_formed h
  · exact execDownHoldExpire_formed h
  · exact execGateSwitchReq_formed h
  · exact execGateSwitchCancel_formed h
  · exact execGateSwitch_formed h
  · exact execGateTransition_formed h
  · exact execTimeBaseTick_formed h
  · exact execStepGo_formed h
  · exact execSetGo_formed h
  · exact execFreqWrite_formed h
  · exact execSnap_formed h
  · exact execTxtsPop_formed h
  · exact execPpsOutEdge_formed h
  · exact execPpsIn_formed h
  · exact execRclkSquelch_formed h
  · exact execTimeExchangeStart_formed h
  · exact execTimeRequestRx_formed h
  · exact execTimeResponseRx_formed h
  · exact execTimeExchangeLost_formed h
  · exact execServoHoldover_formed h
  · exact execLaunchArm_formed h
  · exact execLaunchCancel_formed h
  · exact execLaunchPlaced_formed h
  · exact execLaunchApply_formed h
  · exact execLaunchMissed_formed h
  · exact execVoqServe_formed h
  · exact execCreditGrantRx_formed h
  · exact execCreditEarn_formed h
  · exact execGrantCellSend_formed h
  · exact execDataCellRx_formed h
  · exact execReassemblyRelease_formed h
  · exact execRbSkip_formed h
  · exact execContextSync_formed h
  · exact execRbXoff_formed h
  · exact execFlowStatusRepeat_formed h
  · exact execVoqFreeHoldExpire_formed h
  · exact execUnreachExpire_formed h
  · exact execTakeoverRx_formed h
  · exact execConflictDetect_formed h
  · exact execJoinProbe_formed h
  · exact execJoinProbeAnswer_formed h
  · exact execConfigRelayRx_formed h
  · exact execRelayAckRx_formed h
  · exact execRelayRetx_formed h
  · exact execLearnBatchSend_formed h
  · exact execLearnRx_formed h
  · exact execSyncWalk_formed h
  · exact execActInFall_formed h
  · exact execWindDownEnd_formed h
  · exact execActInRise_formed h
  · exact execTakeoverForwardStart_formed h
  · exact execTakeoverRepeat_formed h
  · exact execHbKick_formed h
  · exact execHbToggle_formed h
  · exact execFaultAssert_formed h
  · exact execFaultClear_formed h
  · exact execJournalRecordSend_formed h
  · exact execJournalRx_formed h
  · exact execJournalAckRx_formed h
  · exact execJournalRetx_formed h
  · exact execJournalHeartbeat_formed h
  · exact execJournalSweep_formed h
  · exact execStatsFlush_formed h
  · exact execStatsPeriodicFlush_formed h
  · exact execStatsRead_formed h
  · exact execStatsSet_formed h
  · exact execPmuResetAll_formed h
  · exact execPmuValueWrite_formed h
  · exact execSampleRecordWrite_formed h
  · exact execRingRdWrite_formed h
  · exact execDebugAttach_formed h
  · exact execDebugDetach_formed h
  · exact execDetachIdleExpire_formed h
  · exact execDebugLineReset_formed h
  · exact execCoreHalt_formed h
  · exact execCoreResume_formed h
  · exact execCoreStep_formed h
  · exact execCoreRegRead_formed h
  · exact execCoreRegWrite_formed h
  · exact execTriggerSet_formed h
  · exact execTriggerHit_formed h
  · exact execPbpHit_formed h
  · exact execPbpStep_formed h
  · exact execPbpRelease_formed h
  · exact execQuench_formed h
  · exact execQuenchPin_formed h
  · exact execQinfo_formed h
  · exact execQread_formed h
  · exact execThaw_formed h
  · exact execQCtrlThaw_formed h
  · exact execDetach_formed h
  · exact execColdResetRelease_formed h
  · exact execResetNFall_formed h
  · exact execPwrgoodFall_formed h
  · exact execSupplyOutOfRange_formed h
  · exact execBellowsImageVerify_formed h
  · exact execRailInRange_formed h
  · exact execRailStartTimeout_formed h
  · exact execRootPllLock_formed h
  · exact execWarmUpEnd_formed h
  · exact execStackTrained_formed h
  · exact execCpBoot_formed h
  · exact execWarmReset_formed h
  · exact execPowerOff_formed h
  · exact execBlockReset_formed h
  · exact execBlockResetComplete_formed h
  · exact execBellowsWdtExpire_formed h
  · exact execBellowsRestart_formed h
  · exact execAvsStep_formed h
  · exact execTempSample_formed h
  · exact execThermalShutdown_formed h
  · exact execThermalRecheck_formed h
  · exact execThermalTrip_formed h
  · exact execPmbusPoll_formed h
  · exact execPmbAlert_formed h
  · exact execSerdesRailCycle_formed h
  · exact execRefclkLoss_formed h
  · exact execRefclkReturn_formed h
  · exact execRootLockLoss_formed h
  · exact execHeaderCandidate_formed h
  · exact execLossOfSignal_formed h
  · exact execSkewFail_formed h
  · exact execRclkResume_formed h

/-! ### Step -/

theorem State.Formed.withFetchWord (h : s.Formed) {x x1 : Nat} : (s.withFetchWord x x1).Formed := h

theorem State.Formed.arrived (h : s.Formed) {a : Agent} : (s.arrived a).Formed := by
  unfold State.arrived
  extract_lets +onlyGivenNames s1 s2
  have hs2 : s2.Formed := .ite h.withHost h
  exact hs2.countCmd

theorem State.Formed.wordWrite (h : s.Formed) {a : Agent} {r : PageRow} {p o : Nat} {data : Word} : (s.wordWrite a r p o data).2.Formed :=
  h.touchPage.writeWord

end

/-- Settles O4: the form is an invariant of every instruction, and a step runs one instruction or none. -/
theorem stepKeepsCanonical : Obligations.StepKeepsCanonical := by
  intro s t canonical keyed run
  have h : s.Formed := (State.formed_iff s).2 ⟨canonical, keyed⟩
  rw [← State.formed_iff]
  cases hq : s.pending with
  | nil =>
    rw [step_nil s hq] at run
    exact Out.Formed.next h t run
  | cons c rest =>
    rw [step_cons s c rest hq] at run
    exact exec_formed h.withPending t run

end Sys2Proof.Machine

namespace Sys2Proof.Machine

/-! ## Words -/

/-- A bit given leaves the others. -/
theorem bit_putBit_other (w : Word) {b i : Nat} (v : Bool) (h : i ≠ b) : bit (putBit w b v) i = bit w i := by
  by_cases hi : i < 32
  · cases v
    · have clear : bit (~~~oneBit b) i = !bit (oneBit b) i := by simp [bit, hi]
      simp [putBit, clear, oneBit_bit b i hi, h]
    · simp [putBit, oneBit_bit b i hi, h]
  · have out (v : Word) : bit v i = false := BitVec.getLsbD_of_ge v i (by omega)
    rw [out, out]

/-- A bit given leaves every field apart from it. -/
theorem fld_putBit_other (w : Word) (b : Nat) (v : Bool) (hi lo : Nat) (h : b < lo ∨ hi < b) : fld (putBit w b v) hi lo = fld w hi lo := by
  apply Nat.eq_of_testBit_eq
  intro i
  by_cases c : i < hi + 1 - lo
  · rw [fld_testBit _ c, fld_testBit _ c, bit_putBit_other w v (by omega)]
  · have short (u : Word) : (fld u hi lo).testBit i = false :=
      Nat.testBit_lt_two_pow (lt_of_lt_of_le (fld_lt u hi lo) (Nat.pow_le_pow_right (by omega) (by omega)))
    rw [short, short]

/-- The pages of the pipelines and of what they share stand below REORDER's. -/
theorem pageKind_pipeline {p : Nat} {k : Kind} (h : pageKind p = some k) (hk : k = .pipe ∨ k = .parse ∨ k = .classify) : p ≤ pgReorder := by
  obtain ⟨row, found, rfl⟩ := Option.map_eq_some_iff.mp h
  have inside := List.find?_some found
  simp only [Bool.and_eq_true, decide_eq_true_eq] at inside
  have below : ∀ r ∈ pageRows, (r.kind = .pipe ∨ r.kind = .parse ∨ r.kind = .classify) → r.last ≤ pgReorder := by decide
  exact inside.2.trans (below row (List.mem_of_find?_eq_some found) hk)

/-! ## What an operation of a block leaves of a page

`Kept P base s`: of the state `base`, the state `s` still has the block state, the faults and the configuration of page `P`, with what else the
statements on the block states name. Each definition that a block's change of state runs keeps it, so a statement about one page follows
from the few steps that write that page's header. -/

/-- The words of a page that only its own block state writes: BLOCK_STATE, the fault word and the configuration region. -/
def Head (o : Nat) : Prop := o = 0x0C ∨ o = 0x10 ∨ (0x100 ≤ o ∧ o < 0x1000)

/-- Writing the word at offset `o` of page `p` leaves the kept words of page `P`. -/
def Clear (P p o : Nat) : Prop :=
  (p * 0x10000 + o ≠ P * 0x10000 + 0x0C ∧ p * 0x10000 + o ≠ P * 0x10000 + 0x10
    ∧ (p * 0x10000 + o < P * 0x10000 + 0x100 ∨ P * 0x10000 + 0x1000 ≤ p * 0x10000 + o)) ∧ p * 0x10000 + o ≠ 0x2020

structure Kept (P : Nat) (base s : State) : Prop where
  regs : Store.wf regReset s.regs = true
  head : ∀ o, Head o → s.reg P o = base.reg P o
  scrubs : s.regFld pgGlobal 0x2020 15 0 = base.regFld pgGlobal 0x2020 15 0
  latched : s.latched = base.latched
  pending : s.pending = base.pending
  mem : s.cp.mem = base.cp.mem
  bytes : s.nvm.bytes = base.nvm.bytes
  upset : s.upset = base.upset
  rest : s.ops.rest = base.ops.rest

namespace Kept

section
variable {P : Nat} {base : State} {c : Prop} [Decidable c] {α β γ : Type}

theorem refl {s : State} (h : Store.wf regReset s.regs = true) : Kept P s s := ⟨h, fun _ _ => rfl, rfl, rfl, rfl, rfl, rfl, rfl, rfl⟩

theorem ite {s t : State} (hs : Kept P base s) (ht : Kept P base t) : Kept P base (if c then s else t) := by
  split
  · exact hs
  · exact ht

theorem ite_snd {x y : α × State} (hx : Kept P base x.2) (hy : Kept P base y.2) : Kept P base (if c then x else y).2 := by
  split
  · exact hx
  · exact hy

theorem ite_snd_snd {x y : α × β × State} (hx : Kept P base x.2.2) (hy : Kept P base y.2.2) : Kept P base (if c then x else y).2.2 := by
  split
  · exact hx
  · exact hy

theorem pair {a : α} {t : State} (h : Kept P base t) : Kept P base (a, t).2 := h

theorem of_snd {x : α × State} {a : α} {t : State} (e : x = (a, t)) (h : Kept P base x.2) : Kept P base t := by
  subst e
  exact h

theorem of_snd_snd {x : α × β × State} {a : α} {b : β} {t : State} (e : x = (a, b, t)) (h : Kept P base x.2.2) : Kept P base t := by
  subst e
  exact h

theorem of_fst {x : State × α} {a : α} {t : State} (e : x = (t, a)) (h : Kept P base x.1) : Kept P base t := by
  subst e
  exact h

theorem foldl {s : State} {f : State → α → State} {l : List α} (h : Kept P base s) (hf : ∀ {t} {x : α}, Kept P base t → Kept P base (f t x)) :
    Kept P base (l.foldl f s) := by
  induction l generalizing s with
  | nil => exact h
  | cons x l ih => exact ih (hf h)

/-- A loop whose turns use what their elements are. -/
theorem foldl_mem {s : State} {f : State → α → State} {l : List α} (h : Kept P base s) (hf : ∀ {t}, ∀ x ∈ l, Kept P base t → Kept P base (f t x)) :
    Kept P base (l.foldl f s) := by
  induction l generalizing s with
  | nil => exact h
  | cons x l ih => exact ih (hf x List.mem_cons_self h) fun y hy => hf y (List.mem_cons_of_mem x hy)

theorem foldl_snd {b : β × State} {f : β × State → α → β × State} {l : List α} (h : Kept P base b.2)
    (hf : ∀ {t} {x : α}, Kept P base t.2 → Kept P base (f t x).2) : Kept P base (l.foldl f b).2 := by
  induction l generalizing b with
  | nil => exact h
  | cons x l ih => exact ih (hf h)

theorem foldl_fst {b : State × β} {f : State × β → α → State × β} {l : List α} (h : Kept P base b.1)
    (hf : ∀ {t} {x : α}, Kept P base t.1 → Kept P base (f t x).1) : Kept P base (l.foldl f b).1 := by
  induction l generalizing b with
  | nil => exact h
  | cons x l ih => exact ih (hf h)

end

section
variable {P : Nat} {base s : State} (h : Kept P base s)
include h

/-- An update that leaves what the relation names. -/
theorem same {t : State} (hregs : t.regs = s.regs := by rfl) (hlatched : t.latched = s.latched := by rfl)
    (hpending : t.pending = s.pending := by rfl) (hmem : t.cp.mem = s.cp.mem := by rfl) (hbytes : t.nvm.bytes = s.nvm.bytes := by rfl)
    (hupset : t.upset = s.upset := by rfl) (hrest : t.ops.rest = s.ops.rest := by rfl) : Kept P base t where
  regs := hregs ▸ h.regs
  head o ho := by rw [← h.head o ho, State.reg, State.reg, hregs]
  scrubs := by rw [← h.scrubs, State.regFld, State.regFld, State.reg, State.reg, hregs]
  latched := hlatched.trans h.latched
  pending := hpending.trans h.pending
  mem := hmem.trans h.mem
  bytes := hbytes.trans h.bytes
  upset := hupset.trans h.upset
  rest := hrest.trans h.rest

/-- A register outside the kept words takes any value. -/
theorem setReg {p o : Nat} {v : Word} (hc : Clear P p o := by unfold Clear; omega) : Kept P base (s.setReg p o v) where
  regs := by
    rw [State.setReg_regs]
    exact Store.wf_put regReset _ _ _ h.regs
  head u hu := by
    have hne : regKey P u ≠ regKey p o := by
      unfold Head at hu
      unfold Clear at hc
      unfold regKey
      omega
    rw [State.reg_setReg_other s v h.regs hne, h.head u hu]
  scrubs := by
    have hne : regKey pgGlobal 0x2020 ≠ regKey p o := by
      unfold Clear at hc
      unfold regKey pgGlobal
      omega
    rw [State.regFld, State.reg_setReg_other s v h.regs hne]
    exact h.scrubs
  latched := by rw [State.setReg_latched, h.latched]
  pending := by rw [State.setReg_pending, h.pending]
  mem := by rw [State.setReg_cp, h.mem]
  bytes := by rw [State.setReg_nvm, h.bytes]
  upset := by rw [State.setReg_upset, h.upset]
  rest := by rw [State.setReg_ops, h.rest]

theorem updReg {p o : Nat} {f : Word → Word} (hc : Clear P p o := by unfold Clear; omega) : Kept P base (s.updReg p o f) := h.setReg hc

theorem setRegFld {p o hi lo v : Nat} (hc : Clear P p o := by unfold Clear; omega) : Kept P base (s.setRegFld p o hi lo v) := h.setReg hc

theorem orReg {p o : Nat} {m : Word} (hc : Clear P p o := by unfold Clear; omega) : Kept P base (s.orReg p o m) := h.setReg hc

theorem clrReg {p o : Nat} {m : Word} (hc : Clear P p o := by unfold Clear; omega) : Kept P base (s.clrReg p o m) := h.setReg hc

theorem addReg {p o n : Nat} (hc : Clear P p o := by unfold Clear; omega) : Kept P base (s.addReg p o n) := h.setReg hc

theorem incReg {p o : Nat} (hc : Clear P p o := by unfold Clear; omega) : Kept P base (s.incReg p o) := h.setReg hc

theorem maxReg {p o n v : Nat} (hc : Clear P p o := by unfold Clear; omega) : Kept P base (s.maxReg p o n v) := .ite (h.setRegFld hc) h

theorem raise {p b : Nat} : Kept P base (s.raise p b) := h.orReg

theorem withFreeCtr {x : Nat} : Kept P base { s with freeCtr := x } := h.same
theorem withReported {x : List Nat} : Kept P base { s with reported := x } := h.same
theorem withReadLatch {x : List (Nat × Word)} : Kept P base { s with readLatch := x } := h.same
theorem withLastLow {x : List (Nat × Nat)} : Kept P base { s with lastLow := x } := h.same
theorem withSigWords {x : Option (List (Nat × Word))} : Kept P base { s with sigWords := x } := h.same
theorem withResetPage {x : Option Nat} : Kept P base { s with resetPage := x } := h.same
theorem withWin {x : List (Nat × Word)} : Kept P base { s with win := x } := h.same
theorem withHost {x : HostSt} : Kept P base { s with host := x } := h.same
theorem withOps {x : OpSt} (hr : x.rest = s.ops.rest := by rfl) : Kept P base { s with ops := x } := h.same (hrest := hr)
theorem withPort {x : PortSt} : Kept P base { s with port := x } := h.same
theorem withPipe {x : PipeSt} : Kept P base { s with pipe := x } := h.same
theorem withTab {x : TabSt} : Kept P base { s with tab := x } := h.same
theorem withTime {x : TimeSt} : Kept P base { s with time := x } := h.same
theorem withStat {x : StatSt} : Kept P base { s with stat := x } := h.same
theorem withBuf {x : BufSt} : Kept P base { s with buf := x } := h.same
theorem withSched {x : SchedSt} : Kept P base { s with sched := x } := h.same
theorem withVoq {x : VoqSt} : Kept P base { s with voq := x } := h.same
theorem withSprue {x : SprueSt} : Kept P base { s with sprue := x } := h.same
theorem withPair {x : PairSt} : Kept P base { s with pair := x } := h.same
theorem withLaunch {x : LaunchSt} : Kept P base { s with launch := x } := h.same
theorem withPow {x : PowSt} : Kept P base { s with pow := x } := h.same
theorem withCp {x : CpSt} (hm : x.mem = s.cp.mem := by rfl) : Kept P base { s with cp := x } := h.same (hmem := hm)
theorem withNvm {x : NvmSt} (hb : x.bytes = s.nvm.bytes := by rfl) : Kept P base { s with nvm := x } := h.same (hbytes := hb)

end
end Kept

/-! ### What a block's change of state runs keeps every page's header -/

section
set_option Elab.async false
variable {P : Nat} {base s : State}

theorem Kept.setWin (h : Kept P base s) {p u i : Nat} {v : Word} : Kept P base (s.setWin p u i v) := h.withWin

theorem Kept.setWinA (h : Kept P base s) {p n : Nat} {v : Word} : Kept P base (s.setWinA p n v) := h.setWin

theorem Kept.updWin (h : Kept P base s) {p u i : Nat} {f : Word → Word} : Kept P base (s.updWin p u i f) := h.setWin

theorem Kept.audit (h : Kept P base s) {r : AuditRec} : Kept P base (s.audit r) := .ite h.withNvm h.withNvm

theorem Kept.ibi (h : Kept P base s) {code detail : Nat} : Kept P base (s.ibi code detail) := h.withHost

theorem Kept.setStop (h : Kept P base s) : Kept P base s.setStop := by
  unfold State.setStop
  split
  · exact h
  · exact h.withStat.clrReg

theorem Kept.applyFreq (h : Kept P base s) {d : Nat} {f : Int} : Kept P base (s.applyFreq d f) := by
  unfold State.applyFreq
  extract_lets +onlyGivenNames c s1
  extract_lets +onlyGivenNames s2
  have hs2 : Kept P base s2 := .ite h.withTime h.withTime
  exact .ite hs2 hs2.orReg.raise

theorem Kept.setServo (h : Kept P base s) {v : Nat} : Kept P base (s.setServo v) := .ite h h.setRegFld.raise

theorem Kept.timeEnabled (h : Kept P base s) : Kept P base s.timeEnabled := h.applyFreq.applyFreq.withTime.updReg.setServo

theorem Kept.squelch (h : Kept P base s) {src : Nat} : Kept P base (s.squelch src) := .foldl h fun h => .ite h.withTime h

theorem Kept.laneFall (h : Kept P base s) {lane : Nat} {signal : Bool} : Kept P base (s.laneFall lane signal) := by
  unfold State.laneFall
  extract_lets +onlyGivenNames pg k
  split
  · exact h
  · extract_lets +onlyGivenNames s'
    have hs' : Kept P base s' := .ite h.incReg h
    exact hs'.updReg.squelch

theorem Kept.bankEnabling (h : Kept P base s) {n : Nat} : Kept P base (s.bankEnabling n) := by
  unfold State.bankEnabling
  extract_lets +onlyGivenNames pg role c s1
  have hs1 : Kept P base s1 := h.updReg
  exact .ite hs1.raise (.ite hs1.setReg hs1.setReg.orReg.raise)

theorem Kept.flexEval (h : Kept P base s) : Kept P base s.flexEval := by
  refine .foldl_mem h fun g hg h => ?_
  have hg := List.mem_range.mp hg
  exact .ite h (Kept.raise (h.updReg (by unfold Clear pgFlexe; omega)))

theorem Kept.flexEnabling (h : Kept P base s) : Kept P base s.flexEnabling := by
  refine .foldl_mem h fun g hg h => ?_
  have hg := List.mem_range.mp hg
  exact h.updReg (by unfold Clear pgFlexe; omega)

theorem Kept.macCount (h : Kept P base s) {p i : Nat} (hi : i < 0x100 := by omega) : Kept P base (s.macCount p i) := by
  unfold State.macCount
  split
  · exact h.incReg
  · split
    · exact .ite h.incReg (.ite h.incReg h)
    · split
      · exact h.incReg
      · exact h

theorem Kept.setGw (h : Kept P base s) {p i : Nat} {v : Word} : Kept P base (s.setGw p i v) := h.setWinA

theorem Kept.gateDrop (h : Kept P base s) {p : Nat} : Kept P base (s.gateDrop p) := h.setGw

theorem Kept.setBuckets (h : Kept P base s) {k : Nat} {c p : Bucket} : Kept P base (s.setBuckets k c p) := h.withSched

theorem Kept.chargeNode (h : Kept P base s) {k : Nat} {len : Int} : Kept P base (s.chargeNode k len) := h.setBuckets

theorem Kept.closeIfEmpty (h : Kept P base s) {k : Nat} : Kept P base (s.closeIfEmpty k) := .ite h.updWin h

theorem Kept.journalPut (h : Kept P base s) {kind items : Nat} {body : List Word} : Kept P base (s.journalPut kind items body) :=
  .ite h (.ite h.withPair.orReg h.withPair)

theorem Kept.journal (h : Kept P base s) {kind items : Nat} {body : List Word} : Kept P base (s.journal kind items body) := .ite h.journalPut h

theorem Kept.setMac (h : Kept P base s) {m : List (Nat × MacEnt)} : Kept P base (s.setMac m) := h.withTab

theorem Kept.setBase (h : Kept P base s) {tab : Nat} {m : List (Nat × List Word)} : Kept P base (s.setBase tab m) := h.withTab

theorem Kept.twDiscard (h : Kept P base s) : Kept P base s.twDiscard := by
  unfold State.twDiscard
  extract_lets +onlyGivenNames s'
  have hs' : Kept P base s' := .foldl h fun h => h.updWin
  exact hs'.withTab

theorem Kept.takeCells (h : Kept P base s) {p : Pool} {port n : Nat} : Kept P base (s.takeCells p port n) := .ite h.withBuf.raise h.withBuf

theorem Kept.giveCells (h : Kept P base s) {p : Pool} {port n : Nat} : Kept P base (s.giveCells p port n) := h.withBuf

theorem Kept.setQueue (h : Kept P base s) {q : Nat} {l : List Copy} : Kept P base (s.setQueue q l) := h.withBuf

theorem Kept.setSpill (h : Kept P base s) {q : Nat} {x : SpillQ} : Kept P base (s.setSpill q x) := h.withBuf

theorem Kept.reserveEval (h : Kept P base s) : Kept P base s.reserveEval := .ite h (.ite h.updReg.raise h.updReg)

theorem Kept.setTesting (h : Kept P base s) {l : List Nat} : Kept P base (s.setTesting l) := h.withBuf.reserveEval

theorem Kept.freeVoqs (h : Kept P base s) : Kept P base s.freeVoqs := h.withVoq

theorem Kept.noteCells (h : Kept P base s) : Kept P base s.noteCells := h.maxReg

theorem Kept.retireNow (h : Kept P base s) {place : Nat} : Kept P base (s.retireNow place) := .ite h h.withBuf.incReg.raise.incReg.raise.reserveEval

theorem Kept.retireFreed (h : Kept P base s) : Kept P base s.retireFreed := .foldl h fun h => h.withBuf.retireNow

theorem Kept.setPfWait (h : Kept P base s) {q : Nat} {on : Bool} : Kept P base (s.setPfWait q on) := h.withBuf

theorem Kept.askIngot (h : Kept P base s) {q : Nat} : Kept P base (s.askIngot q) := by
  unfold State.askIngot
  split
  · exact h.setPfWait
  · split
    · exact h.setPfWait
    · exact .ite h.setPfWait (.ite h.setPfWait h.setPfWait.takeCells.setSpill)

theorem Kept.givePre (h : Kept P base s) {n : Nat} : Kept P base (s.givePre n) := .ite h (.foldl h.giveCells fun h => h.askIngot)

theorem Kept.releaseCopy (h : Kept P base s) {c : Copy} : Kept P base (s.releaseCopy c) := .givePre (.ite h h.giveCells)

theorem Kept.giveRuns (h : Kept P base s) {l : List Run} : Kept P base (s.giveRuns l) := .foldl h fun h => h.giveCells

theorem Kept.unspill (h : Kept P base s) {q : Nat} : Kept P base (s.unspill q) := by
  unfold State.unspill
  split
  · exact .ite h.withBuf.setPfWait h
  · exact h

theorem Kept.freeDead (h : Kept P base s) {q : Nat} : Kept P base (s.freeDead q) := by
  unfold State.freeDead
  split
  · exact h
  · exact .ite h h.setSpill.retireFreed

theorem Kept.removeCopy (h : Kept P base s) {c : Copy} : Kept P base (s.removeCopy c) := by
  unfold State.removeCopy
  extract_lets +onlyGivenNames s1 s2
  have hs1 : Kept P base s1 := h.setQueue
  have hs2 : Kept P base s2 := by
    unfold s2
    split
    · exact hs1
    · exact hs1.giveRuns.setSpill.freeDead
  exact hs2.unspill.releaseCopy

theorem Kept.trimCopy (h : Kept P base s) {c : Copy} : Kept P base (s.trimCopy c).2 := by
  unfold State.trimCopy
  extract_lets +onlyGivenNames excess d e s1
  have trimmed : Kept P base s1 := by
    refine .ite h ?_
    split
    · exact h
    · extract_lets +onlyGivenNames cut s2
      have given : Kept P base s2 := by
        unfold s2
        cases List.find? _ _ with
        | none => exact h
        | some r => exact h.giveCells
      exact given.setSpill
  exact .ite trimmed trimmed.giveCells

theorem Kept.setOp (h : Kept P base s) {slot : Nat} {r : OpRec} : Kept P base (s.setOp slot r) := h.withOps

theorem Kept.updOp (h : Kept P base s) {slot : Nat} {f : OpRec → OpRec} : Kept P base (s.updOp slot f) := by
  unfold State.updOp
  split
  · exact h.setOp
  · exact h

theorem Kept.endOp (h : Kept P base s) {slot : Nat} {st : OpState} {result : Status} : Kept P base (s.endOp slot st result) :=
  .ite h.updOp.ibi h.updOp

theorem Kept.opCreate (h : Kept P base s) {slot : Nat} {kind : OpKind} {agent rights session : Nat} {locks : List Nat} {params : List Word} :
    Kept P base (s.opCreate slot kind agent rights session locks params).2 :=
  h.withOps.setOp

theorem Kept.refDown (h : Kept P base s) {f : Frame} : Kept P base (s.refDown f) := by
  unfold State.refDown
  split
  · exact h.withTab
  · exact h

theorem Kept.commitDone (h : Kept P base s) {slot : Nat} : Kept P base (s.commitDone slot) := h.endOp.withTab

theorem Kept.advanceEpoch (h : Kept P base s) {no : Nat} {late : Bool} {rec : AuditRec} : Kept P base (s.advanceEpoch no late rec) := by
  unfold State.advanceEpoch
  extract_lets +onlyGivenNames _ s1 s2 _ _ s3 s4 s5 s6
  have hs2 : Kept P base s2 := Kept.setReg (Kept.setReg h)
  have hs3 : Kept P base s3 := hs2.withTab
  have hs5 : Kept P base s5 := hs3.setReg.setReg.setReg.incReg.raise
  have hs6 : Kept P base s6 := .ite (hs5.orReg (by unfold Clear pgEpoch; omega)) hs5
  exact hs6.audit.journal

theorem Kept.freePending (h : Kept P base s) : Kept P base s.freePending := h.withTab

theorem Kept.nrError (h : Kept P base s) {a : Agent} {r : Response} : Kept P base (s.nrError a r) := .ite h.orReg h.setReg.raise

theorem Kept.sendOn (h : Kept P base s) {route : Route} {r : Response} : Kept P base (s.sendOn route r) := by
  unfold State.sendOn
  split
  · exact .ite h.withHost.ibi h.withHost
  · exact .ite h h.withHost.incReg
  · exact h.withHost
  · exact h

theorem Kept.respond (h : Kept P base s) {a : Agent} {route : Route} {noResponse : Bool} {r : Response} :
    Kept P base (s.respond a route noResponse r) :=
  .ite (.ite h h.nrError) h.sendOn

theorem Kept.setTwicel (h : Kept P base s) {v : Nat} : Kept P base (s.setTwicel v) := .ite h h.setRegFld.raise

theorem Kept.failWaiting (h : Kept P base s) {from_ : Nat} : Kept P base (s.failWaiting from_) := .foldl h.withHost fun h => h.respond

theorem Kept.discardVoqs (h : Kept P base s) {sel : Voq → Bool} {page off : Nat} (hc : Clear P page off := by unfold Clear; omega) :
    Kept P base (s.discardVoqs sel page off) :=
  .foldl h fun h => .foldl h fun h => .ite (h.removeCopy.incReg hc).incReg (h.removeCopy.incReg hc)

theorem Kept.dropContexts (h : Kept P base s) {src : Nat} : Kept P base (s.dropContexts src) := by
  unfold State.dropContexts
  refine .foldl h fun h1 => ?_
  split
  · exact h1
  · extract_lets +onlyGivenNames s1
    have hs1 : Kept P base s1 := .ite h1 h1.incReg.raise
    exact hs1.withVoq

theorem Kept.splitActions (h : Kept P base s) : Kept P base s.splitActions := by
  unfold State.splitActions
  extract_lets +onlyGivenNames s1 s2 s3
  have hs1 : Kept P base s1 := h.discardVoqs
  have hs2 : Kept P base s2 := hs1.freeVoqs.dropContexts
  extract_lets +onlyGivenNames s4
  extract_lets +onlyGivenNames s5
  have hs5 : Kept P base s5 := hs2.same.failWaiting
  exact .ite hs5.setServo hs5

theorem Kept.relaysRestart (h : Kept P base s) : Kept P base s.relaysRestart := h.withPair

theorem Kept.jointDown (h : Kept P base s) : Kept P base s.jointDown := by
  unfold State.jointDown
  split
  · exact h.splitActions.incReg.setTwicel
  · split
    · extract_lets +onlyGivenNames s1 s2
      have hs1 : Kept P base s1 := .ite h.freePending h
      have hs2 : Kept P base s2 := by
        unfold s2
        split
        · exact hs1.endOp
        · exact hs1
      exact hs2.splitActions.setTwicel
    · split
      · exact h.withPair.updOp
      · exact h

theorem Kept.jointFell (h : Kept P base s) : Kept P base s.jointFell := h.jointDown.relaysRestart

theorem Kept.setSync (h : Kept P base s) {v : Nat} : Kept P base (s.setSync v) := .ite h h.setRegFld.raise

theorem Kept.faultEval (h : Kept P base s) : Kept P base s.faultEval := .ite h.setReg h.setReg.orReg.raise

theorem Kept.rdyEval (h : Kept P base s) : Kept P base s.rdyEval := .ite h.updReg h.updReg.updReg.raise

theorem Kept.pinsEval (h : Kept P base s) : Kept P base s.pinsEval := h.faultEval.rdyEval

theorem Kept.syncBegin (h : Kept P base s) {slot : Nat} {r : OpRec} : Kept P base (s.syncBegin slot r) :=
  .ite h.endOp h.incReg.withPair.setReg.journalPut.setOp

theorem Kept.autoSync (h : Kept P base s) : Kept P base s.autoSync := by
  unfold State.autoSync
  split
  · exact h
  · split
    · exact h
    · exact .ite h.opCreate.syncBegin h.opCreate

theorem Kept.pairGroupChanged (h : Kept P base s) {up : Bool} : Kept P base (s.pairGroupChanged up) := by
  unfold State.pairGroupChanged
  extract_lets +onlyGivenNames s1 s2
  have hs2 : Kept P base s2 := .ite h.withPair.setSync h
  extract_lets +onlyGivenNames s3
  have hs3 : Kept P base s3 := .ite hs2.autoSync hs2
  exact hs3.rdyEval

theorem Kept.upChanged (h : Kept P base s) {g : Nat} {up : Bool} : Kept P base (s.upChanged g up) :=
  .ite h.jointFell (.ite h.pairGroupChanged h.withVoq)

theorem Kept.setMemBit (h : Kept P base s) {g m b : Nat} {v : Bool} (hm : m < 16) : Kept P base (s.setMemBit g m b v) :=
  h.updReg (by unfold Clear memReg; omega)

theorem Kept.queueCtl (h : Kept P base s) {k dst len : Nat} {payload : List Byte} : Kept P base (s.queueCtl k dst len payload) := h.withSprue

theorem Kept.dropCells (h : Kept P base s) {g : Nat} : Kept P base (s.dropCells g) := h.withSprue

theorem Kept.oweMarker (h : Kept P base s) {g : Nat} {outOfTurn : Bool} : Kept P base (s.oweMarker g outOfTurn) := h.withSprue

theorem Kept.sendControl (h : Kept P base s) {gs : List Nat} {dst len : Nat} {payload : List Byte} {t : State}
    (e : s.sendControl gs dst len payload = some t) : Kept P base t := by
  unfold State.sendControl at e
  split at e
  · cases e
  · cases e
    exact h.queueCtl

theorem Kept.dropMembers (h : Kept P base s) {g : Nat} : Kept P base (s.dropMembers g) := by
  refine .foldl_mem h fun m hm h => ?_
  have hm := List.mem_range.mp hm
  exact .setMemBit (.ite (h.updReg.incReg (by unfold Clear memReg; omega)) h) hm

theorem Kept.groupEval (h : Kept P base s) {g : Nat} {before : Word × Word} : Kept P base (s.groupEval g before) := by
  unfold State.groupEval
  extract_lets +onlyGivenNames pg s1 s2 rx tx up was s3 s4
  have hs1 : Kept P base s1 := h.dropMembers
  have hs2 : Kept P base s2 := hs1.setRegFld
  have hs3 : Kept P base s3 := hs2.updReg
  have hs4 : Kept P base s4 := hs3.raise
  extract_lets +onlyGivenNames s5
  have hs5 : Kept P base s5 := .ite hs3 (.ite hs4.oweMarker hs4)
  exact .ite hs5 (.upChanged (.ite hs5.raise hs5.raise.orReg))

theorem Kept.sprueEval (h : Kept P base s) {g : Nat} : Kept P base (s.sprueEval g) := h.groupEval

theorem Kept.rxClear (h : Kept P base s) {g : Nat} : Kept P base (s.rxClear g) := h.withSprue

theorem Kept.groupStop (h : Kept P base s) {g : Nat} : Kept P base (s.groupStop g) := by
  have cleared : Kept P base ((List.range 16).foldl (fun s m => s.setReg (sprPage g) (memReg m 0) 0) (s.rxClear g)) := by
    refine .foldl_mem h.rxClear fun m hm h => ?_
    have hm := List.mem_range.mp hm
    exact h.setReg (by unfold Clear memReg; omega)
  exact cleared.setRegFld.setRegFld.groupEval

theorem Kept.sprueEnabling (h : Kept P base s) {g : Nat} : Kept P base (s.sprueEnabling g) := .ite h.updReg h.updReg.raise

theorem Kept.binMark (h : Kept P base s) {g e1 : Nat} : Kept P base (s.binMark g e1) := h.setWinA

theorem Kept.toHunt (h : Kept P base s) {g m : Nat} {lossOfSync : Bool} (hm : m < 16) : Kept P base (s.toHunt g m lossOfSync) := by
  have counted : Kept P base (if lossOfSync then s.incReg (sprPage g) (memReg m 0x10) else s) :=
    .ite (h.incReg (by unfold Clear memReg; omega)) h
  exact Kept.sprueEval (Kept.binMark (Kept.withSprue (counted.updReg (by unfold Clear memReg; omega))))

theorem Kept.binSuspect (h : Kept P base s) {g : Nat} : Kept P base (s.binSuspect g) := h.withSprue

theorem Kept.sendRelayCell (h : Kept P base s) {flags seq : Nat} {addr mask : Word} {data : List Word} :
    Kept P base (s.sendRelayCell flags seq addr mask data) := by
  unfold State.sendRelayCell
  cases e : s.sendControl s.jointGroups s.otherDev (20 + 4 * data.length) (relayBytes flags seq data.length addr mask data) with
  | none => exact h
  | some t => exact h.sendControl e

theorem Kept.sendRelay (h : Kept P base s) {r : Relay} : Kept P base (s.sendRelay r) := h.sendRelayCell

theorem Kept.pumpRelays (h : Kept P base s) : Kept P base s.pumpRelays := .foldl h.withPair fun h => h.sendRelay.incReg

theorem Kept.putRelay (h : Kept P base s) {r : Relay} : Kept P base (s.putRelay r) := h.withPair.pumpRelays

theorem Kept.relayWords (h : Kept P base s) {agent : Nat} {mirror read fixed : Bool} {addr : Nat} {mask : Option Word} {data : List Word} :
    Kept P base (s.relayWords agent mirror read fixed addr mask data) :=
  .foldl_fst h fun h => h.putRelay

theorem Kept.relayTold (h : Kept P base s) {agent addr : Nat} {l : List Word} : Kept P base (s.relayTold agent addr l) := h.relayWords

theorem Kept.relayAbort (h : Kept P base s) {r : OpRec} : Kept P base (s.relayAbort r) := .ite h.relayTold h

theorem Kept.freeBoth (h : Kept P base s) {r : OpRec} : Kept P base (s.freeBoth r) := .freePending (.ite h.relayTold h)

theorem Kept.dropCommit (h : Kept P base s) : Kept P base s.dropCommit := h.withTab

theorem Kept.failCommit (h : Kept P base s) {slot : Nat} {r : OpRec} {res : Status} : Kept P base (s.failCommit slot r res) :=
  h.setOp.relayAbort.endOp.dropCommit

theorem Kept.switchEpoch (h : Kept P base s) {slot : Nat} {r : OpRec} {late : Bool} : Kept P base (s.switchEpoch slot r late) := by
  unfold State.switchEpoch
  extract_lets +onlyGivenNames st pe n s1 s2 s3
  have hs2 : Kept P base s2 := h.withTab
  have hs3 : Kept P base s3 := hs2.advanceEpoch
  exact .ite hs3.setOp.commitDone hs3.setOp

theorem Kept.pairedSwitch (h : Kept P base s) {slot : Nat} {r : OpRec} : Kept P base (s.pairedSwitch slot r) := by
  unfold State.pairedSwitch
  split
  · exact h
  · exact .ite (.ite h.switchEpoch h) (.ite (h.failCommit.orReg (by unfold Clear pgEpoch; omega)) h)

theorem Kept.armedSwitch (h : Kept P base s) {slot : Nat} {r : OpRec} : Kept P base (s.armedSwitch slot r) :=
  .ite h.pairedSwitch (.ite h h.switchEpoch)

theorem Kept.dueSwitch (h : Kept P base s) : Kept P base s.dueSwitch := by
  unfold State.dueSwitch
  split
  · exact .ite h.armedSwitch h
  · exact h

theorem Kept.epochLeft (h : Kept P base s) : Kept P base s.epochLeft := by
  unfold State.epochLeft
  extract_lets +onlyGivenNames l s1
  have hs1 : Kept P base s1 := .ite h.dropCommit h
  exact .foldl hs1 fun h => .ite h.failCommit h.setOp.endOp

theorem Kept.setSession (h : Kept P base s) {a : Agent} {n rights : Nat} : Kept P base (s.setSession a n rights) := by
  unfold State.setSession
  split
  · exact h.setReg
  · exact h.setReg
  · exact h.withHost
  · exact h

theorem Kept.endSession (h : Kept P base s) {a : Agent} {cause : Nat} : Kept P base (s.endSession a cause) := .ite h h.setSession.audit

theorem Kept.resetSession (h : Kept P base s) {a : Agent} : Kept P base (s.resetSession a) := h.endSession

theorem Kept.auditSlot (h : Kept P base s) {agent target slot : Nat} : Kept P base (s.auditSlot agent target slot) := h.audit

theorem Kept.cancelWork (h : Kept P base s) {r : OpRec} : Kept P base (s.cancelWork r) := by
  unfold State.cancelWork
  split
  · exact h.relayAbort.freeBoth.dropCommit
  · exact h.setTesting
  · exact .ite h.clrReg.auditSlot h
  · exact h

theorem Kept.opCancel (h : Kept P base s) {slot : Nat} {r : OpRec} {broken : Bool} : Kept P base (s.opCancel slot r broken).2 := by
  unfold State.opCancel
  extract_lets +onlyGivenNames s1 r1 res end_
  have hs1 : Kept P base s1 := .ite h.dueSwitch h
  have hend_ : ∀ {x0}, Kept P base x0 → Kept P base (end_ x0) := by
    intro x0 h
    unfold end_
    exact h.updOp.endOp
  split
  · exact (hend_ (.ite hs1.setOp.freeBoth hs1))
  · exact .ite_snd (hend_ hs1.setOp.cancelWork) hs1
  · exact .ite_snd (hend_ hs1.setOp.cancelWork) hs1
  · exact hs1

theorem Kept.breakOps (h : Kept P base s) {k id : Nat} : Kept P base (s.breakOps k id) := by
  unfold State.breakOps
  refine .foldl h fun h1 => ?_
  split
  · exact h1
  · split
    · split
      next s1 e2 =>
        have hs1 : Kept P base s1 := .of_snd e2 h1.opCancel
        exact hs1
      next s1 _ e3 =>
        have hs1 : Kept P base s1 := .of_snd e3 h1.opCancel
        exact hs1.updOp
    · exact h1

theorem Kept.breakLock (h : Kept P base s) {id k : Nat} (hk : k < 64) : Kept P base (s.breakLock id k) :=
  (h.breakOps.updReg (by unfold Clear; omega)).orReg (by unfold Clear pgLocks; omega)

theorem Kept.breakLocks (h : Kept P base s) {id : Nat} : Kept P base (s.breakLocks id) := by
  have broken : Kept P base ((s.locksOf id).foldl (fun s k => s.breakLock id k) s) :=
    .foldl_mem h fun k hk h => h.breakLock (List.mem_range.mp (List.mem_filter.mp hk).1)
  exact .ite broken broken.raise

theorem Kept.ownerReset (h : Kept P base s) {a : Agent} : Kept P base (s.ownerReset a) := h.breakLocks.resetSession

theorem Kept.closeAfter (h : Kept P base s) {q : Nat} : Kept P base (s.closeAfter q) := .ite h.closeIfEmpty.closeIfEmpty h.closeIfEmpty

theorem Kept.dropHeld (h : Kept P base s) {c : Copy} : Kept P base (s.dropHeld c) := by
  unfold State.dropHeld
  extract_lets +onlyGivenNames s1 s2
  have hs1 : Kept P base s1 := h.removeCopy.closeAfter
  have hs2 : Kept P base s2 := .ite hs1.freeVoqs hs1
  exact .ite hs2.incReg hs2

theorem Kept.chargePath (h : Kept P base s) {p q : Nat} {len : Int} : Kept P base (s.chargePath p q len) :=
  .ite h.chargeNode.chargeNode.chargeNode h.chargeNode

theorem Kept.mapFrames (h : Kept P base s) {id : Nat} {f : Frame → Frame} : Kept P base (s.mapFrames id f) := h.same

theorem Kept.txAbort (h : Kept P base s) {p : Nat} : Kept P base (s.txAbort p) := by
  unfold State.txAbort
  split
  · exact h
  · extract_lets +onlyGivenNames wire s1 s2
    extract_lets +onlyGivenNames s3 s4
    have hs3 : Kept P base s3 := h.same.releaseCopy
    have hs4 : Kept P base s4 := .ite hs3.incReg hs3
    exact .macCount (.ite hs4.incReg hs4)

theorem Kept.frameEnd (h : Kept P base s) {p id : Nat} {rest : List Byte} {bad : Bool} : Kept P base (s.frameEnd p id rest bad) := by
  unfold State.frameEnd
  extract_lets +onlyGivenNames s1 s2 mine
  have hs2 : Kept P base s2 := h.withPort
  have hmine : Kept P base mine := hs2.mapFrames
  extract_lets +onlyGivenNames mine1
  split
  · extract_lets +onlyGivenNames s3 ct fifo
    have hs3 : Kept P base s3 := .foldl hmine fun h => h.dropHeld
    exact hs3.withBuf.addReg.incReg
  · extract_lets +onlyGivenNames s3 s4 s5
    have hs3 : Kept P base s3 := by
      unfold s3
      refine .foldl hmine fun h1 => ?_
      split
      rename_i s6 e1
      have hs6 : Kept P base s6 := .of_snd e1 h1.trimCopy
      exact hs6.setQueue
    have hs4 : Kept P base s4 := by
      unfold s4
      refine .foldl hs3 fun h1 => ?_
      refine .foldl h1 fun h2 => ?_
      split
      · exact h2
      · split
        rename_i s6 e2
        have hs6 : Kept P base s6 := .of_snd e2 h2.trimCopy
        exact hs6.withBuf
    have hs5 : Kept P base s5 := hs4.noteCells
    exact .foldl hs5 fun h => .foldl h fun h => .ite h.chargePath h

theorem Kept.portFell (h : Kept P base s) {p : Nat} : Kept P base (s.portFell p) := by
  unfold State.portFell
  extract_lets +onlyGivenNames s1 s2 s3
  have hs1 : Kept P base s1 := h.txAbort
  have hs2 : Kept P base s2 := by
    unfold s2
    split
    · exact hs1.frameEnd
    · exact hs1
  exact .ite hs2.withPort.withSched hs2.withPort

theorem Kept.portRose (h : Kept P base s) {p : Nat} : Kept P base (s.portRose p) := h.withSched

theorem Kept.clientsFollow (h : Kept P base s) {old : State} : Kept P base (State.clientsFollow old s) :=
  .foldl h fun h => .ite h.portFell (.ite h.portRose h)

theorem Kept.setLine (h : Kept P base s) {p : Nat} {up : Bool} : Kept P base (s.setLine p up) :=
  .ite h (.clientsFollow (.flexEval (.ite h.updReg.raise.portRose h.updReg.raise.portFell)))

theorem Kept.setMgmtUp (h : Kept P base s) {up : Bool} : Kept P base (s.setMgmtUp up) := by
  unfold State.setMgmtUp
  split
  · exact h
  · extract_lets +onlyGivenNames s1
    have hs1 : Kept P base s1 := h.updReg.updReg
    exact .ite hs1.portRose hs1.portFell.squelch

theorem Kept.pipesEval (h : Kept P base s) : Kept P base s.pipesEval := by
  unfold State.pipesEval
  refine .foldl h fun h1 => ?_
  exact .ite h1.setReg h1.setReg.raise

theorem Kept.disposed (h : Kept P base s) {f : Frame} : Kept P base (s.disposed f) := h.refDown

theorem Kept.reorderIn (h : Kept P base s) {q : Nat} {r : Result} (hP : P ≤ pgReorder) : Kept P base (s.reorderIn q r) :=
  .ite (Kept.disposed (h.incReg (by unfold Clear; unfold pgReorder at *; omega))) h.withPipe

theorem Kept.holeFor (h : Kept P base s) {x : InPipe} (hP : P ≤ pgReorder) : Kept P base (s.holeFor x) := h.incReg.reorderIn hP

theorem Kept.showHeld (h : Kept P base s) {b k : Nat} {stage : Option Nat} : Kept P base (s.showHeld b k stage) := by
  unfold State.showHeld
  exact h.setWin.updReg.updReg

theorem Kept.mapInside (h : Kept P base s) {f : InPipe → InPipe} : Kept P base (s.mapInside f) := h.withPipe

theorem Kept.showStage (h : Kept P base s) {x : InPipe} {stage : Option Nat} : Kept P base (s.showStage x stage) := by
  unfold State.showStage
  split
  · exact h.showHeld
  · exact h

theorem Kept.letGo (h : Kept P base s) {x : InPipe} : Kept P base (s.letGo x) := h.showStage.mapInside

theorem Kept.pbpRelease (h : Kept P base s) {k : Nat} : Kept P base (s.pbpRelease k) := by
  unfold State.pbpRelease
  split
  · exact h
  · exact h.letGo.pipesEval

theorem Kept.showHalts (h : Kept P base s) : Kept P base s.showHalts := h.setRegFld.setReg

theorem Kept.setHalted (h : Kept P base s) {l : List (Nat × HaltCause)} : Kept P base (s.setHalted l) := h.withCp.showHalts

theorem Kept.debugDetach (h : Kept P base s) : Kept P base s.debugDetach :=
  .ite h (.foldl h.clrReg.raise.ownerReset.withCp.setHalted fun h => h.pbpRelease)

theorem Kept.setSlotW (h : Kept P base s) {k i : Nat} {v : Word} : Kept P base (s.setSlotW k i v) := h.setWinA

theorem Kept.acquire (h : Kept P base s) : Kept P base s.acquire := h.withTime.setServo

theorem Kept.timeRoleEval (h : Kept P base s) : Kept P base s.timeRoleEval := .ite h (.ite h.updReg.acquire h.updReg.withTime.setServo)

theorem Kept.dropQueues (h : Kept P base s) {sel : Nat → Bool} : Kept P base (s.dropQueues sel) := .foldl h fun h => h.dropHeld

theorem Kept.setSlotState (h : Kept P base s) {k v : Nat} : Kept P base (s.setSlotState k v) := h.setSlotW

theorem Kept.cancelSlot (h : Kept P base s) {k : Nat} : Kept P base (s.cancelSlot k) := h.withLaunch.setSlotState.incReg

theorem Kept.dropInside (h : Kept P base s) {sel : InPipe → Bool} (hP : P ≤ pgReorder) : Kept P base (s.dropInside sel) :=
  .foldl (Kept.withPipe (.foldl h fun h => h.letGo)) fun h => h.holeFor hP

theorem Kept.stopApp (h : Kept P base s) : Kept P base s.stopApp := h.clrReg

theorem Kept.breakJournal (h : Kept P base s) : Kept P base s.breakJournal := h.orReg.withPair

theorem Kept.dropWork {p : Nat} (h : Kept p base s) : Kept p base (s.dropWork p) := by
  unfold State.dropWork
  split
  · exact .foldl h fun h => h.txAbort
  · exact .foldl h fun h => h.txAbort
  · exact .foldl h fun h => h.txAbort
  · exact h.dropCells
  next e => exact h.dropInside (pageKind_pipeline e (by decide))
  next e => exact h.dropInside (pageKind_pipeline e (by decide))
  next e => exact h.dropInside (pageKind_pipeline e (by decide))
  · exact .foldl h.withPipe fun h => h.disposed
  · exact h.twDiscard
  · exact h.withTab
  · exact h.freePending
  · exact h.withBuf
  · exact h.dropQueues
  · exact .foldl (Kept.giveCells h.withBuf) fun h => h.freeDead
  · exact h.withBuf
  · exact h.dropQueues
  · exact h.dropQueues.freeVoqs
  · exact .foldl h fun h => .ite h.gateDrop h
  · exact h.withTime
  · exact .foldl h fun h => h.cancelSlot
  · exact h.withVoq
  · exact .ite h h.breakJournal
  · exact h.setStop
  · exact h.withStat
  · exact h.withHost
  · exact h.clrReg.withNvm
  · exact h.stopApp
  · exact .foldl h fun h => h.pbpRelease
  · exact h

theorem Kept.linesDown (h : Kept P base s) : Kept P base s.linesDown := by
  unfold State.linesDown
  extract_lets +onlyGivenNames s1 s2 s3
  have hs1 : Kept P base s1 := .foldl h fun h => .ite (.foldl h fun h => h.setLine) h
  have hs2 : Kept P base s2 := .foldl hs1 fun h => .ite h h.laneFall
  have hs3 : Kept P base s3 := by
    refine .foldl hs2 fun h => .foldl_mem h fun m hm h => ?_
    have hm := List.mem_range.mp (List.mem_filter.mp hm).1
    split
    · exact .ite h (h.toHunt hm)
    · exact h
  exact .ite hs3.setMgmtUp hs3

theorem Kept.settle (h : Kept P base s) {old : State} : Kept P base (s.settle old) := by
  unfold State.settle
  extract_lets +onlyGivenNames s1 s2
  have hs1 : Kept P base s1 := h.linesDown.pipesEval.flexEval.clientsFollow
  have hs2 : Kept P base s2 := .foldl hs1 fun h => .ite h.groupStop h.sprueEval
  exact hs2.timeRoleEval.reserveEval.pinsEval

theorem Kept.leaveEnabled (h : Kept P base s) {p : Nat} : Kept P base (s.leaveEnabled p) := by
  unfold State.leaveEnabled
  split
  · exact h.epochLeft
  · exact h.binSuspect
  · exact h.stopApp
  · exact .ite h.setSync h
  · exact .foldl h fun h => h.pbpRelease
  · exact h

theorem Kept.parityReport (h : Kept P base s) {k : Nat} : Kept P base (s.parityReport k) := by
  unfold State.parityReport
  refine .ite h (Kept.incReg ?_)
  have head (o : Nat) (ho : Head o) : regKey P o ≠ regKey pgGlobal 0x2020 := by
    unfold Head at ho
    unfold regKey pgGlobal
    omega
  refine { h.withReported (x := Store.addKey k s.reported) with regs := ?_, head := fun o ho => ?_, scrubs := ?_ }
  · rw [State.updReg_eq, State.setReg_regs]
    exact Store.wf_put regReset _ _ _ h.regs
  · rw [State.updReg_eq, State.reg_setReg_other _ _ h.withReported.regs (head o ho)]
    exact h.head o ho
  · rw [State.updReg_eq, State.regFld, State.reg_setReg_self _ _ _ _ h.withReported.regs]
    rw [fld_setFld_other _ _ _ _ _ _ (by omega) (by omega), fld_putBit_other _ _ _ _ _ (by omega)]
    exact h.scrubs

theorem Kept.clearTable (h : Kept P base s) {t1 : Nat} : Kept P base (s.clearTable t1) := by
  unfold State.clearTable
  extract_lets +onlyGivenNames s1
  extract_lets +onlyGivenNames s2
  have hs2 : Kept P base s2 := h.withTab
  exact .ite hs2.setMac (.ite hs2.setBase.withTab hs2.setBase)

theorem Kept.tablesEnabling (h : Kept P base s) : Kept P base s.tablesEnabling := by
  unfold State.tablesEnabling
  split
  · exact h.setReg.raise
  · exact .foldl h.setReg fun h => .ite h h.clearTable.withTab

theorem Kept.parseEnabling (h : Kept P base s) : Kept P base s.parseEnabling := .ite h.setReg h.setReg.raise

theorem Kept.renumber (h : Kept P base s) {old : State} : Kept P base (s.renumber old) := by
  unfold State.renumber
  split
  · exact h
  · extract_lets +onlyGivenNames due s1
    extract_lets +onlyGivenNames s2
    have hs2 : Kept P base s2 := .foldl h.withBuf fun h => .ite h.dropQueues h.setSpill
    exact hs2.withBuf.retireFreed

theorem Kept.avsPoint (h : Kept P base s) {v : Nat} : Kept P base (s.avsPoint v) := h.withPow.setRegFld

theorem Kept.globalEnabling (h : Kept P base s) : Kept P base s.globalEnabling := by
  unfold State.globalEnabling
  extract_lets +onlyGivenNames old t f s1 s2 s3 s4
  have hold : Kept P base old := h
  have hs1 : Kept P base s1 := h.updReg
  have hs2 : Kept P base s2 := hs1.avsPoint
  have hs3 : Kept P base s3 := .foldl hs2 fun h => .ite h.orReg h.clrReg
  have hs4 : Kept P base s4 := hs3.renumber
  exact .ite hs4 hs4.setTwicel

theorem Kept.seqRestart (h : Kept P base s) {l : List Nat} : Kept P base (s.seqRestart l) := h.same

theorem Kept.tmEnabling (h : Kept P base s) : Kept P base s.tmEnabling := h.withSched

theorem Kept.enablingChecks (h : Kept P base s) {p : Nat} : Kept P base (s.enablingChecks p) := by
  unfold State.enablingChecks
  split
  · exact h.globalEnabling
  · exact h.bankEnabling.seqRestart
  · exact h.flexEnabling.seqRestart
  · exact h.seqRestart
  · exact h.sprueEnabling
  · exact h.parseEnabling
  · exact h.tablesEnabling
  · exact .ite h.orReg.raise h
  · exact .ite h.withVoq.orReg.raise h.withVoq
  · exact h.tmEnabling
  · exact .ite h.orReg h
  · exact h

theorem Kept.journalEnd (h : Kept P base s) : Kept P base s.journalEnd := by
  unfold State.journalEnd
  extract_lets +onlyGivenNames s1
  extract_lets +onlyGivenNames s2
  have hs2 : Kept P base s2 := h.withPair
  split
  · exact hs2.endOp
  · exact hs2

theorem Kept.setRole (h : Kept P base s) {r : Nat} : Kept P base (s.setRole r) := .ite h h.setRegFld.raise.timeRoleEval.pinsEval

theorem Kept.pairEnabled (h : Kept P base s) : Kept P base s.pairEnabled := by
  unfold State.pairEnabled
  extract_lets +onlyGivenNames r s1 s2
  have hs1 : Kept P base s1 := h.journalEnd
  extract_lets +onlyGivenNames s3 s4
  have hs3 : Kept P base s3 := .ite h hs1.withPair.clrReg
  have hs4 : Kept P base s4 := hs3.setRole
  exact .ite hs4.setTwicel.relaysRestart hs4

theorem Kept.cpctlEnabled (h : Kept P base s) : Kept P base s.cpctlEnabled := by
  unfold State.cpctlEnabled
  split
  · exact h.setReg
  · exact h.orReg

theorem Kept.enabledHook (h : Kept P base s) {p : Nat} : Kept P base (s.enabledHook p) := by
  unfold State.enabledHook
  split
  · exact h.timeEnabled
  · exact h.pairEnabled
  · exact h.cpctlEnabled
  · exact h.binSuspect
  · exact h

end

end Sys2Proof.Machine

namespace Sys2Proof.Machine

/-! ## What an operation leaves of the owners' words

`Owned base s`: of the state `base`, the state `s` still has the lock words, the sessions and what else the owner resets name. -/

/-- The word at offset `o` of page `p` is none that the owners' state is held in. -/
abbrev Unowned (p o : Nat) : Prop :=
  (p * 0x10000 + o < pgLocks * 0x10000 + 0x1000 ∨ pgLocks * 0x10000 + 0x1100 ≤ p * 0x10000 + o)
    ∧ p * 0x10000 + o ≠ pgRoles * 0x10000 + 0x200C ∧ p * 0x10000 + o ≠ pgRoles * 0x10000 + 0x2010
    ∧ p * 0x10000 + o ≠ pgHostif * 0x10000 + 0x2000 ∧ p * 0x10000 + o ≠ pgDebug * 0x10000 + 0x2000

structure Owned (base s : State) : Prop where
  regs : Store.wf regReset s.regs = true
  locks : ∀ k < 64, s.lockW k = base.lockW k
  i3c : s.reg pgRoles 0x200C = base.reg pgRoles 0x200C
  mgmt : s.reg pgRoles 0x2010 = base.reg pgRoles 0x2010
  hostif : s.reg pgHostif 0x2000 = base.reg pgHostif 0x2000
  attached : s.attached = base.attached
  dbgSession : s.host.dbgSession = base.host.dbgSession
  hdr : s.host.hdr = base.host.hdr
  triggers : s.cp.triggers = base.cp.triggers
  halted : s.cp.halted = base.cp.halted
  phase : s.pow.phase = base.pow.phase

namespace Owned

section
variable {base : State} {c : Prop} [Decidable c] {α β γ : Type}

theorem refl {s : State} (h : Store.wf regReset s.regs = true) : Owned s s := ⟨h, fun _ _ => rfl, rfl, rfl, rfl, rfl, rfl, rfl, rfl, rfl, rfl⟩

theorem ite {s t : State} (hs : Owned base s) (ht : Owned base t) : Owned base (if c then s else t) := by
  split
  · exact hs
  · exact ht

theorem ite_snd {x y : α × State} (hx : Owned base x.2) (hy : Owned base y.2) : Owned base (if c then x else y).2 := by
  split
  · exact hx
  · exact hy

theorem pair {a : α} {t : State} (h : Owned base t) : Owned base (a, t).2 := h

theorem of_snd {x : α × State} {a : α} {t : State} (e : x = (a, t)) (h : Owned base x.2) : Owned base t := by
  subst e
  exact h

theorem foldl {s : State} {f : State → α → State} {l : List α} (h : Owned base s) (hf : ∀ {t} {x : α}, Owned base t → Owned base (f t x)) :
    Owned base (l.foldl f s) := by
  induction l generalizing s with
  | nil => exact h
  | cons x l ih => exact ih (hf h)

theorem foldl_fst {b : State × β} {f : State × β → α → State × β} {l : List α} (h : Owned base b.1)
    (hf : ∀ {t} {x : α}, Owned base t.1 → Owned base (f t x).1) : Owned base (l.foldl f b).1 := by
  induction l generalizing b with
  | nil => exact h
  | cons x l ih => exact ih (hf h)

end

section
variable {base s : State} (h : Owned base s)
include h

/-- An update that leaves what the relation names. -/
theorem same {t : State} (hregs : t.regs = s.regs := by rfl) (hsession : t.host.dbgSession = s.host.dbgSession := by rfl)
    (hhdr : t.host.hdr = s.host.hdr := by rfl) (htriggers : t.cp.triggers = s.cp.triggers := by rfl)
    (hhalted : t.cp.halted = s.cp.halted := by rfl) (hphase : t.pow.phase = s.pow.phase := by rfl) : Owned base t where
  regs := hregs ▸ h.regs
  locks k hk := by
    rw [← h.locks k hk]
    simp only [State.lockW, State.reg, hregs]
  i3c := by rw [← h.i3c, State.reg, State.reg, hregs]
  mgmt := by rw [← h.mgmt, State.reg, State.reg, hregs]
  hostif := by rw [← h.hostif, State.reg, State.reg, hregs]
  attached := by
    rw [← h.attached]
    simp only [State.attached, State.reg, hregs]
  dbgSession := hsession.trans h.dbgSession
  hdr := hhdr.trans h.hdr
  triggers := htriggers.trans h.triggers
  halted := hhalted.trans h.halted
  phase := hphase.trans h.phase

/-- A register that holds nothing of an owner takes any value. -/
theorem setReg {p o : Nat} {v : Word} (hu : Unowned p o := by decide) : Owned base (s.setReg p o v) where
  regs := by
    rw [State.setReg_regs]
    exact Store.wf_put regReset _ _ _ h.regs
  locks k hk := by
    rw [← h.locks k hk]
    exact State.reg_setReg_other s v h.regs (by unfold regKey; omega)
  i3c := by rw [State.reg_setReg_other s v h.regs (by unfold regKey; omega), h.i3c]
  mgmt := by rw [State.reg_setReg_other s v h.regs (by unfold regKey; omega), h.mgmt]
  hostif := by rw [State.reg_setReg_other s v h.regs (by unfold regKey; omega), h.hostif]
  attached := by rw [State.attached, State.reg_setReg_other s v h.regs (by unfold regKey; omega), ← h.attached]
  dbgSession := by rw [State.setReg_host, h.dbgSession]
  hdr := by rw [State.setReg_host, h.hdr]
  triggers := by rw [State.setReg_cp, h.triggers]
  halted := by rw [State.setReg_cp, h.halted]
  phase := by rw [State.setReg_pow, h.phase]

/-- The status word of DEBUG holds the attachment in bit 0 alone. -/
theorem setDebugStatus {v : Word} (hv : bit v 0 = s.attached) : Owned base (s.setReg pgDebug 0x2000 v) where
  regs := by
    rw [State.setReg_regs]
    exact Store.wf_put regReset _ _ _ h.regs
  locks k hk := by
    rw [← h.locks k hk]
    exact State.reg_setReg_other s v h.regs (by unfold regKey pgLocks pgDebug; omega)
  i3c := by rw [State.reg_setReg_other s v h.regs (by decide), h.i3c]
  mgmt := by rw [State.reg_setReg_other s v h.regs (by decide), h.mgmt]
  hostif := by rw [State.reg_setReg_other s v h.regs (by decide), h.hostif]
  attached := by rw [State.attached, State.reg_setReg_self s _ _ v h.regs, hv, h.attached]
  dbgSession := by rw [State.setReg_host, h.dbgSession]
  hdr := by rw [State.setReg_host, h.hdr]
  triggers := by rw [State.setReg_cp, h.triggers]
  halted := by rw [State.setReg_cp, h.halted]
  phase := by rw [State.setReg_pow, h.phase]

theorem updReg {p o : Nat} {f : Word → Word} (hu : Unowned p o := by decide) : Owned base (s.updReg p o f) := h.setReg hu

theorem setRegFld {p o hi lo v : Nat} (hu : Unowned p o := by decide) : Owned base (s.setRegFld p o hi lo v) := h.setReg hu

theorem orReg {p o : Nat} {m : Word} (hu : Unowned p o := by decide) : Owned base (s.orReg p o m) := h.setReg hu

theorem clrReg {p o : Nat} {m : Word} (hu : Unowned p o := by decide) : Owned base (s.clrReg p o m) := h.setReg hu

theorem addReg {p o n : Nat} (hu : Unowned p o := by decide) : Owned base (s.addReg p o n) := h.setReg hu

theorem incReg {p o : Nat} (hu : Unowned p o := by decide) : Owned base (s.incReg p o) := h.setReg hu

theorem raise {p b : Nat} : Owned base (s.raise p b) := h.orReg (by omega)

theorem withWin {x : List (Nat × Word)} : Owned base { s with win := x } := h.same
theorem withPipe {x : PipeSt} : Owned base { s with pipe := x } := h.same
theorem withOps {x : OpSt} : Owned base { s with ops := x } := h.same
theorem withTab {x : TabSt} : Owned base { s with tab := x } := h.same
theorem withNvm {x : NvmSt} : Owned base { s with nvm := x } := h.same
theorem withPair {x : PairSt} : Owned base { s with pair := x } := h.same
theorem withBuf {x : BufSt} : Owned base { s with buf := x } := h.same
theorem withVoq {x : VoqSt} : Owned base { s with voq := x } := h.same
theorem withPort {x : PortSt} : Owned base { s with port := x } := h.same
theorem withSprue {x : SprueSt} : Owned base { s with sprue := x } := h.same
theorem withTime {x : TimeSt} : Owned base { s with time := x } := h.same
theorem withHost {x : HostSt} (hn : x.dbgSession = s.host.dbgSession := by rfl) (hh : x.hdr = s.host.hdr := by rfl) : Owned base { s with host := x } :=
  h.same (hsession := hn) (hhdr := hh)

end
end Owned

/-! ### What an owner reset runs keeps the owners' words -/

section
set_option Elab.async false
variable {base s : State}

theorem Owned.setWin (h : Owned base s) {p u i : Nat} {v : Word} : Owned base (s.setWin p u i v) := h.withWin

theorem Owned.audit (h : Owned base s) {r : AuditRec} : Owned base (s.audit r) := .ite h.withNvm h.withNvm

theorem Owned.ibi (h : Owned base s) {code detail : Nat} : Owned base (s.ibi code detail) := h.withHost

theorem Owned.journalPut (h : Owned base s) {kind items : Nat} {body : List Word} : Owned base (s.journalPut kind items body) :=
  .ite h (.ite h.withPair.orReg h.withPair)

theorem Owned.journal (h : Owned base s) {kind items : Nat} {body : List Word} : Owned base (s.journal kind items body) := .ite h.journalPut h

theorem Owned.reserveEval (h : Owned base s) : Owned base s.reserveEval := .ite h (.ite h.updReg.raise h.updReg)

theorem Owned.setTesting (h : Owned base s) {l : List Nat} : Owned base (s.setTesting l) := h.withBuf.reserveEval

theorem Owned.setOp (h : Owned base s) {slot : Nat} {r : OpRec} : Owned base (s.setOp slot r) := h.withOps

theorem Owned.updOp (h : Owned base s) {slot : Nat} {f : OpRec → OpRec} : Owned base (s.updOp slot f) := by
  unfold State.updOp
  split
  · exact h.setOp
  · exact h

theorem Owned.endOp (h : Owned base s) {slot : Nat} {st : OpState} {result : Status} : Owned base (s.endOp slot st result) := .ite h.updOp.ibi h.updOp

theorem Owned.commitDone (h : Owned base s) {slot : Nat} : Owned base (s.commitDone slot) := h.endOp.withTab

theorem Owned.advanceEpoch (h : Owned base s) {no : Nat} {late : Bool} {rec : AuditRec} : Owned base (s.advanceEpoch no late rec) := by
  unfold State.advanceEpoch
  extract_lets +onlyGivenNames _ s1 s2 _ _ s3 s4 s5 s6
  have hs2 : Owned base s2 := Owned.setReg (Owned.setReg h)
  have hs3 : Owned base s3 := hs2.withTab
  have hs5 : Owned base s5 := hs3.setReg.setReg.setReg.incReg.raise
  have hs6 : Owned base s6 := .ite (hs5.orReg) hs5
  exact hs6.audit.journal

theorem Owned.freePending (h : Owned base s) : Owned base s.freePending := h.withTab

theorem Owned.queueCtl (h : Owned base s) {k dst len : Nat} {payload : List Byte} : Owned base (s.queueCtl k dst len payload) := h.withSprue

theorem Owned.sendControl (h : Owned base s) {gs : List Nat} {dst len : Nat} {payload : List Byte} {t : State}
    (e : s.sendControl gs dst len payload = some t) : Owned base t := by
  unfold State.sendControl at e
  split at e
  · cases e
  · cases e
    exact h.queueCtl

theorem Owned.sendRelayCell (h : Owned base s) {flags seq : Nat} {addr mask : Word} {data : List Word} :
    Owned base (s.sendRelayCell flags seq addr mask data) := by
  unfold State.sendRelayCell
  cases e : s.sendControl s.jointGroups s.otherDev (20 + 4 * data.length) (relayBytes flags seq data.length addr mask data) with
  | none => exact h
  | some t => exact h.sendControl e

theorem Owned.sendRelay (h : Owned base s) {r : Relay} : Owned base (s.sendRelay r) := h.sendRelayCell

theorem Owned.pumpRelays (h : Owned base s) : Owned base s.pumpRelays := .foldl h.withPair fun h => h.sendRelay.incReg

theorem Owned.putRelay (h : Owned base s) {r : Relay} : Owned base (s.putRelay r) := h.withPair.pumpRelays

theorem Owned.relayWords (h : Owned base s) {agent : Nat} {mirror read fixed : Bool} {addr : Nat} {mask : Option Word} {data : List Word} :
    Owned base (s.relayWords agent mirror read fixed addr mask data) :=
  .foldl_fst h fun h => h.putRelay

theorem Owned.relayTold (h : Owned base s) {agent addr : Nat} {l : List Word} : Owned base (s.relayTold agent addr l) := h.relayWords

theorem Owned.relayAbort (h : Owned base s) {r : OpRec} : Owned base (s.relayAbort r) := .ite h.relayTold h

theorem Owned.freeBoth (h : Owned base s) {r : OpRec} : Owned base (s.freeBoth r) := .freePending (.ite h.relayTold h)

theorem Owned.dropCommit (h : Owned base s) : Owned base s.dropCommit := h.withTab

theorem Owned.failCommit (h : Owned base s) {slot : Nat} {r : OpRec} {res : Status} : Owned base (s.failCommit slot r res) :=
  h.setOp.relayAbort.endOp.dropCommit

theorem Owned.switchEpoch (h : Owned base s) {slot : Nat} {r : OpRec} {late : Bool} : Owned base (s.switchEpoch slot r late) := by
  unfold State.switchEpoch
  extract_lets +onlyGivenNames st pe n s1 s2 s3
  have hs2 : Owned base s2 := h.withTab
  have hs3 : Owned base s3 := hs2.advanceEpoch
  exact .ite hs3.setOp.commitDone hs3.setOp

theorem Owned.pairedSwitch (h : Owned base s) {slot : Nat} {r : OpRec} : Owned base (s.pairedSwitch slot r) := by
  unfold State.pairedSwitch
  split
  · exact h
  · exact .ite (.ite h.switchEpoch h) (.ite (h.failCommit.orReg) h)

theorem Owned.armedSwitch (h : Owned base s) {slot : Nat} {r : OpRec} : Owned base (s.armedSwitch slot r) :=
  .ite h.pairedSwitch (.ite h h.switchEpoch)

theorem Owned.dueSwitch (h : Owned base s) : Owned base s.dueSwitch := by
  unfold State.dueSwitch
  split
  · exact .ite h.armedSwitch h
  · exact h

theorem Owned.auditSlot (h : Owned base s) {agent target slot : Nat} : Owned base (s.auditSlot agent target slot) := h.audit

theorem Owned.cancelWork (h : Owned base s) {r : OpRec} : Owned base (s.cancelWork r) := by
  unfold State.cancelWork
  split
  · exact h.relayAbort.freeBoth.dropCommit
  · exact h.setTesting
  · exact .ite h.clrReg.auditSlot h
  · exact h

theorem Owned.opCancel (h : Owned base s) {slot : Nat} {r : OpRec} {broken : Bool} : Owned base (s.opCancel slot r broken).2 := by
  unfold State.opCancel
  extract_lets +onlyGivenNames s1 r1 res end_
  have hs1 : Owned base s1 := .ite h.dueSwitch h
  have hend_ : ∀ {x0}, Owned base x0 → Owned base (end_ x0) := by
    intro x0 h
    unfold end_
    exact h.updOp.endOp
  split
  · exact (hend_ (.ite hs1.setOp.freeBoth hs1))
  · exact .ite_snd (hend_ hs1.setOp.cancelWork) hs1
  · exact .ite_snd (hend_ hs1.setOp.cancelWork) hs1
  · exact hs1

theorem Owned.breakOps (h : Owned base s) {k id : Nat} : Owned base (s.breakOps k id) := by
  unfold State.breakOps
  refine .foldl h fun h1 => ?_
  split
  · exact h1
  · split
    · split
      next s1 e2 =>
        have hs1 : Owned base s1 := .of_snd e2 h1.opCancel
        exact hs1
      next s1 _ e3 =>
        have hs1 : Owned base s1 := .of_snd e3 h1.opCancel
        exact hs1.updOp
    · exact h1

theorem Owned.pipesEval (h : Owned base s) : Owned base s.pipesEval := by
  refine .foldl h fun {t k} h => ?_
  have shown {v : Word} : Owned base (t.setReg (pgPipe + k) 0x2000 v) :=
    h.setReg (by unfold Unowned pgPipe pgLocks pgRoles pgHostif pgDebug; omega)
  exact .ite shown shown.raise

theorem Owned.showHeld (h : Owned base s) {b k : Nat} {stage : Option Nat} : Owned base (s.showHeld b k stage) := by
  unfold State.showHeld
  extract_lets +onlyGivenNames w s1 s2
  have hs2 : Owned base s2 := Owned.setDebugStatus h.setWin (bit_putBit_other _ _ (by omega))
  exact hs2.updReg

theorem Owned.mapInside (h : Owned base s) {f : InPipe → InPipe} : Owned base (s.mapInside f) := h.withPipe

theorem Owned.showStage (h : Owned base s) {x : InPipe} {stage : Option Nat} : Owned base (s.showStage x stage) := by
  unfold State.showStage
  split
  · exact h.showHeld
  · exact h

theorem Owned.letGo (h : Owned base s) {x : InPipe} : Owned base (s.letGo x) := h.showStage.mapInside

theorem Owned.pbpRelease (h : Owned base s) {k : Nat} : Owned base (s.pbpRelease k) := by
  unfold State.pbpRelease
  split
  · exact h
  · exact h.letGo.pipesEval

end

end Sys2Proof.Machine

namespace Sys2Proof.Machine

/-! ## The resets of an owner -/

/-- The same word written to both states. -/
theorem Owned.setSame {base s : State} (h : Owned base s) (hb : Store.wf regReset base.regs = true) (p o : Nat) (v : Word) :
    Owned (base.setReg p o v) (s.setReg p o v) := by
  have word {q u : Nat} (e : s.reg q u = base.reg q u) : (s.setReg p o v).reg q u = (base.setReg p o v).reg q u := by
    by_cases hk : regKey q u = regKey p o
    · simp only [State.reg, State.setReg_regs, hk, Store.get_put_self _ _ _ _ h.regs, Store.get_put_self _ _ _ _ hb]
    · rw [State.reg_setReg_other s v h.regs hk, State.reg_setReg_other base v hb hk, e]
  have status : s.attached = base.attached := h.attached
  refine ⟨?_, fun k hk => word (h.locks k hk), word h.i3c, word h.mgmt, word h.hostif, ?_, ?_, ?_, ?_, ?_, ?_⟩
  · rw [State.setReg_regs]
    exact Store.wf_put regReset _ _ _ h.regs
  · by_cases hk : regKey pgDebug 0x2000 = regKey p o
    · simp only [State.attached, State.reg, State.setReg_regs, hk, Store.get_put_self _ _ _ _ h.regs, Store.get_put_self _ _ _ _ hb]
    · rw [State.attached, State.attached, State.reg_setReg_other s v h.regs hk, State.reg_setReg_other base v hb hk]
      exact status
  · simp only [State.setReg_host, h.dbgSession]
  · simp only [State.setReg_host, h.hdr]
  · simp only [State.setReg_cp, h.triggers]
  · simp only [State.setReg_cp, h.halted]
  · simp only [State.setReg_pow, h.phase]

/-- The word of lock `k` with no owner and the mark of a broken lock (R57). -/
def State.markBroken (s : State) (k : Nat) : State := s.updReg pgLocks (0x1000 + 4 * k) (fun w => putBit (setFld w 3 0 0) 8 true)

theorem State.markBroken_regs {s : State} (h : Store.wf regReset s.regs = true) (k : Nat) : Store.wf regReset (s.markBroken k).regs = true := by
  rw [State.markBroken, State.updReg_eq, State.setReg_regs]
  exact Store.wf_put regReset _ _ _ h

theorem State.lockW_markBroken_self {s : State} (h : Store.wf regReset s.regs = true) (k : Nat) :
    (s.markBroken k).lockW k = putBit (setFld (s.lockW k) 3 0 0) 8 true := State.reg_setReg_self s _ _ _ h

theorem State.reg_markBroken_other {s : State} (h : Store.wf regReset s.regs = true) {k p o : Nat} (hk : regKey p o ≠ regKey pgLocks (0x1000 + 4 * k)) :
    (s.markBroken k).reg p o = s.reg p o := State.reg_setReg_other s _ h hk

/-- What marking the locks of a list leaves: each lock of the list is free and marked, and every word but those of the list stays. -/
theorem State.markBroken_foldl (l : List Nat) (s : State) (h : Store.wf regReset s.regs = true) :
    Store.wf regReset (l.foldl State.markBroken s).regs = true
      ∧ (∀ k ∈ l, (l.foldl State.markBroken s).lockOwner k = 0 ∧ bit ((l.foldl State.markBroken s).lockW k) 8 = true)
      ∧ (∀ p o, (∀ k ∈ l, regKey p o ≠ regKey pgLocks (0x1000 + 4 * k)) → (l.foldl State.markBroken s).reg p o = s.reg p o)
      ∧ (l.foldl State.markBroken s).host = s.host ∧ (l.foldl State.markBroken s).pow = s.pow := by
  induction l generalizing s with
  | nil => exact ⟨h, nofun, fun _ _ _ => rfl, rfl, rfl⟩
  | cons j l ih =>
    obtain ⟨wf, marked, other, host, pow⟩ := ih (s.markBroken j) (State.markBroken_regs h j)
    refine ⟨wf, fun k hk => ?_, fun p o ho => ?_, host, pow⟩
    · by_cases hl : k ∈ l
      · exact marked k hl
      · obtain rfl : k = j := (List.mem_cons.mp hk).resolve_right hl
        have kept : (l.foldl State.markBroken (s.markBroken k)).lockW k = putBit (setFld (s.lockW k) 3 0 0) 8 true := by
          rw [← State.lockW_markBroken_self h]
          refine other pgLocks _ fun i hi e => hl ?_
          obtain rfl : k = i := by
            unfold regKey at e
            omega
          exact hi
        rw [State.lockOwner, List.foldl_cons, kept, fld_putBit_other _ _ _ _ _ (by omega)]
        exact ⟨fld_setFld_self _ _ _ _ (by omega) (by decide), bit_putBit_self _ _ _ (by omega)⟩
    · rw [List.foldl_cons, other p o fun k hk => ho k (List.mem_cons_of_mem j hk), State.reg_markBroken_other h (ho j List.mem_cons_self)]

/-- What an owner reset makes of the locks and the sessions: its operations and records left aside. -/
def State.released (s : State) (a : Agent) : State :=
  let t := (s.locksOf a.id).foldl State.markBroken s
  if t.sessionOf a = 0 then t else t.setSession a 0 0

theorem Owned.breakLock {base s : State} (h : Owned base s) (hb : Store.wf regReset base.regs = true) {id k : Nat} (hk : k < 64) :
    Owned (base.markBroken k) (s.breakLock id k) := by
  have held : Owned base (s.breakOps k id) := h.breakOps
  have marked : Owned (base.markBroken k) ((s.breakOps k id).markBroken k) := by
    have same : (s.breakOps k id).reg pgLocks (0x1000 + 4 * k) = base.reg pgLocks (0x1000 + 4 * k) := held.locks k hk
    rw [State.markBroken, State.markBroken, State.updReg_eq, State.updReg_eq, same]
    exact held.setSame hb _ _ _
  exact marked.orReg (by unfold Unowned pgLocks pgRoles pgHostif pgDebug; omega)

theorem Owned.breakLock_foldl {id : Nat} (l : List Nat) (hl : ∀ k ∈ l, k < 64) {base s : State} (h : Owned base s)
    (hb : Store.wf regReset base.regs = true) : Owned (l.foldl State.markBroken base) (l.foldl (fun s k => s.breakLock id k) s) := by
  induction l generalizing base s with
  | nil => exact h
  | cons k l ih =>
    exact ih (fun j hj => hl j (List.mem_cons_of_mem k hj)) (h.breakLock hb (hl k List.mem_cons_self)) (State.markBroken_regs hb k)

theorem Owned.locksOf {base s : State} (h : Owned base s) (id : Nat) : s.locksOf id = base.locksOf id :=
  List.filter_congr fun k hk => by rw [State.lockOwner, State.lockOwner, h.locks k (List.mem_range.mp hk)]

theorem Owned.breakLocks {base s : State} (h : Owned base s) (hb : Store.wf regReset base.regs = true) (id : Nat) :
    Owned ((base.locksOf id).foldl State.markBroken base) (s.breakLocks id) := by
  unfold State.breakLocks
  rw [h.locksOf]
  have broken := Owned.breakLock_foldl (id := id) (base.locksOf id) (fun k hk => List.mem_range.mp (List.mem_filter.mp hk).1) h hb
  exact .ite broken broken.raise

theorem Owned.sessionOf {base s : State} (h : Owned base s) (a : Agent) : s.sessionOf a = base.sessionOf a := by
  cases a
  case i3c => exact congrArg (fun w => fld w 15 0) h.i3c
  case mgmt => exact congrArg (fun w => fld w 15 0) h.mgmt
  case debug => exact congrArg BitVec.toNat h.dbgSession
  all_goals rfl

theorem Owned.setSession {base s : State} (h : Owned base s) (hb : Store.wf regReset base.regs = true) (a : Agent) (n rights : Nat) :
    Owned (base.setSession a n rights) (s.setSession a n rights) := by
  cases a
  case i3c => exact h.setSame hb _ _ _
  case mgmt => exact h.setSame hb _ _ _
  case debug => exact { h with dbgSession := rfl }
  all_goals exact h

theorem State.phase_released {s : State} (h : Store.wf regReset s.regs = true) (a : Agent) : (s.released a).pow.phase = s.pow.phase := by
  obtain ⟨-, -, -, -, pow⟩ := State.markBroken_foldl (s.locksOf a.id) s h
  rw [← pow]
  unfold State.released
  dsimp only
  split
  · rfl
  · cases a <;> rfl

/-- The reset of an owner does to the owners' words what `State.released` says. -/
theorem Owned.ownerReset {base s : State} (h : Owned base s) (hb : Store.wf regReset base.regs = true) (a : Agent) :
    Owned (base.released a) (s.ownerReset a) := by
  have broken := h.breakLocks hb a.id
  unfold State.released State.ownerReset State.resetSession State.endSession
  rw [broken.sessionOf a]
  dsimp only
  split
  · exact broken
  · exact (broken.setSession (State.markBroken_foldl _ base hb).1 a 0 0).audit

/-- The locks of the agent are free and marked broken, those of the others stay, and the agent's session has ended (R57, R105). -/
def Freed (s : State) (a : Agent) (t : State) : Prop :=
  (∀ k, k < 64 → t.lockOwner k = (if s.lockOwner k = a.id then 0 else s.lockOwner k) ∧ (s.lockOwner k = a.id → bit (t.lockW k) 8 = true))
    ∧ t.sessionOf a = 0

theorem State.sessionOf_setSession {s : State} (h : Store.wf regReset s.regs = true) (a : Agent) : (s.setSession a 0 0).sessionOf a = 0 := by
  cases a
  case i3c => rw [State.setSession, State.sessionOf, State.regFld, State.reg_setReg_self s _ _ _ h]; rfl
  case mgmt => rw [State.setSession, State.sessionOf, State.regFld, State.reg_setReg_self s _ _ _ h]; rfl
  all_goals rfl

theorem State.reg_setSession {s : State} (h : Store.wf regReset s.regs = true) (a : Agent) (n rights : Nat) {p o : Nat}
    (hi : regKey p o ≠ regKey pgRoles 0x200C) (hm : regKey p o ≠ regKey pgRoles 0x2010) : (s.setSession a n rights).reg p o = s.reg p o := by
  cases a
  case i3c => exact State.reg_setReg_other s _ h hi
  case mgmt => exact State.reg_setReg_other s _ h hm
  all_goals rfl

/-- A word that is no lock and no session. -/
theorem State.reg_released {s : State} (h : Store.wf regReset s.regs = true) (a : Agent) {p o : Nat}
    (hk : ∀ k ∈ s.locksOf a.id, regKey p o ≠ regKey pgLocks (0x1000 + 4 * k))
    (hi : regKey p o ≠ regKey pgRoles 0x200C) (hm : regKey p o ≠ regKey pgRoles 0x2010) : (s.released a).reg p o = s.reg p o := by
  obtain ⟨wf, -, other, -, -⟩ := State.markBroken_foldl (s.locksOf a.id) s h
  unfold State.released
  dsimp only
  split
  · exact other p o hk
  · rw [State.reg_setSession wf a 0 0 hi hm, other p o hk]

theorem State.freed_released {s : State} (h : Store.wf regReset s.regs = true) (a : Agent) : Freed s a (s.released a) := by
  obtain ⟨wf, marked, other, -, -⟩ := State.markBroken_foldl (s.locksOf a.id) s h
  have session : (s.released a).sessionOf a = 0 := by
    unfold State.released
    dsimp only
    split
    case isTrue e => exact e
    case isFalse => exact State.sessionOf_setSession wf a
  have word (k : Nat) (hk : k < 64) : (s.released a).lockW k = ((s.locksOf a.id).foldl State.markBroken s).lockW k := by
    unfold State.released
    dsimp only
    split
    · rfl
    · exact State.reg_setSession wf a 0 0 (by unfold regKey pgLocks pgRoles; omega) (by unfold regKey pgLocks pgRoles; omega)
  refine ⟨fun k hk => ?_, session⟩
  rw [State.lockOwner, word k hk]
  by_cases owned : s.lockOwner k = a.id
  · have mine := marked k (List.mem_filter.mpr ⟨List.mem_range.mpr hk, by simp [owned]⟩)
    rw [if_pos owned]
    exact ⟨mine.1, fun _ => mine.2⟩
  · have away : ((s.locksOf a.id).foldl State.markBroken s).lockW k = s.lockW k := by
      refine other pgLocks _ fun j hj e => owned ?_
      obtain rfl : k = j := by
        unfold regKey at e
        omega
      exact eq_of_beq (List.mem_filter.mp hj).2
    rw [if_neg owned, away]
    exact ⟨rfl, fun e => absurd e owned⟩

/-- What holds of the owners' words of one state holds of every state that has them. -/
theorem Freed.of_owned {s base t : State} {a : Agent} (freed : Freed s a base) (h : Owned base t) : Freed s a t := by
  obtain ⟨locks, session⟩ := freed
  refine ⟨fun k hk => ?_, by rw [h.sessionOf a, session]⟩
  rw [State.lockOwner, h.locks k hk]
  exact locks k hk

theorem State.freed_ownerReset {s : State} (h : Store.wf regReset s.regs = true) (a : Agent) : Freed s a (s.ownerReset a) :=
  (State.freed_released h a).of_owned ((Owned.refl h).ownerReset h a)

/-! ### The reset of the I3C logic -/

theorem State.freed_i3cReset {s : State} (h : Store.wf regReset s.regs = true) :
    Freed s .i3c s.i3cReset ∧ s.i3cReset.host.hdr = false ∧ s.i3cReset.reg pgHostif 0x2000 = s.reg pgHostif 0x2000 ∧ s.i3cReset.pow.phase = s.pow.phase := by
  have owned := (Owned.refl h).ownerReset h .i3c
  have hostif : (s.released .i3c).reg pgHostif 0x2000 = s.reg pgHostif 0x2000 :=
    State.reg_released h .i3c (fun k _ => by unfold regKey pgHostif pgLocks; omega) (by decide) (by decide)
  exact ⟨State.freed_ownerReset h .i3c, rfl, owned.hostif.trans hostif, owned.phase.trans (State.phase_released h .i3c)⟩

/-- A state in the course of a warm reset: its word at `(q, u)` is settled, it waits in phase 6, and the bus is in no HDR mode. -/
structure Warm (q u : Nat) (w : Word) (t : State) : Prop where
  regs : Store.wf regReset t.regs = true
  word : t.reg q u = w
  phase : t.pow.phase = 6
  hdr : t.host.hdr = false

section
variable {q u : Nat} {w : Word} {t : State} (h : Warm q u w t)
include h

theorem Warm.setReg {p o : Nat} {v : Word} (hk : regKey q u ≠ regKey p o) : Warm q u w (t.setReg p o v) where
  regs := by
    rw [State.setReg_regs]
    exact Store.wf_put regReset _ _ _ h.regs
  word := by rw [State.reg_setReg_other t v h.regs hk, h.word]
  phase := by rw [State.setReg_pow, h.phase]
  hdr := by rw [State.setReg_host, h.hdr]

theorem Warm.keepReg {old : State} {p o : Nat} {m : Word} (hk : regKey q u ≠ regKey p o) : Warm q u w (t.keepReg old p o m) := h.setReg hk

theorem Warm.keepRegs {old : State} {p : Nat} {l : List Nat} (hk : ∀ o ∈ l, regKey q u ≠ regKey p o) : Warm q u w (t.keepRegs old p l) := by
  induction l generalizing t with
  | nil => exact h
  | cons o l ih => exact ih (h.keepReg (hk o List.mem_cons_self)) fun x hx => hk x (List.mem_cons_of_mem o hx)

theorem Warm.keepPage {old : State} {p : Nat} (hp : q ≠ p) (hu : u < 0x10000) : Warm q u w (t.keepPage old p) := by
  unfold State.keepPage
  generalize old.regs.filter _ = l
  induction l generalizing t with
  | nil => exact h
  | cons e l ih =>
    refine ih (h.setReg ?_)
    unfold regKey
    omega

/-- The words that a warm reset writes last, after RESET_CAUSE (R478, R480). -/
theorem Warm.finish {old : State} (hk : ∀ e ∈ [(pgHostif, 0x2000), (pgHostif, 0x2004), (pgPair, 0x2004), (0, 0x2068)], regKey q u ≠ regKey e.1 e.2)
    (hs : ∀ n < 4, regKey q u ≠ regKey (pgStack + n) 0x2000) :
    Warm q u w (((List.range 4).foldl (fun t n => t.keepRegs old (pgStack + n) [0x2000])
      (((t.keepReg old pgHostif 0x2000 0x1FE#32).keepRegs old pgHostif [0x2004]).keepReg old pgPair 0x2004 0x400#32)).keepReg
        old 0 0x2068 4#32) := by
  simp only [List.forall_mem_cons, List.not_mem_nil, false_imp_iff, implies_true, and_true] at hk
  obtain ⟨hlink, hbus, hpair, hpower⟩ := hk
  have single {p o : Nat} (ho : regKey q u ≠ regKey p o) : ∀ x ∈ [o], regKey q u ≠ regKey p x := fun x hx => List.mem_singleton.mp hx ▸ ho
  have kept := ((h.keepReg (old := old) (m := 0x1FE#32) hlink).keepRegs (old := old) (single hbus)).keepReg
    (old := old) (m := 0x400#32) hpair
  refine Warm.keepReg ?_ hpower
  have each (l : List Nat) (hl : ∀ n ∈ l, n < 4) {t : State} (ht : Warm q u w t) :
      Warm q u w (l.foldl (fun t n => t.keepRegs old (pgStack + n) [0x2000]) t) := by
    induction l generalizing t with
    | nil => exact ht
    | cons n l ih => exact ih (fun m hm => hl m (List.mem_cons_of_mem n hm)) (ht.keepRegs (single (hs n (hl n List.mem_cons_self))))
  exact each _ (fun n hn => List.mem_range.mp hn) kept

end

/-- A warm reset keeps no lock: it leaves each as reset does, with its cause in RESET_CAUSE, phase 6 and no HDR mode (R478). -/
theorem State.warm_warmReset (s : State) (cause : Nat) :
    (∀ k < 64, Warm pgLocks (0x1000 + 4 * k) (State.reset.lockW k) (s.warmReset cause))
      ∧ Warm 0 0x2060 (setFld (s.reg 0 0x2060) 3 0 cause) (s.warmReset cause) := by
  unfold State.warmReset
  extract_lets +onlyGivenNames _ nvm _ host _ cp _ ops _ pow win _ port _ t1 t2 _ t3 t4 t5 t6
  have start {k : Nat} (hk : k < 64) : Warm pgLocks (0x1000 + 4 * k) (State.reset.lockW k) t3 := by
    have apart {p o : Nat} (hp : p ≠ pgLocks) (ho : o < 0x10000) : regKey pgLocks (0x1000 + 4 * k) ≠ regKey p o := fun e =>
      hp (regKey_inj (by omega) ho e).1.symm
    have ht1 : Warm pgLocks (0x1000 + 4 * k) (State.reset.lockW k) t1 := ⟨(by decide : Store.wf regReset State.reset.regs = true), rfl, rfl, rfl⟩
    have ht2 : Warm pgLocks (0x1000 + 4 * k) (State.reset.lockW k) t2 := by
      refine Warm.keepPage (Warm.keepRegs (Warm.keepRegs (ht1.keepReg (apart (by decide) (by decide))) ?_) ?_) (by decide) (by omega)
      · exact fun o ho => apart (by decide) (by revert o; decide)
      · exact fun o ho => apart (by decide) (by revert o; decide)
    obtain ⟨regs, word, phase, hdr⟩ := ht2.keepPage (old := s) (p := pgClocks) (by decide) (by omega)
    exact ⟨regs, word, phase, hdr⟩
  constructor
  · intro k hk
    have apart {p o : Nat} (hp : p ≠ pgLocks) (ho : o < 0x10000) : regKey pgLocks (0x1000 + 4 * k) ≠ regKey p o := fun e =>
      hp (regKey_inj (by omega) ho e).1.symm
    have ht4 : Warm pgLocks (0x1000 + 4 * k) (State.reset.lockW k) t4 :=
      ((start hk).setReg (apart (by decide) (by decide))).keepRegs fun o ho => apart (by decide) (by revert o; decide)
    refine ht4.finish ?_ fun n hn => apart (by unfold pgStack pgLocks; omega) (by decide)
    have all : ∀ e ∈ [(pgHostif, 0x2000), (pgHostif, 0x2004), (pgPair, 0x2004), (0, 0x2068)], e.1 ≠ pgLocks ∧ e.2 < 0x10000 := by decide
    exact fun e he => apart (all e he).1 (all e he).2
  · obtain ⟨regs, -, phase, hdr⟩ := start (k := 0) (by decide)
    have written : Warm 0 0x2060 (setFld (s.reg 0 0x2060) 3 0 cause) (t3.setReg 0 0x2060 (setFld (s.reg 0 0x2060) 3 0 cause)) :=
      ⟨by rw [State.setReg_regs]; exact Store.wf_put regReset _ _ _ regs, State.reg_setReg_self _ _ _ _ regs, phase, hdr⟩
    have ht4 : Warm 0 0x2060 (setFld (s.reg 0 0x2060) 3 0 cause) t4 := written.keepRegs (by decide)
    exact ht4.finish (by decide) (by decide)

/-! ### The detachment of the debug port -/

/-- The control processor with no trigger and no halted core. -/
def State.untriggered (s : State) : State := { s with cp := { s.cp with triggers := [], halted := [] } }

theorem Owned.untriggered {base s : State} (h : Owned base s) : Owned base.untriggered ({ s with cp := { s.cp with triggers := [] } }.setHalted []) := by
  have cleared : Owned base.untriggered s.untriggered := { h with triggers := rfl, halted := rfl }
  unfold State.setHalted State.showHalts
  refine Owned.setReg ?_
  exact cleared.setDebugStatus (bit_setFld_other _ _ _ _ _ (by decide) (by decide))

/-- A detachment (R442, R443): the debug port's owner reset, no trigger and no halted core. -/
theorem State.freed_debugDetach {s : State} (h : Store.wf regReset s.regs = true) (attached : s.attached = true) :
    Freed s .debug s.debugDetach ∧ s.debugDetach.attached = false ∧ s.debugDetach.cp.triggers = [] ∧ s.debugDetach.cp.halted = [] := by
  obtain ⟨base, hbase⟩ : ∃ base, base = s.clrReg pgDebug 0x2000 1#32 := ⟨_, rfl⟩
  have wf : Store.wf regReset base.regs = true := by
    rw [hbase, State.clrReg, State.updReg_eq, State.setReg_regs]
    exact Store.wf_put regReset _ _ _ h
  have off : base.attached = false := by
    rw [hbase, State.attached, State.clrReg, State.updReg_eq, State.reg_setReg_self s _ _ _ h, bit_and]
    exact Bool.and_false _
  have free : Freed s .debug (base.released .debug) := by
    obtain ⟨locks, session⟩ := State.freed_released wf .debug
    refine ⟨fun k hk => ?_, session⟩
    have same : s.lockOwner k = base.lockOwner k := by
      rw [hbase, State.clrReg, State.updReg_eq, State.lockOwner, State.lockOwner, State.lockW, State.lockW,
        State.reg_setReg_other s _ h (by unfold regKey pgDebug pgLocks; omega)]
    rw [same]
    exact locks k hk
  have reset : Owned (base.released .debug) ((base.raise pgDebug 16).ownerReset .debug) := (Owned.refl wf).raise.ownerReset wf .debug
  have out : (base.released .debug).attached = false := by
    have away (k : Nat) (hk : k ∈ base.locksOf (Agent.id .debug)) : regKey pgDebug 0x2000 ≠ regKey pgLocks (0x1000 + 4 * k) := by
      have := List.mem_range.mp (List.mem_filter.mp hk).1
      unfold regKey pgDebug pgLocks
      omega
    rw [State.attached, State.reg_released wf .debug away (by decide) (by decide)]
    exact off
  have gone : Owned (base.released .debug).untriggered s.debugDetach := by
    unfold State.debugDetach
    rw [attached, ← hbase]
    exact .foldl reset.untriggered fun h => h.pbpRelease
  have locks : Freed s .debug (base.released .debug).untriggered := free
  exact ⟨locks.of_owned gone, gone.attached.trans out, gone.triggers, gone.halted⟩

/-- Settles O16: each cause frees its owner's locks and ends its session, by what an owner reset does to the owners' words. -/
theorem ownerResets : Obligations.OwnerResets := by
  unfold Obligations.OwnerResets
  intro s canonical clocked
  have wf := canonical.regs
  have running : s.inReset = false := by
    rw [State.stands, Bool.or_eq_false_iff] at clocked
    exact clocked.2
  obtain ⟨reset, hdr, hostif, phase⟩ := State.freed_i3cReset wf
  intro freed
  refine ⟨fun up => ⟨s.ownerReset .mgmt, ?_, State.freed_ownerReset wf .mgmt⟩, fun k => ⟨s.ownerReset (.core k), ?_, State.freed_ownerReset wf (.core k)⟩,
    ⟨_, ?_, State.freed_ownerReset (s := { s with host := { s.host with hdr := false, reply := .silent } }) wf .i3c⟩,
    ⟨s.i3cReset, ?_, reset, hdr, by rw [State.regFld, State.regFld, hostif]⟩, fun off => ⟨s.i3cReset, ?_, reset, hdr⟩,
    fun on ready => ⟨s.i3cReset.warmReset 8, ?_, ?_⟩, fun attached => ?_⟩
  · exact (if_neg (by simp [clocked])).trans (if_neg (Bool.eq_false_iff.mp up))
  · exact if_neg (by simp [clocked])
  · exact if_neg (by simp [running])
  · exact if_neg (by simp [running])
  · refine (if_neg (by simp [running])).trans ?_
    rw [if_neg (Bool.eq_false_iff.mp off)]
  · refine (if_neg (by simp [running])).trans ?_
    rw [if_pos on, State.warmRequest, phase, if_neg (by simp [ready])]
  · obtain ⟨locks, cause⟩ := State.warm_warmReset s.i3cReset 8
    refine ⟨cause.phase, ?_, cause.hdr, fun k hk => ?_⟩
    · rw [State.regFld, cause.word, fld_setFld_self _ _ _ _ (by decide) (by decide)]
    · have free : ∀ k < 64, fld (State.reset.lockW k) 3 0 = 0 := by decide
      rw [State.lockOwner, State.lockW, (locks k hk).word, free k hk]
  · obtain ⟨locks, out, triggers, halted⟩ := State.freed_debugDetach wf attached
    exact ⟨⟨s.debugDetach, if_neg (by simp [running]), locks, out, triggers, halted⟩, fun timed =>
      ⟨s.debugDetach, (if_neg (by simp [running])).trans (if_neg timed), locks, out, halted⟩⟩

end Sys2Proof.Machine

namespace Sys2Proof.Machine

/-! ## The block states -/

theorem Kept.discardWork {p : Nat} {base s : State} (h : Kept p base s) : Kept p base (s.discardWork p) := h.dropWork.addReg

/-- A block state shown: the field reads back, and only that word and the page's event word change. -/
theorem State.setBlk_spec {s : State} (h : Store.wf regReset s.regs = true) (p : Nat) {v : Nat} (hv : v < 8) :
    Store.wf regReset (s.setBlk p v).regs = true ∧ (s.setBlk p v).blk p = v
      ∧ (∀ q o, regKey q o ≠ regKey p 0x0C → regKey q o ≠ regKey p 0x14 → (s.setBlk p v).reg q o = s.reg q o)
      ∧ s.setBlk p v = { s with regs := (s.setBlk p v).regs } := by
  unfold State.setBlk
  split
  case isTrue e => exact ⟨h, e, fun _ _ _ _ => rfl, rfl⟩
  case isFalse =>
    have wf : Store.wf regReset (s.setRegFld p 0x0C 2 0 v).regs = true := Store.wf_put regReset _ _ _ h
    refine ⟨Store.wf_put regReset _ _ _ wf, ?_, fun q o hs he => ?_, rfl⟩
    · rw [State.blk, State.regFld, State.raise_eq, State.reg_setReg_other _ _ wf (by unfold regKey; omega)]
      rw [State.setRegFld, State.updReg_eq, State.reg_setReg_self s _ _ _ h, fld_setFld_self _ _ _ _ (by decide) (by omega)]
    · rw [State.raise_eq, State.reg_setReg_other _ _ wf he, State.setRegFld, State.updReg_eq, State.reg_setReg_other s _ h hs]

/-- A configuration word is no word that a block state shows in. -/
theorem regKey_config_ne {p o q u : Nat} (lo : 0x100 ≤ o) (hi : o < 0x1000) (hu : u < 0x100) : regKey p o ≠ regKey q u := fun e => by
  have := (regKey_inj (by omega) (by omega) e).2
  omega

/-- Settles O7: the block state is the one word of its page that changes, as every hook and evaluation keeps the pages' headers. -/
theorem blockReadyEnables : Obligations.BlockReadyEnables := by
  unfold Obligations.BlockReadyEnables
  intro s page canonical clocked present enabling enabled ready
  obtain ⟨wf, state, other, frame⟩ := State.setBlk_spec canonical.regs page.val (v := 2) (by decide)
  have kept (P : Nat) : Kept P (s.setBlk page.val 2) (((s.setBlk page.val 2).enabledHook page.val).settle s) := (Kept.refl wf).enabledHook.settle
  refine ⟨((s.setBlk page.val 2).enabledHook page.val).settle s, ?_, ?_, fun p o lo hi => ⟨?_, ?_⟩, ?_, ?_, ?_⟩
  · refine (if_neg (by simp [clocked])).trans (congrArg _ (if_neg ?_))
    simp [Option.isSome_iff_ne_none.mp present, enabling, enabled, ready]
  · exact (congrArg (fun w => fld w 2 0) ((kept page.val).head 0x0C (.inl rfl))).trans state
  · rw [(kept p).head o (.inr (.inr ⟨lo, hi⟩))]
    exact other p o (regKey_config_ne lo hi (by decide)) (regKey_config_ne lo hi (by decide))
  · rw [State.cfg, (kept p).latched, frame]
    rfl
  · rw [(kept 0).pending, frame]
  · rw [(kept 0).mem, frame]
  · rw [(kept 0).bytes, frame]

/-! ### A block in SAFE -/

/-- Of the state `base`, the state `t` has the configuration of page `p`, its latched words, the count of the scrubs and what a scrub takes
from. -/
structure Configured (p : Nat) (base t : State) : Prop where
  regs : Store.wf regReset t.regs = true
  config : ∀ o, 0x100 ≤ o → o < 0x1000 → t.reg p o = base.reg p o
  scrubs : t.regFld pgGlobal 0x2020 15 0 = base.regFld pgGlobal 0x2020 15 0
  latched : t.latched = base.latched
  upset : t.upset = base.upset
  rest : t.ops.rest = base.ops.rest

theorem Kept.configured {p : Nat} {base t : State} (h : Kept p base t) : Configured p base t :=
  ⟨h.regs, fun o lo hi => h.head o (.inr (.inr ⟨lo, hi⟩)), h.scrubs, h.latched, h.upset, h.rest⟩

theorem Configured.refl {p : Nat} {s : State} (h : Store.wf regReset s.regs = true) : Configured p s s := (Kept.refl h).configured

theorem Configured.trans {p : Nat} {r s t : State} (hs : Configured p r s) (ht : Configured p s t) : Configured p r t where
  regs := ht.regs
  config o lo hi := (ht.config o lo hi).trans (hs.config o lo hi)
  scrubs := ht.scrubs.trans hs.scrubs
  latched := ht.latched.trans hs.latched
  upset := ht.upset.trans hs.upset
  rest := ht.rest.trans hs.rest

/-- A word of the header, below the configuration. -/
theorem Configured.setReg {p : Nat} {s : State} (h : Store.wf regReset s.regs = true) {q o : Nat} {v : Word} (ho : o < 0x100) :
    Configured p s (s.setReg q o v) where
  regs := Store.wf_put regReset _ _ _ h
  config u lo hi := State.reg_setReg_other s v h (regKey_config_ne lo hi ho)
  scrubs := by rw [State.regFld, State.reg_setReg_other s v h (by unfold regKey pgGlobal; omega)]; rfl
  latched := rfl
  upset := rfl
  rest := rfl

theorem Configured.setBlk {p : Nat} {s : State} (h : Store.wf regReset s.regs = true) {q v : Nat} : Configured p s (s.setBlk q v) := by
  unfold State.setBlk
  split
  · exact .refl h
  · have shown : Configured p s (s.setRegFld q 0x0C 2 0 v) := .setReg h (by decide)
    exact shown.trans (.setReg shown.regs (by decide))

/-- A block that goes to SAFE keeps its configuration and its faults (R47). -/
theorem State.toSafe_spec {s : State} (h : Store.wf regReset s.regs = true) (p : Nat) :
    Configured p s (s.toSafe p) ∧ (s.toSafe p).blk p = 4 ∧ (s.toSafe p).reg p 0x10 = s.reg p 0x10 := by
  obtain ⟨left, hleft⟩ : ∃ left, left = if s.blk p = 2 then s.leaveEnabled p else if s.blk p = 3 then s.discardWork p else s := ⟨_, rfl⟩
  have leave : Kept p s left := by
    rw [hleft]
    exact .ite (Kept.refl h).leaveEnabled (.ite (Kept.refl h).discardWork (Kept.refl h))
  obtain ⟨wf, state, other, -⟩ := State.setBlk_spec leave.regs p (v := 4) (by decide)
  have settle : Kept p (left.setBlk p 4) (s.toSafe p) := by
    unfold State.toSafe
    rw [← hleft]
    exact .settle (.ite (Kept.refl wf).debugDetach (Kept.refl wf))
  refine ⟨(leave.configured.trans (.setBlk leave.regs)).trans settle.configured, ?_, ?_⟩
  · exact (congrArg (fun w => fld w 2 0) (settle.head 0x0C (.inl rfl))).trans state
  · rw [settle.head 0x10 (.inr (.inl rfl)), other p 0x10 (by unfold regKey; omega) (by unfold regKey; omega), leave.head 0x10 (.inr (.inl rfl))]

/-- What a mismatch of word `k` shows in its page: the fault PARITY, and no other block state (R47, R48). -/
theorem State.parityFlags_spec {s : State} (h : Store.wf regReset s.regs = true) {p k : Nat} (hk : k / 0x10000 = p) :
    Configured p s (s.parityFlags k) ∧ (s.parityFlags k).blk p = s.blk p ∧ bit ((s.parityFlags k).reg p 0x10) 0 = true := by
  obtain ⟨shown, hshown⟩ : ∃ t, t = if bit (s.reg p 0x0C) 10 then s
    else s.setReg p 0x0C (setFld (putBit (s.reg p 0x0C) 10 true) 25 16 (k % 0x10000 / 4)) := ⟨_, rfl⟩
  have first : Configured p s shown ∧ shown.blk p = s.blk p := by
    rw [hshown]
    split
    · exact ⟨.refl h, rfl⟩
    · refine ⟨.setReg h (by decide), ?_⟩
      rw [State.blk, State.regFld, State.reg_setReg_self s _ _ _ h, fld_setFld_other _ _ _ _ _ _ (by decide) (by decide),
        fld_putBit_other _ _ _ _ _ (by decide)]
      rfl
  obtain ⟨kept, state⟩ := first
  have fault : s.parityFlags k = shown.setReg p 0x10 (shown.reg p 0x10 ||| oneBit 0) := by
    rw [hshown, ← hk]
    rfl
  rw [fault]
  refine ⟨kept.trans (.setReg kept.regs (by decide)), ?_, ?_⟩
  · rw [← state, State.blk, State.regFld, State.reg_setReg_other _ _ kept.regs (by unfold regKey; omega)]
    rfl
  · rw [State.reg_setReg_self _ _ _ _ kept.regs, bit_or_oneBit_self _ _ (by decide)]

/-- A mismatch reported and shown. -/
theorem State.parityShown_spec {s : State} (h : Store.wf regReset s.regs = true) {p k : Nat} (hk : k / 0x10000 = p) :
    Configured p s ((s.parityReport k).parityFlags k) ∧ ((s.parityReport k).parityFlags k).blk p = s.blk p
      ∧ bit (((s.parityReport k).parityFlags k).reg p 0x10) 0 = true := by
  have report : Kept p s (s.parityReport k) := (Kept.refl h).parityReport
  obtain ⟨kept, state, fault⟩ := State.parityFlags_spec report.regs hk
  refine ⟨report.configured.trans kept, ?_, fault⟩
  rw [state]
  exact congrArg (fun w => fld w 2 0) (report.head 0x0C (.inl rfl))

/-- The mismatches of one page reported and shown, one after another. -/
theorem State.parityShown_foldl {p : Nat} (l : List Nat) (hl : ∀ k ∈ l, k / 0x10000 = p) {s : State} (h : Store.wf regReset s.regs = true)
    (shown : l ≠ [] ∨ bit (s.reg p 0x10) 0 = true) :
    Configured p s (l.foldl (fun s k => (s.parityReport k).parityFlags k) s)
      ∧ bit ((l.foldl (fun s k => (s.parityReport k).parityFlags k) s).reg p 0x10) 0 = true := by
  induction l generalizing s with
  | nil => exact ⟨.refl h, shown.resolve_left (· rfl)⟩
  | cons k l ih =>
    obtain ⟨kept, -, fault⟩ := State.parityShown_spec h (hl k List.mem_cons_self)
    obtain ⟨later, still⟩ := ih (fun j hj => hl j (List.mem_cons_of_mem k hj)) kept.regs (.inr fault)
    exact ⟨kept.trans later, still⟩

end Sys2Proof.Machine

namespace Sys2Proof.Machine

section
variable {α : Type} [DecidableEq α]

/-- A read of a canonical store of which the keys of a kind are kept. -/
theorem Store.get_filter (d : Nat → α) (q : Nat → Bool) (k : Nat) (x : α) (m : List (Nat × α)) (h : Store.wf d m = true) :
    Store.get x k (m.filter (fun e => q e.1)) = if q k then Store.get x k m else x := by
  induction m with
  | nil => simp [Store.get]
  | cons e t ih =>
    obtain ⟨j, v⟩ := e
    obtain ⟨-, hlt, ht⟩ := (Store.wf_cons d j v t).1 h
    have past (hk : k < j) : Store.get x k t = x := Store.get_of_lt x k t fun e he => hk.trans (hlt e he)
    rw [List.filter_cons]
    rcases lt_trichotomy j k with hj | rfl | hj
    · have hne : j ≠ k := by omega
      have hge : ¬ k < j := by omega
      split <;> simp [Store.get, hne, hge, ih ht]
    · have gone : Store.get x j t = x := Store.get_of_lt x j t hlt
      split
      · simp [Store.get]
      · rw [ih ht, gone, ite_self]
    · have hne : j ≠ k := by omega
      split <;> simp [Store.get, hne, hj, ih ht, past hj]

/-- Writes of other keys, one after another. -/
theorem Store.get_foldl_put_other (d : Nat → α) (k : Nat) (x : α) (l m : List (Nat × α)) (hl : ∀ e ∈ l, k ≠ e.1) (hm : Store.wf d m = true) :
    Store.get x k (l.foldl (fun m e => Store.put d e.1 e.2 m) m) = Store.get x k m := by
  induction l generalizing m with
  | nil => rfl
  | cons e l ih =>
    rw [List.foldl_cons, ih _ (fun a ha => hl a (List.mem_cons_of_mem e ha)) (Store.wf_put d _ _ _ hm)]
    exact Store.get_put_other d _ m hm (hl e List.mem_cons_self) x

/-- A canonical store written over one that holds nothing at the key. -/
theorem Store.get_foldl_put (d : Nat → α) (k : Nat) (l m : List (Nat × α)) (hl : Store.wf d l = true) (hm : Store.wf d m = true)
    (hk : Store.get (d k) k m = d k) : Store.get (d k) k (l.foldl (fun m e => Store.put d e.1 e.2 m) m) = Store.get (d k) k l := by
  induction l generalizing m with
  | nil => exact hk
  | cons e l ih =>
    obtain ⟨j, v⟩ := e
    obtain ⟨-, hlt, ht⟩ := (Store.wf_cons d j v l).1 hl
    rw [List.foldl_cons]
    by_cases hj : j = k
    · subst hj
      rw [Store.get_foldl_put_other d j _ l _ (fun e he => (hlt e he).ne) (Store.wf_put d _ _ _ hm), Store.get_put_self d j v m hm]
      simp [Store.get]
    · rw [ih _ ht (Store.wf_put d _ _ _ hm) (by rw [Store.get_put_other d v m hm (Ne.symm hj)]; exact hk)]
      by_cases before : k < j
      · rw [Store.get_of_lt _ k l fun e he => before.trans (hlt e he)]
        simp [Store.get, hj, before]
      · simp [Store.get, hj, before]

end

theorem cfgKey_iff {p k : Nat} : cfgKey p k = true ↔ p * 0x10000 + 0x100 ≤ k ∧ k < p * 0x10000 + 0x1000 := by
  simp [cfgKey, regKey]

theorem cfgKey_regKey {p o : Nat} (lo : 0x100 ≤ o) (hi : o < 0x1000) : cfgKey p (regKey p o) = true := cfgKey_iff.mpr (by unfold regKey; omega)

theorem cfgKey_regKey_other {p q o : Nat} (hp : q ≠ p) (hi : o < 0x1000) : cfgKey p (regKey q o) = false :=
  Bool.eq_false_iff.mpr fun h => by
    have := cfgKey_iff.mp h
    unfold regKey at this
    omega

/-- The configuration of a page latched: its words are those written, and those of the other pages stay (R43). -/
theorem State.cfg_latchPage {s : State} (h : s.Canonical) (p q : Nat) {o : Nat} (lo : 0x100 ≤ o) (hi : o < 0x1000) :
    (s.latchPage p).cfg q o = if q = p then s.reg p o else s.cfg q o := by
  obtain ⟨regs, latched, -⟩ := h
  have kept := Store.wf_filter regReset (fun e => !cfgKey p e.1) s.latched latched
  have mine := Store.wf_filter regReset (fun e => cfgKey p e.1) s.regs regs
  unfold State.latchPage
  dsimp only [State.cfg]
  split
  case isTrue e =>
    subst e
    rw [Store.get_foldl_put regReset _ _ _ mine kept ?_, Store.get_filter regReset (cfgKey q) _ _ _ regs, if_pos (cfgKey_regKey lo hi)]
    · rfl
    · rw [Store.get_filter regReset (fun k => !cfgKey q k) _ _ _ latched, cfgKey_regKey lo hi]
      rfl
  case isFalse e =>
    have away := cfgKey_regKey_other e hi
    rw [Store.get_foldl_put_other regReset _ _ _ _ ?_ kept, Store.get_filter regReset (fun k => !cfgKey p k) _ _ _ latched, away]
    · rfl
    · intro x hx hk
      rw [hk, (List.mem_filter.mp hx).2] at away
      exact Bool.noConfusion away

theorem cfgKey_page {p k : Nat} (h : cfgKey p k = true) : k / 0x10000 = p := by
  have := cfgKey_iff.mp h
  omega

/-- Settles O6: the configuration is latched first, and nothing that the change of state runs writes a latched word. -/
theorem blockEnableLatches : Obligations.BlockEnableLatches := by
  unfold Obligations.BlockEnableLatches
  intro s page canonical clocked present disabled enabled still power
  obtain ⟨wf, state, other, frame⟩ := State.setBlk_spec (s := s.latchPage page.val) canonical.regs page.val (v := 1) (by decide)
  obtain ⟨on, hon⟩ : ∃ t, t = (((s.latchPage page.val).setBlk page.val 1).enablingChecks page.val).settle s := ⟨_, rfl⟩
  have kept : Kept page.val ((s.latchPage page.val).setBlk page.val 1) on := by
    rw [hon]
    exact (Kept.refl wf).enablingChecks.settle
  have latched : on.latched = (s.latchPage page.val).latched := by rw [kept.latched, frame]
  have enabling : on.blk page.val = 1 := (congrArg (fun w => fld w 2 0) (kept.head 0x0C (.inl rfl))).trans state
  have step : exec (.blockEnable page) s = .next (if (s.upset.filter (cfgKey page.val)).isEmpty then on
      else ((s.upset.filter (cfgKey page.val)).foldl (fun s k => (s.parityReport k).parityFlags k) on).toSafe page.val) := by
    have start : s.blockEnable page.val = if (on.upset.filter (cfgKey page.val)).isEmpty then on
        else ((on.upset.filter (cfgKey page.val)).foldl (fun s k => (s.parityReport k).parityFlags k) on).toSafe page.val := by
      rw [State.blockEnable, if_neg, hon]
      rintro (absent | busy | off | held | ⟨cold, past⟩)
      · simp [Option.isSome_iff_ne_none.mp present] at absent
      · exact busy disabled
      · rw [enabled] at off
        exact Bool.noConfusion off
      · exact Bool.noConfusion (still.symm.trans held)
      · rcases power with off | low
        · exact Bool.noConfusion (off.symm.trans cold)
        · omega
    have upset : on.upset = s.upset := by rw [kept.upset, frame]; rfl
    rw [upset] at start
    exact (if_neg (by simp [clocked])).trans (congrArg _ start)
  have config {t : State} (same : t.latched = on.latched) : (∀ o, 0x100 ≤ o → o < 0x1000 → t.cfg page.val o = s.reg page.val o)
      ∧ (∀ p o, p ≠ page.val → 0x100 ≤ o → o < 0x1000 → t.cfg p o = s.cfg p o) := by
    have word (p o : Nat) : t.cfg p o = (s.latchPage page.val).cfg p o := by rw [State.cfg, State.cfg, same, latched]
    refine ⟨fun o lo hi => ?_, fun p o hp lo hi => ?_⟩
    · rw [word, State.cfg_latchPage canonical _ _ lo hi, if_pos rfl]
    · rw [word, State.cfg_latchPage canonical _ _ lo hi, if_neg hp]
  by_cases sound : s.upset.filter (cfgKey page.val) = []
  · rw [sound] at step
    obtain ⟨own, others⟩ := config (t := on) rfl
    exact ⟨on, step, own, others, fun _ => enabling, fun bad => absurd sound bad⟩
  · obtain ⟨shown, fault⟩ := State.parityShown_foldl (s.upset.filter (cfgKey page.val)) (fun k hk => cfgKey_page (List.mem_filter.mp hk).2)
      kept.regs (.inl sound)
    obtain ⟨safe, four, flags⟩ := State.toSafe_spec shown.regs page.val
    obtain ⟨own, others⟩ := config (safe.latched.trans shown.latched)
    rw [if_neg (by simpa using sound)] at step
    exact ⟨_, step, own, others, fun none => absurd none sound, fun _ => ⟨four, by rw [flags, fault]⟩⟩

end Sys2Proof.Machine

namespace Sys2Proof.Machine

/-! ## The scrub -/

/-- A field written shows the low bits of the value. -/
theorem fld_setFld_mod (w : Word) (hi lo v : Nat) (h : hi < 32) : fld (setFld w hi lo v) hi lo = v % 2 ^ (hi + 1 - lo) := by
  apply Nat.eq_of_testBit_eq
  intro i
  by_cases c : i < hi + 1 - lo
  · rw [fld_testBit _ c, bit_setFld _ _ _ _ _ h, if_pos (by omega), Nat.testBit_mod_two_pow, decide_eq_true c, Bool.true_and]
    congr 1
    omega
  · rw [Nat.testBit_mod_two_pow, decide_eq_false c, Bool.false_and]
    exact Nat.testBit_lt_two_pow (lt_of_lt_of_le (fld_lt _ _ _) (Nat.pow_le_pow_right (by omega) (by omega)))

/-- The end of a pass that finds nothing: the count of the passes is one more, and the signatures are taken from the words that stand. -/
def State.scrubCounted (s : State) : State :=
  { s.updReg pgGlobal 0x2020 (fun w => setFld w 15 0 (fld w 15 0 + 1)) with sigWords := some (s.regs.filter (fun e => cfgKey (e.1 / 0x10000) e.1)) }

theorem State.reg_scrubCounted {s : State} (h : Store.wf regReset s.regs = true) {p o : Nat} (hk : regKey p o ≠ regKey pgGlobal 0x2020) :
    s.scrubCounted.reg p o = s.reg p o := State.reg_setReg_other s _ h hk

theorem State.scrubCounted_scrubs {s : State} (h : Store.wf regReset s.regs = true) :
    s.scrubCounted.regFld pgGlobal 0x2020 15 0 = (s.regFld pgGlobal 0x2020 15 0 + 1) % 65536 :=
  (congrArg (fun w => fld w 15 0) (State.reg_setReg_self s _ _ _ h)).trans (fld_setFld_mod _ _ _ _ (by decide))

/-- A signature is computed from configuration words alone. -/
theorem cfgCrc_congr {f g : Nat → Word} (h : ∀ o, 0x100 ≤ o → o < 0x1000 → f o = g o) : cfgCrc f = cfgCrc g := by
  obtain ⟨l, hl⟩ : ∃ l, l = List.range 960 := ⟨_, rfl⟩
  have same : l.flatMap (fun i => laneBytes (f (0x100 + 4 * i))) = l.flatMap (fun i => laneBytes (g (0x100 + 4 * i))) := by
    refine List.flatMap_congr fun i hi => ?_
    rw [hl] at hi
    have := List.mem_range.mp hi
    rw [h _ (by omega) (by omega)]
  rw [cfgCrc, cfgCrc, ← hl, same]

theorem State.scrubCounted_signature {s : State} (h : Store.wf regReset s.regs = true) (p : Nat) :
    s.scrubCounted.cfgSignature p = cfgCrc (s.reg p) := by
  unfold State.cfgSignature State.scrubCounted
  refine cfgCrc_congr fun o lo hi => ?_
  have page : regKey p o / 0x10000 = p := by
    unfold regKey
    omega
  have mine : cfgKey (regKey p o / 0x10000) (regKey p o) = true := by rw [page, cfgKey_regKey lo hi]
  rw [Store.get_filter regReset (fun k => cfgKey (k / 0x10000) k) _ _ _ h, if_pos mine]
  rfl

theorem State.restoreCompare_none {s : State} (h : s.ops.rest = none) : s.restoreCompare = s := by
  rw [State.restoreCompare, h]

/-- An upset that a pass finds: its page shows it, and is SAFE unless it is DISABLED (R47, R48). -/
theorem State.parityFound_spec {s : State} {p k : Nat} (h : Store.wf regReset s.regs = true) (fresh : s.reported = []) (upset : s.upset = [k])
    (hk : k / 0x10000 = p) : Configured p s (s.parityFound k) ∧ bit ((s.parityFound k).reg p 0x10) 0 = true ∧ (s.blk p ≠ 0 → (s.parityFound k).blk p = 4) := by
  obtain ⟨shown, state, fault⟩ := State.parityShown_spec h hk
  obtain ⟨safe, four, flags⟩ := State.toSafe_spec shown.regs p
  unfold State.parityFound
  rw [fresh, upset, hk]
  rw [if_neg (by simp)]
  dsimp only
  rw [state]
  split
  case isTrue e =>
    refine ⟨shown, fault, fun on => ?_⟩
    rw [state]
    exact e.resolve_left on
  case isFalse => exact ⟨shown.trans safe, by rw [flags, fault], fun _ => four⟩

/-- Settles O9: a pass without an upset only counts and takes the words; one with an upset shows it first. -/
theorem scrubFindsParity : Obligations.ScrubFindsParity := by
  unfold Obligations.ScrubFindsParity
  intro s page o b clocked canonical sound fresh idle
  have wf := canonical.regs
  refine ⟨⟨s.scrubCounted, ?_, State.scrubCounted_scrubs wf, fun p _ => State.scrubCounted_signature wf p, fun p u _ hu hp => ?_, rfl⟩,
    fun hpage present lo hi aligned => ?_⟩
  · have passed : s.scrubEnd = s.scrubCounted := by
      unfold State.scrubEnd State.scrubCounted
      rw [sound]
      rfl
    refine (if_neg (by simp [clocked])).trans (congrArg _ ?_)
    rw [List.foldl_nil, passed]
    exact State.restoreCompare_none idle
  · refine State.reg_scrubCounted wf fun e => hp ?_
    rw [(regKey_inj hu (by decide) e).1]
    exact List.mem_singleton.mpr rfl
  · obtain ⟨struck, hstruck⟩ : ∃ t, t = s.strike (regKey page o) b.val := ⟨_, rfl⟩
    have key : regKey page o / 0x10000 = page := by
      unfold regKey
      omega
    have place : regKey page o % 0x10000 = o := by
      unfold regKey
      omega
    have written : struck = { s.setReg page o (s.reg page o ^^^ (oneBit b.val &&& fieldBits page o)) with upset := [regKey page o] } := by
      rw [hstruck, State.strike, key, place, if_pos ⟨present, cfgKey_regKey lo hi⟩]
      dsimp only
      rw [show (s.updReg page o fun w => w ^^^ (oneBit b.val &&& fieldBits page o)).upset = [] from sound]
      rfl
    have wf1 : Store.wf regReset struck.regs = true := by
      rw [written]
      exact Store.wf_put regReset _ _ _ wf
    have upset : struck.upset = [regKey page o] := by rw [written]
    have shown : struck.reg page o = s.reg page o ^^^ (oneBit b.val &&& fieldBits page o) := by
      rw [written]
      exact State.reg_setReg_self s _ _ _ wf
    have state : struck.blk page = s.blk page := by
      rw [written]
      exact congrArg (fun w => fld w 2 0) (State.reg_setReg_other s _ wf (by unfold regKey; omega))
    have scrubs : struck.regFld pgGlobal 0x2020 15 0 = s.regFld pgGlobal 0x2020 15 0 := by
      rw [written]
      exact congrArg (fun w => fld w 15 0) (State.reg_setReg_other s _ wf (by unfold regKey pgGlobal; omega))
    obtain ⟨found, fault, safe⟩ := State.parityFound_spec wf1 (by rw [written]; exact fresh) upset key
    have done : (struck.parityFound (regKey page o)).ops.rest = none := by
      rw [found.rest, written]
      exact idle
    refine ⟨(struck.parityFound (regKey page o)).scrubCounted, ?_, ?_, ?_, fun on => ?_, ?_⟩
    · have place : (word (regKey page o)).toNat / 4 * 4 = regKey page o := by
        rw [word, BitVec.toNat_ofNat, Nat.mod_eq_of_lt (by unfold regKey; omega)]
        unfold regKey
        omega
      have passed : struck.scrubEnd = (struck.parityFound (regKey page o)).scrubCounted := by
        unfold State.scrubEnd State.scrubCounted
        rw [upset]
        rfl
      refine (if_neg (by simp [clocked])).trans (congrArg _ ?_)
      rw [List.foldl_cons, List.foldl_nil]
      dsimp only
      rw [place, ← hstruck, passed]
      exact State.restoreCompare_none done
    · rw [State.reg_scrubCounted found.regs (by unfold regKey pgGlobal; omega), found.config o lo hi, shown]
    · rw [State.reg_scrubCounted found.regs (by unfold regKey pgGlobal; omega), fault]
    · exact (congrArg (fun w => fld w 2 0) (State.reg_scrubCounted found.regs (by unfold regKey pgGlobal; omega))).trans (safe (by rw [state]; exact on))
    · rw [State.scrubCounted_scrubs found.regs, found.scrubs, scrubs]

end Sys2Proof.Machine

namespace Sys2Proof.Machine

/-! ## The drain of a block -/

/-- A block without ENABLE whose drain discards at once (R44, R46). -/
theorem exec_blockDisable_discard {s : State} {page : Fin 256} (clocked : s.stands = false) (present : (pageRow page.val).isSome = true)
    (off : s.enableBit page.val = false) (enabled : s.blk page.val = 2) (discard : bit (s.reg page.val 8) 1 = true) (hp : page.val ≠ pgCpctl) :
    exec (.blockDisable page) s = .next (((s.leaveEnabled page.val).discardWork page.val).toDisabled page.val) := by
  refine (if_neg (by simp [clocked])).trans ?_
  have held : ¬ ((pageRow page.val).isNone = true ∨ s.enableBit page.val = true) := by
    rw [off]
    simp [Option.isSome_iff_ne_none.mp present]
  rw [if_neg held, enabled]
  refine (if_pos (.inl discard)).trans ?_
  rw [if_neg hp]

theorem Kept.setBlk_other {P p v : Nat} {base s : State} (h : Kept P base s) (hp : p ≠ P) : Kept P base (s.setBlk p v) :=
  .ite h (Kept.raise (h.setRegFld (by unfold Clear; omega)))

theorem Kept.clearHeld {P p : Nat} {base s : State} (h : Kept P base s) : Kept P base (s.clearHeld p) := by
  unfold State.clearHeld
  split
  · exact h.clrReg
  · exact h.clrReg
  · exact h.setReg
  · exact h.clrReg
  · exact h.clrReg
  · exact h

/-- A block that becomes DISABLED keeps the headers of the other pages. -/
theorem Kept.toDisabled_other {P p : Nat} {base s : State} (h : Kept P base s) (hp : p ≠ P) : Kept P base (s.toDisabled p) :=
  (Kept.setBlk_other (.ite h.epochLeft h) hp).clearHeld.settle

/-- A frame whose sequence number is behind the one that its stream expects. -/
def lateFrame : Frame :=
  { id := 0, port := 0, quad := 0, recirc := false, seq := 65535, pass := 1, epoch := none, bytes := [], len := 0, gone := 0, ended := true,
    late := false, stamp := 0, mark := none }

/-- PARSE is ENABLED with DRAIN_DISCARD set and ENABLE clear, and holds a frame in a pipeline that the device does not have: nothing in
`State.Canonical` bounds the number. -/
def strayPipeline : State :=
  { State.reset with
    regs := [(0x2060, 1#32), (regKey pgParse 8, 2#32), (regKey pgParse 0x0C, 2#32)]
    pipe := { State.reset.pipe with inside := [{ pipe := 178240, frame := lateFrame, since := 0, stage := none, heldSince := 0, pass := none }] } }

/-- The discarded frame is late for its stream, and the count of its pipeline stands past REORDER's page: it is a configuration word of LADLE. -/
theorem strayPipeline_discarded : Store.wf regReset (strayPipeline.discardWork pgParse).regs = true
    ∧ (strayPipeline.discardWork pgParse).reg pgLadle 0x104 = 1#32 := by
  decide +kernel

/-- Refutes O8: ENABLE = 0 under DRAIN_DISCARD discards a frame of a canonical state that counts in a configuration word of another page. -/
theorem not_blockDisables : ¬ Obligations.BlockDisables := by
  unfold Obligations.BlockDisables
  intro h
  have canonical : strayPipeline.Canonical := by
    have regs : Store.wf regReset strayPipeline.regs = true := by decide +kernel
    exact ⟨regs, rfl, rfl, rfl, rfl, rfl⟩
  obtain ⟨t, run, -, keeps⟩ := ((h strayPipeline ⟨pgParse, by decide⟩ canonical (by decide) (by decide)).1 (by decide)).1 (by decide)
  rw [exec_blockDisable_discard (by decide) (by decide) (by decide) (by decide) (by decide) (by decide)] at run
  obtain ⟨wf, counted⟩ := strayPipeline_discarded
  have kept : Kept pgLadle (strayPipeline.discardWork pgParse) ((strayPipeline.discardWork pgParse).toDisabled pgParse) :=
    (Kept.refl wf).toDisabled_other (by decide)
  have left : strayPipeline.leaveEnabled pgParse = strayPipeline := rfl
  have ended : (strayPipeline.discardWork pgParse).toDisabled pgParse = t := by
    rw [left] at run
    exact Host.Outcome.next.inj run
  have same : t.reg pgLadle 0x104 = strayPipeline.reg pgLadle 0x104 := (keeps pgLadle 0x104 (by decide) (by decide)).1
  have stands : strayPipeline.reg pgLadle 0x104 = 0#32 := by decide
  rw [← ended, kept.head 0x104 (.inr (.inr ⟨by decide, by decide⟩)), counted, stands] at same
  exact absurd same (by decide)

end Sys2Proof.Machine

namespace Sys2Proof.Machine

/-! ## What a store leaves beside the word that it writes

`Beside base s`: of the state `base`, the state `s` has the fence words and the registers of every page but PMU, PAIR, ROLES and CPCTL, where
accesses, relays, refusals and traps are counted. -/

/-- The pages that show what an access records. -/
def recordPages : List Nat := [pgPmu, pgPair, pgRoles, pgCpctl]

structure Beside (base s : State) : Prop where
  regs : Store.wf regReset s.regs = true
  words : ∀ p o, o < 0x10000 → p ∉ recordPages → s.reg p o = base.reg p o
  fences : s.fences = base.fences

namespace Beside

section
variable {base : State} {c : Prop} [Decidable c] {α β γ : Type}

theorem refl {s : State} (h : Store.wf regReset s.regs = true) : Beside s s := ⟨h, fun _ _ _ _ => rfl, rfl⟩

theorem trans {r s t : State} (hs : Beside r s) (ht : Beside s t) : Beside r t :=
  ⟨ht.regs, fun p o ho hp => (ht.words p o ho hp).trans (hs.words p o ho hp), ht.fences.trans hs.fences⟩

theorem ite {s t : State} (hs : Beside base s) (ht : Beside base t) : Beside base (if c then s else t) := by
  split
  · exact hs
  · exact ht

theorem ite_snd {x y : α × State} (hx : Beside base x.2) (hy : Beside base y.2) : Beside base (if c then x else y).2 := by
  split
  · exact hx
  · exact hy

theorem pair {a : α} {t : State} (h : Beside base t) : Beside base (a, t).2 := h

theorem of_snd {x : α × State} {a : α} {t : State} (e : x = (a, t)) (h : Beside base x.2) : Beside base t := by
  subst e
  exact h

theorem foldl {s : State} {f : State → α → State} {l : List α} (h : Beside base s) (hf : ∀ {t} {x : α}, Beside base t → Beside base (f t x)) :
    Beside base (l.foldl f s) := by
  induction l generalizing s with
  | nil => exact h
  | cons x l ih => exact ih (hf h)

theorem foldl_fst {b : State × β} {f : State × β → α → State × β} {l : List α} (h : Beside base b.1)
    (hf : ∀ {t} {x : α}, Beside base t.1 → Beside base (f t x).1) : Beside base (l.foldl f b).1 := by
  induction l generalizing b with
  | nil => exact h
  | cons x l ih => exact ih (hf h)

/-- A loop that carries a value beside the state, whose turns use what their elements are. -/
theorem foldl_snd_mem {b : β × State} {f : β × State → α → β × State} {l : List α} (h : Beside base b.2)
    (hf : ∀ {t}, ∀ x ∈ l, Beside base t.2 → Beside base (f t x).2) : Beside base (l.foldl f b).2 := by
  induction l generalizing b with
  | nil => exact h
  | cons x l ih => exact ih (hf x List.mem_cons_self h) fun y hy => hf y (List.mem_cons_of_mem x hy)

end

section
variable {base s : State} (h : Beside base s)
include h

/-- An update of neither the registers nor the fence words. -/
theorem same {t : State} (hregs : t.regs = s.regs := by rfl) (hfences : t.fences = s.fences := by rfl) : Beside base t where
  regs := hregs ▸ h.regs
  words p o ho hp := by rw [← h.words p o ho hp, State.reg, State.reg, hregs]
  fences := hfences.trans h.fences

theorem setReg {p o : Nat} {v : Word} (hp : p ∈ recordPages := by decide) (ho : o < 0x10000 := by omega) : Beside base (s.setReg p o v) where
  regs := by
    rw [State.setReg_regs]
    exact Store.wf_put regReset _ _ _ h.regs
  words q u hu hq := by
    rw [← h.words q u hu hq]
    refine State.reg_setReg_other s v h.regs fun hk => hq ?_
    rw [(regKey_inj hu ho hk).1]
    exact hp
  fences := h.fences

theorem updReg {p o : Nat} {f : Word → Word} (hp : p ∈ recordPages := by decide) (ho : o < 0x10000 := by omega) : Beside base (s.updReg p o f) :=
  h.setReg hp ho

theorem orReg {p o : Nat} {m : Word} (hp : p ∈ recordPages := by decide) (ho : o < 0x10000 := by omega) : Beside base (s.orReg p o m) :=
  h.setReg hp ho

theorem clrReg {p o : Nat} {m : Word} (hp : p ∈ recordPages := by decide) (ho : o < 0x10000 := by omega) : Beside base (s.clrReg p o m) :=
  h.setReg hp ho

theorem addReg {p o n : Nat} (hp : p ∈ recordPages := by decide) (ho : o < 0x10000 := by omega) : Beside base (s.addReg p o n) := h.setReg hp ho

theorem incReg {p o : Nat} (hp : p ∈ recordPages := by decide) (ho : o < 0x10000 := by omega) : Beside base (s.incReg p o) := h.setReg hp ho

theorem raise {p b : Nat} (hp : p ∈ recordPages := by decide) : Beside base (s.raise p b) := h.orReg hp

theorem withFreeCtr {x : Nat} : Beside base { s with freeCtr := x } := h.same
theorem withReadLatch {x : List (Nat × Word)} : Beside base { s with readLatch := x } := h.same
theorem withLastLow {x : List (Nat × Nat)} : Beside base { s with lastLow := x } := h.same
theorem withWin {x : List (Nat × Word)} : Beside base { s with win := x } := h.same
theorem withHost {x : HostSt} : Beside base { s with host := x } := h.same
theorem withCp {x : CpSt} : Beside base { s with cp := x } := h.same
theorem withNvm {x : NvmSt} : Beside base { s with nvm := x } := h.same
theorem withStat {x : StatSt} : Beside base { s with stat := x } := h.same
theorem withSprue {x : SprueSt} : Beside base { s with sprue := x } := h.same
theorem withPair {x : PairSt} : Beside base { s with pair := x } := h.same
theorem withTime {x : TimeSt} : Beside base { s with time := x } := h.same
theorem withPow {x : PowSt} : Beside base { s with pow := x } := h.same

end
end Beside

/-! ### What records an access -/

section
set_option Elab.async false
variable {base s : State}

theorem Beside.fresh (h : Beside base s) : Beside base s.fresh.2 := h.withFreeCtr

theorem Beside.setWin (h : Beside base s) {p u i : Nat} {v : Word} : Beside base (s.setWin p u i v) := h.withWin

theorem Beside.deny (h : Beside base s) : Beside base s.deny := h.incReg

theorem Beside.audit (h : Beside base s) {r : AuditRec} : Beside base (s.audit r) := .ite h.withNvm h.withNvm

theorem Beside.auditBy (h : Beside base s) {a : Agent} {kind status page : Nat} {addr data : Word} {count : Nat} :
    Beside base (s.auditBy a kind status page addr data count) :=
  h.audit

theorem Beside.dropPairLatch (h : Beside base s) {a : Agent} : Beside base (s.dropPairLatch a) := h.withStat

theorem Beside.pmuInc (h : Beside base s) {n : Nat} (hn : n < 256) : Beside base (s.pmuInc n) := by
  have low : pmuVal n < 0x10000 := by unfold pmuVal; omega
  have high : pmuVal n + 4 < 0x10000 := by unfold pmuVal; omega
  unfold State.pmuInc
  extract_lets _ _ _ t u v keys w
  have hu : Beside base u := (h.setReg (ho := low)).setReg (ho := high)
  have hw : Beside base w := (hu.orReg (ho := high)).withReadLatch
  exact .ite hu (.ite hw.raise hw)

theorem Beside.pmuTake (h : Beside base s) {n : Nat} (hn : n < 256) : Beside base (s.pmuTake n).2 := by
  unfold State.pmuTake
  extract_lets t per c
  have ht : Beside base t := h.pmuInc hn
  exact .ite_snd ht (.ite_snd ht.setWin ht.setWin)

/-- As `takesEvent_leavesConfig`, stated for any `take` so that the kernel compares the loops without running them. -/
theorem takesEvent_beside (take : State → Nat → Bool × State) (ht : ∀ {s} n, n < 256 → Beside base s → Beside base (take s n).2)
    (l : List Nat) (hl : ∀ n ∈ l, n < 256) (h : Beside base s) :
    Beside base (l.foldl (fun (r : List Nat × State) n =>
      let (hit, s) := take r.2 n
      (if hit then r.1 ++ [n] else r.1, s)) ([], s)).2 :=
  .foldl_snd_mem h fun n hn h => ht n (hl n hn) h

theorem Beside.pmuEvent (h : Beside base s) {e : PmuEvent} : Beside base (s.pmuEvent e).2 := by
  unfold State.pmuEvent
  split
  · exact h
  · exact takesEvent_beside State.pmuTake (fun _ hn h => h.pmuTake hn) _ (fun n hn => List.mem_range.mp (List.mem_filter.mp hn).1) h

theorem Beside.pmuDropHold (h : Beside base s) {a : Agent} : Beside base (s.pmuDropHold a) := h.withStat

theorem Beside.sampleLost (h : Beside base s) : Beside base s.sampleLost := h.withStat.incReg.raise

theorem Beside.sample (h : Beside base s) {r : List Byte} : Beside base (s.sample r) := .ite h (.ite h.sampleLost h.withStat)

theorem Beside.journalPut (h : Beside base s) {kind items : Nat} {body : List Word} : Beside base (s.journalPut kind items body) :=
  .ite h (.ite h.withPair.orReg h.withPair)

theorem Beside.journal (h : Beside base s) {kind items : Nat} {body : List Word} : Beside base (s.journal kind items body) := .ite h.journalPut h

theorem Beside.queueCtl (h : Beside base s) {k dst len : Nat} {payload : List Byte} : Beside base (s.queueCtl k dst len payload) := h.withSprue

theorem Beside.sendControl (h : Beside base s) {gs : List Nat} {dst len : Nat} {payload : List Byte} {t : State}
    (e : s.sendControl gs dst len payload = some t) : Beside base t := by
  unfold State.sendControl at e
  split at e
  · cases e
  · cases e
    exact h.queueCtl

theorem Beside.sendRelayCell (h : Beside base s) {flags seq : Nat} {addr mask : Word} {data : List Word} :
    Beside base (s.sendRelayCell flags seq addr mask data) := by
  unfold State.sendRelayCell
  cases e : s.sendControl s.jointGroups s.otherDev (20 + 4 * data.length) (relayBytes flags seq data.length addr mask data) with
  | none => exact h
  | some t => exact h.sendControl e

theorem Beside.sendRelay (h : Beside base s) {r : Relay} : Beside base (s.sendRelay r) := h.sendRelayCell

theorem Beside.pumpRelays (h : Beside base s) : Beside base s.pumpRelays := .foldl h.withPair fun h => h.sendRelay.incReg

theorem Beside.putRelay (h : Beside base s) {r : Relay} : Beside base (s.putRelay r) := h.withPair.pumpRelays

theorem Beside.relayWords (h : Beside base s) {agent : Nat} {mirror read fixed : Bool} {addr : Nat} {mask : Option Word} {data : List Word} :
    Beside base (s.relayWords agent mirror read fixed addr mask data) :=
  .foldl_fst h fun h => h.putRelay

theorem Beside.journalWrite (h : Beside base s) {p o : Nat} {mask data : Word} : Beside base (s.journalWrite p o mask data) := .ite h.journal h

theorem Beside.stopApp (h : Beside base s) : Beside base s.stopApp := h.clrReg

theorem Beside.touchPage (h : Beside base s) {a : Agent} {p : Nat} : Beside base (s.touchPage a p) :=
  .ite h.withLastLow.dropPairLatch (.ite h.withLastLow.pmuDropHold h.withLastLow)

theorem Beside.accessEvent (h : Beside base s) {code : Nat} {a : Agent} {space : Option (Nat × Nat)} {load : Nat} :
    Beside base (s.accessEvent code a space load) := by
  unfold State.accessEvent
  extract_lets +onlyGivenNames mode
  split
  rename_i s1 e
  have hs1 : Beside base s1 := .of_snd e h.pmuEvent
  split
  · refine .foldl hs1 fun h1 => ?_
    exact h1.fresh.fresh.sample
  · refine .foldl hs1 fun h1 => ?_
    exact h1.fresh.fresh.sample
  · exact hs1

theorem Beside.noteAccess (h : Beside base s) {w : Who} {addr load : Nat} : Beside base (s.noteAccess w addr load) := .ite h h.accessEvent

theorem Beside.auditWrite (h : Beside base s) {a : Agent} {st : Status} {addr : Nat} {data : Word} {n : Nat} {hit : Bool} :
    Beside base (s.auditWrite a st addr data n hit) := by
  unfold State.auditWrite
  extract_lets +onlyGivenNames p
  split
  · exact h
  · exact h
  · exact .ite h (.ite h.auditBy (.ite h.auditBy h))

theorem Beside.countStore (h : Beside base s) : Beside base s.countStore := by
  unfold State.countStore
  extract_lets +onlyGivenNames more
  split
  · exact h.withNvm
  · exact h.withNvm

theorem Beside.auditStore (h : Beside base s) {a : Agent} {st : Status} {addr : Nat} {data : Word} : Beside base (s.auditStore a st addr data) := by
  unfold State.auditStore
  extract_lets +onlyGivenNames p own
  split
  · exact h.auditWrite
  · extract_lets +onlyGivenNames joined room t
    have ht : Beside base t := .ite h.countStore h.auditWrite
    exact ht.withNvm

theorem Beside.mirrorWrite (h : Beside base s) {agent addr : Nat} {mask data : Word} : Beside base (s.mirrorWrite agent addr mask data) := by
  unfold State.mirrorWrite
  split
  · exact h
  · split
    · exact h
    · exact .ite h (.ite h.relayWords h.relayWords)

theorem Beside.setCoreReg (h : Beside base s) {k n : Nat} {v : BitVec 64} : Beside base (s.setCoreReg k n v) := .ite h h.withCp

theorem Beside.coreTrap (h : Beside base s) {k : Nat} {user : Bool} {cause : Nat} {tval : BitVec 64} : Beside base (s.coreTrap k user cause tval) :=
  h.setCoreReg.setCoreReg.setCoreReg.setCoreReg.setCoreReg

theorem Beside.appStopped (h : Beside base s) {cause k : Nat} {addr : Word} : Beside base (s.appStopped cause k addr) :=
  h.stopApp.setReg.setReg.incReg.raise

theorem Beside.appTrap (h : Beside base s) {cause k exc : Nat} {addr : Word} : Beside base (s.appTrap cause k exc addr) := h.coreTrap.appStopped

theorem Beside.retired (h : Beside base s) {a : Agent} {load : Option Nat} : Beside base (s.retired a load) := by
  unfold State.retired
  split
  · exact h
  · extract_lets +onlyGivenNames s1
    have hs1 : Beside base s1 := h.accessEvent
    split
    · exact .ite hs1.accessEvent hs1
    · exact hs1

end

end Sys2Proof.Machine

namespace Sys2Proof.Machine

/-! ## A store of a word of any page, from the bus to the agent

`State.store_pageWord` leads a store of a header, configuration or live word back to the write of the word. Here the store of any word of a page is
led back to what the bus does, and a store that does not reach the bus is bounded. -/

/-- The agent's store comes to the bus: `State.reaches` without the rights that the word asks for. -/
structure State.OnPath (s : State) (a : Agent) (p o : Nat) (data : Word) : Prop where
  powered : s.inReset = false
  clocked : s.stands = false ∨ a = .bellows
  core : ∀ k, a = .core k → s.cp.halted.any (fun e => e.1 == k.val) = false
  app : ∀ k, a = .app k → s.appOn k.val = true ∧ s.appMayStore (regAddr p o) 0xFFFFFFFF#32 data = true
  debug : a = .debug → s.attached = true

theorem State.reaches_iff {s : State} {a : Agent} {p o : Nat} {data : Word} :
    s.reaches a p o data ↔ s.OnPath a p o data ∧ s.mayWrite (s.agentRights a p) p o 0xFFFFFFFF#32 data = true := by
  constructor
  · rintro ⟨powered, clocked, core, app, debug, rights⟩
    exact ⟨⟨powered, clocked, core, app, debug⟩, rights⟩
  · rintro ⟨⟨powered, clocked, core, app, debug⟩, rights⟩
    exact ⟨powered, clocked, core, app, debug, rights⟩

/-- The answer `y` is the answer `x` with records of it. -/
structure Recorded (x y : Status × State) : Prop where
  status : y.1 = x.1
  beside : Beside x.2 y.2

/-- The answer `y` of a store at `s` is the bus's answer `x` with records of it, where the store comes to the bus, and else a refusal. -/
structure Carried (s : State) (x : Status × State) (path : Prop) (y : Status × State) : Prop where
  made : path → Recorded x y
  stopped : ¬ path → y.1 ≠ .ok ∧ Beside s y.2

section
variable {s : State} {x : Status × State} {path : Prop}

theorem Carried.retires (a : Agent) {y : Status × State} (h : Carried s x path y) : Carried s x path (storeRetires a y) where
  made hp := ⟨(h.made hp).status, .ite (h.made hp).beside (h.made hp).beside.retired⟩
  stopped hn := ⟨(h.stopped hn).1, .ite (h.stopped hn).2 (h.stopped hn).2.retired⟩

theorem Carried.of_iff {path' : Prop} {y : Status × State} (h : Carried s x path y) (e : path' ↔ path) : Carried s x path' y :=
  ⟨fun hp => h.made (e.mp hp), fun hn => h.stopped fun hp => hn (e.mpr hp)⟩

theorem Carried.of_stopped {y : Status × State} (hn : ¬ path) (hst : y.1 ≠ .ok) (hy : Beside s y.2) : Carried s x path y :=
  ⟨fun hp => absurd hp hn, fun _ => ⟨hst, hy⟩⟩

theorem Carried.of_made {y : Status × State} (hp : path) (hy : Recorded x y) : Carried s x path y := ⟨fun _ => hy, fun hn => absurd hp hn⟩

end

/-- An address of a word of an implemented page, and not that of Q_CTRL, which a quenched device still takes (R454). -/
structure PageAddr (p o : Nat) (r : PageRow) : Prop where
  page_lt : p < 256
  page : pageRow p = some r
  small : o < 0x10000
  aligned : o % 4 = 0
  notQuench : regAddr p o ≠ 0x400D1008

section
variable {p o : Nat} {r : PageRow} (hw : PageAddr p o r) {s : State} {a : Agent} {data : Word} {x : Status × State}

/-- What the bus answered, and that the answer is no access fault. -/
structure BusTook (s : State) (a : Agent) (p o : Nat) (data : Word) (x : Status × State) : Prop where
  answer : s.busWrite (s.ownWho a p) (regAddr p o) 0xFFFFFFFF#32 data = x
  regs : Store.wf regReset x.2.regs = true
  quiet : x.1 ≠ .accessFault

/-- The body of `State.writeBus` is unfolded through a variable, as in `State.writeBus_config`. -/
theorem State.writeBus_of_busTook (hx : BusTook s a p o data x) :
    Recorded x (s.writeBus (s.ownWho a p) (regAddr p o) 0xFFFFFFFF#32 data) := by
  obtain ⟨answer, regs, -⟩ := hx
  have note : ∀ t : State, Store.wf regReset t.regs = true → Beside t (t.noteAccess (s.ownWho a p) (regAddr p o) 0) := fun t ht =>
    (Beside.refl ht).noteAccess
  generalize hf : State.writeBus = writeBus
  delta State.writeBus at hf
  generalize State.noteAccess = noteAccess at note hf
  generalize State.busWrite = busWrite at answer hf
  subst hf
  beta_reduce
  generalize busWrite s (s.ownWho a p) (regAddr p o) 0xFFFFFFFF#32 data = y at answer ⊢
  subst answer
  obtain ⟨st, t⟩ := y
  exact ⟨rfl, .ite (note t regs) (.refl regs)⟩

include hw

theorem State.storeWord_of_busTook (hx : BusTook s a p o data x) :
    Recorded x (s.storeWord a (regAddr p o) 0xFFFFFFFF#32 data) := by
  have addr : ∀ w, s.writeAddr w (regAddr p o) 0xFFFFFFFF#32 data = s.writeBus w (regAddr p o) 0xFFFFFFFF#32 data := fun w =>
    if_pos (regAddr_inPages hw.page_lt hw.small)
  have write := State.writeBus_of_busTook hx
  have audit : ∀ {t : State} (st : Status), Beside x.2 t → Beside x.2 (t.auditStore a st (regAddr p o) data) := fun st h => h.auditStore
  have mirror : ∀ {t : State}, Beside x.2 t → Beside x.2 (t.mirrorWrite a.id (regAddr p o) 0xFFFFFFFF#32 data) := fun h => h.mirrorWrite
  unfold State.storeWord
  rw [regAddr_page hw.small, addr]
  generalize State.auditStore = auditStore at audit ⊢
  generalize State.mirrorWrite = mirrorWrite at mirror ⊢
  generalize s.writeBus (s.ownWho a p) (regAddr p o) 0xFFFFFFFF#32 data = y at write ⊢
  obtain ⟨answer, beside⟩ := write
  obtain ⟨st, t⟩ := y
  exact ⟨answer, .ite (mirror (audit st beside)) (audit st beside)⟩

theorem State.corePages_eq_storeWord : s.corePages a (regAddr p o) .word (data.setWidth 64) = s.storeWord a (regAddr p o) 0xFFFFFFFF#32 data := by
  have same : (data.setWidth 64).setWidth 32 = data := BitVec.setWidth_setWidth_of_le data (by omega)
  unfold State.corePages
  simp only [regAddr_whole hw.aligned, laneMask, laneData, same]

theorem State.coreStore_carried (hs : Store.wf regReset s.regs = true) {k : Fin 4} (hx : BusTook s (.core k) p o data x) :
    Carried s x (s.cp.halted.any (fun e => e.1 == k.val) = false) (s.coreStore k (regAddr p o) .word (data.setWidth 64)) := by
  have write := State.storeWord_of_busTook hw hx
  rw [← State.corePages_eq_storeWord hw] at write
  have page := regAddr_page (p := p) hw.small
  have inside := regAddr_inPages hw.page_lt hw.small
  have aligned : accAligned .word (regAddr p o) = true := decide_eq_true (regAddr_aligned hw.aligned)
  have quiet := hx.quiet
  generalize hf : State.coreStore = coreStore
  delta State.coreStore at hf
  subst hf
  beta_reduce
  generalize regAddr p o = addr at page inside aligned write ⊢
  by_cases halted : s.cp.halted.any (fun e => e.1 == k.val) = true
  · rw [if_pos halted]
    exact .of_stopped (by simp [halted]) (by simp) (.refl hs)
  · simp only [halted, page, inside, aligned, hw.page, Bool.not_true, Bool.false_eq_true, if_false, if_true, Option.isNone_some]
    generalize s.corePages (.core k) addr .word (data.setWidth 64) = y at write ⊢
    obtain ⟨answer, beside⟩ := write
    obtain ⟨st, t⟩ := y
    refine .of_made trivial ⟨answer, ?_⟩
    rwa [if_neg fun e => quiet (answer.symm.trans e)]

theorem State.appStore_carried (hs : Store.wf regReset s.regs = true) {k : Fin 4} (hx : BusTook s (.app k) p o data x) :
    Carried s x (s.appOn k.val = true ∧ s.appMayStore (regAddr p o) 0xFFFFFFFF#32 data = true)
      (s.appStore k (regAddr p o) .word (data.setWidth 64)) := by
  have write := State.storeWord_of_busTook hw hx
  rw [← State.corePages_eq_storeWord hw] at write
  have page := regAddr_page (p := p) hw.small
  have inside := regAddr_inPages hw.page_lt hw.small
  have aligned : accAligned .word (regAddr p o) = true := decide_eq_true (regAddr_aligned hw.aligned)
  have whole := regAddr_whole (p := p) hw.aligned
  have trap : ∀ e v, Beside s (s.appTrap 1 k.val e v) := fun e v => (Beside.refl hs).appTrap
  generalize hf : State.appStore = appStore
  delta State.appStore at hf
  subst hf
  beta_reduce
  generalize State.appTrap = appTrap at trap ⊢
  generalize regAddr p o = addr at page inside aligned whole write ⊢
  by_cases on : s.appOn k.val = true
  · by_cases may : s.appMayStore addr 0xFFFFFFFF#32 data = true
    · refine .of_made ⟨on, may⟩ ?_
      simpa [on, may, page, inside, aligned, whole, hw.page, laneMask, laneData, accBytes] using write
    · rw [Bool.not_eq_true] at may
      refine .of_stopped (by simp [may]) ?_ ?_ <;> simp [on, may, page, inside, aligned, whole, hw.page, laneMask, laneData, trap]
  · rw [Bool.not_eq_true] at on
    exact .of_stopped (by simp [on]) (by simp [on]) (by simpa [on] using Beside.refl hs)

/-- A whole-word store that comes to the bus is the bus's answer with records of it, and any other is refused. -/
theorem State.store_carried (hs : Store.wf regReset s.regs = true) (hx : BusTook s a p o data x) :
    Carried s x (s.OnPath a p o data) (s.store a (regAddr p o) .word (data.setWidth 64)) := by
  have same : (data.setWidth 64).setWidth 32 = data := BitVec.setWidth_setWidth_of_le data (by omega)
  have other : (regAddr p o != 0x400D1008) = true := bne_iff_ne.mpr hw.notQuench
  have word := State.storeWord_of_busTook hw hx
  unfold State.store
  rw [other, Bool.and_true]
  by_cases open_ : s.inReset = false ∧ (s.stands = false ∨ a = .bellows)
  · obtain ⟨powered, clocked⟩ := open_
    have free : ¬ (s.inReset || (s.stands && a != .bellows)) = true := by
      rcases clocked with h | h <;> simp [powered, h]
    rw [if_neg free]
    cases a with
    | core k =>
      refine ((State.coreStore_carried hw hs hx).retires (.core k)).of_iff ⟨fun h => h.core k rfl, fun h => ⟨powered, clocked, ?_, nofun, nofun⟩⟩
      rintro j ⟨⟩
      exact h
    | app k =>
      refine ((State.appStore_carried hw hs hx).retires (.app k)).of_iff ⟨fun h => h.app k rfl, fun h => ⟨powered, clocked, nofun, ?_, nofun⟩⟩
      rintro j ⟨⟩
      exact h
    | debug =>
      by_cases attached : s.attached = true
      · simp only [attached, if_true, same]
        exact .of_made ⟨powered, clocked, nofun, nofun, fun _ => attached⟩ word
      · rw [if_neg attached]
        exact .of_stopped (fun h => attached (h.debug rfl)) (by simp) (.refl hs)
    | i3c | mgmt | bellows =>
      rw [same]
      exact .of_made ⟨powered, clocked, nofun, nofun, nofun⟩ word
  · have busy : (s.inReset || (s.stands && a != .bellows)) = true := by
      by_contra h
      simp only [Bool.or_eq_true, Bool.and_eq_true, bne_iff_ne, not_or, Bool.not_eq_true, not_and] at h
      refine open_ ⟨h.1, ?_⟩
      by_cases stands : s.stands = true
      · exact .inr (by_contra fun hb => h.2 stands hb)
      · exact .inl (Bool.eq_false_iff.mpr stands)
    rw [if_pos busy]
    exact .of_stopped (fun h => open_ ⟨h.powered, h.clocked⟩) (by simp) (.refl hs)

end

end Sys2Proof.Machine

namespace Sys2Proof.Machine

/-! ### The write that the bus makes -/

section
variable {p o : Nat} {r : PageRow} {s : State} {a : Agent} {mask data : Word}

/-- A write that the agent's rights allow, with its journal record (R43, R402). -/
theorem State.writeAt_recorded (value : p ≠ pgPmu ∨ o < 0x2000) (window : o < 0x8000)
    (rights : s.mayWrite (s.agentRights a p) p o mask data = true)
    (regs : Store.wf regReset ((s.touchPage a p).writeWord (s.ownWho a p) r p o mask data).2.regs = true) :
    Recorded ((s.touchPage a p).writeWord (s.ownWho a p) r p o mask data) (s.writeAt (s.ownWho a p) r p o mask data) := by
  have latched : (p == pgPmu && decide (0x2100 ≤ o) && decide (o < 0x2900)) = false := by
    rcases value with h | h
    · simp [h]
    · simp [show ¬ 0x2100 ≤ o by omega]
  have direct : isStoreWin p o = false := by simp [isStoreWin, show ¬ 0x8000 ≤ o by omega]
  have own : (s.ownWho a p).rights = s.agentRights a p := rfl
  have agent : (s.ownWho a p).agent = a := rfl
  unfold State.writeAt
  simp only [latched, direct, own, agent, rights, Bool.not_true, Bool.and_false, Bool.false_eq_true, if_false]
  generalize (s.touchPage a p).writeWord (s.ownWho a p) r p o mask data = x at regs ⊢
  obtain ⟨st, t⟩ := x
  dsimp only
  split
  · exact ⟨rfl, (Beside.refl regs).journalWrite⟩
  · exact ⟨rfl, .refl regs⟩

/-- A write that they do not allow (R99). -/
theorem State.writeAt_denied (window : o < 0x8000) (rights : s.mayWrite (s.agentRights a p) p o mask data = false) :
    s.writeAt (s.ownWho a p) r p o mask data = (.denied, s.deny) := by
  have direct : isStoreWin p o = false := by simp [isStoreWin, show ¬ 0x8000 ≤ o by omega]
  have own : (s.ownWho a p).rights = s.agentRights a p := rfl
  have checked : (s.ownWho a p).src.checked = true := rfl
  unfold State.writeAt
  simp only [direct, own, checked, rights, Bool.not_false, Bool.and_self, if_true]

theorem Recorded.trans {x y z : Status × State} (h : Recorded x y) (k : Recorded y z) : Recorded x z :=
  ⟨k.status.trans h.status, h.beside.trans k.beside⟩

theorem PageWord.addr (hw : PageWord p o r) : PageAddr p o r := ⟨hw.page_lt, hw.page, hw.small, hw.aligned, hw.regAddr_ne⟩

/-- A store of a header, configuration or live word: its write with records of it where it reaches the word, and else a refusal. -/
theorem State.store_recorded (hs : Store.wf regReset s.regs = true) (hw : PageWord p o r)
    (regs : Store.wf regReset (s.wordWrite a r p o data).2.regs = true) (quiet : (s.wordWrite a r p o data).1 ≠ .accessFault) :
    Carried s (s.wordWrite a r p o data) (s.reaches a p o data) (s.store a (regAddr p o) .word (data.setWidth 64)) := by
  have answer := s.busWrite_pageWord hw data (s.ownWho a p)
  have high := hw.high
  by_cases rights : s.mayWrite (s.agentRights a p) p o 0xFFFFFFFF#32 data = true
  · have write := State.writeAt_recorded (r := r) (.inr hw.high) (by omega) rights regs
    have carried := State.store_carried hw.addr hs ⟨answer, write.beside.regs, by rw [write.status]; exact quiet⟩
    refine ⟨fun h => write.trans (carried.made (State.reaches_iff.mp h).1), fun h => carried.stopped fun path => h ?_⟩
    exact State.reaches_iff.mpr ⟨path, rights⟩
  · have out : ¬ s.reaches a p o data := fun h => rights (State.reaches_iff.mp h).2
    rw [State.writeAt_denied (by omega) (Bool.eq_false_iff.mpr rights)] at answer
    have denied : Beside s s.deny := (Beside.refl hs).deny
    have carried := State.store_carried hw.addr hs ⟨answer, denied.regs, by simp⟩
    refine .of_stopped out ?_ ?_
    all_goals by_cases path : s.OnPath a p o data
    · simp [(carried.made path).status]
    · exact (carried.stopped path).1
    · exact denied.trans (carried.made path).beside
    · exact (carried.stopped path).2

end

/-! ## The locks (R55, R56) -/

theorem Beside.lockW {base s : State} (h : Beside base s) {k : Nat} (hk : k < 64) : s.lockW k = base.lockW k :=
  h.words pgLocks _ (by omega) (by decide)

theorem locksRow : ∃ r, pageRow pgLocks = some r ∧ r.kind = .locks := ⟨_, rfl, rfl⟩

theorem mirrorWord_lock {k : Nat} (hk : k < 64) : mirrorWord pgLocks (0x1000 + 4 * k) = false := by
  have all : ∀ k < 64, mirrorWord pgLocks (0x1000 + 4 * k) = false := by decide
  exact all k hk

/-- A whole-word write of a lock is the write of its owner (R56). -/
theorem State.wordWrite_lock {s : State} {a : Agent} {r : PageRow} {k : Nat} (hk : k < 64) (hr : r.kind = .locks) (data : Word) :
    s.wordWrite a r pgLocks (0x1000 + 4 * k) data = (s.touchPage a pgLocks).lockWrite a k (fld data 3 0) := by
  have own : (s.ownWho a pgLocks).src = .own := rfl
  have agent : (s.ownWho a pgLocks).agent = a := rfl
  have index : (0x1000 + 4 * k - 0x1000) / 4 = k := by omega
  unfold State.wordWrite
  generalize s.touchPage a pgLocks = u
  unfold State.writeWord State.cfRefuses
  simp only [mirrorWord_lock hk, Bool.and_false, Bool.false_and, show ¬ 0x1000 + 4 * k < 0x1000 by omega, decide_false, hr,
    show ¬ 0x1000 + 4 * k < 0x100 by omega, show 0x1000 + 4 * k < 0x4000 by omega, if_true, if_false, Bool.false_eq_true]
  unfold State.writeLive State.liveLocks
  simp only [agent, show 0x1000 + 4 * k < 0x1100 by omega, if_true, index, blend_ones]
  exact if_neg (by decide)

theorem agentId_bounds (a : Agent) : 0 < a.id ∧ a.id < 16 := by
  cases a with
  | core k | app k =>
    have := k.isLt
    simp only [Agent.id]
    omega
  | i3c | mgmt | debug | bellows => decide

theorem fld_word_id (a : Agent) : fld (word a.id) 3 0 = a.id := by
  have := agentId_bounds a
  simp only [fld, word, BitVec.toNat_ofNat, Nat.pow_zero, Nat.div_one]
  omega

section
variable {s : State} {a : Agent} {k : Nat}

theorem State.lockWrite_take (free : s.lockOwner k = 0) (works : s.safe pgLocks = false) : s.lockWrite a k a.id =
    (.ok, s.setReg pgLocks (0x1000 + 4 * k) (setFld (setFld (s.lockW k) 3 0 a.id) 31 16 (fld (s.lockW k) 31 16 + 1))) := by
  have := agentId_bounds a
  unfold State.lockWrite
  simp only [free, works, if_true, show ¬ 0 = a.id by omega, if_false, ne_eq, not_true_eq_false, Bool.false_eq_true]

theorem State.lockWrite_safe (free : s.lockOwner k = 0) (safe : s.safe pgLocks = true) : s.lockWrite a k a.id = (.cfgLocked, s) := by
  have := agentId_bounds a
  unfold State.lockWrite
  simp only [free, safe, if_true, show ¬ 0 = a.id by omega, if_false, ne_eq, not_true_eq_false]

theorem State.lockWrite_release (own : s.lockOwner k = a.id) :
    s.lockWrite a k 0 = (.ok, s.setReg pgLocks (0x1000 + 4 * k) (setFld (putBit (s.lockW k) 8 false) 3 0 0)) := by
  have := agentId_bounds a
  unfold State.lockWrite
  simp only [own, show ¬ 0 = a.id by omega, show ¬ a.id = 0 by omega, if_true, if_false]
  rfl

theorem State.lockWrite_held (held : s.lockOwner k ≠ 0) (other : s.lockOwner k ≠ a.id) {v : Nat} (hv : v = a.id ∨ v = 0) :
    s.lockWrite a k v = (.lockHeld, s) := by
  unfold State.lockWrite
  rcases hv with rfl | rfl
  · simp only [held, other, if_true, if_false, ne_eq, not_false_eq_true]
  · have := agentId_bounds a
    simp only [held, other, show ¬ 0 = a.id by omega, if_true, if_false]

end

/-- What a store of a lock word does, by what the write of its owner does in the state that the store finds. -/
theorem State.store_lock {s : State} {a : Agent} {k : Nat} {data : Word} {x : Status × State} (hs : Store.wf regReset s.regs = true) (hk : k < 64)
    (write : ∀ u : State, u.regs = s.regs → (u.lockWrite a k (fld data 3 0)).1 = x.1 ∧ (u.lockWrite a k (fld data 3 0)).2.regs = x.2.regs)
    (regs : Store.wf regReset x.2.regs = true) (quiet : x.1 ≠ .accessFault) :
    (s.reaches a pgLocks (0x1000 + 4 * k) data → s.writeStatus a pgLocks (0x1000 + 4 * k) data = x.1
        ∧ ∀ j < 64, (s.regWrite a pgLocks (0x1000 + 4 * k) data).lockW j = x.2.lockW j)
      ∧ (¬ s.reaches a pgLocks (0x1000 + 4 * k) data → s.writeStatus a pgLocks (0x1000 + 4 * k) data ≠ .ok
        ∧ ∀ j < 64, (s.regWrite a pgLocks (0x1000 + 4 * k) data).lockW j = s.lockW j) := by
  obtain ⟨r, page, kind⟩ := locksRow
  have hw : PageWord pgLocks (0x1000 + 4 * k) r := ⟨by decide, page, by omega, by omega, fun h => absurd (Prod.ext_iff.mp h).1 (show ¬ pgLocks = pgDebug by decide)⟩
  have made := State.wordWrite_lock (s := s) (a := a) hk kind data
  obtain ⟨status, same⟩ := write _ (s.touchPage_regs_latched a pgLocks).1
  have stored := State.store_recorded hs hw (a := a) (data := data) (by rw [made, same]; exact regs) (by rw [made, status]; exact quiet)
  refine ⟨fun reach => ?_, fun out => ?_⟩
  · obtain ⟨answer, beside⟩ := stored.made reach
    refine ⟨answer.trans (by rw [made, status]), fun j hj => (beside.lockW hj).trans ?_⟩
    rw [made]
    exact State.reg_congr same _ _
  · obtain ⟨answer, beside⟩ := stored.stopped out
    exact ⟨answer, fun j hj => beside.lockW hj⟩

theorem State.lockW_congr {s t : State} (h : t.regs = s.regs) (k : Nat) : t.lockW k = s.lockW k := State.reg_congr h _ _

theorem State.lockW_setReg_other {s : State} (hs : Store.wf regReset s.regs = true) {j k : Nat} (v : Word) (hj : j ≠ k) :
    (s.setReg pgLocks (0x1000 + 4 * k) v).lockW j = s.lockW j := State.reg_setReg_other s v hs (by unfold regKey; omega)

theorem State.lockW_setReg_self {s : State} (hs : Store.wf regReset s.regs = true) {k : Nat} (v : Word) :
    (s.setReg pgLocks (0x1000 + 4 * k) v).lockW k = v := State.reg_setReg_self s _ _ v hs

/-- Settles O15: each case is one branch of the write of a lock's owner, and a store beside it leaves the locks. -/
theorem lockOwnership : Obligations.LockOwnership := by
  intro s a k canonical
  have hs := canonical.regs
  have hk := k.isLt
  have id := agentId_bounds a
  have put (v : Word) : Store.wf regReset (s.setReg pgLocks (0x1000 + 4 * k.val) v).regs = true := Store.wf_put regReset _ _ _ hs
  have acquire : exec (.lockAcquire a k) s = .next (s.regWrite a pgLocks (0x1000 + 4 * k.val) (word a.id)) := rfl
  have release : exec (.lockRelease a k) s = .next (s.regWrite a pgLocks (0x1000 + 4 * k.val) 0) := rfl
  refine ⟨fun free reach => ⟨fun works => ⟨_, acquire, ?_⟩, fun safe => ⟨_, acquire, ?_⟩⟩, fun own reach => ⟨_, release, ?_⟩, fun held other => ?_⟩
  · obtain ⟨taken, -⟩ := State.store_lock (a := a) (data := word a.id)
      (x := (.ok, s.setReg pgLocks (0x1000 + 4 * k.val) (setFld (setFld (s.lockW k.val) 3 0 a.id) 31 16 (fld (s.lockW k.val) 31 16 + 1)))) hs hk
      (fun u hu => by
        have word := State.lockW_congr hu k.val
        rw [fld_word_id, State.lockWrite_take (by rw [State.lockOwner, word]; exact free) (by rw [State.safe, State.blk_congr hu]; exact works), word]
        exact ⟨rfl, by simp only [State.setReg_regs, hu]⟩) (put _) (by simp)
    obtain ⟨-, locks⟩ := taken reach
    rw [State.lockOwner, locks k.val hk, State.lockW_setReg_self hs]
    refine ⟨?_, fld_setFld_mod _ _ _ _ (by decide), fun j hj hne => ?_⟩
    · rw [fld_setFld_other _ _ _ _ _ _ (by decide) (by decide), fld_setFld_self _ _ _ _ (by decide) (by omega)]
    · rw [locks j hj, State.lockW_setReg_other hs _ hne]
  · obtain ⟨refused, -⟩ := State.store_lock (a := a) (data := word a.id) (x := (.cfgLocked, s)) hs hk
      (fun u hu => by
        rw [fld_word_id, State.lockWrite_safe (by rw [State.lockOwner, State.lockW_congr hu]; exact free) (by rw [State.safe, State.blk_congr hu]; exact safe)]
        exact ⟨rfl, hu⟩) hs (by simp)
    exact (refused reach).2 k.val hk
  · obtain ⟨freed, -⟩ := State.store_lock (a := a) (data := 0)
      (x := (.ok, s.setReg pgLocks (0x1000 + 4 * k.val) (setFld (putBit (s.lockW k.val) 8 false) 3 0 0))) hs hk
      (fun u hu => by
        have word := State.lockW_congr hu k.val
        rw [show fld (0 : Word) 3 0 = 0 by decide, State.lockWrite_release (by rw [State.lockOwner, word]; exact own), word]
        exact ⟨rfl, by simp only [State.setReg_regs, hu]⟩) (put _) (by simp)
    obtain ⟨-, locks⟩ := freed reach
    refine ⟨?_, fun j hj hne => ?_⟩
    · rw [State.lockOwner, locks k.val hk, State.lockW_setReg_self hs, fld_setFld_self _ _ _ _ (by decide) (by decide)]
    · rw [locks j hj, State.lockW_setReg_other hs _ hne]
  · have stays {data : Word} (hv : fld data 3 0 = a.id ∨ fld data 3 0 = 0) : ¬ s.accepts a pgLocks (0x1000 + 4 * k.val) data
        ∧ (s.regWrite a pgLocks (0x1000 + 4 * k.val) data).lockW k.val = s.lockW k.val := by
      obtain ⟨reached, missed⟩ := State.store_lock (a := a) (data := data) (x := (.lockHeld, s)) hs hk
        (fun u hu => by
          have word := State.lockW_congr hu k.val
          rw [State.lockWrite_held (by rw [State.lockOwner, word]; exact held) (by rw [State.lockOwner, word]; exact other) hv]
          exact ⟨rfl, hu⟩) hs (by simp)
      by_cases reach : s.reaches a pgLocks (0x1000 + 4 * k.val) data
      · obtain ⟨status, locks⟩ := reached reach
        exact ⟨by simp [State.accepts, status], locks k.val hk⟩
      · obtain ⟨status, locks⟩ := missed reach
        exact ⟨status, locks k.val hk⟩
    obtain ⟨taking, takes⟩ := stays (data := word a.id) (.inl (fld_word_id a))
    obtain ⟨freeing, frees⟩ := stays (data := 0) (.inr (by decide))
    exact ⟨taking, freeing, ⟨_, acquire, takes⟩, ⟨_, release, frees⟩⟩

end Sys2Proof.Machine

namespace Sys2Proof.Machine

/-! ## The bit aliases (R50) -/

/-- The kinds of the pages none of whose live words does more than hold its data. -/
def plainKinds : List Kind :=
  [.clocks, .launch, .skim, .pipe, .learn, .reorder, .ladle, .crucible, .ingot, .stack, .voq, .credit, .gates, .mcast, .pstore, .parse]

/-- Bit `b` of live word `w` of a page of a plain kind. -/
structure AliasBit (p w b : Nat) (r : PageRow) : Prop where
  page_lt : p < 256
  page : pageRow p = some r
  plain : r.kind ∈ plainKinds
  word_lt : w < 128
  bit_lt : b < 32

/-- The offset of the aliased address of bit `b` of live word `w`. -/
abbrev aliasAt (w b : Nat) : Nat := 0x4000 + (w * 32 + b) * 4

section
variable {p w b : Nat} {r : PageRow} (hw : AliasBit p w b r)
include hw

/-- A page whose row has another kind is another page. -/
theorem AliasBit.page_ne {q : Nat} {k : Kind} (hq : (pageRow q).map PageRow.kind = some k) (hk : k ∉ plainKinds) : p ≠ q := by
  rintro rfl
  rw [hw.page] at hq
  exact hk (Option.some.inj hq ▸ hw.plain)

theorem AliasBit.not_recordPage : p ∉ recordPages := by
  have hp := fun q k => hw.page_ne (q := q) (k := k)
  simp only [recordPages, List.mem_cons, List.not_mem_nil, or_false, not_or]
  exact ⟨hp pgPmu .pmu rfl (by decide), hp pgPair .pair rfl (by decide), hp pgRoles .roles rfl (by decide), hp pgCpctl .cpctl rfl (by decide)⟩

theorem AliasBit.aliasOf_eq : aliasOf (aliasAt w b) = (0x1000 + 4 * w, b) := by
  have := hw.bit_lt
  simp only [aliasOf, aliasAt, Prod.mk.injEq]
  omega

theorem AliasBit.addr : PageAddr p (aliasAt w b) r := by
  have := hw.bit_lt
  have := hw.word_lt
  refine ⟨hw.page_lt, hw.page, by unfold aliasAt; omega, by unfold aliasAt; omega, ?_⟩
  unfold regAddr aliasAt
  omega

theorem AliasBit.inside : 0x4000 ≤ aliasAt w b ∧ aliasAt w b < 0x8000 := by
  have := hw.bit_lt
  have := hw.word_lt
  unfold aliasAt
  omega

/-- The bus writes the bit of the word; its body is unfolded through a variable, as in `State.busWrite_config`. -/
theorem State.busWrite_alias (s : State) (x : Who) (data : Word) : s.busWrite x (regAddr p (aliasAt w b)) 0xFFFFFFFF#32 data
    = s.writeAt x r p (0x1000 + 4 * w) (oneBit b) ((data &&& 1#32) <<< b) := by
  have low := hw.bit_lt
  have high := hw.word_lt
  have aligned := regAddr_aligned (p := p) hw.addr.aligned
  have page := regAddr_page (p := p) hw.addr.small
  have offset := regAddr_offset (p := p) hw.addr.small
  have place := hw.aliasOf_eq
  have row := hw.page
  have open_ : noAlias p (0x1000 + 4 * w) = false := by
    simp [noAlias, hw.page_ne (q := pgGlobal) rfl (by decide), hw.page_ne (q := pgTables) rfl (by decide), hw.page_ne (q := pgLocks) rfl (by decide)]
  have inside := hw.inside
  generalize hf : State.busWrite = busWrite
  delta State.busWrite at hf
  subst hf
  beta_reduce
  generalize aliasAt w b = o at aligned page offset place inside ⊢
  generalize regAddr p o = addr at aligned page offset ⊢
  simp [page, offset, aligned, row, place, open_, inside, show ¬ 0x8000 ≤ o by omega]

/-- The rights that the aliased address asks for are those of the bit. -/
theorem State.mayWrite_alias (s : State) (rights : Nat) (data : Word) : s.mayWrite rights p (aliasAt w b) 0xFFFFFFFF#32 data
    = s.mayWrite rights p (0x1000 + 4 * w) (oneBit b) ((data &&& 1#32) <<< b) := by
  have low := hw.bit_lt
  have high := hw.word_lt
  have inside := hw.inside
  have direct : ¬ (0x4000 ≤ 0x1000 + 4 * w ∧ 0x1000 + 4 * w < 0x8000) := by omega
  have one : 0xFFFFFFFF#32 &&& 1#32 = 1#32 := by decide
  unfold State.mayWrite
  simp only [inside, direct, and_self, if_true, if_false, hw.aliasOf_eq, one, id_eq, oneBit]

/-- On a page of a plain kind whose word no joined lead owns, the write of a live word puts the bits of its row. -/
theorem State.writeWord_plain {s : State} {x : Who} (own : s.ownWord p (0x1000 + 4 * w)) (mask data : Word) :
    s.writeWord x r p (0x1000 + 4 * w) mask data = (.ok, s.putRow r.kind p (0x1000 + 4 * w) mask data) := by
  have high := hw.word_lt
  have plain := hw.plain
  have free : s.cfRefuses p (0x1000 + 4 * w) = false := by simp [State.cfRefuses, show ¬ 0x1000 + 4 * w < 0x1000 by omega]
  have mine : (s.partnerJoined && mirrorWord p (0x1000 + 4 * w)) = false := own
  have live : s.writeLive x r.kind p (0x1000 + 4 * w) mask data = (.ok, s.putRow r.kind p (0x1000 + 4 * w) mask data) := by
    unfold State.writeLive
    generalize r.kind = k at plain ⊢
    simp only [plainKinds, List.mem_cons, List.not_mem_nil, or_false] at plain
    rcases plain with rfl | rfl | rfl | rfl | rfl | rfl | rfl | rfl | rfl | rfl | rfl | rfl | rfl | rfl | rfl | rfl <;> rfl
  unfold State.writeWord
  simp only [mine, free, Bool.false_and, Bool.false_eq_true, if_false, show ¬ 0x1000 + 4 * w < 0x100 by omega, show ¬ 0x1000 + 4 * w < 0x1000 by omega,
    show 0x1000 + 4 * w < 0x4000 by omega, if_true]
  exact live

end

/-- One bit of a word that a write sets put by its row's access codes. -/
theorem putBit_of_row {old data rw w1c : Word} {b : Nat} (hb : b < 32) (sets : bit rw b = true) (clears : bit w1c b = false) :
    blend (oneBit b &&& rw) ((data &&& 1#32) <<< b) old &&& ~~~(oneBit b &&& ((data &&& 1#32) <<< b) &&& w1c) = putBit old b (bit data 0) := by
  have alone : (data &&& 1#32) <<< b = if bit data 0 then oneBit b else 0 := by
    have low : data &&& 1#32 = if bit data 0 then 1#32 else 0#32 := by
      rw [BitVec.and_one_eq_setWidth_ofBool_getLsbD, bit]
      cases data.getLsbD 0 <;> rfl
    rw [low]
    cases bit data 0
    · exact BitVec.zero_shiftLeft b
    · rfl
  have flip (v : Word) {i : Nat} (hi : i < 32) : bit (~~~v) i = !bit v i := by simp [bit, hi]
  have none (i : Nat) : bit (0 : Word) i = false := BitVec.getLsbD_zero
  have one (i : Nat) (hi : i < 32) : bit (oneBit b) i = decide (i = b) := oneBit_bit b i hi
  rw [alone]
  refine BitVec.eq_of_getLsbD_eq fun i hi => ?_
  change bit _ i = bit _ i
  by_cases e : i = b
  · subst e
    rw [bit_putBit_self _ _ _ hb]
    cases bit data 0 <;> simp only [blend, bit_and, bit_or, flip _ hi, one _ hi, none, sets, clears, decide_true, Bool.and_false,
      Bool.or_false, Bool.false_or, Bool.and_true, Bool.not_true, Bool.not_false, if_true, if_false, Bool.false_eq_true]
  · rw [bit_putBit_other _ _ e]
    cases bit data 0 <;> simp only [blend, bit_and, bit_or, flip _ hi, one _ hi, none, decide_eq_false e, Bool.and_false, Bool.false_and,
      Bool.or_false, Bool.and_true, Bool.not_false, if_true, if_false, Bool.false_eq_true]

/-- Settles O12: the store to an aliased address is the bus's write of one bit, with records on other pages. -/
theorem aliasWritesOneBit : Obligations.AliasWritesOneBit := by
  intro s a page w b r row data canonical present plain found sets clears reach own
  have hs := canonical.regs
  have hw : AliasBit page.val w.val b.val r := ⟨page.isLt, present, plain, w.isLt, b.isLt⟩
  obtain ⟨path, rights⟩ := State.reaches_iff.mp reach
  rw [State.mayWrite_alias hw] at rights
  have touched := (Beside.refl hs).touchPage (a := a) (p := page.val)
  obtain ⟨hregs, hlatched⟩ := s.touchPage_regs_latched a page.val
  have write := State.writeWord_plain hw (s := s.touchPage a page.val) (x := s.ownWho a page.val) ((State.ownWord_congr hregs hlatched _ _).mpr own)
    (oneBit b.val) ((data &&& 1#32) <<< b.val)
  have put : (s.touchPage a page.val).putRow r.kind page.val (0x1000 + 4 * w.val) (oneBit b.val) ((data &&& 1#32) <<< b.val)
      = (s.touchPage a page.val).setReg page.val (0x1000 + 4 * w.val) (putBit (s.reg page.val (0x1000 + 4 * w.val)) b.val (bit data 0)) := by
    simp only [State.putRow, found]
    rw [State.updReg_eq, putBit_of_row b.isLt sets clears, State.reg_congr hregs]
  rw [put] at write
  have regs := State.setReg_canonical page.val (0x1000 + 4 * w.val) (putBit (s.reg page.val (0x1000 + 4 * w.val)) b.val (bit data 0))
    ((s.touchPage_records a page.val).config canonical).1
  have high := w.isLt
  have made := State.writeAt_recorded (s := s) (a := a) (r := r) (p := page.val) (o := 0x1000 + 4 * w.val) (mask := oneBit b.val)
    (data := (data &&& 1#32) <<< b.val) (.inr (by omega)) (by omega) rights (by rw [write]; exact regs.regs)
  have stored := (State.store_carried hw.addr hs (a := a) (data := data)
    ⟨State.busWrite_alias hw s _ data, made.beside.regs, by rw [made.status, write]; simp⟩).made path
  refine ⟨_, rfl, ((made.trans stored).beside.words page.val _ (by omega) hw.not_recordPage).trans ?_⟩
  rw [write]
  exact State.reg_setReg_self _ _ _ _ touched.regs

end Sys2Proof.Machine

namespace Sys2Proof.Machine

/-! ## The fences (R60, R223) -/

section
variable {s : State}

theorem State.fenceWord_setFence_self (h : Store.wf (fun _ => 0#32) s.fences = true) (id p o : Nat) (v : Word) :
    (s.setFence id p o v).fenceWord id p o = v := Store.get_put_self _ _ _ _ h

theorem State.fenceWord_setFence_other (h : Store.wf (fun _ => 0#32) s.fences = true) {id p o i q u : Nat} (v : Word) (hk : fenceKey i q u ≠ fenceKey id p o) :
    (s.setFence id p o v).fenceWord i q u = s.fenceWord i q u := Store.get_put_other _ v _ h hk _

theorem State.fenceWord_congr {t : State} (h : t.fences = s.fences) (id p o : Nat) : t.fenceWord id p o = s.fenceWord id p o := by
  rw [State.fenceWord, State.fenceWord, h]

theorem State.fenceWord_writeFence (h : Store.wf (fun _ => 0#32) s.fences = true) (id p : Nat) (v : Word) :
    (s.writeFence id p v).fenceWord id p 0x1000 = v := State.fenceWord_setFence_self h id p 0x1000 v

/-- A store of a fence word holds its token for the agent: the write of the word is that of the fence. -/
theorem State.fenceWord_regWrite {a : Agent} {p : Nat} {r : PageRow} {token : Word} (canonical : s.Canonical) (hw : PageWord p 0x1000 r)
    (write : s.wordWrite a r p 0x1000 token = (.ok, (s.touchPage a p).writeFence a.id p token)) (reach : s.reaches a p 0x1000 token) :
    (s.regWrite a p 0x1000 token).fenceWord a.id p 0x1000 = token := by
  have touched := (Beside.refl canonical.regs).touchPage (a := a) (p := p)
  have hs := canonical.regs
  obtain ⟨-, -, -, -, -, fences⟩ := canonical
  have regs : Store.wf regReset (s.wordWrite a r p 0x1000 token).2.regs = true := by
    rw [write]
    exact touched.regs
  have stored := (State.store_recorded hs hw regs (by rw [write]; simp)).made reach
  refine (State.fenceWord_congr stored.beside.fences _ _ _).trans ?_
  rw [write]
  exact State.fenceWord_writeFence (by rw [touched.fences]; exact fences) _ _ _

theorem State.wordWrite_fence {a : Agent} {r : PageRow} {token : Word} (hr : r.kind = .global) :
    s.wordWrite a r pgGlobal 0x1000 token = (.ok, (s.touchPage a pgGlobal).writeFence a.id pgGlobal token) := by
  have agent : (s.ownWho a pgGlobal).agent = a := rfl
  unfold State.wordWrite
  generalize s.touchPage a pgGlobal = u
  have mirror : mirrorWord pgGlobal 0x1000 = false := by decide
  unfold State.writeWord State.cfRefuses
  simp only [mirror, Bool.and_false, Bool.false_and, show ¬ 0x1000 < 0x1000 by omega, decide_false, hr, show ¬ 0x1000 < 0x100 by omega,
    show 0x1000 < 0x4000 by omega, if_true, if_false, Bool.false_eq_true]
  unfold State.writeLive State.liveGlobal
  simp only [agent, blend_ones, if_true]

theorem State.wordWrite_tablesFence {a : Agent} {r : PageRow} {token : Word} (hr : r.kind = .tables) :
    s.wordWrite a r pgTables 0x1000 token = (.ok, (s.touchPage a pgTables).writeFence a.id pgTables token) := by
  have agent : (s.ownWho a pgTables).agent = a := rfl
  unfold State.wordWrite
  generalize s.touchPage a pgTables = u
  have mirror : mirrorWord pgTables 0x1000 = false := by decide
  unfold State.writeWord State.cfRefuses
  simp only [mirror, Bool.and_false, Bool.false_and, show ¬ 0x1000 < 0x1000 by omega, decide_false, hr, show ¬ 0x1000 < 0x100 by omega,
    show 0x1000 < 0x4000 by omega, if_true, if_false, Bool.false_eq_true]
  unfold State.writeLive
  simp only [agent, blend_ones, if_true]

theorem State.fencePassed_iff (id p : Nat) : s.fencePassed id p = true ↔
    (∀ r ∈ s.pair.relays, r.agent = id → (Store.get (0, 0) (fenceKey id p 0x1000) s.host.fenceAt).1 ≤ r.seq)
      ∧ ∀ d ∈ s.host.ordered, d.rq.agent.id = id → (Store.get (0, 0) (fenceKey id p 0x1000) s.host.fenceAt).2 ≤ d.no := by
  unfold State.fencePassed
  simp

end

theorem fenceKey_agent {i j p o : Nat} (h : i ≠ j) : fenceKey i p o ≠ fenceKey j p o := by
  unfold fenceKey
  omega

theorem globalPage : ∃ r, pageRow pgGlobal = some r ∧ r.kind = .global := ⟨_, rfl, rfl⟩

theorem tablesPage : ∃ r, pageRow pgTables = some r ∧ r.kind = .tables := ⟨_, rfl, rfl⟩

/-! ### Commands on an open path -/

/-- What a command's arrival leaves of the state `s`: all but the counts of HOSTIF and the answer that I3C gives the write. -/
structure Arrived (s u : State) : Prop where
  words : ∀ p o, p ≠ pgHostif → o < 0x10000 → u.reg p o = s.reg p o
  config : ∀ p o, 0x100 ≤ o → o < 0x1000 → u.reg p o = s.reg p o
  latched : u.latched = s.latched
  ordered : u.host.ordered = s.host.ordered
  outbox : ∀ a, u.outbox a = s.outbox a
  pair : u.pair = s.pair
  tab : u.tab = s.tab
  memory : KeepsMemory s u

theorem Arrived.refl (s : State) : Arrived s s :=
  ⟨fun _ _ _ _ => rfl, fun _ _ _ _ => rfl, rfl, rfl, fun _ => rfl, rfl, rfl, rfl, rfl, rfl⟩

/-- A count of HOSTIF. -/
theorem Arrived.incReg {s u : State} (h : Arrived s u) (hu : Store.wf regReset u.regs = true) {o : Nat} (lo : 0x1000 ≤ o) (hi : o < 0x10000) :
    Arrived s (u.incReg pgHostif o) where
  words p q hp hq := by
    rw [State.incReg_eq, State.reg_setReg_other _ _ hu fun hk => hp (regKey_inj hq hi hk).1]
    exact h.words p q hp hq
  config p q low high := by
    rw [State.incReg_eq, State.reg_setReg_other _ _ hu fun hk => absurd (regKey_inj (by omega) hi hk).2 (by omega)]
    exact h.config p q low high
  latched := h.latched
  ordered := h.ordered
  outbox a := by
    rw [← h.outbox a]
    cases a <;> rfl
  pair := h.pair
  tab := h.tab
  memory := h.memory

theorem State.arrived_spec {s : State} (hs : Store.wf regReset s.regs = true) (a : Agent) : Arrived s (s.arrived a) := by
  cases a with
  | i3c =>
    have acked : Arrived s { s with host := { s.host with reply := .ack } } :=
      ⟨fun _ _ _ _ => rfl, fun _ _ _ _ => rfl, rfl, rfl, fun b => by cases b <;> rfl, rfl, rfl, rfl, rfl, rfl⟩
    exact acked.incReg hs (by decide) (by decide)
  | mgmt => exact (Arrived.refl s).incReg hs (by decide) (by decide)
  | core k | app k | debug | bellows => exact .refl s

theorem Arrived.lastRelay {s u : State} (h : Arrived s u) (id : Nat) : u.lastRelay id = s.lastRelay id := by
  rw [State.lastRelay, State.lastRelay, h.pair]

theorem Arrived.quenched {s u : State} (h : Arrived s u) (stands : s.stands = false) : u.quenched = false := by
  rw [State.stands, Bool.or_eq_false_iff] at stands
  rw [State.quenched, h.words pgDebug 0x2000 (by decide) (by decide)]
  exact stands.1

section
variable {s : State} {op : Nat} {rq : Request} {env : CmdEnv}

/-- A command that passes the checks of an open path waits behind what holds it, or is executed (R58, R60, R84, R86). -/
theorem State.command_checked (hs : Store.wf regReset s.regs = true) (open_ : s.listens rq.agent) (checked : (s.arrived rq.agent).reqCheck rq.agent op rq = none) :
    s.command op rq env =
      if (bit (rq.flags.setWidth 32) 0 && ((s.lastRelay rq.agent.id).isSome || s.host.ordered.any (fun d => d.rq.agent == rq.agent)))
          || s.host.ordered.any (fun d => d.holds rq.agent op (reqWords rq)) then
        (s.arrived rq.agent).defer rq.agent (agentRoute rq.agent) op rq (bit (rq.flags.setWidth 32) 0)
      else (s.arrived rq.agent).execute rq.agent ((s.arrived rq.agent).cmdRights rq.agent rq.session.toNat) (agentRoute rq.agent) op rq env := by
  have path : ∃ t : State, s.command op rq env = t.hostCommand rq.agent (agentRoute rq.agent) op rq env ∧ t.countCmd rq.agent = s.arrived rq.agent := by
    obtain ⟨stands, framed, attached, -, unread⟩ := open_
    have powered : s.inReset = false := by
      rw [State.stands, Bool.or_eq_false_iff] at stands
      exact stands.2
    unfold State.command State.arrived
    rw [if_neg (by simp [powered])]
    cases h : rq.agent with
    | i3c =>
      have room := unread h
      refine ⟨{ s with host := { s.host with reply := .ack } }, ?_, rfl⟩
      dsimp only
      rw [State.i3cWrite, if_neg (by omega)]
      rfl
    | mgmt => exact ⟨s, rfl, rfl⟩
    | debug => exact ⟨s, if_pos (attached h), rfl⟩
    | core k | app k | bellows =>
      rw [h] at framed
      exact absurd framed (by simp [Agent.framed])
  obtain ⟨t, taken, counted⟩ := path
  have arrived := State.arrived_spec hs rq.agent
  rw [taken, State.hostCommand, counted]
  simp only [checked, arrived.quenched open_.1, arrived.lastRelay, arrived.ordered, Bool.false_and, Bool.false_eq_true, if_false]

/-- A command that waits: it stands last among those that do, and nothing else is done of it yet. -/
theorem State.defer_waits (hs : Store.wf regReset s.regs = true) (ordered : Bool) :
    (∃ d, ((s.arrived rq.agent).defer rq.agent (agentRoute rq.agent) op rq ordered).host.ordered = s.host.ordered ++ [d] ∧ d.op = op ∧ d.rq = rq)
      ∧ ((s.arrived rq.agent).defer rq.agent (agentRoute rq.agent) op rq ordered).outbox rq.agent = s.outbox rq.agent
      ∧ ((s.arrived rq.agent).defer rq.agent (agentRoute rq.agent) op rq ordered).tab = s.tab
      ∧ KeepsMemory s ((s.arrived rq.agent).defer rq.agent (agentRoute rq.agent) op rq ordered)
      ∧ KeepsConfig s ((s.arrived rq.agent).defer rq.agent (agentRoute rq.agent) op rq ordered) := by
  have arrived := State.arrived_spec hs rq.agent
  generalize s.arrived rq.agent = u at arrived ⊢
  unfold State.defer
  refine ⟨⟨_, by rw [← arrived.ordered], rfl, rfl⟩, ?_, arrived.tab, arrived.memory, fun p o lo hi => ⟨arrived.config p o lo hi, ?_⟩⟩
  · rw [← arrived.outbox]
    cases rq.agent <;> rfl
  · rw [State.cfg, State.cfg, ← arrived.latched]

end

theorem exec_command {i : Instr} {op : Nat} {rq : Request} {env : CmdEnv} (h : commandOf i = some (op, rq, env)) (s : State) :
    exec i s = .next (s.command op rq env) := by
  unfold commandOf at h
  split at h <;> cases h <;> rfl

end Sys2Proof.Machine

namespace Sys2Proof.Machine

/-! ### The FENCE command (R60, R84) -/

section
variable {s u : State} {rq : Request} {env : CmdEnv}

/-- FENCE does nothing itself: its answer waits for the agent's last relay. -/
theorem State.execute_fence (a : Agent) (rights : Nat) (route : Route) (answered : bit (rq.flags.setWidth 32) 1 = false) :
    u.execute a rights route opFENCE rq env = match u.lastRelay a.id with
      | some n => { u with host := { u.host with waiting := u.host.waiting ++ [⟨a, route, false, 0, n, ⟨rq.tag, .ok, [word 0]⟩, [], []⟩] } }
      | none => u.sendOn route ⟨rq.tag, .ok, []⟩ := by
  have run : u.runCmd a opFENCE rights rq.session.toNat (reqWords rq) env = (⟨.ok, [], 0⟩, u) := rfl
  unfold State.execute
  rw [run]
  dsimp only
  unfold State.finish
  rw [answered]
  cases u.lastRelay a.id <;> rfl

/-- A response sent on the open path of its agent. -/
theorem State.outbox_sendOn (arrived : Arrived s u) (open_ : s.listens rq.agent) (r : Response) :
    (u.sendOn (agentRoute rq.agent) r).outbox rq.agent = s.outbox rq.agent ++ [s.carried rq.agent r] := by
  obtain ⟨-, framed, -, sends, -⟩ := open_
  have outbox := arrived.outbox rq.agent
  cases h : rq.agent with
  | i3c =>
    rw [h] at outbox
    have shown (t : State) (ht : t.host.resp = u.host.resp ++ [r.bytes]) : t.outbox .i3c = s.outbox .i3c ++ [s.carried .i3c r] := by
      rw [← outbox]
      exact ht
    unfold State.sendOn agentRoute
    dsimp only
    split
    · exact shown _ rfl
    · exact shown _ rfl
  | mgmt =>
    rw [h] at outbox
    have working : u.mgmtSends = true := by
      have same : u.mgmtSends = s.mgmtSends := by
        simp only [State.mgmtSends, State.working, State.blk, State.regFld, arrived.words pgMgmt _ (show pgMgmt ≠ pgHostif by decide) (show 0x0C < 0x10000 by decide),
          arrived.words pgMgmt _ (show pgMgmt ≠ pgHostif by decide) (show 0x2000 < 0x10000 by decide),
          arrived.words pgMgmt _ (show pgMgmt ≠ pgHostif by decide) (show 0x1000 < 0x10000 by decide)]
      rw [same, sends h]
    have frame : u.mgmtFrame 0 none r = s.mgmtFrame 0 none r := by
      simp only [State.mgmtFrame, State.mgmtMac, State.cfgFld, State.cfg, arrived.latched]
    unfold State.sendOn agentRoute
    dsimp only
    rw [working, if_neg (by simp), frame, ← outbox]
    rfl
  | debug =>
    rw [h] at outbox
    rw [← outbox]
    rfl
  | core k | app k | bellows =>
    rw [h] at framed
    exact absurd framed (by simp [Agent.framed])

end

/-- Settles O14: the fence words by the store that writes them, the commands by what lets them start. -/
theorem fencesComplete : Obligations.FencesComplete := by
  intro s a token canonical
  have hs := canonical.regs
  have fences : Store.wf (fun _ => 0#32) s.fences = true := by
    obtain ⟨-, -, -, -, -, fences⟩ := canonical
    exact fences
  refine ⟨fun reach => ?_, fun reach => ?_, fun p _ => State.fencePassed_iff a.id p, fun clocked => ⟨fun passed => ?_, fun held => ?_, fun passed free => ?_,
    fun held => ?_, fun e he mine => ?_⟩, fun rq takes => ?_, fun i op rq env command listens checked => ?_⟩
  · obtain ⟨r, page, kind⟩ := globalPage
    exact ⟨_, rfl, State.fenceWord_regWrite canonical ⟨by decide, page, by decide, by decide, by decide⟩ (State.wordWrite_fence kind) reach⟩
  · obtain ⟨r, page, kind⟩ := tablesPage
    exact ⟨_, rfl, State.fenceWord_regWrite canonical ⟨by decide, page, by decide, by decide, by decide⟩ (State.wordWrite_tablesFence kind) reach⟩
  · refine ⟨s.setFence a.id pgGlobal 0x1004 (s.fenceWord a.id pgGlobal 0x1000), ?_, State.fenceWord_setFence_self fences _ _ _ _, fun b hb => ?_, rfl⟩
    · exact (if_neg (by simp [clocked])).trans (congrArg _ (if_pos passed))
    · exact State.fenceWord_setFence_other fences _ (fenceKey_agent hb)
  · exact ⟨s, (if_neg (by simp [clocked])).trans (congrArg _ (if_neg (by simp [held]))), rfl⟩
  · refine ⟨s.setFence a.id pgTables 0x1004 (s.fenceWord a.id pgTables 0x1000), ?_, State.fenceWord_setFence_self fences _ _ _ _, rfl⟩
    exact (if_neg (by simp [clocked])).trans (congrArg _ (if_neg (by simpa [passed] using free)))
  · exact ⟨s, (if_neg (by simp [clocked])).trans (congrArg _ (if_pos (by simp [held]))), rfl⟩
  · have busy : s.tab.busyWin.any (fun e => e.2.id == a.id) = true := List.any_eq_true.mpr ⟨e, he, by simp [mine]⟩
    exact ⟨s, (if_neg (by simp [clocked])).trans (congrArg _ (if_pos (by simp [busy]))), rfl⟩
  · obtain ⟨listens, checked, flags, clear⟩ := takes
    have arrived := State.arrived_spec hs rq.agent
    have run := exec_command (i := .fence rq) (env := .none) rfl s
    rw [State.command_checked hs listens checked, flags, clear, if_neg (by simp), State.execute_fence _ _ _ (by rw [flags]; rfl), arrived.lastRelay] at run
    refine ⟨fun none => ⟨_, run, ?_⟩, fun some => ?_⟩
    · rw [none]
      exact State.outbox_sendOn arrived listens _
    · obtain ⟨n, hn⟩ := Option.ne_none_iff_exists'.mp some
      refine ⟨_, run, ?_⟩
      rw [hn]
      refine ⟨?_, _, List.getLast?_concat .., rfl, rfl⟩
      rw [← arrived.outbox]
      cases rq.agent <;> rfl
  · have run := exec_command command s
    rw [State.command_checked hs listens checked] at run
    refine ⟨fun flags none first => ?_, fun flags some => ?_, fun fence behind => ?_⟩
    · rw [run, if_neg]
      simp only [flags, none, Bool.or_eq_true, Bool.and_eq_true, List.any_eq_true, Option.isSome_none, Bool.false_eq_true, false_or, beq_iff_eq, Deferred.holds]
      rintro (⟨-, d, hd, mine⟩ | ⟨d, hd, mine, -⟩) <;> exact first d hd mine
    · rw [if_pos] at run
      · exact ⟨_, run, State.defer_waits hs _⟩
      · simp [flags, bit, Option.isSome_iff_ne_none.mpr some]
    · rw [if_pos] at run
      · exact ⟨_, run, State.defer_waits hs _⟩
      · obtain ⟨d, hd, mine, writes⟩ := behind
        have holds : d.holds rq.agent op (reqWords rq) = true := by simp [Deferred.holds, keepsBehind, mine, fence, writes]
        exact (Bool.or_eq_true _ _).mpr (.inr (List.any_eq_true.mpr ⟨d, hd, holds⟩))

end Sys2Proof.Machine

/-! # The host and control processor chapter (03_host_and_control_processor.md)

The frames of requests and responses; what serving a command leaves, and the checks that a request meets; the I3C target and the management lane; long
operations; applications and the resets of the cores. -/
namespace Sys2Proof.Machine

/-! ### The bytes of a number (R6) -/

theorem beBytes_two (n : Nat) : beBytes 2 n = [BitVec.ofNat 8 (n / 256), BitVec.ofNat 8 n] := by
  simp [beBytes]

/-- A half word is spelled by its two bytes. -/
theorem ofNat_beNat_beBytes_two (w : BitVec 16) : BitVec.ofNat 16 (beNat (beBytes 2 w.toNat)) = w := by
  have small := w.isLt
  apply BitVec.eq_of_toNat_eq
  rw [beBytes_two]
  simp only [beNat, List.foldl_cons, List.foldl_nil, BitVec.toNat_ofNat]
  omega

/-! ### Request and response frames (R73-R75) -/

/-- Settles O58: each field is read from the bytes that spell it, and the body is what stands between header and CRC. -/
theorem requestsRoundTrip : Obligations.RequestsRoundTrip := by
  intro op rq hop
  have length := ofNat_beNat_beBytes_two rq.length
  have session := ofNat_beNat_beBytes_two rq.session
  have crc := ofNat_beNat_beBytes_two rq.crc
  have opcode : (BitVec.ofNat 8 op).toNat = op := by
    rw [BitVec.toNat_ofNat]
    omega
  have whole : (rq.body ++ beBytes 2 rq.crc.toNat).length - 2 = rq.body.length := by simp [beBytes_two]
  have tail : ¬ (rq.body ++ beBytes 2 rq.crc.toNat).length < 2 := by simp [beBytes_two]
  rw [beBytes_two] at length session
  unfold reqHeader
  rw [List.append_assoc, beBytes_two rq.length.toNat, beBytes_two rq.session.toNat]
  simp only [List.cons_append, List.nil_append, parseRequest, whole, tail, if_false, List.take_left, List.drop_left, length, session, crc, opcode]

theorem wordBytes_length (w : Word) : (wordBytes w).length = 4 := rfl

/-- The bytes before the CRC of a response frame (R75). -/
def Response.head (r : Response) : List Byte :=
  [r.tag, BitVec.ofNat 8 r.status.code] ++ beBytes 2 r.payload.length ++ r.payload.flatMap wordBytes

theorem Response.bytes_eq (r : Response) : r.bytes = r.head ++ beBytes 2 (crc16 r.head).toNat := rfl

theorem Response.head_length (r : Response) : r.head.length = 4 + 4 * r.payload.length := by
  simp only [Response.head, List.length_append, beBytes_two, flatMap_wordBytes_length, List.length_cons, List.length_nil]

theorem byteAt_append_left {l : List Byte} (m : List Byte) {i : Nat} (h : i < l.length) : byteAt (l ++ m) i = byteAt l i := by
  simp [byteAt, List.getElem?_append_left h]

theorem byteAt_append_right {l : List Byte} (m : List Byte) {i : Nat} (h : l.length ≤ i) : byteAt (l ++ m) i = byteAt m (i - l.length) := by
  simp [byteAt, List.getElem?_append_right h]

/-- Word `i` of a run of words, read from its four bytes. -/
theorem numAt_flatMap_wordBytes (ws : List Word) (l m : List Byte) {i : Nat} (h : i < ws.length) :
    numAt (l ++ ws.flatMap wordBytes ++ m) (l.length + 4 * i) 4 = (ws.getD i 0).toNat := by
  induction ws generalizing l i with
  | nil => simp at h
  | cons w ws ih =>
    cases i with
    | zero =>
      have small := w.isLt
      have byte (k : Nat) : (l ++ (w :: ws).flatMap wordBytes ++ m).getD (l.length + 4 * 0 + k) 0
          = (wordBytes w ++ (ws.flatMap wordBytes ++ m)).getD k 0 := by
        simp [List.getElem?_append_right]
      simp only [numAt, bytesAt, byte]
      simp [wordBytes, beNat, List.range_succ, BitVec.extractLsb'_toNat, Nat.shiftRight_eq_div_pow]
      omega
    | succ i =>
      have step := ih (l ++ wordBytes w) (i := i) (by simpa using h)
      simp only [List.length_append, wordBytes_length] at step
      rw [show l.length + 4 * (i + 1) = l.length + 4 + 4 * i by omega]
      simpa [List.append_assoc] using step

theorem Status.code_le (a : Status) : a.code ≤ 15 := by cases a <;> decide

theorem Status.ofCode_code (a : Status) : Status.ofCode a.code = a := by cases a <;> rfl

theorem Status.code_inj {a b : Status} (h : a.code = b.code) : a = b := by rw [← a.ofCode_code, h, b.ofCode_code]

/-- Settles O59: the fields stand in front of the CRC at their offsets, and the CRC over them follows. -/
theorem responseFrames : Obligations.ResponseFrames := by
  refine ⟨fun r small => ?_, fun a b => ⟨a.code_le, Status.code_inj⟩, by decide +kernel⟩
  have head := r.head_length
  have code := r.status.code_le
  have front (i : Nat) (h : i < 4) : byteAt r.bytes i = byteAt ([r.tag, BitVec.ofNat 8 r.status.code] ++ beBytes 2 r.payload.length) i := by
    rw [r.bytes_eq, byteAt_append_left _ (by omega)]
    exact byteAt_append_left _ (by simpa [beBytes_two] using h)
  have back (i : Nat) : byteAt r.bytes (4 + 4 * r.payload.length + i) = byteAt (beBytes 2 (crc16 r.head).toNat) i := by
    rw [r.bytes_eq, byteAt_append_right _ (by omega), head]
    congr 1
    omega
  have crc := (crc16 r.head).isLt
  rw [beBytes_two] at front
  simp only [beBytes_two] at back
  refine ⟨?_, ?_, ?_, ?_, fun i hi => ?_, ?_⟩
  · rw [r.bytes_eq, List.length_append, head, beBytes_two]
    simp
    omega
  · rw [front 0 (by decide)]
    rfl
  · rw [front 1 (by decide)]
    exact Nat.mod_eq_of_lt (by omega)
  · rw [half, front 2 (by decide), front 3 (by decide)]
    simp [byteAt]
    omega
  · exact numAt_flatMap_wordBytes r.payload ([r.tag, BitVec.ofNat 8 r.status.code] ++ beBytes 2 r.payload.length) (beBytes 2 (crc16 r.head).toNat) hi
  · rw [half, back 1, show 4 + 4 * r.payload.length = 4 + 4 * r.payload.length + 0 from rfl, back 0, r.bytes_eq, Nat.add_zero, ← head, List.take_left]
    simp [byteAt]
    omega

end Sys2Proof.Machine

namespace Sys2Proof.Machine

/-! ## What serving a command leaves

`Served base s`: of the state `base`, the state `s` has the configuration, the memories, the registers of MGMT and CPCTL and the responses that each
agent has been sent. -/

/-- The word at offset `o` of page `p` is none that serving a command keeps. -/
abbrev Unkept (p o : Nat) : Prop := p ∉ [pgMgmt, pgCpctl] ∧ (o < 0x100 ∨ 0x1000 ≤ o ∧ o < 0x10000)

structure Served (base s : State) : Prop where
  regs : Store.wf regReset s.regs = true
  words : ∀ p o, p ∈ [pgMgmt, pgCpctl] → o < 0x10000 → s.reg p o = base.reg p o
  config : ∀ p o, 0x100 ≤ o → o < 0x1000 → s.reg p o = base.reg p o
  latched : s.latched = base.latched
  memory : KeepsMemory base s
  resp : s.host.resp = base.host.resp
  mgmtOut : s.host.mgmtOut = base.host.mgmtOut
  dbgOut : s.host.dbgOut = base.host.dbgOut

namespace Served

section
variable {base : State} {c : Prop} [Decidable c] {α β : Type}

theorem refl {s : State} (h : Store.wf regReset s.regs = true) : Served s s :=
  ⟨h, fun _ _ _ _ => rfl, fun _ _ _ _ => rfl, rfl, ⟨rfl, rfl, rfl⟩, rfl, rfl, rfl⟩

theorem ite {s t : State} (hs : Served base s) (ht : Served base t) : Served base (if c then s else t) := by
  split
  · exact hs
  · exact ht

theorem ite_snd {x y : α × State} (hx : Served base x.2) (hy : Served base y.2) : Served base (if c then x else y).2 := by
  split
  · exact hx
  · exact hy

theorem of_snd {x : α × State} {a : α} {t : State} (e : x = (a, t)) (h : Served base x.2) : Served base t := by
  subst e
  exact h

theorem foldl {s : State} {f : State → α → State} {l : List α} (h : Served base s) (hf : ∀ {t} {x : α}, Served base t → Served base (f t x)) :
    Served base (l.foldl f s) := by
  induction l generalizing s with
  | nil => exact h
  | cons x l ih => exact ih (hf h)

/-- A loop whose turns use what their elements are. -/
theorem foldl_mem {s : State} {f : State → α → State} {l : List α} (h : Served base s)
    (hf : ∀ {t}, ∀ x ∈ l, Served base t → Served base (f t x)) :
    Served base (l.foldl f s) := by
  induction l generalizing s with
  | nil => exact h
  | cons x l ih => exact ih (hf x List.mem_cons_self h) fun y hy => hf y (List.mem_cons_of_mem x hy)

theorem foldl_fst {b : State × β} {f : State × β → α → State × β} {l : List α} (h : Served base b.1)
    (hf : ∀ {t} {x : α}, Served base t.1 → Served base (f t x).1) : Served base (l.foldl f b).1 := by
  induction l generalizing b with
  | nil => exact h
  | cons x l ih => exact ih (hf h)

end

section
variable {base s : State} (h : Served base s)
include h

theorem trans {t : State} (ht : Served s t) : Served base t where
  regs := ht.regs
  words p o hp ho := (ht.words p o hp ho).trans (h.words p o hp ho)
  config p o lo hi := (ht.config p o lo hi).trans (h.config p o lo hi)
  latched := ht.latched.trans h.latched
  memory := by
    obtain ⟨pending, mem, bytes⟩ := h.memory
    obtain ⟨pending', mem', bytes'⟩ := ht.memory
    exact ⟨pending'.trans pending, mem'.trans mem, bytes'.trans bytes⟩
  resp := ht.resp.trans h.resp
  mgmtOut := ht.mgmtOut.trans h.mgmtOut
  dbgOut := ht.dbgOut.trans h.dbgOut

/-- An update that leaves what the relation names. -/
theorem same {t : State} (hregs : t.regs = s.regs := by rfl) (hlatched : t.latched = s.latched := by rfl)
    (hmemory : KeepsMemory s t := by exact ⟨rfl, rfl, rfl⟩)
    (hresp : t.host.resp = s.host.resp := by rfl) (hmgmt : t.host.mgmtOut = s.host.mgmtOut := by rfl) (hdbg : t.host.dbgOut = s.host.dbgOut := by rfl) :
    Served base t :=
  h.trans ⟨hregs ▸ h.regs, fun _ _ _ _ => State.reg_congr hregs _ _, fun _ _ _ _ => State.reg_congr hregs _ _, hlatched, hmemory, hresp, hmgmt, hdbg⟩

/-- A register outside the kept words takes any value. -/
theorem setReg {p o : Nat} {v : Word} (hu : Unkept p o := by decide) : Served base (s.setReg p o v) := by
  obtain ⟨page, off⟩ := hu
  refine h.trans ⟨?_, fun q u hq ho => ?_, fun q u lo hi => ?_, by rw [State.setReg_latched], ?_, by rw [State.setReg_host], by rw [State.setReg_host],
    by rw [State.setReg_host]⟩
  · rw [State.setReg_regs]
    exact Store.wf_put regReset _ _ _ h.regs
  · refine State.reg_setReg_other s v h.regs fun e => page ?_
    rw [← (regKey_inj ho (by omega) e).1]
    exact hq
  · refine State.reg_setReg_other s v h.regs fun e => ?_
    have := (regKey_inj (by omega) (by omega) e).2
    omega
  · unfold KeepsMemory
    simp

theorem updReg {p o : Nat} {f : Word → Word} (hu : Unkept p o := by decide) : Served base (s.updReg p o f) := h.setReg hu

theorem setRegFld {p o hi lo v : Nat} (hu : Unkept p o := by decide) : Served base (s.setRegFld p o hi lo v) := h.setReg hu

theorem orReg {p o : Nat} {m : Word} (hu : Unkept p o := by decide) : Served base (s.orReg p o m) := h.setReg hu

theorem clrReg {p o : Nat} {m : Word} (hu : Unkept p o := by decide) : Served base (s.clrReg p o m) := h.setReg hu

theorem incReg {p o : Nat} (hu : Unkept p o := by decide) : Served base (s.incReg p o) := h.setReg hu

theorem raise {p b : Nat} (hu : Unkept p 0x14 := by decide) : Served base (s.raise p b) := h.orReg hu

theorem withOps {x : OpSt} : Served base { s with ops := x } := h.same
theorem withTab {x : TabSt} : Served base { s with tab := x } := h.same
theorem withPair {x : PairSt} : Served base { s with pair := x } := h.same
theorem withBuf {x : BufSt} : Served base { s with buf := x } := h.same
theorem withSprue {x : SprueSt} : Served base { s with sprue := x } := h.same
theorem withPow {x : PowSt} : Served base { s with pow := x } := h.same
theorem withNvm {x : NvmSt} (hb : x.bytes = s.nvm.bytes := by rfl) : Served base { s with nvm := x } := h.same (hmemory := ⟨rfl, rfl, hb⟩)
theorem withCp {x : CpSt} (hm : x.mem = s.cp.mem := by rfl) : Served base { s with cp := x } := h.same (hmemory := ⟨rfl, hm, rfl⟩)
theorem withHost {x : HostSt} (hr : x.resp = s.host.resp := by rfl) (hm : x.mgmtOut = s.host.mgmtOut := by rfl)
    (hd : x.dbgOut = s.host.dbgOut := by rfl) : Served base { s with host := x } := h.same (hresp := hr) (hmgmt := hm) (hdbg := hd)

theorem outbox (a : Agent) : s.outbox a = base.outbox a := by
  cases a with
  | i3c => exact h.resp
  | mgmt => exact h.mgmtOut
  | debug => exact h.dbgOut
  | core k | app k | bellows => rfl

theorem mgmtSends : s.mgmtSends = base.mgmtSends := by
  have word (o : Nat) (ho : o < 0x10000) : s.reg pgMgmt o = base.reg pgMgmt o := h.words pgMgmt o (by decide) ho
  simp only [State.mgmtSends, State.working, State.blk, State.regFld, word 0x0C (by decide), word 0x2000 (by decide), word 0x1000 (by decide)]

theorem carried (a : Agent) (r : Response) : s.carried a r = base.carried a r := by
  cases a <;> simp only [State.carried, State.mgmtFrame, State.mgmtMac, State.cfgFld, State.cfg, h.latched]

theorem keepsConfig : KeepsConfig base s := fun p o lo hi => ⟨h.config p o lo hi, by rw [State.cfg, State.cfg, h.latched]⟩

end
end Served

theorem State.served_arrived {s : State} (hs : Store.wf regReset s.regs = true) (a : Agent) : Served s (s.arrived a) := by
  cases a with
  | i3c => exact ((Served.refl hs).withHost).incReg
  | mgmt => exact (Served.refl hs).incReg
  | core k | app k | debug | bellows => exact .refl hs

/-! ### The response of a command (R75, R76, R82) -/

/-- A counter is no configuration word. -/
theorem State.reg_incReg_config {s : State} (hs : Store.wf regReset s.regs = true) {p o q u : Nat} (hu : 0x1000 ≤ u ∧ u < 0x10000) (lo : 0x100 ≤ o)
    (hi : o < 0x1000) : (s.incReg q u).reg p o = s.reg p o :=
  State.reg_setReg_other s _ hs fun e => by
    have := (regKey_inj (by omega) (by omega) e).2
    omega

/-- An agent's response: sent last on its path, and nothing else that serving a command keeps has changed. -/
theorem Served.answers {s u : State} {rq : Request} (h : Served s u) (framed : rq.agent.framed = true) (sends : rq.agent = .mgmt → s.mgmtSends = true)
    (st : Status) (l : List Word) :
    let t := u.sendOn (agentRoute rq.agent) ⟨rq.tag, st, l⟩
    Answers s t rq st l ∧ KeepsMemory s t ∧ KeepsConfig s t ∧ t.ops = u.ops := by
  have outbox := h.outbox rq.agent
  have carried := h.carried rq.agent ⟨rq.tag, st, l⟩
  have memory := h.memory
  have config := h.keepsConfig
  unfold Answers
  rw [← carried, ← outbox]
  cases agent : rq.agent with
  | i3c =>
    unfold State.sendOn agentRoute
    dsimp only
    split
    · exact ⟨rfl, memory, config, rfl⟩
    · exact ⟨rfl, memory, config, rfl⟩
  | mgmt =>
    have open_ : u.mgmtSends = true := h.mgmtSends.trans (sends agent)
    unfold State.sendOn agentRoute
    dsimp only
    rw [open_, if_neg (by simp)]
    refine ⟨rfl, ?_, fun p o lo hi => ⟨?_, (config p o lo hi).2⟩, rfl⟩
    · obtain ⟨pending, mem, bytes⟩ := memory
      exact ⟨pending, mem, bytes⟩
    · exact (State.reg_incReg_config h.regs (by decide) lo hi).trans (h.config p o lo hi)
  | debug => exact ⟨rfl, memory, config, rfl⟩
  | core k | app k | bellows =>
    rw [agent] at framed
    exact absurd framed (by simp [Agent.framed])

/-! ### The checks of a request (R76, R82, R454) -/

theorem firstFault_mem {l : List (Bool × Status)} {st : Status} (h : firstFault l = some st) : st ∈ l.map Prod.snd := by
  obtain ⟨c, found, rfl⟩ := Option.map_eq_some_iff.mp h
  exact List.mem_map_of_mem (List.mem_of_find?_eq_some found)

/-- No check of R76 fails with OK. -/
theorem State.reqCheck_ne_ok {s : State} {a : Agent} {op : Nat} {rq : Request} {st : Status} (h : s.reqCheck a op rq = some st) : st ≠ .ok := by
  rintro rfl
  simpa using firstFault_mem h

/-- A request on the path of its agent arrives as a command of that agent, answered there. -/
theorem State.command_arrives {s : State} {op : Nat} {rq : Request} {env : CmdEnv} (powered : s.inReset = false) (framed : rq.agent.framed = true)
    (attached : rq.agent = .debug → s.attached = true) (unread : rq.agent = .i3c → s.host.resp.length < 8) :
    ∃ t : State, s.command op rq env = t.hostCommand rq.agent (agentRoute rq.agent) op rq env ∧ t.countCmd rq.agent = s.arrived rq.agent := by
  unfold State.command State.arrived
  rw [if_neg (by simp [powered])]
  cases agent : rq.agent with
  | i3c =>
    have room := unread agent
    refine ⟨{ s with host := { s.host with reply := .ack } }, ?_, rfl⟩
    dsimp only
    rw [State.i3cWrite, if_neg (by omega)]
    rfl
  | mgmt => exact ⟨s, rfl, rfl⟩
  | debug => exact ⟨s, if_pos (attached agent), rfl⟩
  | core k | app k | bellows =>
    rw [agent] at framed
    exact absurd framed (by simp [Agent.framed])

/-- What rejecting a request counts, before it is answered (R76, R82). -/
def State.rejected (s : State) (a : Agent) (st : Status) (check : Bool) : State :=
  let s := if st = .busy then s.incReg pgHostif 0x2014 else if st = .badCrc then s.incReg pgHostif 0x2010 else s
  if a = .debug ∧ check then s.incReg pgDebug 0x2020 else s

theorem State.reject_eq (s : State) (a : Agent) (route : Route) (rq : Request) (st : Status) (check : Bool) :
    s.reject a route rq st check =
      (s.rejected a st check).respond a route (bit (rq.flags.setWidth 32) 1 && !alwaysAnswered rq st) ⟨rq.tag, st, []⟩ := rfl

theorem Served.rejected {base s : State} (h : Served base s) {a : Agent} {st : Status} {check : Bool} : Served base (s.rejected a st check) := by
  have counted : Served base (if st = .busy then s.incReg pgHostif 0x2014 else if st = .badCrc then s.incReg pgHostif 0x2010 else s) :=
    .ite h.incReg (.ite h.incReg h)
  exact .ite counted.incReg counted

theorem Served.nrError {base s : State} (h : Served base s) {a : Agent} {r : Response} : Served base (s.nrError a r) := .ite h.orReg h.setReg.raise

theorem bit_word_top {n : Nat} (h : n < 2147483648) : bit (word (n + 2147483648)) 31 = true := by
  rw [bit, word, BitVec.getLsbD_ofNat, Nat.testBit_eq_decide_div_mod_eq, Bool.and_eq_true, decide_eq_true_eq, decide_eq_true_eq]
  omega

/-- A failure of a command without a response is captured (R82). -/
theorem State.nrError_captured {s : State} (hs : Store.wf regReset s.regs = true) (a : Agent) (r : Response) :
    bit ((s.nrError a r).reg pgHostif 0x201C) 31 = true := by
  unfold State.nrError
  split
  case isTrue held =>
    rw [State.orReg, State.updReg_eq, State.reg_setReg_self s _ _ _ hs, bit_or, held, Bool.true_or]
  case isFalse =>
    have tag := r.tag.isLt
    have code := r.status.code_le
    have id := agentId_bounds a
    have top : bit (word (r.tag.toNat + r.status.code * 0x100 + a.id * 0x10000 + 0x80000000)) 31 = true := bit_word_top (by omega)
    generalize word _ = w at top ⊢
    have wf : Store.wf regReset (s.setReg pgHostif 0x201C w).regs = true := Store.wf_put regReset _ _ _ hs
    rwa [State.raise_eq, State.reg_setReg_other _ _ wf (by decide), State.reg_setReg_self s _ _ _ hs]

/-- Settles O21: a request on an open path is counted, and then meets the checks of R76, the Quench and the earlier commands of its agent. -/
theorem commandChecks : Obligations.CommandChecks := by
  intro i s op rq env canonical command
  have hs := canonical.regs
  have arrived := State.served_arrived hs rq.agent
  refine ⟨fun takes => ?_, fun st listens fails => ?_, fun powered quenched framed attached sends unread shut flags passes => ?_⟩
  · obtain ⟨listens, checked, flags, clear⟩ := takes
    rw [exec_command command s, State.command_checked hs listens checked, flags, clear, if_neg (by simp)]
  · obtain ⟨stands, framed, attached, sends, unread⟩ := listens
    have powered : s.inReset = false := by
      rw [State.stands, Bool.or_eq_false_iff] at stands
      exact stands.2
    obtain ⟨t, taken, counted⟩ := State.command_arrives (op := op) (env := env) powered framed attached unread
    have run := exec_command command s
    rw [taken, State.hostCommand, counted] at run
    simp only [fails] at run
    rw [State.reject_eq] at run
    refine ⟨fun answered => ⟨_, run, ?_⟩, fun quiet silent => ⟨_, run, ?_⟩⟩
    · have loud : (bit (rq.flags.setWidth 32) 1 && !alwaysAnswered rq st) = false := by
        rcases answered with open_ | always
        · rw [Bool.eq_false_iff.mpr open_, Bool.false_and]
        · rw [always, Bool.not_true, Bool.and_false]
      rw [loud]
      obtain ⟨answers, memory, config, -⟩ := arrived.rejected.answers framed sends st []
      exact ⟨answers, memory, config⟩
    · rw [quiet, silent]
      have error := (arrived.rejected (a := rq.agent) (st := st) (check := true)).nrError (a := rq.agent) (r := ⟨rq.tag, st, []⟩)
      rw [Bool.not_false, Bool.and_true, State.respond, if_pos rfl, if_neg (State.reqCheck_ne_ok fails)]
      exact ⟨error.outbox _, State.nrError_captured arrived.rejected.regs _ _, error.memory, error.keepsConfig⟩
  · obtain ⟨t, taken, counted⟩ := State.command_arrives (op := op) (env := env) powered framed attached unread
    have still : (s.arrived rq.agent).quenched = true := by
      rw [← quenched, State.quenched, State.quenched, (State.arrived_spec hs rq.agent).words pgDebug 0x2000 (by decide) (by decide)]
    have run := exec_command command s
    rw [taken, State.hostCommand, counted] at run
    simp only [passes, still, shut, Bool.not_false, Bool.and_self, if_true] at run
    rw [State.reject_eq, flags] at run
    obtain ⟨answers, memory, config, -⟩ := arrived.rejected.answers framed sends .busy []
    exact ⟨_, run, answers, memory, config⟩

end Sys2Proof.Machine

namespace Sys2Proof.Machine

/-! ### The I3C target (R68-R71, R93) -/

/-- A state that runs (R459, R460). -/
theorem State.powered_of_clocked {s : State} (h : s.stands = false) : s.inReset = false := by
  rw [State.stands, Bool.or_eq_false_iff] at h
  exact h.2

/-- The lower seven bits of DYN_ADDR with DYN_VALID above them. -/
theorem fld_dynAddr (w : Word) : fld w 7 1 = fld w 8 1 % 128 := by
  unfold fld
  omega

/-- DYN_VALID and DYN_ADDR written together. -/
theorem State.dyn_setRegFld {s : State} (hs : Store.wf regReset s.regs = true) {v : Nat} (hv : v < 256) :
    let t := s.setRegFld pgHostif 0x2000 8 1 v
    t.dynValid = decide (128 ≤ v) ∧ t.dynAddr = v % 128 ∧ RegsBut [pgHostif] s t ∧ t = { s with regs := t.regs } := by
  have word : (s.setRegFld pgHostif 0x2000 8 1 v).reg pgHostif 0x2000 = setFld (s.reg pgHostif 0x2000) 8 1 v := State.reg_setReg_self s _ _ _ hs
  refine ⟨?_, ?_, fun p o _ ho hp => ?_, rfl⟩
  · rw [State.dynValid, word, bit_setFld _ _ _ _ _ (by decide), if_pos (by decide), Nat.testBit_eq_decide_div_mod_eq]
    congr 1
    apply propext
    omega
  · rw [State.dynAddr, State.regFld, word, fld_dynAddr, fld_setFld_self _ _ _ _ (by decide) hv]
  · refine State.reg_setReg_other s _ hs fun e => hp ?_
    rw [(regKey_inj ho (by decide) e).1]
    exact List.mem_singleton_self _

/-- A target takes a dynamic address. -/
theorem State.dyn_setDyn {s : State} (hs : Store.wf regReset s.regs = true) (addr : BitVec 7) :
    let t := s.setDyn addr
    (t.dynValid = true ∧ t.dynAddr = addr.toNat) ∧ RegsBut [pgHostif] s t ∧ t = { s with regs := t.regs } := by
  have small := addr.isLt
  obtain ⟨valid, number, regs, frame⟩ := State.dyn_setRegFld hs (v := addr.toNat + 0x80) (by omega)
  exact ⟨⟨valid.trans (decide_eq_true (by omega)), number.trans (by omega)⟩, regs, frame⟩

theorem State.i3cMine_iff {s : State} {target : BitVec 7} : s.i3cMine target = true ↔ s.dynValid = true ∧ s.dynAddr = target.toNat := by
  rw [State.i3cMine, Bool.and_eq_true, beq_iff_eq]

/-- A directed read is answered by the target that it names. -/
theorem State.cccRead_answers (s : State) (n : Nat) (target : BitVec 7) {bytes : List Byte} {ok : List Byte → Prop} (h : ok bytes) :
    let t := ({ s with freeCtr := n }).cccRead target bytes
    t = { s with freeCtr := t.freeCtr, host := { s.host with reply := t.host.reply } }
      ∧ (if s.i3cMine target then ∃ l, t.host.reply = .data l ∧ ok l else t.host.reply = .silent) := by
  refine ⟨rfl, ?_⟩
  have reply : (({ s with freeCtr := n }).cccRead target bytes).host.reply = if s.i3cMine target then .data bytes else .silent := rfl
  rw [reply]
  split
  · exact ⟨bytes, rfl, h⟩
  · rfl

/-- Settles O18: each CCC by the branch of its meaning that the target's address picks. -/
theorem i3cTargetAnswers : Obligations.I3cTargetAnswers := by
  refine ⟨fun s target addr canonical powered => ?_, fun s target powered => ?_⟩
  · have hs := canonical.regs
    obtain ⟨took, regs, frame⟩ := State.dyn_setDyn hs addr
    have given (reply : BusReply) : let t := (s.setDyn addr).i3cReply reply
        (t.dynValid = true ∧ t.dynAddr = addr.toNat)
          ∧ (RegsBut [pgHostif] s t ∧ t = { s with regs := t.regs, host := { s.host with reply := t.host.reply } }) :=
      ⟨took, regs, rfl⟩
    have run (i : Instr) (t : State) (e : exec i s = if s.inReset then .next s else .next t) : exec i s = .next t := by
      rw [e, if_neg (by simp [powered])]
    refine ⟨fun fresh => ⟨_, run _ _ rfl, ?_⟩, fun old => ⟨_, run _ _ rfl, ?_⟩,
      fun fresh mine => ⟨_, run _ _ rfl, ?_⟩, fun other => ⟨_, run _ _ rfl, ?_⟩,
      fun old mine => ⟨_, run _ _ rfl, ?_⟩, fun other => ⟨_, run _ _ rfl, ?_⟩, ⟨_, run _ _ rfl, ?_⟩⟩
    · rw [if_neg (Bool.eq_false_iff.mp fresh)]
      exact ⟨(given _).1, (given _).2, rfl⟩
    · rw [if_pos old]
      rfl
    · rw [if_pos (by rw [fresh, mine, beq_self_eq_true]; rfl)]
      exact ⟨(given _).1, (given _).2, rfl⟩
    · rw [if_neg]
      · rfl
      · rw [Bool.and_eq_true, Bool.not_eq_true', beq_iff_eq]
        rintro ⟨fresh, mine⟩
        rcases other with old | away
        · exact absurd (fresh.symm.trans old) (by simp)
        · exact away mine
    · rw [if_pos (State.i3cMine_iff.mpr ⟨old, mine⟩)]
      exact ⟨(given _).1, (given _).2, rfl⟩
    · rw [if_neg]
      · rfl
      · rw [State.i3cMine_iff]
        rintro ⟨old, mine⟩
        rcases other with fresh | away
        · exact absurd (fresh.symm.trans old) (by simp)
        · exact away mine
    · obtain ⟨valid, -, regs, -⟩ := State.dyn_setRegFld hs (v := 0) (by decide)
      exact ⟨valid, regs, rfl⟩
  · have run (i : Instr) (t : State) (e : exec i s = if s.inReset then .next s else .next t) : exec i s = .next t := by
      rw [e, if_neg (by simp [powered])]
    refine ⟨⟨_, run _ _ rfl, State.cccRead_answers s s.freeCtr target rfl⟩, ⟨_, run _ _ rfl, State.cccRead_answers s s.freeCtr target rfl⟩,
      ⟨_, run _ _ rfl, State.cccRead_answers s s.freeCtr target rfl⟩, ⟨_, run _ _ rfl, State.cccRead_answers s (s.freeCtr + 1) target rfl⟩,
      ⟨_, run _ _ rfl, State.cccRead_answers s s.freeCtr target rfl⟩, fun code => ⟨⟨_, run _ _ rfl, rfl⟩, ⟨_, run _ _ rfl, rfl⟩⟩,
      fun o => ⟨fun reached => ⟨⟨_, run _ _ rfl, if_pos reached⟩, ⟨_, run _ _ rfl, if_pos reached⟩⟩,
        fun missed => ⟨⟨_, run _ _ rfl, ?_⟩, ⟨_, run _ _ rfl, ?_⟩⟩⟩,
      ⟨_, run _ _ rfl, ?_⟩⟩
    · exact if_neg (by simp [missed])
    · exact if_neg (by simp [missed])
    · split
      · rfl
      · rfl

theorem State.i3cRead_nil {s : State} (h : s.host.resp = []) : s.i3cRead = s.i3cReply .nack := by
  unfold State.i3cRead
  rw [h]

theorem State.i3cRead_cons {s : State} {r : List Byte} {rest : List (List Byte)} (h : s.host.resp = r :: rest) :
    s.i3cRead = { s with host := { s.host with resp := rest, reply := .data r } } := by
  unfold State.i3cRead
  rw [h]

theorem State.forgetGroups_eq (s : State) : s.forgetGroups = { s with host := { s.host with groupSeen := s.forgetGroups.host.groupSeen } } := by
  unfold State.forgetGroups
  dsimp only
  split <;> rfl

/-- An in-band interrupt is requested, and refused or not possible (R93). -/
theorem execIbiRequest_waits {s : State} (powered : s.inReset = false) {acked : Bool} (h : s.host.ibiOff = true ∨ s.dynValid = false ∨ acked = false) :
    execIbiRequest acked s = .next s.forgetGroups := by
  have frame := s.forgetGroups_eq
  unfold execIbiRequest
  rw [if_neg (by simp [powered])]
  refine if_pos ?_
  rw [frame]
  rcases h with off | fresh | refused
  · exact (Bool.or_eq_true _ _).mpr (.inl ((Bool.or_eq_true _ _).mpr (.inl off)))
  · exact (Bool.or_eq_true _ _).mpr (.inl ((Bool.or_eq_true _ _).mpr (.inr ((Bool.not_eq_true' _).mpr fresh))))
  · exact (Bool.or_eq_true _ _).mpr (.inr ((Bool.not_eq_true' _).mpr refused))

/-- An in-band interrupt is requested and acknowledged (R93). -/
theorem execIbiRequest_taken {s : State} (powered : s.inReset = false) (open_ : s.host.ibiOff = false) (valid : s.dynValid = true) :
    execIbiRequest true s = match s.forgetGroups.host.ibis with
      | e :: rest => .next { s.forgetGroups with host := { s.forgetGroups.host with ibis := rest, ibiLast := some e } }
      | [] => match s.forgetGroups.newGroup with
        | some (g, p) => .next { s.forgetGroups with host := { s.forgetGroups.host with ibiLast := some (BitVec.ofNat 8 (8 + g), BitVec.ofNat 8 p),
                                                                                        groupSeen := s.forgetGroups.host.groupSeen ||| (1#6 <<< g) } }
        | none => .next s.forgetGroups := by
  have frame := s.forgetGroups_eq
  have off : s.forgetGroups.host.ibiOff = false := by rw [frame]; exact open_
  have dyn : s.forgetGroups.dynValid = true := by rw [frame]; exact valid
  unfold execIbiRequest
  rw [if_neg (by simp [powered])]
  refine (if_neg ?_).trans rfl
  rw [off, dyn]
  decide

/-- Settles O19: reads take from the front of the unread responses, and interrupts from the front of the events. -/
theorem readsAndInterrupts : Obligations.ReadsAndInterrupts := by
  refine ⟨fun s powered => ?_, fun s powered => ?_⟩
  · intro read
    have taken : read s.i3cRead := by
      dsimp only [read]
      split
      next h => exact State.i3cRead_nil h
      next h => exact State.i3cRead_cons h
    refine ⟨⟨_, if_neg (by simp [powered]), taken⟩, fun addr here open_ => ?_⟩
    have run (dir : I2cDir) : exec (.i2cTransfer addr dir) s = match dir with
        | .read => .next s.i3cRead
        | .write bytes => .next (s.i3cWrite (receivedRequest .i3c bytes).1 (receivedRequest .i3c bytes).2 .none) := by
      refine (if_neg (by simp [powered])).trans ((if_neg ?_).trans rfl)
      rintro (away | ⟨valid, shut⟩)
      · exact away here
      · rcases open_ with fresh | on
        · exact absurd (fresh.symm.trans valid) (by simp)
        · exact absurd (on.symm.trans ((Bool.not_eq_true' _).mp shut)) (by simp)
    refine ⟨⟨_, run .read, taken⟩, fun bytes => ⟨_, run (.write bytes), fun full => if_pos full, fun room => if_neg (by omega)⟩⟩
  · have frame := s.forgetGroups_eq
    have kept : s.forgetGroups.host.ibis = s.host.ibis ∧ s.forgetGroups.host.ibiLast = s.host.ibiLast ∧ s.forgetGroups.regs = s.regs
        ∧ s.forgetGroups.host.resp = s.host.resp := by
      rw [frame]
      exact ⟨rfl, rfl, rfl, rfl⟩
    obtain ⟨ibis, last, regs, resp⟩ := kept
    refine ⟨fun e rest waiting open_ valid => ?_, fun g p idle group open_ valid => ?_,
      ⟨_, execIbiRequest_waits powered (.inr (.inr rfl)), ibis, last, regs⟩,
      fun shut => ⟨_, execIbiRequest_waits powered (shut.imp_right .inl), ibis, regs⟩⟩
    · have run := execIbiRequest_taken powered open_ valid
      rw [ibis, waiting] at run
      exact ⟨_, run, rfl, rfl, regs, resp⟩
    · have run := execIbiRequest_taken powered open_ valid
      rw [ibis, idle] at run
      simp only [group] at run
      exact ⟨_, run, rfl, ibis.trans idle, regs⟩

/-! ### The management lane (R72, R131, R146) -/

/-- A frame on the management lane of a device that runs. -/
theorem exec_mgmtFrameRx {s : State} (clocked : s.stands = false) (frame : List Byte) (fcsOk full : Bool) :
    exec (.mgmtFrameRx frame fcsOk full) s =
      if s.port.arriving.any (fun e => e.1 == 241) then .next (s.rxEnd 241 (frame.drop 256) fcsOk)
      else if !s.macTakes 241 then .next s
      else if (s.incReg pgMgmt 0x2004).macRow 241 frame fcsOk ≠ 5 then
        .next ((s.incReg pgMgmt 0x2004).macCount 241 (min ((s.incReg pgMgmt 0x2004).macRow 241 frame fcsOk) 3))
      else match (s.incReg pgMgmt 0x2004).mgmtFrameKind frame with
        | .data => .next ((s.incReg pgMgmt 0x2004).rxWhole 241 frame true full)
        | .discard => .next ((s.incReg pgMgmt 0x2004).incReg pgHostif 0x2018)
        | .command mac vlan bytes =>
          .next ((s.incReg pgMgmt 0x2004).hostCommand .mgmt (.mgmt mac vlan) (receivedRequest .mgmt bytes).1 (receivedRequest .mgmt bytes).2 .none) :=
  if_neg (by simp [clocked])

/-- Settles O20: a frame goes down the branches of its meaning. -/
theorem mgmtFrames : Obligations.MgmtFrames := by
  intro s frame fcsOk full canonical clocked u early
  have hs := canonical.regs
  have run := exec_mgmtFrameRx clocked frame fcsOk full
  refine ⟨fun arriving => ?_, fun whole off => ⟨s, ?_, rfl⟩, fun whole on row => ?_, fun whole on row => ?_⟩
  · rw [run, if_pos arriving]
  · rw [run, if_neg whole, off, if_pos (by simp)]
  · rw [run, if_neg whole, on, if_neg (by simp), if_pos row]
  · rw [if_neg whole, on, if_neg (by simp), if_neg (by simpa using row)] at run
    split
    next kind =>
      refine ⟨(s.incReg pgMgmt 0x2004).incReg pgHostif 0x2018, run.trans (by rw [kind]), ?_, rfl⟩
      have wf : Store.wf regReset (s.incReg pgMgmt 0x2004).regs = true := Store.wf_put regReset _ _ _ hs
      rw [State.incReg_eq, State.reg_setReg_self _ _ _ _ wf, State.incReg_eq, State.reg_setReg_other s _ hs (by decide)]
    next kind => exact run.trans (by rw [kind])
    next kind => exact run.trans (by rw [kind])

end Sys2Proof.Machine

namespace Sys2Proof.Machine

/-! ### The records of long operations (R87-R89) -/

section
variable {α : Type} {k q : Nat}

/-- A store's entry is found under the key that it was inserted with. -/
theorem Store.find?_insert_self (v : α) (m : List (Nat × α)) : (Store.insert k v m).find? (fun e => e.1 == k) = some (k, v) := by
  induction m with
  | nil => simp [Store.insert]
  | cons e m ih =>
    unfold Store.insert
    split
    · simp
    · split
      · simp
      · rw [List.find?_cons_of_neg (by simpa), ih]

theorem Store.find?_insert_other (v : α) (m : List (Nat × α)) (h : q ≠ k) :
    (Store.insert k v m).find? (fun e => e.1 == q) = m.find? (fun e => e.1 == q) := by
  have skip (w : α) (l : List (Nat × α)) : ((k, w) :: l).find? (fun e => e.1 == q) = l.find? (fun e => e.1 == q) :=
    List.find?_cons_of_neg (by simpa using h.symm)
  induction m with
  | nil => simp [Store.insert, h.symm]
  | cons e m ih =>
    unfold Store.insert
    split
    case isTrue same =>
      obtain ⟨k', w⟩ := e
      obtain rfl : k' = k := same
      rw [skip, skip]
    case isFalse =>
      split
      · rw [skip]
      · rw [List.find?_cons, List.find?_cons, ih]

end

section
variable {s t : State} {slot j : Nat} {r : OpRec}

theorem State.opRec_congr (h : t.ops.recs = s.ops.recs) (j : Nat) : t.opRec j = s.opRec j := by rw [State.opRec, State.opRec, h]

@[simp] theorem State.opRec_setOp_self (s : State) (slot : Nat) (r : OpRec) : (s.setOp slot r).opRec slot = some r := by
  show ((Store.insert slot r s.ops.recs).find? (fun e => e.1 == slot)).map Prod.snd = some r
  rw [Store.find?_insert_self]
  rfl

theorem State.opRec_setOp_other (r : OpRec) (h : j ≠ slot) : (s.setOp slot r).opRec j = s.opRec j := by
  show ((Store.insert slot r s.ops.recs).find? (fun e => e.1 == j)).map Prod.snd = s.opRec j
  rw [Store.find?_insert_other r _ h]
  rfl

theorem State.setOp_ops_congr (slot : Nat) (r : OpRec) (h : t.ops = s.ops) : (t.setOp slot r).ops = (s.setOp slot r).ops := by
  rw [State.setOp, State.setOp, h]

theorem State.updOp_eq (h : s.opRec slot = some r) (f : OpRec → OpRec) : s.updOp slot f = s.setOp slot (f r) := by
  unfold State.updOp
  rw [h]

theorem State.updOp_none (h : s.opRec slot = none) (f : OpRec → OpRec) : s.updOp slot f = s := by
  unfold State.updOp
  rw [h]

/-- A change of a record touches the operations alone. -/
theorem State.updOp_frame (s : State) (slot : Nat) (f : OpRec → OpRec) : s.updOp slot f = { s with ops := (s.updOp slot f).ops } := by
  unfold State.updOp
  split <;> rfl

theorem State.opRec_updOp_other (f : OpRec → OpRec) (h : j ≠ slot) : (s.updOp slot f).opRec j = s.opRec j := by
  unfold State.updOp
  split
  · exact State.opRec_setOp_other _ h
  · rfl

/-- A record as the end of its operation leaves it (R89). -/
abbrev OpRec.ended (r : OpRec) (st : OpState) (result : Status) : OpRec :=
  { r with state := st, result := result, progress := if st = .done then r.total else r.progress }

/-- The end of an operation: its record, and the event that tells of it (R89, R93). -/
theorem State.endOp_frame (s : State) (slot : Nat) (st : OpState) (result : Status) :
    ∃ ibis, s.endOp slot st result = { s.updOp slot (fun r => r.ended st result) with host := { s.host with ibis := ibis } } := by
  have frame := s.updOp_frame slot (fun r => r.ended st result)
  change ∃ ibis, (if bit ((s.updOp slot (fun r => r.ended st result)).cfg pgHostif 0x100) 4
    then (s.updOp slot (fun r => r.ended st result)).ibi 0x03 (slot + st.code * 16)
    else s.updOp slot (fun r => r.ended st result)) = _
  rw [frame]
  cases bit (State.cfg _ pgHostif 0x100) 4
  · exact ⟨s.host.ibis, rfl⟩
  · exact ⟨_, rfl⟩

theorem State.endOp_ops (s : State) (slot : Nat) (st : OpState) (result : Status) :
    (s.endOp slot st result).ops = (s.updOp slot (fun r => r.ended st result)).ops := by
  obtain ⟨ibis, frame⟩ := s.endOp_frame slot st result
  rw [frame]

theorem State.opRec_endOp_self (h : s.opRec slot = some r) (st : OpState) (result : Status) :
    (s.endOp slot st result).opRec slot = some (r.ended st result) := by
  rw [State.opRec_congr (congrArg _ (s.endOp_ops slot st result)), State.updOp_eq h, State.opRec_setOp_self]

theorem State.opRec_endOp_other (st : OpState) (result : Status) (h : j ≠ slot) : (s.endOp slot st result).opRec j = s.opRec j := by
  rw [State.opRec_congr (congrArg _ (s.endOp_ops slot st result)), State.opRec_updOp_other _ h]

theorem State.endOp_regs (s : State) (slot : Nat) (st : OpState) (result : Status) : (s.endOp slot st result).regs = s.regs := by
  obtain ⟨ibis, frame⟩ := s.endOp_frame slot st result
  rw [frame, State.updOp_frame]

theorem State.endOp_nvm (s : State) (slot : Nat) (st : OpState) (result : Status) : (s.endOp slot st result).nvm = s.nvm := by
  obtain ⟨ibis, frame⟩ := s.endOp_frame slot st result
  rw [frame, State.updOp_frame]

theorem State.reserveEval_frame (s : State) : s.reserveEval = { s with regs := s.reserveEval.regs } := by
  unfold State.reserveEval
  dsimp only
  split
  · rfl
  · split <;> rfl

theorem State.reserveEval_ops (s : State) : s.reserveEval.ops = s.ops := (congrArg State.ops s.reserveEval_frame).trans (State.with_regs_ops s _)

theorem State.reserveEval_buf (s : State) : s.reserveEval.buf = s.buf := (congrArg State.buf s.reserveEval_frame).trans (State.with_regs_buf s _)

theorem State.setTesting_ops (s : State) (l : List Nat) : (s.setTesting l).ops = s.ops := State.reserveEval_ops _

theorem State.setTesting_buf (s : State) (l : List Nat) : (s.setTesting l).buf = { s.buf with testing := l, testSince := s.time.cyc } :=
  State.reserveEval_buf _

theorem State.journalPut_ops (s : State) (kind items : Nat) (body : List Word) : (s.journalPut kind items body).ops = s.ops := by
  unfold State.journalPut
  split
  · rfl
  · split <;> rfl

/-! ### How an operation begins (R89) -/

/-- A record of the same operation: what is started keeps its type, its number, its starter and its place in the order, and a load or a flush its
words. -/
structure SameOp (r q : OpRec) : Prop where
  kind : q.kind = r.kind
  serial : q.serial = r.serial
  starter : q.starter = r.starter
  born : q.born = r.born
  params : r.kind = .tableLoad ∨ r.kind = .tableFlush → q.params = r.params

/-- Whether an operation fails as it begins: a commit without EPOCH, a synchronisation without its pair (R244, R403). -/
def State.failsAtStart (s : State) (r : OpRec) : Bool :=
  (r.kind == .epochCommit && !s.enabled pgEpoch) || (r.kind == .stateSync && !s.pairUp)

/-- A synchronisation that begins writes its own record alone (R403). -/
theorem State.syncBegin_ops (up : s.pairUp = true) (slot : Nat) (r : OpRec) : ∃ total epoch,
    (s.syncBegin slot r).ops = (s.setOp slot ({ r with phase := 0, progress := 0, total := total, params := [0] }.setDetail 4 epoch)).ops := by
  unfold State.syncBegin
  rw [up, if_neg (by decide)]
  refine ⟨_, _, State.setOp_ops_congr _ _ ?_⟩
  rw [State.journalPut_ops, State.setReg_ops]
  rfl

/-- What the start of an operation under `r` leaves of the records: its own stands in state `st`, the others are as they were. -/
structure Began (s t : State) (slot : Nat) (r : OpRec) (st : OpState) : Prop where
  record : ∃ q, t.opRec slot = some q ∧ SameOp r q ∧ q.state = st
  others : ∀ j, j ≠ slot → t.opRec j = s.opRec j

theorem Began.of_setOp (q : OpRec) (h : t.ops.recs = (s.setOp slot q).ops.recs) (same : SameOp r q) : Began s t slot r q.state where
  record := ⟨q, by rw [State.opRec_congr h, State.opRec_setOp_self], same, rfl⟩
  others j hj := by rw [State.opRec_congr h, State.opRec_setOp_other q hj]

theorem Began.failed (h : s.opRec slot = some r) (result : Status) : Began s (s.endOp slot .failed result) slot r .failed where
  record := ⟨_, State.opRec_endOp_self h _ _, ⟨rfl, rfl, rfl, rfl, fun _ => rfl⟩, rfl⟩
  others _ hj := State.opRec_endOp_other _ _ hj

/-- An operation that begins is RUNNING or has failed, and no other record changes. -/
theorem State.opBegin_spec (h : s.opRec slot = some r) :
    Began s (s.opBegin slot) slot r (if s.failsAtStart r then .failed else .running) := by
  have starts (kind : r.kind ≠ .epochCommit) (kind' : r.kind ≠ .stateSync) : s.failsAtStart r = false := by
    simp [State.failsAtStart, kind, kind']
  have same (q : OpRec) (kind : q.kind = r.kind := by rfl) (serial : q.serial = r.serial := by rfl)
      (starter : q.starter = r.starter := by rfl) (born : q.born = r.born := by rfl)
      (params : q.params = r.params := by rfl) : SameOp r q := ⟨kind, serial, starter, born, fun _ => params⟩
  unfold State.opBegin
  rw [h]
  dsimp only
  split
  case h_1 kind =>
    rw [show s.failsAtStart r = !s.enabled pgEpoch by simp [State.failsAtStart, kind]]
    split
    · exact .failed h _
    · exact .of_setOp { r with state := .running, phase := phWait, total := word (s.ovlCount .pending) } rfl (same _)
  case h_6 kind =>
    rw [show s.failsAtStart r = !s.pairUp by simp [State.failsAtStart, kind]]
    cases up : s.pairUp with
    | false =>
      rw [State.syncBegin, up]
      exact .failed h _
    | true =>
      obtain ⟨total, epoch, ops⟩ := State.syncBegin_ops up slot { r with state := .running }
      exact .of_setOp _ (congrArg _ ops) ⟨rfl, rfl, rfl, rfl, fun e => by simp [kind] at e⟩
  case h_4 kind =>
    rw [starts (by simp [kind]) (by simp [kind])]
    refine .of_setOp (OpRec.setDetail (.setDetail { r with state := .running, total := _, params := _, phase := _ } 4 _) 5 _) rfl ?_
    exact ⟨rfl, rfl, rfl, rfl, fun e => by simp [kind] at e⟩
  case h_5 kind =>
    rw [starts (by simp [kind]) (by simp [kind])]
    exact .of_setOp (.setDetail (.setDetail { r with state := .running } 6 noPage) 7 noPage) rfl (same _)
  case h_7 kind =>
    rw [starts (by simp [kind]) (by simp [kind])]
    exact .of_setOp { r with state := .running, total := word (fld (r.params.getD 2 0) 21 0), phase := 1 } (congrArg _ (State.setTesting_ops _ _)) (same _)
  case h_3 kind =>
    rw [starts (by simp [kind]) (by simp [kind])]
    exact .of_setOp { r with state := .running, total := word (s.range 0).2 } rfl (same _)
  case h_9 kind =>
    rw [starts (by simp [kind]) (by simp [kind])]
    exact .of_setOp { r with state := .running } rfl (same _)
  all_goals
    rename_i kind
    rw [starts (by simp [kind]) (by simp [kind])]
    exact .of_setOp { r with state := .running, total := r.params.getD 2 0 } rfl (same _)

end

end Sys2Proof.Machine

namespace Sys2Proof.Machine

/-! ### The end of an operation's work (R89, R221, R271, R483) -/

section
variable {s t : State} {slot : Nat} {r : OpRec}

/-- What retiring an ingot leaves: the operations and what is spilled. -/
structure Spared (base s : State) : Prop where
  ops : s.ops = base.ops
  spill : s.buf.spill = base.buf.spill

theorem Spared.reg {base : State} (h : Spared base s) {p o : Nat} {v : Word} : Spared base (s.setReg p o v) :=
  ⟨(State.setReg_ops s p o v).trans h.ops, (congrArg BufSt.spill (State.setReg_buf s p o v)).trans h.spill⟩

theorem Spared.incReg {base : State} (h : Spared base s) {p o : Nat} : Spared base (s.incReg p o) := h.reg

theorem Spared.raise {base : State} (h : Spared base s) {p b : Nat} : Spared base (s.raise p b) := h.reg

theorem Spared.reserveEval {base : State} (h : Spared base s) : Spared base s.reserveEval :=
  ⟨s.reserveEval_ops.trans h.ops, (congrArg BufSt.spill s.reserveEval_buf).trans h.spill⟩

theorem Spared.ite {base : State} {c : Prop} [Decidable c] (hs : Spared base s) (ht : Spared base t) : Spared base (if c then s else t) := by
  split
  · exact hs
  · exact ht

theorem State.spared_retireNow (s : State) (place : Nat) : Spared s (s.retireNow place) :=
  have kept : Spared s { s with buf := { s.buf with retired := Store.addKey place s.buf.retired } } := ⟨rfl, rfl⟩
  .ite ⟨rfl, rfl⟩ kept.incReg.raise.incReg.raise.reserveEval

theorem State.usedPlaces_nil (h : s.buf.spill = []) : s.usedPlaces = [] := by
  rw [State.usedPlaces, State.usedIngots, h]
  rfl

/-- A memory test in hand with nothing spilled: its record is RUNNING, at `p` of `total` ingots. -/
structure State.Tests (s : State) (slot : Nat) (p total : Word) : Prop where
  spill : s.buf.spill = []
  record : ∃ q, s.opRec slot = some q ∧ q.state = .running ∧ q.progress = p ∧ q.total = total

theorem State.Tests.congr {p total : Word} (h : s.Tests slot p total) (spill : t.buf.spill = s.buf.spill) (ops : t.ops = s.ops) :
    t.Tests slot p total where
  spill := spill.trans h.spill
  record := by
    obtain ⟨q, found, rest⟩ := h.record
    exact ⟨q, (State.opRec_congr (congrArg _ ops) slot).trans found, rest⟩

/-- An ingot is counted in PROGRESS. -/
theorem State.Tests.counted {p total : Word} (h : s.Tests slot p total) {f : OpRec → OpRec}
    (hf : ∀ r, (f r).state = r.state ∧ (f r).progress = r.progress + 1 ∧ (f r).total = r.total) : (s.updOp slot f).Tests slot (p + 1) total := by
  obtain ⟨q, found, running, rfl, rfl⟩ := h.record
  obtain ⟨state, progress, total⟩ := hf q
  rw [State.updOp_eq found]
  exact ⟨h.spill, _, State.opRec_setOp_self _ _ _, state.trans running, progress, total⟩

theorem State.Tests.testIngot {p total : Word} (h : s.Tests slot p total) (bad : Bool) (place : Nat) :
    (s.testIngot slot bad place).Tests slot (p + 1) total := by
  have free : s.usedPlaces.contains place = false := by rw [State.usedPlaces_nil h.spill]; rfl
  unfold State.testIngot
  dsimp only
  rw [free, if_neg (by decide)]
  split
  · rw [State.retireIngot, free, if_neg (by decide)]
    refine State.Tests.counted (h.congr (State.spared_retireNow s place).spill (State.spared_retireNow s place).ops) fun r => ?_
    dsimp only [OpRec.setDetail]
    split <;> exact ⟨rfl, rfl, rfl⟩
  · split
    · exact State.Tests.counted (h.congr (by simp) (by simp)) fun r => ⟨rfl, rfl, rfl⟩
    · exact h.counted fun r => ⟨rfl, rfl, rfl⟩

theorem State.Tests.ingots {p total : Word} (found : Nat → Bool) (l : List Nat) (h : s.Tests slot p total) :
    (l.foldl (fun s k => s.testIngot slot (found k) k) s).Tests slot (p + word l.length) total := by
  induction l generalizing s p with
  | nil => simpa [word] using h
  | cons k l ih =>
    have next := ih (h.testIngot (found k) k)
    rwa [show p + 1 + word l.length = p + word (k :: l).length by
      rw [List.length_cons, word, word, BitVec.ofNat_add]; ac_rfl] at next

/-- A test that has ended well. -/
def State.Tested (s : State) (slot : Nat) : Prop := ∃ q, s.opRec slot = some q ∧ q.state = .done ∧ q.result = .ok ∧ q.progress = q.total

/-- A range is tested: the test has ended, or its next range is in hand. -/
theorem State.Tests.testRun {p total : Word} (h : s.Tests slot p total) (le : p.toNat ≤ total.toNat)
    (testing : s.buf.testing.length = min 1024 (total.toNat - p.toNat)) (found : List Word) :
    (total.toNat - p.toNat ≤ 1024 → (s.testRun slot found).Tested slot)
      ∧ (1024 < total.toNat - p.toNat → (s.testRun slot found).Tests slot (p + 1024#32) total
        ∧ (s.testRun slot found).buf.testing.length = min 1024 (total.toNat - (p + 1024#32).toNat)) := by
  have free : s.testWaits = false := by simp [State.testWaits, State.usedPlaces_nil h.spill]
  have after := State.Tests.ingots (fun k => found.contains (word (k % 2 ^ 22))) s.buf.testing
    (h.congr (t := { s with buf := { s.buf with testing := [] } }) rfl rfl)
  unfold State.testRun
  rw [free, if_neg (by decide)]
  dsimp only
  revert after
  generalize List.foldl _ _ s.buf.testing = u
  rw [testing]
  rintro ⟨spill, q, record, running, progress, rfl⟩
  rw [record]
  dsimp only
  refine ⟨fun last => ?_, fun more => ?_⟩
  · have done : q.progress = q.total := by
      rw [progress]
      apply BitVec.eq_of_toNat_eq
      simp only [BitVec.toNat_add, word, BitVec.toNat_ofNat]
      omega
    rw [if_pos done]
    have record : u.reserveEval.opRec slot = some q := (State.opRec_congr (congrArg _ u.reserveEval_ops) slot).trans record
    exact ⟨_, State.opRec_endOp_self record _ _, rfl, rfl, rfl⟩
  · have less : (p + word 1024).toNat = p.toNat + 1024 := by
      simp only [BitVec.toNat_add, word, BitVec.toNat_ofNat]
      omega
    rw [show word (min 1024 (q.total.toNat - p.toNat)) = 1024#32 by rw [Nat.min_eq_left (by omega)]] at progress
    have ahead : q.progress ≠ q.total := fun e => by
      have := congrArg BitVec.toNat e
      rw [progress] at this
      change (p + word 1024).toNat = q.total.toNat at this
      omega
    rw [if_neg ahead]
    refine ⟨⟨?_, q, ?_, running, progress, rfl⟩, ?_⟩
    · rw [State.setTesting_buf]
      exact spill
    · exact (State.opRec_congr (congrArg OpSt.recs (State.setTesting_ops _ _)) slot).trans record
    · rw [State.setTesting_buf, OpRec.testRange, progress]
      simp

/-- The rounds of a test: what `testWork` iterates. -/
def State.testRound (s : State) (slot : Nat) (found : List Word) : State :=
  match s.opRec slot with | some r => if r.state == .running then s.testRun slot found else s | none => s

theorem State.testWork_eq (s : State) (slot n : Nat) (found : List Word) :
    s.testWork slot n found = (List.range n).foldl (fun s _ => s.testRound slot found) s := rfl

theorem State.Tested.testRound (h : s.Tested slot) (found : List Word) : (s.testRound slot found).Tested slot := by
  obtain ⟨q, record, done, rest⟩ := id h
  rw [State.testRound, record]
  dsimp only
  rwa [done]

theorem State.Tests.testRound {p total : Word} (h : s.Tests slot p total) (found : List Word) : s.testRound slot found = s.testRun slot found := by
  obtain ⟨q, record, running, -⟩ := h.record
  rw [State.testRound, record]
  dsimp only
  rw [running, if_pos (by decide)]

theorem State.Tested.rounds {l : List Nat} (h : s.Tested slot) (found : List Word) : (l.foldl (fun s _ => s.testRound slot found) s).Tested slot := by
  induction l generalizing s with
  | nil => exact h
  | cons k l ih => exact ih (h.testRound found)

/-- Enough rounds end a test, whatever they find. -/
theorem State.Tests.rounds {p total : Word} (h : s.Tests slot p total) (le : p.toNat ≤ total.toNat)
    (testing : s.buf.testing.length = min 1024 (total.toNat - p.toNat)) (found : List Word) {l : List Nat} (pos : l ≠ [])
    (enough : total.toNat - p.toNat ≤ 1024 * l.length) : (l.foldl (fun s _ => s.testRound slot found) s).Tested slot := by
  induction l generalizing s p with
  | nil => exact absurd rfl pos
  | cons k l ih =>
    rw [List.length_cons] at enough
    obtain ⟨ends, goesOn⟩ := h.testRun le testing found
    rw [List.foldl_cons, h.testRound]
    by_cases last : total.toNat - p.toNat ≤ 1024
    · exact (ends last).rounds found
    · obtain ⟨hand, testing'⟩ := goesOn (by omega)
      have ahead : (p + 1024#32).toNat = p.toNat + 1024 := by
        rw [BitVec.toNat_add, BitVec.toNat_ofNat]
        omega
      refine ih hand (by omega) testing' ?_ (by omega)
      rintro rfl
      rw [List.length_nil] at enough
      omega

/-- A memory test of which nothing is spilled ends DONE. -/
theorem State.testWork_tested (record : s.opRec slot = some r) (running : r.state = .running) (le : r.progress.toNat ≤ r.total.toNat)
    (testing : s.buf.testing = r.testRange) (spill : s.buf.spill = []) (found : List Word) {n : Nat} (pos : 0 < n) (enough : r.total.toNat ≤ 1024 * n) :
    (s.testWork slot n found).Tested slot := by
  rw [State.testWork_eq]
  refine State.Tests.rounds ⟨spill, r, record, running, rfl, rfl⟩ le (by simp [testing, OpRec.testRange]) found ?_ ?_
  · rw [Ne, List.range_eq_nil]
    omega
  · rw [List.length_range]
    omega

/-! ### The flush of TABLES -/

theorem State.leadJoined_iff : s.leadJoined = true ↔ s.topo = 1 ∧ bit (s.reg 0 0x2064) 0 = true ∧ s.twicel = 2 ∧ s.role ≠ 2 := by
  unfold State.leadJoined State.ownDev
  by_cases topo : s.topo = 1
  · simp [topo, and_assoc]
  · simp [topo]

theorem State.leadJoined_congr (regs : t.regs = s.regs) : t.leadJoined = s.leadJoined := by
  rw [Bool.eq_iff_iff, State.leadJoined_iff, State.leadJoined_iff]
  simp only [State.topo, State.twicel, State.role, State.regFld, State.reg_congr regs]

/-- What a lead's journal leaves: whether it is joined. -/
structure Joins (base s : State) : Prop where
  regs : Store.wf regReset s.regs = true
  joined : s.leadJoined = base.leadJoined

theorem Joins.same {base : State} (h : Joins base s) (regs : t.regs = s.regs := by rfl) : Joins base t :=
  ⟨regs ▸ h.regs, (State.leadJoined_congr regs).trans h.joined⟩

theorem Joins.orReg {base : State} (h : Joins base s) : Joins base (s.orReg pgPair 0x2004 0x20000#32) := by
  have other (p o : Nat) (ne : regKey p o ≠ regKey pgPair 0x2004) : (s.orReg pgPair 0x2004 0x20000#32).reg p o = s.reg p o :=
    State.reg_setReg_other s _ h.regs ne
  have role : fld ((s.orReg pgPair 0x2004 0x20000#32).reg pgPair 0x2004) 1 0 = fld (s.reg pgPair 0x2004) 1 0 := by
    rw [State.orReg, State.updReg_eq, State.reg_setReg_self _ _ _ _ h.regs]
    exact fld_putBit_other _ 17 true 1 0 (by decide)
  refine ⟨Store.wf_put _ _ _ _ h.regs, ?_⟩
  rw [← h.joined, Bool.eq_iff_iff, State.leadJoined_iff, State.leadJoined_iff]
  simp only [State.topo, State.twicel, State.role, State.regFld, role, other 0 0x2000 (by decide), other 0 0x2064 (by decide),
    other pgPair 0x2000 (by decide)]

theorem Joins.journalPut {base : State} (h : Joins base s) (kind items : Nat) (body : List Word) : Joins base (s.journalPut kind items body) := by
  unfold State.journalPut
  split
  · exact h
  · split
    · exact h.same.orReg
    · exact h.same

theorem Joins.journal {base : State} (h : Joins base s) (kind items : Nat) (body : List Word) : Joins base (s.journal kind items body) := by
  unfold State.journal
  split
  · exact h.journalPut ..
  · exact h

theorem Joins.journalDeletes {base : State} (h : Joins base s) (gone : List MacEnt) : Joins base (s.journalDeletes gone) := by
  unfold State.journalDeletes
  split
  · exact h
  · exact List.foldlRecOn gone _ h fun t h e _ => (h.journal ..).journal ..

/-- The banks of a flush of one device, up to `upto`. -/
theorem State.flushRun_spec (regs : Store.wf regReset s.regs = true) (alone : s.leadJoined = false) (r : OpRec) (upto : Nat) :
    (s.flushRun slot r upto).opRec slot = some { r with progress := word upto } ∧ (s.flushRun slot r upto).leadJoined = false := by
  unfold State.flushRun
  extract_lets banks mine u keep gone v
  have same : v = s := by simp [v, alone]
  refine ⟨State.opRec_setOp_self .., ?_⟩
  rw [same, ← alone]
  have joins : Joins s (s.setMac (s.tab.mac.filter keep)) := ⟨regs, State.leadJoined_congr rfl⟩
  exact ((joins.journalDeletes (gone.map Prod.snd)).same (t := State.setOp _ slot { r with progress := word upto })).joined

theorem State.sharedDone_eq (alone : s.leadJoined = false) (slot : Nat) (r : OpRec) : s.sharedDone slot r = s.endOp slot .done .ok := by
  rw [State.sharedDone, alone, Bool.false_and, if_neg (by decide)]

/-- A terminal state stays whatever phases of an update follow. -/
theorem State.updateRun_ended (record : s.opRec slot = some r) (ended : r.state ≠ .running) (good : Bool) (n : Nat) : s.updateRun slot good n = s := by
  cases n with
  | zero => rfl
  | succ n =>
    rw [State.updateRun, record]
    dsimp only
    rw [if_pos (by simpa using ended)]

/-- An update of which nothing reads back fails, and the store stands as it was. -/
theorem State.updateRun_unread (record : s.opRec slot = some r) (running : r.state = .running) (kind : r.kind = .fwUpdate) (phase : r.phase = 2) (n : Nat) :
    s.updateRun slot false (n + 1) = s.endOp slot .failed .internal := by
  have open_ : s.storeShut r = false := by simp [State.storeShut, kind, phase]
  have fails : s.updatePhase slot r false = s.endOp slot .failed .internal := by
    unfold State.updatePhase
    dsimp only
    rw [phase, if_neg (by decide), if_neg (by decide), if_pos rfl, if_neg (by decide)]
  rw [State.updateRun, record]
  dsimp only
  rw [running, if_neg (by decide), open_, if_neg (by decide), fails]
  exact State.updateRun_ended (State.opRec_endOp_self record .failed .internal) (fun e => OpState.noConfusion e) false n

theorem State.opWork_memTest (record : s.opRec slot = some r) (running : r.state = .running) (kind : r.kind = .memTest) (n : Nat) (good : Bool)
    (found : List Word) : s.opWork slot n good found = s.testWork slot n found := by
  simp [State.opWork, record, running, kind, State.storeShut]

theorem State.opWork_fwUpdate (record : s.opRec slot = some r) (running : r.state = .running) (kind : r.kind = .fwUpdate) (phase : r.phase = 2)
    (n : Nat) (good : Bool) (found : List Word) : s.opWork slot n good found = s.updateRun slot good n := by
  simp [State.opWork, record, running, kind, phase, State.storeShut]

/-- A flush that reaches its last bank. -/
theorem State.opWork_tableFlush {q : OpRec} (record : s.opRec slot = some r) (running : r.state = .running) (kind : r.kind = .tableFlush)
    (works : s.working pgTables = true) {n : Nat} (enough : r.total.toNat ≤ n) (flushed : (s.flushRun slot r r.total.toNat).opRec slot = some q)
    (good : Bool) (found : List Word) : s.opWork slot n good found = (s.flushRun slot r r.total.toNat).sharedDone slot q := by
  have last : min (r.progress.toNat + n) r.total.toNat = r.total.toNat := by omega
  simp [State.opWork, record, running, kind, State.storeShut, works, last, flushed]

/-- A flush on one device that reaches its last bank is DONE. -/
theorem State.opWork_flushed (regs : Store.wf regReset s.regs = true) (record : s.opRec slot = some r) (running : r.state = .running)
    (kind : r.kind = .tableFlush) (works : s.working pgTables = true) (alone : s.leadJoined = false) {n : Nat} (enough : r.total.toNat ≤ n)
    (good : Bool) (found : List Word) :
    ∃ q, (s.opWork slot n good found).opRec slot = some q ∧ q.state = .done ∧ q.progress = q.total := by
  obtain ⟨flushed, alone'⟩ := State.flushRun_spec regs alone r r.total.toNat (slot := slot)
  rw [State.opWork_tableFlush record running kind works enough flushed, State.sharedDone_eq alone']
  exact ⟨_, State.opRec_endOp_self flushed _ _, rfl, rfl⟩

end

theorem exec_opQueuedStart {s : State} {slot : Fin 16} {r : OpRec} (stands : s.stands = false) (record : s.opRec slot.val = some r)
    (queued : r.state = .queued) (free : s.opBlocked r = false) : exec (.opQueuedStart slot) s = .next (s.opBegin slot.val) := by
  change execOpQueuedStart slot s = _
  rw [execOpQueuedStart, stands, if_neg (by decide), record]
  dsimp only
  rw [queued, free, if_pos (by decide)]

theorem exec_opComplete {s : State} (stands : s.stands = false) (slot : Fin 16) (good : Bool) (found : List Word) :
    exec (.opComplete slot good found) s = .next (s.opWork slot.val 16777216 good found) := by
  change execOpComplete slot good found s = _
  rw [execOpComplete, stands, if_neg (by decide)]

theorem exec_opRecordExpire {s : State} {slot : Fin 16} {r : OpRec} (stands : s.stands = false) (record : s.opRec slot.val = some r)
    (ended : r.state.terminal = true) :
    exec (.opRecordExpire slot) s = .next { s with ops := { s.ops with recs := Store.erase slot.val s.ops.recs } } := by
  change execOpRecordExpire slot s = _
  rw [execOpRecordExpire, stands, if_neg (by decide), record]
  dsimp only
  rw [if_pos ended]

/-- Settles O28: a queued operation begins as `opBegin_spec` says, a test, a flush and an update that does not read back end in `endOp`. -/
theorem operationsEnd : Obligations.OperationsEnd := by
  intro s slot canonical keyed stands r record
  have regs := canonical.regs
  refine ⟨fun queued free notSync ready => ?_, fun queued free => ?_, fun good found running kind le small testing spill => ?_,
    fun good found running kind works alone small => ?_, fun found running kind phase => ?_, fun ended => ?_⟩
  · refine ⟨_, exec_opQueuedStart stands record queued free, ?_⟩
    have starts : s.failsAtStart r = false := by
      rcases ready with notCommit | on
      · simp [State.failsAtStart, notSync, notCommit]
      · simp [State.failsAtStart, notSync, on]
    obtain ⟨q, begun, same, state⟩ := (State.opBegin_spec record).record
    rw [starts] at state
    exact ⟨q, begun, same.kind, same.serial, state⟩
  · refine ⟨_, exec_opQueuedStart stands record queued free, ?_⟩
    obtain ⟨q, begun, same, state⟩ := (State.opBegin_spec record).record
    refine ⟨q, begun, same.kind, same.serial, ?_⟩
    rw [state]
    split <;> simp
  · refine ⟨_, exec_opComplete stands slot good found, ?_⟩
    rw [State.opWork_memTest record running kind]
    exact State.testWork_tested record running le testing spill found (by decide) (by omega)
  · exact ⟨_, exec_opComplete stands slot good found, State.opWork_flushed regs record running kind works alone small good found⟩
  · refine ⟨_, exec_opComplete stands slot false found, ?_⟩
    rw [State.opWork_fwUpdate record running kind phase, State.updateRun_unread record running kind phase 16777215]
    exact ⟨⟨_, State.opRec_endOp_self record _ _, rfl⟩, congrArg NvmSt.bytes (s.endOp_nvm _ _ _), State.reg_congr (s.endOp_regs _ _ _) _ _⟩
  · exact ⟨_, exec_opRecordExpire stands record ended, rfl⟩

end Sys2Proof.Machine

namespace Sys2Proof.Machine

/-! ## The commands of long operations

### What these commands run keeps (`Served`) -/

namespace Served

section
variable {base s : State} (h : Served base s)
include h

theorem audit {r : AuditRec} : Served base (s.audit r) := .ite h.withNvm h.withNvm

theorem auditSlot {agent target slot : Nat} : Served base (s.auditSlot agent target slot) := h.audit

theorem deny : Served base s.deny := h.incReg

theorem ibi {code detail : Nat} : Served base (s.ibi code detail) := h.withHost

theorem journalPut {kind items : Nat} {body : List Word} : Served base (s.journalPut kind items body) := .ite h (.ite h.withPair.orReg h.withPair)

theorem journal {kind items : Nat} {body : List Word} : Served base (s.journal kind items body) := .ite h.journalPut h

theorem reserveEval : Served base s.reserveEval := .ite h (.ite h.updReg.raise h.updReg)

theorem setTesting {l : List Nat} : Served base (s.setTesting l) := h.withBuf.reserveEval

theorem setOp {slot : Nat} {r : OpRec} : Served base (s.setOp slot r) := h.withOps

theorem updOp {slot : Nat} {f : OpRec → OpRec} : Served base (s.updOp slot f) := by
  unfold State.updOp
  split
  · exact h.setOp
  · exact h

theorem endOp {slot : Nat} {st : OpState} {result : Status} : Served base (s.endOp slot st result) := .ite h.updOp.ibi h.updOp

theorem syncBegin {slot : Nat} {r : OpRec} : Served base (s.syncBegin slot r) := .ite h.endOp h.incReg.withPair.setReg.journalPut.setOp

theorem opBegin {slot : Nat} : Served base (s.opBegin slot) := by
  unfold State.opBegin
  split
  · exact h
  · dsimp only
    split
    · exact .ite h.endOp h.setOp.withTab
    · exact h.setOp
    · exact h.setOp
    · exact h.setOp
    · exact h.withOps.setOp
    · exact h.syncBegin
    · exact h.setOp.setTesting
    · exact h.setOp
    · exact h.setOp

theorem opCreate {slot : Nat} {kind : OpKind} {agent rights session : Nat} {locks : List Nat} {params : List Word} :
    Served base (s.opCreate slot kind agent rights session locks params).2 := h.withOps.setOp

theorem freePending : Served base s.freePending := h.withTab

theorem dropCommit : Served base s.dropCommit := h.withTab

theorem queueCtl {k dst len : Nat} {payload : List Byte} : Served base (s.queueCtl k dst len payload) := h.withSprue

theorem sendControl {gs : List Nat} {dst len : Nat} {payload : List Byte} {t : State} (e : s.sendControl gs dst len payload = some t) :
    Served base t := by
  unfold State.sendControl at e
  split at e
  · cases e
  · cases e
    exact h.queueCtl

theorem sendRelayCell {flags seq : Nat} {addr mask : Word} {data : List Word} : Served base (s.sendRelayCell flags seq addr mask data) := by
  unfold State.sendRelayCell
  cases e : s.sendControl s.jointGroups s.otherDev (20 + 4 * data.length) (relayBytes flags seq data.length addr mask data) with
  | none => exact h
  | some t => exact h.sendControl e

theorem sendRelay {r : Relay} : Served base (s.sendRelay r) := h.sendRelayCell

theorem pumpRelays : Served base s.pumpRelays := .foldl h.withPair fun h => h.sendRelay.incReg

theorem putRelay {r : Relay} : Served base (s.putRelay r) := h.withPair.pumpRelays

theorem relayWords {agent : Nat} {mirror read fixed : Bool} {addr : Nat} {mask : Option Word} {data : List Word} :
    Served base (s.relayWords agent mirror read fixed addr mask data) := .foldl_fst h fun h => h.putRelay

theorem relayTold {agent addr : Nat} {l : List Word} : Served base (s.relayTold agent addr l) := h.relayWords

theorem relayAbort {r : OpRec} : Served base (s.relayAbort r) := .ite h.relayTold h

theorem freeBoth {r : OpRec} : Served base (s.freeBoth r) := .freePending (.ite h.relayTold h)

theorem cancelWork {r : OpRec} : Served base (s.cancelWork r) := by
  unfold State.cancelWork
  split
  · exact h.relayAbort.freeBoth.dropCommit
  · exact h.setTesting
  · exact .ite h.clrReg.auditSlot h
  · exact h

theorem commitDone {slot : Nat} : Served base (s.commitDone slot) := h.endOp.withTab

theorem advanceEpoch {no : Nat} {late : Bool} {rec : AuditRec} : Served base (s.advanceEpoch no late rec) := by
  unfold State.advanceEpoch
  extract_lets +onlyGivenNames _ numbered retired _ _ switched stamped counted told
  have retired : Served base retired := Served.setReg (Served.setReg h)
  have counted : Served base counted := retired.withTab.setReg.setReg.setReg.incReg.raise
  have told : Served base told := .ite counted.orReg counted
  exact told.audit.journal

theorem failCommit {slot : Nat} {r : OpRec} {res : Status} : Served base (s.failCommit slot r res) := h.setOp.relayAbort.endOp.dropCommit

theorem switchEpoch {slot : Nat} {r : OpRec} {late : Bool} : Served base (s.switchEpoch slot r late) := by
  unfold State.switchEpoch
  extract_lets +onlyGivenNames _ _ _ _ alone switched
  have alone : Served base alone := h.withTab
  have switched : Served base switched := alone.advanceEpoch
  exact .ite switched.setOp.commitDone switched.setOp

theorem pairedSwitch {slot : Nat} {r : OpRec} : Served base (s.pairedSwitch slot r) := by
  unfold State.pairedSwitch
  split
  · exact h
  · exact .ite (.ite h.switchEpoch h) (.ite h.failCommit.orReg h)

theorem armedSwitch {slot : Nat} {r : OpRec} : Served base (s.armedSwitch slot r) := .ite h.pairedSwitch (.ite h h.switchEpoch)

theorem dueSwitch : Served base s.dueSwitch := by
  unfold State.dueSwitch
  split
  · exact .ite h.armedSwitch h
  · exact h

theorem opCancel {slot : Nat} {r : OpRec} {broken : Bool} : Served base (s.opCancel slot r broken).2 := by
  unfold State.opCancel
  extract_lets +onlyGivenNames due now res ending
  have due : Served base due := .ite h.dueSwitch h
  have ends {t : State} (ht : Served base t) : Served base (ending t) := ht.updOp.endOp
  split
  · exact ends (.ite due.setOp.freeBoth due)
  · exact .ite_snd (ends due.setOp.cancelWork) due
  · exact .ite_snd (ends due.setOp.cancelWork) due
  · exact due

end
end Served

/-! ### The answer of a command that is no access and no fence -/

section
variable {s u v : State} {i : Instr} {op : Nat} {rq : Request} {env : CmdEnv} {st : Status} {l : List Word}

/-- A command that is answered at once, with its words at hand, is answered with them. -/
theorem State.finish_work (op_fence : op ≠ opFENCE) (op_words : [opREAD, opWRITE, opMASKED].contains op = false) (first : Nat) (a : Agent)
    (route : Route) (loud : bit (rq.flags.setWidth 32) 1 = false) (v : State) (st : Status) (l : List Word) :
    v.finish a route op rq first (Reply.work (st, l, v)).1 = (if st = .busy then v.incReg pgHostif 0x2014 else v).sendOn route ⟨rq.tag, st, l⟩ := by
  have words : (if l.isEmpty then [] else [RespPart.words l]).flatMap (Waiting.part ⟨a, route, false, first, 0, ⟨rq.tag, st, [word 0]⟩,
      if l.isEmpty then [] else [.words l], []⟩) = l := by
    cases l <;> simp [Waiting.part]
  unfold State.finish
  simp only [op_fence, if_false, op_words, Bool.false_and, loud, State.respond, Option.getD_none, Bool.false_eq_true]
  unfold Waiting.final
  exact congrArg (fun p => State.sendOn (if st = .busy then v.incReg pgHostif 0x2014 else v) route ⟨rq.tag, st, p⟩) words

/-- What an accepted command answers is sent, and the operations stand as it leaves them. -/
theorem State.command_replies (canonical : s.Canonical) (command : commandOf i = some (op, rq, env)) (takes : s.takes op rq)
    (op_fence : op ≠ opFENCE) (op_words : [opREAD, opWRITE, opMASKED].contains op = false)
    (run : (s.arrived rq.agent).runCmd rq.agent op ((s.arrived rq.agent).cmdRights rq.agent rq.session.toNat) rq.session.toNat (reqWords rq) env
      = Reply.work (st, l, v)) (served : Served s v) :
    Leads i s (fun t => Answers s t rq st l ∧ t.ops = v.ops) := by
  obtain ⟨listens, checked, flags, clear⟩ := takes
  have counted : Served s (if st = .busy then v.incReg pgHostif 0x2014 else v) := .ite served.incReg served
  obtain ⟨-, framed, -, sends, -⟩ := id listens
  obtain ⟨answers, -, -, ops⟩ := counted.answers framed sends st l
  have quiet : bit (rq.flags.setWidth 32) 1 = false := by rw [flags]; decide
  have done : s.command op rq env = (if st = .busy then v.incReg pgHostif 0x2014 else v).sendOn (agentRoute rq.agent) ⟨rq.tag, st, l⟩ := by
    rw [State.command_checked canonical.regs listens checked, if_neg (by rw [flags, clear]; simp), State.execute, run]
    exact State.finish_work op_fence op_words _ _ _ quiet v st l
  refine ⟨_, exec_command command s, ?_⟩
  rw [done]
  refine ⟨answers, ops.trans ?_⟩
  split <;> rfl

end

end Sys2Proof.Machine

namespace Sys2Proof.Machine

/-! ### OP_START (R87, R89, R90) -/

section
variable {s t : State} {slot : Nat} {r q : OpRec}

theorem State.arrived_ops (s : State) (a : Agent) : (s.arrived a).ops = s.ops := by
  cases a <;> rfl

theorem State.freeOp_congr (h : t.ops = s.ops) : t.freeOp = s.freeOp := by
  simp only [State.freeOp, State.opRec, h]

/-- Whether an operation conflicts with another is decided by what starting it keeps. -/
theorem SameOp.conflicts (h : SameOp r q) (e : OpRec) : e.conflicts q = e.conflicts r := by
  have table (k : r.kind = .tableLoad ∨ r.kind = .tableFlush) : q.table = r.table := by rw [OpRec.table, OpRec.table, h.params k]
  unfold OpRec.conflicts
  rw [h.kind]
  by_cases k : r.kind = .tableLoad ∨ r.kind = .tableFlush
  · rw [table k]
  · have load : (r.kind == .tableLoad) = false := by simpa using fun e => k (.inl e)
    have flush : (r.kind == .tableFlush) = false := by simpa using fun e => k (.inr e)
    simp [load, flush]

theorem SameOp.opBlocked (h : SameOp r q) (s : State) : s.opBlocked q = s.opBlocked r := by
  unfold State.opBlocked
  simp only [h.born, h.conflicts]

/-- A new record: QUEUED where an earlier conflicting operation has not ended, RUNNING else. -/
theorem State.opCreate_spec (s : State) (slot : Nat) (kind : OpKind) (agent rights session : Nat) (locks : List Nat) (params : List Word) :
    ∃ r : OpRec, ∃ v : State, s.opCreate slot kind agent rights session locks params = (r, v) ∧ v.opRec slot = some r
      ∧ (∀ j, j ≠ slot → v.opRec j = s.opRec j) ∧ r.kind = kind ∧ r.serial = Store.get 0#12 slot s.ops.serials + 1 ∧ r.starter = agent
      ∧ r.state = (if s.opBlocked r then .queued else .running) ∧ v = { s with ops := v.ops } := by
  refine ⟨_, _, rfl, State.opRec_setOp_self _ _ _, fun j hj => State.opRec_setOp_other _ hj, ?_⟩
  dsimp only
  split
  case isTrue blocked => exact ⟨rfl, rfl, rfl, (if_pos blocked).symm, rfl⟩
  case isFalse free => exact ⟨rfl, rfl, rfl, rfl, rfl⟩

/-- A commit that passes the checks does not fail as it begins. -/
theorem State.opCheck_epoch {ws : List Word} (h : s.opCheck .epochCommit ws = none) : s.enabled pgEpoch = true := by
  by_contra off
  simp [State.opCheck, firstFault, off] at h

section
variable {s : State} {a : Agent} {rights session : Nat} {ws : List Word} {k : OpKind}

theorem opStart_denied (kind : OpKind.ofCode (fld (ws.getD 0 0) 7 0) = some k) (right : rightOk rights k.right = false) :
    opStart a rights session ws s = (.denied, [], s.deny) := by
  simp only [opStart, kind, right, Bool.not_false, if_true]

theorem opStart_refused {st : Status} (kind : OpKind.ofCode (fld (ws.getD 0 0) 7 0) = some k) (right : rightOk rights k.right = true)
    (checked : s.opCheck k ws = some st) : opStart a rights session ws s = (st, [], s) := by
  simp only [opStart, kind, right, checked, Bool.not_true, Bool.false_eq_true, if_false]

theorem opStart_full (kind : OpKind.ofCode (fld (ws.getD 0 0) 7 0) = some k) (right : rightOk rights k.right = true)
    (checked : s.opCheck k ws = none) (full : s.freeOp = none) : opStart a rights session ws s = (.busy, [], s) := by
  simp only [opStart, kind, right, checked, full, Bool.not_true, Bool.false_eq_true, if_false]

end

/-- What OP_START leaves of the records: the free one holds the operation, the others are as they were. -/
theorem opStart_starts {s : State} {a : Agent} {rights session slot : Nat} {ws : List Word} {k : OpKind}
    (kind : OpKind.ofCode (fld (ws.getD 0 0) 7 0) = some k) (right : rightOk rights k.right = true) (checked : s.opCheck k ws = none)
    (free : s.freeOp = some slot) :
    ∃ r q : OpRec, ∃ v : State, opStart a rights session ws s = (.ok, [r.handle slot], v) ∧ SameOp r q ∧ v.opRec slot = some q
      ∧ (∀ j, j ≠ slot → v.opRec j = s.opRec j) ∧ r.kind = k ∧ r.serial = Store.get 0#12 slot s.ops.serials + 1 ∧ r.starter = a.id
      ∧ q.state = (if s.opBlocked r then .queued else if k = .stateSync ∧ s.pairUp = false then .failed else .running) := by
  obtain ⟨r, v, created, record, others, kindr, serial, starter, state, frame⟩ :=
    s.opCreate_spec slot k a.id rights session (s.locksOf a.id) (ws.drop 1)
  have start : opStart a rights session ws s = (.ok, [r.handle slot], if r.state == .running then v.opBegin slot else v) := by
    unfold opStart
    rw [kind]
    dsimp only
    rw [right, if_neg (by decide), checked]
    dsimp only
    rw [free]
    dsimp only
    rw [created]
  by_cases blocked : s.opBlocked r = true
  · rw [if_pos blocked] at state
    rw [state] at start
    refine ⟨r, r, v, start, ⟨rfl, rfl, rfl, rfl, fun _ => rfl⟩, record, others, kindr, serial, starter, ?_⟩
    rw [state, if_pos blocked]
  · rw [if_neg blocked] at state
    rw [state] at start
    obtain ⟨⟨q, begun, same, ended⟩, rest⟩ := State.opBegin_spec record
    refine ⟨r, q, v.opBegin slot, start, same, begun, fun j hj => (rest j hj).trans (others j hj), kindr, serial, starter, ?_⟩
    rw [ended, if_neg blocked]
    have fails : v.failsAtStart r = true ↔ k = .stateSync ∧ s.pairUp = false := by
      rw [State.failsAtStart, kindr, show v.pairUp = s.pairUp by rw [frame]; rfl, show v.enabled pgEpoch = s.enabled pgEpoch by rw [frame]; rfl]
      cases k with
      | epochCommit => simp [State.opCheck_epoch checked]
      | stateSync => simp
      | tableLoad | tableFlush | snapshotSave | snapshotRestore | memTest | fwUpdate | twicelRejoin => simp
    simp only [fails]

theorem Served.opStart {base s : State} (h : Served base s) {a : Agent} {rights session : Nat} {ws : List Word} :
    Served base (Machine.opStart a rights session ws s).2.2 := by
  unfold Machine.opStart
  split
  · exact h
  · split
    · exact h.deny
    · split
      · exact h
      · split
        · exact h
        · exact .ite h.opCreate.opBegin h.opCreate

end

theorem commandOf_start {i : Instr} {k : OpKind} {rq : Request} (h : startOf i = some (k, rq)) : commandOf i = some (opSTART, rq, .none) := by
  cases i <;> cases h <;> rfl

/-- Settles O26: OP_START is answered as `opStart` says; the record it takes is the one `opCreate` made, as its beginning left it. -/
theorem operationsStart : Obligations.OperationsStart := by
  intro i s k rq canonical start takes kind a u right
  have command := commandOf_start start
  have ops : u.ops = s.ops := s.arrived_ops a
  have served : Served s u := State.served_arrived canonical.regs a
  have replies {st : Status} {l : List Word} {v : State}
      (run : opStart a (u.cmdRights a rq.session.toNat) rq.session.toNat (reqWords rq) u = (st, l, v)) :
      Leads i s (fun t => Answers s t rq st l ∧ t.ops = v.ops) := by
    refine State.command_replies canonical command takes (by decide) (by decide) (congrArg Reply.work run) ?_
    have left := served.opStart (a := a) (rights := u.cmdRights a rq.session.toNat) (session := rq.session.toNat) (ws := reqWords rq)
    rwa [run] at left
  refine ⟨fun shut => ?_, fun st open_ fails => ?_, fun open_ passes full => ?_, fun slot open_ passes free => ?_⟩
  · obtain ⟨t, leads, answers, kept⟩ := replies (opStart_denied kind shut)
    exact ⟨t, leads, answers, kept.trans ops⟩
  · obtain ⟨t, leads, answers, kept⟩ := replies (opStart_refused kind open_ fails)
    exact ⟨t, leads, answers, kept.trans ops⟩
  · obtain ⟨t, leads, answers, kept⟩ := replies (opStart_full kind open_ passes ((State.freeOp_congr ops).trans full))
    exact ⟨t, leads, answers, kept.trans ops⟩
  · obtain ⟨r, q, v, run, same, record, others, kindr, serial, starter, state⟩ :=
      opStart_starts (s := u) (a := a) (session := rq.session.toNat) kind open_ passes ((State.freeOp_congr ops).trans free)
    obtain ⟨t, leads, answers, kept⟩ := replies run
    refine ⟨t, leads, q, ?_, same.kind.trans kindr, ?_, same.starter.trans starter, ?_, ?_, fun j hj => ?_⟩
    · rw [← record, State.opRec, State.opRec, kept]
    · rw [same.serial, serial, ops]
    · rw [state, same.opBlocked]
    · rwa [show q.handle slot = r.handle slot by rw [OpRec.handle, OpRec.handle, same.serial]]
    · rw [State.opRec_congr (congrArg _ kept), others j hj, State.opRec_congr (congrArg _ ops)]

end Sys2Proof.Machine

namespace Sys2Proof.Machine

/-! ### OP_STATUS, OP_SUSPEND, OP_RESUME, OP_CANCEL (R88-R91) -/

section
variable {s t : State}

/-! What is sent to the partner leaves the operations. -/

theorem State.sendRelayCell_ops (s : State) (flags seq : Nat) (addr mask : Word) (data : List Word) :
    (s.sendRelayCell flags seq addr mask data).ops = s.ops := by
  unfold State.sendRelayCell State.sendControl
  split
  · rfl
  · rfl

theorem State.pumpRelays_ops (s : State) : s.pumpRelays.ops = s.ops := by
  unfold State.pumpRelays
  refine List.foldlRecOn (motive := fun t : State => t.ops = s.ops) _ _ rfl fun t kept r _ => ?_
  rw [State.incReg_ops, State.sendRelay, State.sendRelayCell_ops, kept]

theorem State.relayTold_ops (s : State) (agent addr : Nat) (l : List Word) : (s.relayTold agent addr l).ops = s.ops := by
  unfold State.relayTold State.relayWords
  refine List.foldlRecOn (motive := fun x : State × Nat => x.1.ops = s.ops) _ _ rfl fun x kept p _ => ?_
  exact (State.pumpRelays_ops _).trans kept

theorem State.ite_ops {c : Prop} [Decidable c] {x : OpSt} (hs : s.ops = x) (ht : t.ops = x) : (if c then s else t).ops = x := by
  split
  · exact hs
  · exact ht

theorem State.relayAbort_ops (s : State) (r : OpRec) : (s.relayAbort r).ops = s.ops := State.ite_ops (s.relayTold_ops _ _ _) rfl

theorem State.freeBoth_ops (s : State) (r : OpRec) : (s.freeBoth r).ops = s.ops := State.ite_ops (s.relayTold_ops _ _ _) rfl

theorem State.audit_ops (s : State) (r : AuditRec) : (s.audit r).ops = s.ops := State.ite_ops rfl rfl

theorem State.cancelWork_ops (s : State) (r : OpRec) : (s.cancelWork r).ops = s.ops := by
  unfold State.cancelWork
  split
  · exact (State.freeBoth_ops _ r).trans (s.relayAbort_ops r)
  · exact s.setTesting_ops []
  · exact State.ite_ops (State.audit_ops _ _) rfl
  · rfl

/-- What a poll shows of a record keeps its state, its number and its type. -/
theorem State.opShown_same (s : State) (r : OpRec) :
    (s.opShown r).state = r.state ∧ (s.opShown r).serial = r.serial := by
  unfold State.opShown
  split
  · exact ⟨rfl, rfl⟩
  · split <;> exact ⟨rfl, rfl⟩

theorem State.byHandle_congr (h : t.ops = s.ops) (w : Word) : t.byHandle w = s.byHandle w := by
  simp only [State.byHandle, State.opRec, h]

theorem State.opRec_of_byHandle {w : Word} {slot : Nat} {r : OpRec} (h : s.byHandle w = some (slot, r)) : s.opRec slot = some r := by
  unfold State.byHandle at h
  dsimp only at h
  split at h
  case h_1 found =>
    split at h
    · cases h
      exact found
    · cases h
  case h_2 => cases h

theorem State.workBefore_zero (s : State) (slot : Nat) : s.workBefore slot 0 = s := rfl

/-- The arrival of a command leaves what a poll shows. -/
theorem State.opShown_arrived (hs : Store.wf regReset s.regs = true) (a : Agent) (r : OpRec) : (s.arrived a).opShown r = s.opShown r := by
  have arrived := State.arrived_spec hs a
  have words (o : Nat) (ho : o < 0x10000) : (s.arrived a).reg pgEpoch o = s.reg pgEpoch o := arrived.words pgEpoch o (by decide) ho
  have profile : (s.arrived a).reg 0 0x2000 = s.reg 0 0x2000 := arrived.words 0 0x2000 (by decide) (by decide)
  have buf : (s.arrived a).buf = s.buf := by cases a <;> rfl
  have time : (s.arrived a).time = s.time := by cases a <;> rfl
  have packets : (s.arrived a).packetStacks = s.packetStacks := by
    unfold State.packetStacks State.profile State.regFld
    rw [profile]
  have place : (s.arrived a).ingotPlace = s.ingotPlace := by
    funext n
    unfold State.ingotPlace
    rw [packets]
  have waits : (s.arrived a).testWaits = s.testWaits := by
    unfold State.testWaits State.usedPlaces State.usedIngots
    rw [place, buf, time]
  have pending : (s.arrived a).ovlCount .pending = s.ovlCount .pending := by
    unfold State.ovlCount
    rw [arrived.tab]
  have number : (s.arrived a).pendingNo = s.pendingNo := by
    unfold State.pendingNo State.regFld
    rw [words 0x2000 (by decide)]
  have standing : (s.arrived a).standing = s.standing := by
    unfold State.standing State.regFld
    rw [words 0x2000 (by decide)]
  unfold State.opShown
  rw [waits, pending, number, standing]

end

/-! What each command does with a record that its HANDLE names. -/

section
variable {s : State} {a : Agent} {h : Word} {rights slot : Nat} {r : OpRec}

theorem State.opStatus_none (none : s.byHandle h = none) (units : Nat) : s.opStatus a h units = (.noSuchOp, [], s) := by
  rw [State.opStatus, none]

theorem State.opSuspend_none (none : s.byHandle h = none) (units : Nat) : s.opSuspend rights h units = (.noSuchOp, [], s) := by
  rw [State.opSuspend, none]

theorem State.opResume_none (none : s.byHandle h = none) : s.opResume rights h = (.noSuchOp, [], s) := by
  rw [State.opResume, none]

theorem State.opCancelCmd_none (none : s.byHandle h = none) (units : Nat) : s.opCancelCmd rights h units = (.noSuchOp, [], s) := by
  rw [State.opCancelCmd, none]

theorem State.opStatus_eq (found : s.byHandle h = some (slot, r)) :
    s.opStatus a h 0 = (.ok, (s.opShown r).words slot,
      if r.state.terminal && r.starter == a.id then { s with ops := { s.ops with recs := Store.erase slot s.ops.recs } } else s) := by
  simp only [State.opStatus, found, State.workBefore_zero, State.opRec_of_byHandle found]

/-- No switch of a commit is due before a command about `r`. -/
def State.NoneDue (s : State) (r : OpRec) : Prop := (if r.kind == .epochCommit then s.dueSwitch else s) = s

/-- A suspended record: an armed commit waits again (R248). -/
def OpRec.suspended (r : OpRec) : OpRec :=
  { r with state := .suspended, phase := if r.kind == .epochCommit && r.phase == phArmed then phWait else r.phase }

/-- The state `v` is `s` but for what a command leaves aside of the records. -/
structure Aside (s v : State) : Prop where
  served : Served s v
  ops : v.ops = s.ops

theorem Aside.ite {s v w : State} {c : Prop} [Decidable c] (hv : Aside s v) (hw : Aside s w) : Aside s (if c then v else w) :=
  ⟨.ite hv.served hw.served, State.ite_ops hv.ops hw.ops⟩

theorem Aside.withTab {s v : State} (h : Aside s v) {x : TabSt} : Aside s { v with tab := x } := ⟨h.served.withTab, h.ops⟩

theorem Aside.setTesting {s v : State} (h : Aside s v) {l : List Nat} : Aside s (v.setTesting l) :=
  ⟨h.served.setTesting, (v.setTesting_ops l).trans h.ops⟩

theorem State.opSuspend_acts (served : Served s s) (found : s.byHandle h = some (slot, r)) (right : rightOk rights r.kind.right = true)
    (still : s.NoneDue r) (running : r.state = .running) (suspendable : r.suspendable = true) :
    ∃ v, s.opSuspend rights h 0 = (.ok, [], v) ∧ v.ops = (s.setOp slot r.suspended).ops ∧ Served s v := by
  have aborted : Aside s (if r.kind == .epochCommit then s.relayAbort r else s) := .ite ⟨served.relayAbort, s.relayAbort_ops r⟩ ⟨served, rfl⟩
  unfold State.opSuspend
  rw [found]
  dsimp only
  rw [right, if_neg (by decide), State.workBefore_zero, still, State.opRec_of_byHandle found]
  dsimp only
  rw [running, suspendable, if_pos (by decide)]
  refine (fun aside : Aside s _ => ⟨_, rfl, State.setOp_ops_congr _ _ aside.ops, aside.served.setOp⟩) ?_
  exact .ite (.setTesting (.ite aborted.withTab aborted)) (.ite aborted.withTab aborted)

theorem State.opSuspend_refused (found : s.byHandle h = some (slot, r)) (right : rightOk rights r.kind.right = true) (still : s.NoneDue r)
    (shut : r.state ≠ .running ∨ r.suspendable = false) : s.opSuspend rights h 0 = (.opState, [], s) := by
  unfold State.opSuspend
  rw [found]
  dsimp only
  rw [right, if_neg (by decide), State.workBefore_zero, still, State.opRec_of_byHandle found]
  dsimp only
  rw [if_neg]
  rw [Bool.and_eq_true, beq_iff_eq]
  rintro ⟨running, open_⟩
  rcases shut with other | shut
  · exact other running
  · rw [shut] at open_
    cases open_

theorem State.opResume_acts (served : Served s s) (found : s.byHandle h = some (slot, r)) (right : rightOk rights r.kind.right = true)
    (suspended : r.state = .suspended) :
    ∃ v, s.opResume rights h = (.ok, [], v) ∧ v.ops = (s.setOp slot { r with state := .running }).ops ∧ Served s v := by
  unfold State.opResume
  rw [found]
  dsimp only
  rw [right, if_neg (by decide), suspended, if_pos (by decide)]
  exact ⟨_, rfl, State.ite_ops (State.setTesting_ops _ _) rfl, .ite served.setOp.setTesting served.setOp⟩

theorem State.opResume_refused (found : s.byHandle h = some (slot, r)) (right : rightOk rights r.kind.right = true)
    (other : r.state ≠ .suspended) : s.opResume rights h = (.opState, [], s) := by
  unfold State.opResume
  rw [found]
  dsimp only
  rw [right, if_neg (by decide), if_neg (by simpa using other)]

/-- A record that is cancelled ends CANCELLED with OK. -/
theorem State.opCancel_ends (record : s.opRec slot = some r) (still : s.NoneDue r)
    (open_ : r.state = .queued ∨ (r.state = .running ∨ r.state = .suspended) ∧ r.cancellable = true) :
    ∃ v, s.opCancel slot r false = (.ok, v) ∧ ∃ q, v.opRec slot = some q ∧ q.state = .cancelled ∧ q.result = .ok := by
  have ends {t : State} {q : OpRec} (record : t.opRec slot = some q) (f : OpRec → OpRec) :
      ∃ q, ((t.updOp slot f).endOp slot .cancelled .ok).opRec slot = some q ∧ q.state = .cancelled ∧ q.result = .ok :=
    ⟨_, State.opRec_endOp_self (by rw [State.updOp_eq record, State.opRec_setOp_self]) _ _, rfl, rfl⟩
  have shown {t : State} (ops : t.ops = (s.setOp slot (s.opShown r)).ops) : t.opRec slot = some (s.opShown r) := by
    rw [State.opRec_congr (congrArg _ ops), State.opRec_setOp_self]
  unfold State.opCancel
  dsimp only
  rw [still, record, Option.getD_some]
  rcases open_ with queued | ⟨running | suspended, cancellable⟩
  · rw [queued]
    by_cases commit : (r.kind == .epochCommit) = true
    · rw [if_pos commit]
      exact ⟨_, rfl, ends (shown (State.freeBoth_ops _ _)) _⟩
    · rw [if_neg commit]
      exact ⟨_, rfl, ends record _⟩
  · rw [running]
    dsimp only
    rw [cancellable, if_pos rfl]
    exact ⟨_, rfl, ends (shown (State.cancelWork_ops _ _)) _⟩
  · rw [suspended]
    dsimp only
    rw [cancellable, if_pos rfl]
    exact ⟨_, rfl, ends (shown (State.cancelWork_ops _ _)) _⟩

theorem State.opCancel_refused (record : s.opRec slot = some r) (still : s.NoneDue r) (ended : r.state.terminal = true) :
    s.opCancel slot r false = (.opState, s) := by
  unfold State.opCancel
  dsimp only
  rw [still, record, Option.getD_some]
  cases state : r.state with
  | queued | running | suspended => rw [state] at ended; cases ended
  | done | failed | cancelled => rfl

theorem State.opCancelCmd_eq {st : Status} {v : State} (found : s.byHandle h = some (slot, r)) (right : rightOk rights r.kind.right = true)
    (cancel : s.opCancel slot r false = (st, v)) : s.opCancelCmd rights h 0 = (st, [], v) := by
  unfold State.opCancelCmd
  rw [found]
  dsimp only
  rw [right, if_neg (by decide), State.workBefore_zero, State.opRec_of_byHandle found]
  dsimp only
  rw [cancel]

theorem State.noneDue_of_kind (other : r.kind ≠ .epochCommit) : s.NoneDue r := if_neg (by simpa using other)

/-- Without an armed commit no switch is due. -/
theorem State.noneDue_of_idle (idle : ∀ e, s.commitRec = some e → e.2.phase ≠ phArmed) (r : OpRec) : s.NoneDue r := by
  have still : s.dueSwitch = s := by
    unfold State.dueSwitch
    split
    case h_1 k q found =>
      have phase : (q.phase == phArmed) = false := by simpa using idle _ found
      rw [phase, Bool.and_false, Bool.false_and, if_neg (by decide)]
    case h_2 => rfl
  unfold State.NoneDue
  rw [still, ite_self]

theorem State.commitRec_arrived (s : State) (a : Agent) : (s.arrived a).commitRec = s.commitRec := by
  cases a <;> rfl

end

section
variable {s : State} {rq : Request}

/-- A command about an operation is answered as its function says. -/
theorem State.opCommand_replies {i : Instr} {op : Nat} {env : CmdEnv} {st : Status} {l : List Word} {v : State} (canonical : s.Canonical)
    (command : commandOf i = some (op, rq, env)) (takes : s.takes op rq) (mine : op ∈ [opSTATUS, opSUSPEND, opRESUME, opCANCEL])
    (run : (s.arrived rq.agent).runCmd rq.agent op ((s.arrived rq.agent).cmdRights rq.agent rq.session.toNat) rq.session.toNat (reqWords rq) env
      = Reply.work (st, l, v)) (served : Served (s.arrived rq.agent) v) :
    Leads i s (fun t => Answers s t rq st l ∧ t.ops = v.ops) := by
  have arrived := State.served_arrived canonical.regs rq.agent
  refine State.command_replies canonical command takes ?_ ?_ run (arrived.trans served)
  · rintro rfl
    exact absurd mine (by decide)
  · simp only [List.mem_cons, List.not_mem_nil, or_false] at mine
    rcases mine with rfl | rfl | rfl | rfl <;> decide

end

theorem Leads.mono {i : Instr} {s : State} {P Q : State → Prop} (h : Leads i s P) (hpq : ∀ t, P t → Q t) : Leads i s Q := by
  obtain ⟨t, leads, p⟩ := h
  exact ⟨t, leads, hpq t p⟩

/-- Settles O27: each command is answered as its function says of the record that the HANDLE names. -/
theorem operationCommands : Obligations.OperationCommands := by
  intro s rq canonical a h u idle
  have ops : u.ops = s.ops := s.arrived_ops a
  have named (w : Word) : u.byHandle w = s.byHandle w := State.byHandle_congr ops w
  have arrived : Served s u := State.served_arrived canonical.regs a
  have served : Served u u := .refl arrived.regs
  have status {st l v} (takes : s.takes opSTATUS rq) (run : u.opStatus a h 0 = (st, l, v)) (kept : Served u v) :
      Leads (.opStatus rq 0) s (fun t => Answers s t rq st l ∧ t.ops = v.ops) :=
    State.opCommand_replies canonical rfl takes (by decide) (congrArg Reply.work run) kept
  have suspend {st l v} (takes : s.takes opSUSPEND rq) (run : u.opSuspend (u.cmdRights a rq.session.toNat) h 0 = (st, l, v)) (kept : Served u v) :
      Leads (.opSuspend rq 0) s (fun t => Answers s t rq st l ∧ t.ops = v.ops) :=
    State.opCommand_replies canonical rfl takes (by decide) (congrArg Reply.work run) kept
  have resume {st l v} (takes : s.takes opRESUME rq) (run : u.opResume (u.cmdRights a rq.session.toNat) h = (st, l, v)) (kept : Served u v) :
      Leads (.opResume rq) s (fun t => Answers s t rq st l ∧ t.ops = v.ops) :=
    State.opCommand_replies canonical rfl takes (by decide) (congrArg Reply.work run) kept
  have cancel {st l v} (takes : s.takes opCANCEL rq) (run : u.opCancelCmd (u.cmdRights a rq.session.toNat) h 0 = (st, l, v)) (kept : Served u v) :
      Leads (.opCancel rq 0) s (fun t => Answers s t rq st l ∧ t.ops = v.ops) :=
    State.opCommand_replies canonical rfl takes (by decide) (congrArg Reply.work run) kept
  have unchanged {i : Instr} {st : Status} (leads : Leads i s (fun t => Answers s t rq st [] ∧ t.ops = u.ops)) :
      Leads i s (fun t => t.ops = s.ops ∧ Answers s t rq st []) := leads.mono fun t ⟨answers, kept⟩ => ⟨kept.trans ops, answers⟩
  refine ⟨fun missing => ?_, fun e found => ?_⟩
  · have missing : u.byHandle h = none := (named h).trans missing
    refine ⟨fun takes => ?_, fun takes => ?_, fun takes => ?_, fun takes => ?_⟩
    · exact (unchanged (status takes (State.opStatus_none missing 0) served)).mono fun t => And.symm
    · exact (unchanged (suspend takes (State.opSuspend_none missing 0) served)).mono fun t => And.symm
    · exact (unchanged (resume takes (State.opResume_none missing) served)).mono fun t => And.symm
    · exact (unchanged (cancel takes (State.opCancelCmd_none missing 0) served)).mono fun t => And.symm
  obtain ⟨slot, r⟩ := e
  have found : u.byHandle h = some (slot, r) := (named h).trans found
  have record : u.opRec slot = some r := State.opRec_of_byHandle found
  have calm (none : idle) : u.NoneDue r := State.noneDue_of_idle (fun e armed => none e (by rwa [← State.commitRec_arrived s a])) r
  have holds {v t : State} {q : OpRec} (wrote : v.ops = (u.setOp slot q).ops) (kept : t.ops = v.ops) : t.opRec slot = some q := by
    rw [State.opRec_congr (congrArg _ (kept.trans wrote)), State.opRec_setOp_self]
  refine ⟨fun takes => ?_, fun takes right running suspendable kind => ?_, fun takes right running kind none suspendable => ?_,
    fun takes right shut kind => ?_, fun takes right => ?_, fun takes right open_ none => ?_, fun takes right ended kind => ?_⟩
  · refine (status takes (State.opStatus_eq found) (.ite served.withOps served)).mono fun t ⟨answers, kept⟩ => ?_
    rw [State.opShown_arrived canonical.regs] at answers
    refine ⟨answers, ?_⟩
    rw [kept]
    by_cases reads : r.state.terminal = true ∧ r.starter = a.id
    · rw [if_pos reads, if_pos (by simpa using reads), ← ops]
    · rw [if_neg reads, if_neg (by simpa using reads), ops]
  · obtain ⟨v, run, wrote, left⟩ := State.opSuspend_acts served found right (State.noneDue_of_kind kind) running suspendable
    have plain : r.suspended = { r with state := .suspended } := by simp [OpRec.suspended, kind]
    exact (suspend takes run left).mono fun t ⟨answers, kept⟩ => ⟨plain ▸ holds wrote kept, answers⟩
  · obtain ⟨v, run, wrote, left⟩ := State.opSuspend_acts served found right (calm none) running suspendable
    exact (suspend takes run left).mono fun t ⟨answers, kept⟩ => ⟨⟨_, holds wrote kept, rfl, rfl⟩, answers⟩
  · exact unchanged (suspend takes (State.opSuspend_refused found right (State.noneDue_of_kind kind) shut) served)
  · by_cases suspended : r.state = .suspended
    · obtain ⟨v, run, wrote, left⟩ := State.opResume_acts served found right suspended
      refine (resume takes run left).mono fun t ⟨answers, kept⟩ => ?_
      rw [if_pos suspended]
      exact ⟨holds wrote kept, answers⟩
    · refine (unchanged (resume takes (State.opResume_refused found right suspended) served)).mono fun t left => ?_
      rwa [if_neg suspended]
  · have still : u.NoneDue r := none.elim State.noneDue_of_kind calm
    obtain ⟨v, run, q, ended, rest⟩ := State.opCancel_ends record still open_
    have left : Served u v := Served.of_snd run served.opCancel
    refine (cancel takes (State.opCancelCmd_eq found right run) left).mono fun t ⟨answers, kept⟩ => ⟨⟨q, ?_, rest⟩, answers⟩
    rw [State.opRec_congr (congrArg _ kept), ended]
  · exact unchanged (cancel takes (State.opCancelCmd_eq found right (State.opCancel_refused record (State.noneDue_of_kind kind) ended)) served)

end Sys2Proof.Machine

namespace Sys2Proof.Machine

/-! ## Cores and applications

### The registers of a core -/

section
variable {s : State} {k n m : Nat} {v : BitVec 64}

theorem State.setCoreReg_eq (s : State) (k : Nat) (v : BitVec 64) (hn : n ≠ 0) :
    s.setCoreReg k n v = { s with cp := { s.cp with coreRegs := Store.set 0#64 (k * 65536 + n) v s.cp.coreRegs } } := if_neg hn

theorem State.setCoreReg_wf (h : Store.wf (fun _ => 0#64) s.cp.coreRegs = true) (k n : Nat) (v : BitVec 64) :
    Store.wf (fun _ => 0#64) (s.setCoreReg k n v).cp.coreRegs = true := by
  unfold State.setCoreReg
  split
  · exact h
  · exact Store.wf_put _ _ _ _ h

theorem State.coreReg_setCoreReg_self (h : Store.wf (fun _ => 0#64) s.cp.coreRegs = true) (k : Nat) (v : BitVec 64) (hn : n ≠ 0) :
    (s.setCoreReg k n v).coreReg k n = v := by
  rw [State.setCoreReg_eq s k v hn, State.coreReg, if_neg hn]
  exact Store.get_put_self (fun _ => 0#64) _ v _ h

theorem State.coreReg_setCoreReg_other (h : Store.wf (fun _ => 0#64) s.cp.coreRegs = true) (k : Nat) (v : BitVec 64) (hm : m ≠ n) :
    (s.setCoreReg k n v).coreReg k m = s.coreReg k m := by
  unfold State.setCoreReg
  split
  · rfl
  · unfold State.coreReg
    split
    · rfl
    · exact Store.get_put_other (fun _ => 0#64) v _ h (by omega) _

/-- The state `t` is `s` but for the cores' registers. -/
def CoreOnly (s t : State) : Prop := ∃ l, t = { s with cp := { s.cp with coreRegs := l } }

theorem CoreOnly.setCoreReg {s t : State} (h : CoreOnly s t) {k n : Nat} {v : BitVec 64} : CoreOnly s (t.setCoreReg k n v) := by
  obtain ⟨l, rfl⟩ := h
  unfold State.setCoreReg
  split
  · exact ⟨l, rfl⟩
  · exact ⟨_, rfl⟩

theorem State.coreOnly_coreTrap (s : State) (k : Nat) (user : Bool) (cause : Nat) (tval : BitVec 64) : CoreOnly s (s.coreTrap k user cause tval) :=
  have same : CoreOnly s s := ⟨s.cp.coreRegs, rfl⟩
  same.setCoreReg.setCoreReg.setCoreReg.setCoreReg.setCoreReg

/-- A trap: mepc holds the address of the instruction, mtval its value, and the core goes on at the handler (R63). -/
theorem State.coreReg_coreTrap (h : Store.wf (fun _ => 0#64) s.cp.coreRegs = true) (k : Nat) (user : Bool) (cause : Nat) (tval : BitVec 64) :
    (s.coreTrap k user cause tval).coreReg k 0x1343 = tval ∧ (s.coreTrap k user cause tval).coreReg k 0x1341 = s.coreReg k 0x40
      ∧ (s.coreTrap k user cause tval).coreReg k 0x40 = s.coreReg k 0x1305 &&& ~~~3#64 := by
  unfold State.coreTrap
  dsimp only
  generalize (_ ||| _ ||| _ : BitVec 64) = status
  have epc := State.setCoreReg_wf h k 0x1341 (s.coreReg k 0x40)
  have cause' := State.setCoreReg_wf epc k 0x1342 (BitVec.ofNat 64 cause)
  have tval' := State.setCoreReg_wf cause' k 0x1343 tval
  have status' := State.setCoreReg_wf tval' k 0x1300 status
  refine ⟨?_, ?_, State.coreReg_setCoreReg_self status' k _ (by decide)⟩
  · rw [State.coreReg_setCoreReg_other status' k _ (by decide), State.coreReg_setCoreReg_other tval' k _ (by decide),
      State.coreReg_setCoreReg_self cause' k _ (by decide)]
  · rw [State.coreReg_setCoreReg_other status' k _ (by decide), State.coreReg_setCoreReg_other tval' k _ (by decide),
      State.coreReg_setCoreReg_other cause' k _ (by decide), State.coreReg_setCoreReg_other epc k _ (by decide),
      State.coreReg_setCoreReg_self h k _ (by decide)]

end

/-! ### The stop of an application (R66) -/

/-- What stopping an application by cause `c` on core `k` leaves: cause, core and address captured, the fault counted, the event raised. -/
structure Stopped (s t : State) (c k : Nat) (addr : Word) : Prop where
  running : bit (t.reg pgCpctl 0x2000) 9 = false
  cause : t.reg pgCpctl 0x2008 = word (c + 16 * k)
  addr : t.reg pgCpctl 0x200C = addr
  count : t.reg pgCpctl 0x2010 = s.reg pgCpctl 0x2010 + 1
  event : bit (t.reg pgCpctl 0x14) 16 = true
  others : RegsBut [pgCpctl] s t

/-- The state `t` is `s` but for the registers. -/
def RegsOnly (s t : State) : Prop := ∃ l, t = { s with regs := l }

theorem RegsOnly.setReg {s t : State} (h : RegsOnly s t) {p o : Nat} {v : Word} : RegsOnly s (t.setReg p o v) := by
  obtain ⟨l, rfl⟩ := h
  exact ⟨_, rfl⟩

theorem RegsOnly.incReg {s t : State} (h : RegsOnly s t) {p o : Nat} : RegsOnly s (t.incReg p o) := h.setReg

theorem RegsOnly.raise {s t : State} (h : RegsOnly s t) {p b : Nat} : RegsOnly s (t.raise p b) := h.setReg

theorem State.regsOnly_appStopped (s : State) (c k : Nat) (addr : Word) : RegsOnly s (s.appStopped c k addr) :=
  have cleared : RegsOnly s s.stopApp := RegsOnly.setReg ⟨s.regs, rfl⟩
  cleared.setReg.setReg.incReg.raise

theorem State.appStopped_stopped {s : State} (hs : Store.wf regReset s.regs = true) (c k : Nat) (addr : Word) :
    Stopped s (s.appStopped c k addr) c k addr := by
  have wf {u : State} (hu : Store.wf regReset u.regs = true) (o : Nat) (v : Word) : Store.wf regReset (u.setReg pgCpctl o v).regs = true :=
    Store.wf_put regReset _ _ _ hu
  unfold State.appStopped State.stopApp
  dsimp only
  rw [State.raise_eq, State.incReg_eq, State.clrReg, State.updReg_eq]
  have cleared := wf hs 0x2000 (s.reg pgCpctl 0x2000 &&& ~~~0x200#32)
  have caused := wf cleared 0x2008 (word (c + 16 * k))
  have placed := wf caused 0x200C addr
  have counted := fun v => wf placed 0x2010 v
  refine ⟨?_, ?_, ?_, ?_, ?_, fun p o _ ho other => ?_⟩
  · rw [State.reg_setReg_other _ _ (counted _) (by decide), State.reg_setReg_other _ _ placed (by decide),
      State.reg_setReg_other _ _ caused (by decide), State.reg_setReg_other _ _ cleared (by decide), State.reg_setReg_self _ _ _ _ hs, bit_and]
    exact (congrArg _ (by decide)).trans (Bool.and_false _)
  · rw [State.reg_setReg_other _ _ (counted _) (by decide), State.reg_setReg_other _ _ placed (by decide),
      State.reg_setReg_other _ _ caused (by decide), State.reg_setReg_self _ _ _ _ cleared]
  · rw [State.reg_setReg_other _ _ (counted _) (by decide), State.reg_setReg_other _ _ placed (by decide), State.reg_setReg_self _ _ _ _ caused]
  · rw [State.reg_setReg_other _ _ (counted _) (by decide), State.reg_setReg_self _ _ _ _ placed, State.reg_setReg_other _ _ caused (by decide),
      State.reg_setReg_other _ _ cleared (by decide), State.reg_setReg_other _ _ hs (by decide)]
  · rw [State.reg_setReg_self _ _ _ _ (counted _), bit_or_oneBit_self _ _ (by decide)]
  · have apart {u : Nat} (hu : u < 0x10000) : regKey p o ≠ regKey pgCpctl u := fun e => other (by simp [(regKey_inj ho hu e).1])
    rw [State.reg_setReg_other _ _ (counted _) (apart (by decide)), State.reg_setReg_other _ _ placed (apart (by decide)),
      State.reg_setReg_other _ _ caused (apart (by decide)), State.reg_setReg_other _ _ cleared (apart (by decide)),
      State.reg_setReg_other _ _ hs (apart (by decide))]

/-- The state `t` is `s` but for the registers, the cores' registers and the free choices. -/
def TrapOnly (s t : State) : Prop := t = { s with regs := t.regs, cp := { s.cp with coreRegs := t.cp.coreRegs }, freeCtr := t.freeCtr }

/-- The stop of an application after a trap of its core. -/
theorem CoreOnly.appStopped {s u : State} {n : Nat} (core : CoreOnly { s with freeCtr := n } u) (hs : Store.wf regReset s.regs = true)
    (c k : Nat) (addr : Word) :
    Stopped s (u.appStopped c k addr) c k addr ∧ (∀ m, (u.appStopped c k addr).coreReg k m = u.coreReg k m) ∧ TrapOnly s (u.appStopped c k addr) := by
  obtain ⟨l, rfl⟩ := core
  obtain ⟨running, cause, place, count, event, others⟩ :=
    State.appStopped_stopped (s := { s with freeCtr := n, cp := { s.cp with coreRegs := l } }) hs c k addr
  obtain ⟨regs, frame⟩ := State.regsOnly_appStopped { s with freeCtr := n, cp := { s.cp with coreRegs := l } } c k addr
  exact ⟨⟨running, cause, place, count, event, others⟩, fun m => by rw [frame]; rfl, by rw [TrapOnly, frame]⟩

/-- An exception of an application, in a state that differs from `s` in its free choices alone. -/
theorem State.appTrap_trapped {s u : State} (hs : s.Canonical) (keyed : Store.wf (fun _ => 0#64) s.cp.coreRegs = true) {n : Nat}
    (free : u = { s with freeCtr := n }) (c k exc : Nat) (addr : Word) :
    let t := u.appTrap c k exc addr
    Stopped s t c k addr ∧ t.coreReg k 0x1343 = addr.setWidth 64 ∧ t.coreReg k 0x1341 = s.coreReg k 0x40
      ∧ t.coreReg k 0x40 = s.coreReg k 0x1305 &&& ~~~3#64 ∧ TrapOnly s t := by
  subst free
  obtain ⟨tval, epc, pc⟩ := State.coreReg_coreTrap (s := { s with freeCtr := n }) keyed k true exc (addr.setWidth 64)
  obtain ⟨stopped, core, frame⟩ := (State.coreOnly_coreTrap _ k true exc (addr.setWidth 64)).appStopped hs.regs c k addr
  exact ⟨stopped, (core _).trans tval, (core _).trans epc, (core _).trans pc, frame⟩

/-- The stop of an application as O17 states it. -/
theorem Stopped.spec {s t : State} {c k : Nat} {addr : Word} (h : Stopped s t c k addr) :
    bit (t.reg pgCpctl 0x2000) 9 = false ∧ t.reg pgCpctl 0x2008 = word (c + 16 * k) ∧ t.reg pgCpctl 0x200C = addr
      ∧ t.reg pgCpctl 0x2010 = s.reg pgCpctl 0x2010 + 1 ∧ bit (t.reg pgCpctl 0x14) 16 = true ∧ RegsBut [pgCpctl] s t :=
  ⟨h.running, h.cause, h.addr, h.count, h.event, h.others⟩

section
variable {s : State} {k : Fin 4}

theorem exec_appFault_illegal (stands : s.stands = false) (on : s.appOn k.val = true) (addr : Word) :
    exec (.appFault k .illegalInstr addr) s = .next (s.appTrap 2 k.val excIllegal addr) := by
  change execAppFault k .illegalInstr addr s = _
  rw [execAppFault, stands, if_neg (by decide), on, if_neg (by decide)]

theorem exec_appFault_access (stands : s.stands = false) (on : s.appOn k.val = true) (addr : Word) :
    exec (.appFault k .accessFault addr) s
      = .next (State.appTrap { s with freeCtr := s.freeCtr + 1 } 1 k.val (Config.openWord s.freeCtr).toNat addr) := by
  change execAppFault k .accessFault addr s = _
  rw [execAppFault, stands, if_neg (by decide), on, if_neg (by decide)]
  rfl

theorem exec_appFault_misaligned (stands : s.stands = false) (on : s.appOn k.val = true) (addr : Word) :
    exec (.appFault k .misaligned addr) s
      = .next (State.appTrap { s with freeCtr := s.freeCtr + 1 } 3 k.val (Config.openWord s.freeCtr).toNat addr) := by
  change execAppFault k .misaligned addr s = _
  rw [execAppFault, stands, if_neg (by decide), on, if_neg (by decide)]
  rfl

theorem exec_appCpuLimit (stands : s.stands = false) (on : s.appOn k.val = true) (limit : s.cfgFld pgCpctl 0x120 15 0 ≠ 0) :
    exec (.appCpuLimit k) s = .next (s.appStopped 4 k.val 0) := by
  change execAppCpuLimit k s = _
  rw [execAppCpuLimit, stands, if_neg (by decide), on, if_pos (by simpa using limit)]

end

end Sys2Proof.Machine

namespace Sys2Proof.Machine

/-! ### What a store records leaves the cores, the operations and the registers

`Tended base s`: of the state `base`, the state `s` has the operations, the halted cores and the registers of every page but PMU and PAIR, where
accesses and relays are counted. -/

structure Tended (base s : State) : Prop where
  regs : Store.wf regReset s.regs = true
  words : ∀ p o, o < 0x10000 → p ∉ [pgPmu, pgPair] → s.reg p o = base.reg p o
  ops : s.ops = base.ops
  halted : s.cp.halted = base.cp.halted

namespace Tended

section
variable {base : State} {c : Prop} [Decidable c] {α β : Type}

theorem refl {s : State} (h : Store.wf regReset s.regs = true) : Tended s s := ⟨h, fun _ _ _ _ => rfl, rfl, rfl⟩

theorem ite {s t : State} (hs : Tended base s) (ht : Tended base t) : Tended base (if c then s else t) := by
  split
  · exact hs
  · exact ht

theorem ite_snd {x y : α × State} (hx : Tended base x.2) (hy : Tended base y.2) : Tended base (if c then x else y).2 := by
  split
  · exact hx
  · exact hy

theorem of_snd {x : α × State} {a : α} {t : State} (e : x = (a, t)) (h : Tended base x.2) : Tended base t := by
  subst e
  exact h

theorem foldl {s : State} {f : State → α → State} {l : List α} (h : Tended base s) (hf : ∀ {t} {x : α}, Tended base t → Tended base (f t x)) :
    Tended base (l.foldl f s) := List.foldlRecOn l f h fun _ ht _ _ => hf ht

theorem foldl_fst {b : State × β} {f : State × β → α → State × β} {l : List α} (h : Tended base b.1)
    (hf : ∀ {t} {x : α}, Tended base t.1 → Tended base (f t x).1) : Tended base (l.foldl f b).1 :=
  List.foldlRecOn (motive := fun b : State × β => Tended base b.1) l f h fun _ ht _ _ => hf ht

theorem foldl_snd_mem {b : β × State} {f : β × State → α → β × State} {l : List α} (h : Tended base b.2)
    (hf : ∀ {t}, ∀ x ∈ l, Tended base t.2 → Tended base (f t x).2) : Tended base (l.foldl f b).2 :=
  List.foldlRecOn (motive := fun b : β × State => Tended base b.2) l f h fun _ ht x hx => hf x hx ht

end

section
variable {base s : State} (h : Tended base s)
include h

/-- An update that leaves what the relation names. -/
theorem same {t : State} (hregs : t.regs = s.regs := by rfl) (hops : t.ops = s.ops := by rfl) (hhalted : t.cp.halted = s.cp.halted := by rfl) :
    Tended base t where
  regs := hregs ▸ h.regs
  words p o ho hp := (State.reg_congr hregs p o).trans (h.words p o ho hp)
  ops := hops.trans h.ops
  halted := hhalted.trans h.halted

theorem setReg {p o : Nat} {v : Word} (hp : p ∈ [pgPmu, pgPair] := by decide) (ho : o < 0x10000 := by omega) : Tended base (s.setReg p o v) where
  regs := Store.wf_put regReset _ _ _ h.regs
  words q u hu hq := by
    rw [← h.words q u hu hq]
    refine State.reg_setReg_other s v h.regs fun hk => hq ?_
    rw [(regKey_inj hu ho hk).1]
    exact hp
  ops := (State.setReg_ops s p o v).trans h.ops
  halted := (congrArg CpSt.halted (State.setReg_cp s p o v)).trans h.halted

theorem orReg {p o : Nat} {m : Word} (hp : p ∈ [pgPmu, pgPair] := by decide) (ho : o < 0x10000 := by omega) : Tended base (s.orReg p o m) :=
  h.setReg hp ho

theorem incReg {p o : Nat} (hp : p ∈ [pgPmu, pgPair] := by decide) (ho : o < 0x10000 := by omega) : Tended base (s.incReg p o) := h.setReg hp ho

theorem raise {p b : Nat} (hp : p ∈ [pgPmu, pgPair] := by decide) : Tended base (s.raise p b) := h.orReg hp

theorem withPair {x : PairSt} : Tended base { s with pair := x } := h.same

theorem withNvm {x : NvmSt} : Tended base { s with nvm := x } := h.same

theorem withReadLatch {x : List (Nat × Word)} : Tended base { s with readLatch := x } := h.same

theorem withLastLow {x : List (Nat × Nat)} : Tended base { s with lastLow := x } := h.same

theorem withWin {x : List (Nat × Word)} : Tended base { s with win := x } := h.same

theorem withSprue {x : SprueSt} : Tended base { s with sprue := x } := h.same

theorem withStat {x : StatSt} : Tended base { s with stat := x } := h.same

theorem withFreeCtr {x : Nat} : Tended base { s with freeCtr := x } := h.same

theorem fresh : Tended base s.fresh.2 := h.withFreeCtr

theorem touchPage {a : Agent} {p : Nat} : Tended base (s.touchPage a p) :=
  .ite h.withLastLow.withStat (.ite h.withLastLow.withStat h.withLastLow)

theorem setWin {p u i : Nat} {v : Word} : Tended base (s.setWin p u i v) := h.withWin

theorem audit {r : AuditRec} : Tended base (s.audit r) := .ite h.withNvm h.withNvm

theorem journalPut {kind items : Nat} {body : List Word} : Tended base (s.journalPut kind items body) := .ite h (.ite h.withPair.orReg h.withPair)

theorem journalWrite {p o : Nat} {mask data : Word} : Tended base (s.journalWrite p o mask data) := .ite (.ite h.journalPut h) h

theorem sendRelay {r : Relay} : Tended base (s.sendRelay r) := by
  unfold State.sendRelay State.sendRelayCell State.sendControl
  split
  · exact h
  · exact h.withSprue

theorem pumpRelays : Tended base s.pumpRelays := .foldl h.withPair fun h => h.sendRelay.incReg

theorem putRelay {r : Relay} : Tended base (s.putRelay r) := h.withPair.pumpRelays

theorem relayWords {agent : Nat} {mirror read fixed : Bool} {addr : Nat} {mask : Option Word} {data : List Word} :
    Tended base (s.relayWords agent mirror read fixed addr mask data) := .foldl_fst h fun h => h.putRelay

theorem mirrorWrite {agent addr : Nat} {mask data : Word} : Tended base (s.mirrorWrite agent addr mask data) := by
  unfold State.mirrorWrite
  split
  · exact h
  · split
    · exact h
    · exact .ite h (.ite h.relayWords h.relayWords)

theorem pmuInc {n : Nat} (hn : n < 256) : Tended base (s.pmuInc n) := by
  have low : pmuVal n < 0x10000 := by unfold pmuVal; omega
  have high : pmuVal n + 4 < 0x10000 := by unfold pmuVal; omega
  unfold State.pmuInc
  extract_lets _ _ _ counted stored flagged keys carried
  have stored : Tended base stored := (h.setReg (ho := low)).setReg (ho := high)
  have carried : Tended base carried := (Tended.orReg stored (ho := high)).withReadLatch
  exact .ite stored (.ite carried.raise carried)

theorem pmuTake {n : Nat} (hn : n < 256) : Tended base (s.pmuTake n).2 := by
  unfold State.pmuTake
  extract_lets counted period left
  have counted : Tended base counted := h.pmuInc hn
  exact .ite_snd counted (.ite_snd counted.setWin counted.setWin)

end

/-- As `takesEvent_beside`, and for its reason stated for any `take`. -/
theorem takesEvent {base s : State} (take : State → Nat → Bool × State) (ht : ∀ {s} n, n < 256 → Tended base s → Tended base (take s n).2)
    (l : List Nat) (hl : ∀ n ∈ l, n < 256) (h : Tended base s) :
    Tended base (l.foldl (fun (r : List Nat × State) n =>
      let (hit, s) := take r.2 n
      (if hit then r.1 ++ [n] else r.1, s)) ([], s)).2 := .foldl_snd_mem h fun n hn h => ht n (hl n hn) h

section
variable {base s : State} (h : Tended base s)
include h

theorem pmuEvent {e : PmuEvent} : Tended base (s.pmuEvent e).2 := by
  unfold State.pmuEvent
  split
  · exact h
  · exact takesEvent State.pmuTake (fun _ hn h => h.pmuTake hn) _ (fun n hn => List.mem_range.mp (List.mem_filter.mp hn).1) h

theorem sample {r : List Byte} : Tended base (s.sample r) := .ite h (.ite h.withStat.incReg.raise h.withStat)

theorem accessEvent {code : Nat} {a : Agent} {space : Option (Nat × Nat)} {load : Nat} : Tended base (s.accessEvent code a space load) := by
  unfold State.accessEvent
  extract_lets +onlyGivenNames mode
  split
  rename_i counted e
  have counted : Tended base counted := .of_snd e h.pmuEvent
  split
  · exact .foldl counted fun h => h.fresh.fresh.sample
  · exact .foldl counted fun h => h.fresh.fresh.sample
  · exact counted

theorem noteAccess {w : Who} {addr load : Nat} : Tended base (s.noteAccess w addr load) := .ite h h.accessEvent

theorem retired {a : Agent} : Tended base (s.retired a none) := .ite h h.accessEvent

theorem auditWrite {a : Agent} {st : Status} {addr : Nat} {data : Word} {n : Nat} {hit : Bool} : Tended base (s.auditWrite a st addr data n hit) := by
  unfold State.auditWrite
  extract_lets +onlyGivenNames p
  split
  · exact h
  · exact h
  · exact .ite h (.ite h.audit (.ite h.audit h))

theorem countStore : Tended base s.countStore := by
  unfold State.countStore
  extract_lets +onlyGivenNames more
  split
  · exact h.withNvm
  · exact h.withNvm

theorem auditStore {a : Agent} {st : Status} {addr : Nat} {data : Word} : Tended base (s.auditStore a st addr data) := by
  unfold State.auditStore
  extract_lets +onlyGivenNames p own
  split
  · exact h.auditWrite
  · extract_lets +onlyGivenNames joined room t
    have ht : Tended base t := .ite h.countStore h.auditWrite
    exact ht.withNvm

end
end Tended

end Sys2Proof.Machine

namespace Sys2Proof.Machine

/-! ### A store that is made and answered OK -/

section
variable {p o : Nat} {r : PageRow} (hw : PageWord p o r) {s v : State} {a : Agent} {data : Word}

include hw in
theorem State.writeAt_wrote (wrote : s.wordWrite a r p o data = (.ok, v)) (rights : s.mayWrite (s.agentRights a p) p o 0xFFFFFFFF#32 data = true) :
    s.writeAt (s.ownWho a p) r p o 0xFFFFFFFF#32 data = (.ok, v.journalWrite p o 0xFFFFFFFF#32 data) := by
  have high := hw.high
  have latched : (p == pgPmu && decide (0x2100 ≤ o) && decide (o < 0x2900)) = false := by simp [show ¬ 0x2100 ≤ o by omega]
  have direct : isStoreWin p o = false := by simp [isStoreWin, show ¬ 0x8000 ≤ o by omega]
  have own : (s.ownWho a p).rights = s.agentRights a p := rfl
  have agent : (s.ownWho a p).agent = a := rfl
  unfold State.wordWrite at wrote
  unfold State.writeAt
  simp only [latched, direct, own, agent, rights, Bool.not_true, Bool.and_false, Bool.false_eq_true, if_false, wrote]
  exact if_pos ⟨trivial, Src.noConfusion, Src.noConfusion⟩

/-- The body of `State.writeBus` is unfolded through a variable, as in `State.writeBus_of_busTook`. -/
theorem State.writeBus_wrote {addr : Nat} {w : Who} (answer : s.busWrite w addr 0xFFFFFFFF#32 data = (.ok, v)) :
    s.writeBus w addr 0xFFFFFFFF#32 data = (.ok, v.noteAccess w addr 0) := by
  generalize hf : State.writeBus = writeBus
  delta State.writeBus at hf
  generalize State.noteAccess = noteAccess at hf ⊢
  generalize State.busWrite = busWrite at answer hf
  subst hf
  beta_reduce
  rw [answer]
  rfl

/-- What a store records of a word that it has written. -/
def State.storeRecords (v : State) (s : State) (a : Agent) (p o : Nat) (data : Word) : State :=
  (((v.journalWrite p o 0xFFFFFFFF#32 data).noteAccess (s.ownWho a p) (regAddr p o) 0).auditStore a .ok (regAddr p o) data).mirrorWrite a.id
    (regAddr p o) 0xFFFFFFFF#32 data

include hw

theorem State.storeWord_wrote (wrote : s.wordWrite a r p o data = (.ok, v)) (rights : s.mayWrite (s.agentRights a p) p o 0xFFFFFFFF#32 data = true) :
    s.storeWord a (regAddr p o) 0xFFFFFFFF#32 data = (.ok, v.storeRecords s a p o data) := by
  have addr (w : Who) : s.writeAddr w (regAddr p o) 0xFFFFFFFF#32 data = s.writeBus w (regAddr p o) 0xFFFFFFFF#32 data :=
    if_pos (regAddr_inPages hw.page_lt hw.small)
  have write := State.writeBus_wrote ((s.busWrite_pageWord hw data (s.ownWho a p)).trans (State.writeAt_wrote hw wrote rights))
  unfold State.storeRecords State.storeWord
  rw [regAddr_page hw.small, addr]
  generalize State.auditStore = auditStore
  generalize State.mirrorWrite = mirrorWrite
  rw [write]
  exact congrArg (Prod.mk Status.ok) (if_pos rfl)

/-- A running core's store. -/
theorem State.coreStore_wrote {k : Fin 4} (runs : s.cp.halted.any (fun e => e.1 == k.val) = false) {t : State}
    (store : s.storeWord (.core k) (regAddr p o) 0xFFFFFFFF#32 data = (.ok, t)) :
    s.coreStore k (regAddr p o) .word (data.setWidth 64) = (.ok, t) := by
  have page := regAddr_page (p := p) hw.small
  have inside := regAddr_inPages hw.page_lt hw.small
  have aligned : accAligned .word (regAddr p o) = true := decide_eq_true (regAddr_aligned hw.aligned)
  rw [← s.corePages_pageWord hw (.core k) data] at store
  generalize hf : State.coreStore = coreStore
  delta State.coreStore at hf
  subst hf
  beta_reduce
  generalize regAddr p o = addr at page inside aligned store ⊢
  simp only [runs, page, inside, aligned, hw.page, Bool.not_true, Bool.false_eq_true, if_false, if_true, Option.isNone_some, store, reduceCtorEq]

/-- An application's store that its sandbox opens. -/
theorem State.appStore_wrote {k : Fin 4} (on : s.appOn k.val = true) (may : s.appMayStore (regAddr p o) 0xFFFFFFFF#32 data = true) {t : State}
    (store : s.storeWord (.app k) (regAddr p o) 0xFFFFFFFF#32 data = (.ok, t)) :
    s.appStore k (regAddr p o) .word (data.setWidth 64) = (.ok, t) := by
  have page := regAddr_page (p := p) hw.small
  have inside := regAddr_inPages hw.page_lt hw.small
  have aligned : accAligned .word (regAddr p o) = true := decide_eq_true (regAddr_aligned hw.aligned)
  have whole := regAddr_whole (p := p) hw.aligned
  rw [← s.corePages_pageWord hw (.app k) data] at store
  generalize hf : State.appStore = appStore
  delta State.appStore at hf
  subst hf
  beta_reduce
  generalize regAddr p o = addr at page inside aligned whole store may ⊢
  simpa [on, may, page, inside, aligned, whole, hw.page, laneMask, laneData, accBytes] using store

/-- A store that reaches a word and is answered OK leaves the write and records of it. -/
theorem State.store_wrote (wrote : s.wordWrite a r p o data = (.ok, v)) (reaches : s.reaches a p o data) (regs : Store.wf regReset v.regs = true) :
    ∃ t, s.store a (regAddr p o) .word (data.setWidth 64) = (.ok, t) ∧ Tended v t := by
  obtain ⟨powered, clocked, core, app, debug, rights⟩ := reaches
  have same : (data.setWidth 64).setWidth 32 = data := BitVec.setWidth_setWidth_of_le data (by omega)
  have other : (regAddr p o != 0x400D1008) = true := bne_iff_ne.mpr hw.regAddr_ne
  have free : ¬ (s.inReset || (s.stands && a != .bellows)) = true := by
    rcases clocked with h | h <;> simp [powered, h]
  have store := State.storeWord_wrote hw wrote rights
  have kept : Tended v (v.storeRecords s a p o data) := (Tended.refl regs).journalWrite.noteAccess.auditStore.mirrorWrite
  unfold State.store
  rw [other, Bool.and_true, if_neg free]
  cases a with
  | core k =>
    dsimp only
    rw [State.coreStore_wrote hw (core k rfl) store]
    exact ⟨_, rfl, .ite kept kept.retired⟩
  | app k =>
    obtain ⟨on, may⟩ := app k rfl
    dsimp only
    rw [State.appStore_wrote hw on may store]
    exact ⟨_, rfl, .ite kept kept.retired⟩
  | debug =>
    dsimp only
    rw [if_pos (debug rfl), same]
    exact ⟨_, store, kept⟩
  | i3c | mgmt | bellows =>
    dsimp only
    rw [same]
    exact ⟨_, store, kept⟩

end

end Sys2Proof.Machine

namespace Sys2Proof.Machine

/-! ### The reset of an owner and what it ends leave (`Served`, `Owned`) -/

namespace Served

section
variable {base s : State} (h : Served base s)
include h

theorem setTwicel {v : Nat} : Served base (s.setTwicel v) := .ite h h.setRegFld.raise

theorem breakOps {k id : Nat} : Served base (s.breakOps k id) := by
  unfold State.breakOps
  refine .foldl h fun h => ?_
  split
  · exact h
  · split
    · split
      next broken e => exact .of_snd e h.opCancel
      next kept _ e => exact (Served.of_snd (t := kept) e h.opCancel).updOp
    · exact h

theorem breakLock {id k : Nat} (hk : k < 64) : Served base (s.breakLock id k) := by
  have lock : Unkept pgLocks (0x1000 + 4 * k) := ⟨by decide, .inr ⟨by omega, by omega⟩⟩
  have broken : Unkept pgLocks (0x2000 + 4 * (k / 32)) := ⟨by decide, .inr ⟨by omega, by omega⟩⟩
  exact (h.breakOps.updReg lock).orReg broken

theorem breakLocks {id : Nat} : Served base (s.breakLocks id) := by
  have broken : Served base ((s.locksOf id).foldl (fun s k => s.breakLock id k) s) :=
    .foldl_mem h fun k hk h => h.breakLock (List.mem_range.mp (List.mem_filter.mp hk).1)
  exact .ite broken broken.raise

theorem setSession {a : Agent} {n rights : Nat} : Served base (s.setSession a n rights) := by
  cases a with
  | i3c | mgmt => exact h.setReg
  | debug => exact h.withHost
  | core k | app k | bellows => exact h

theorem ownerReset {a : Agent} : Served base (s.ownerReset a) := .ite h.breakLocks h.breakLocks.setSession.audit

theorem endByReset {slot : Nat} {r : OpRec} : Served base (s.endByReset slot r) := by
  unfold State.endByReset
  split
  · exact h
  · split
    · exact .ite h.updOp (.ite h.failCommit h.endOp)
    · extract_lets +onlyGivenNames split
      have split : Served base split := .ite (.setTwicel (.ite h.freePending h)) h
      exact split.endOp
    · exact .ite h.endOp h.cancelWork.endOp

end
end Served

section
variable {base s : State} (h : Owned base s)
include h

theorem Owned.setTwicel {v : Nat} : Owned base (s.setTwicel v) := .ite h h.setRegFld.raise

theorem Owned.endByReset {slot : Nat} {r : OpRec} : Owned base (s.endByReset slot r) := by
  unfold State.endByReset
  split
  · exact h
  · split
    · exact .ite h.updOp (.ite h.failCommit h.endOp)
    · extract_lets +onlyGivenNames split
      have split : Owned base split := .ite (.setTwicel (.ite h.freePending h)) h
      exact split.endOp
    · exact .ite h.endOp h.cancelWork.endOp

end

/-! ### The operations that the reset of the cores ends (R67) -/

section
variable {s t : State} {slot : Nat} {r : OpRec}

/-- The record of a slot, if any, has ended or is that of a commit. -/
def State.Settled (s : State) (slot : Nat) : Prop := ∀ r, s.opRec slot = some r → r.state.terminal = true ∨ r.kind = .epochCommit

/-- From `s` to `t` the slot is settled, and no other record changes. -/
structure Settles (s t : State) (slot : Nat) : Prop where
  settled : t.Settled slot
  others : ∀ j, j ≠ slot → t.opRec j = s.opRec j

theorem Settles.endOp (record : t.opRec slot = some r) (others : ∀ j, j ≠ slot → t.opRec j = s.opRec j) (result : Status) :
    Settles s (t.endOp slot .failed result) slot where
  settled q found := by
    rw [State.opRec_endOp_self record] at found
    cases found
    exact .inl rfl
  others j hj := (State.opRec_endOp_other _ _ hj).trans (others j hj)

/-- An end of the slot's operation after work that leaves the records. -/
theorem Settles.endOp_of_ops (record : s.opRec slot = some r) (ops : t.ops = s.ops) (result : Status) :
    Settles s (t.endOp slot .failed result) slot :=
  .endOp ((State.opRec_congr (congrArg _ ops) slot).trans record) (fun j _ => State.opRec_congr (congrArg _ ops) j) result

/-- More is done that leaves the records. -/
theorem Settles.congr {u : State} (h : Settles s t slot) (ops : u.ops = t.ops) : Settles s u slot where
  settled q found := h.settled q ((State.opRec_congr (congrArg _ ops) slot).symm.trans found)
  others j hj := (State.opRec_congr (congrArg _ ops) j).trans (h.others j hj)

theorem Settles.failCommit : Settles s (s.failCommit slot r .internal) slot := by
  have shown : ((s.setOp slot (s.opShown r)).relayAbort r).opRec slot = some (s.opShown r) :=
    (State.opRec_congr (congrArg _ (State.relayAbort_ops _ r)) slot).trans (State.opRec_setOp_self _ _ _)
  have others (j : Nat) (hj : j ≠ slot) : ((s.setOp slot (s.opShown r)).relayAbort r).opRec j = s.opRec j :=
    (State.opRec_congr (congrArg _ (State.relayAbort_ops _ r)) j).trans (State.opRec_setOp_other _ hj)
  exact (Settles.endOp shown others .internal).congr rfl

theorem State.setTwicel_ops (s : State) (v : Nat) : (s.setTwicel v).ops = s.ops := State.ite_ops rfl (State.raise_ops _ _ _)

theorem State.endByReset_settles (record : s.opRec slot = some r) : Settles s (s.endByReset slot r) slot := by
  have same {t : State} (ops : t.ops = s.ops) (ends : r.state.terminal = true ∨ r.kind = .epochCommit) : Settles s t slot := by
    refine ⟨fun q found => ?_, fun j _ => State.opRec_congr (congrArg _ ops) j⟩
    rw [State.opRec_congr (congrArg _ ops), record] at found
    cases found
    exact ends
  unfold State.endByReset
  split
  case isTrue ended => exact same rfl (.inl ended)
  case isFalse =>
    split
    case h_1 kind =>
      split
      · rw [State.updOp_eq record]
        refine ⟨fun q found => ?_, fun j hj => State.opRec_setOp_other _ hj⟩
        rw [State.opRec_setOp_self] at found
        cases found
        exact .inr kind
      · split
        · exact .failCommit
        · exact .endOp_of_ops record rfl _
    case h_2 =>
      extract_lets split
      have ops : split.ops = s.ops := State.ite_ops ((State.setTwicel_ops _ 3).trans (State.ite_ops rfl rfl)) rfl
      exact .endOp_of_ops record ops _
    case h_3 =>
      split
      · exact .endOp_of_ops record rfl _
      · exact .endOp_of_ops record (s.cancelWork_ops r) _

/-- The end of the operation that an entry names. -/
def State.endNamed (s : State) (e : Nat × OpRec) : State :=
  match s.opRec e.1 with | some r => s.endByReset e.1 r | none => s

/-- An entry's operation is settled, and no other record changes. -/
theorem State.endNamed_settles (s : State) (e : Nat × OpRec) : Settles s (s.endNamed e) e.1 := by
  unfold State.endNamed
  split
  case h_1 record => exact State.endByReset_settles record
  case h_2 none =>
    refine ⟨fun q found => ?_, fun _ _ => rfl⟩
    rw [none] at found
    cases found

/-- Ending the operations of a list settles every slot that is in it. -/
theorem State.endNamed_foldl_settled (l : List (Nat × OpRec)) (s : State) (rest : ∀ j, j ∉ l.map Prod.fst → s.Settled j) (j : Nat) :
    (l.foldl State.endNamed s).Settled j := by
  induction l generalizing s with
  | nil => exact rest j (by simp)
  | cons e l ih =>
    obtain ⟨settled, others⟩ := s.endNamed_settles e
    refine ih _ fun i hi => ?_
    by_cases named : i = e.1
    · rwa [named]
    · exact fun q found => rest i (by simpa [named] using hi) q ((others i named).symm.trans found)

/-- A slot of which the records name nothing holds no record. -/
theorem State.settled_of_unnamed {j : Nat} (h : j ∉ s.ops.recs.map Prod.fst) : s.Settled j := by
  intro r found
  obtain ⟨e, mem, -⟩ := Option.map_eq_some_iff.mp found
  have key : e.1 = j := by simpa using List.find?_some mem
  exact absurd (List.mem_map.mpr ⟨e, List.mem_of_find?_eq_some mem, key⟩) h

theorem Served.endNamed {base : State} (h : Served base s) {e : Nat × OpRec} : Served base (s.endNamed e) := by
  unfold State.endNamed
  split
  · exact h.endByReset
  · exact h

theorem Owned.endNamed {base : State} (h : Owned base s) {e : Nat × OpRec} : Owned base (s.endNamed e) := by
  unfold State.endNamed
  split
  · exact h.endByReset
  · exact h

end

end Sys2Proof.Machine

namespace Sys2Proof.Machine

/-! ### The reset of all four cores (R67) -/

section
variable {s t : State}

/-- The reset of a core's owner frees the locks of that owner, and of no other. -/
theorem State.lockOwner_ownerReset (hs : Store.wf regReset s.regs = true) (a : Agent) {j : Nat} (hj : j < 64) :
    (s.ownerReset a).lockOwner j = if s.lockOwner j = a.id then 0 else s.lockOwner j := ((State.freed_ownerReset hs a).1 j hj).1

theorem Agent.core_id (k : Nat) (hk : k < 4) : (Agent.core (Fin.ofNat 4 k)).id = 4 + k := by
  simp only [Agent.id, Fin.ofNat, Nat.mod_eq_of_lt hk]

/-- The owner resets of a list of cores. -/
def State.resetCores (s : State) (l : List Nat) : State := l.foldl (fun s k => s.ownerReset (.core (Fin.ofNat 4 k))) s

theorem Served.resetCores {base : State} (h : Served base s) (l : List Nat) : Served base (s.resetCores l) := .foldl h fun h => h.ownerReset

/-- Resetting the owners of a list of cores: no lock is left with one of them, and no other owner has taken one. -/
theorem State.lockOwner_resetCores (l : List Nat) (hl : ∀ k ∈ l, k < 4) (s : State) (hs : Store.wf regReset s.regs = true) {j : Nat} (hj : j < 64) :
    ((s.resetCores l).lockOwner j = s.lockOwner j ∨ (s.resetCores l).lockOwner j = 0) ∧ ∀ k ∈ l, (s.resetCores l).lockOwner j ≠ 4 + k := by
  induction l generalizing s with
  | nil => exact ⟨.inl rfl, by simp⟩
  | cons k l ih =>
    have owner := State.lockOwner_ownerReset hs (.core (Fin.ofNat 4 k)) hj
    rw [Agent.core_id k (hl k List.mem_cons_self)] at owner
    have rest := ih (fun k hk => hl k (List.mem_cons_of_mem _ hk)) (s.ownerReset (.core (Fin.ofNat 4 k))) (Served.refl hs).ownerReset.regs
    rw [show s.resetCores (k :: l) = (s.ownerReset (.core (Fin.ofNat 4 k))).resetCores l from rfl]
    generalize (State.resetCores (s.ownerReset (.core (Fin.ofNat 4 k))) l) = t at rest ⊢
    obtain ⟨kept, none⟩ := rest
    rw [owner] at kept
    refine ⟨?_, fun i hi => ?_⟩
    · split at kept <;> omega
    · rcases List.mem_cons.mp hi with rfl | hi
      · split at kept <;> omega
      · exact none i hi

/-- What the reset of all four cores leaves (R67). -/
structure CoresReset (t : State) : Prop where
  notReady : bit (t.reg pgHostif 0x2000) 0 = false
  locks : ∀ k, k < 64 → t.lockOwner k < 4 ∨ 7 < t.lockOwner k
  settled : ∀ slot, t.Settled slot
  halted : t.cp.halted = []

theorem CoresReset.tended (h : CoresReset s) (ht : Tended s t) : CoresReset t where
  notReady := by rw [ht.words pgHostif 0x2000 (by decide) (by decide), h.notReady]
  locks k hk := by
    rw [State.lockOwner, State.lockW, ht.words pgLocks _ (by omega) (by decide)]
    exact h.locks k hk
  settled slot r found := h.settled slot r ((State.opRec_congr (congrArg _ ht.ops) slot).symm.trans found)
  halted := ht.halted.trans h.halted

theorem State.setHalted_halted (s : State) (l : List (Nat × HaltCause)) : (s.setHalted l).cp.halted = l := by
  unfold State.setHalted State.showHalts
  dsimp only
  rw [State.setReg_cp, State.setRegFld_cp]

theorem State.setHalted_ops (s : State) (l : List (Nat × HaltCause)) : (s.setHalted l).ops = s.ops := by
  unfold State.setHalted State.showHalts
  dsimp only
  rw [State.setReg_ops, State.setRegFld_ops]

/-- Halting and resuming write words of DEBUG alone. -/
theorem State.reg_setHalted (hs : Store.wf regReset s.regs = true) (l : List (Nat × HaltCause)) {p o : Nat} (hp : p ≠ pgDebug) (ho : o < 0x10000) :
    (s.setHalted l).reg p o = s.reg p o := by
  have apart {u : Nat} (hu : u < 0x10000) : regKey p o ≠ regKey pgDebug u := fun e => hp (regKey_inj ho hu e).1
  exact (State.reg_setReg_other _ _ (Store.wf_put regReset _ _ _ hs) (apart (by decide))).trans
    (State.reg_setReg_other { s with cp := { s.cp with halted := l } } _ hs (apart (by decide)))

theorem State.setHalted_regs (hs : Store.wf regReset s.regs = true) (l : List (Nat × HaltCause)) : Store.wf regReset (s.setHalted l).regs = true := by
  unfold State.setHalted State.showHalts
  exact Store.wf_put regReset _ _ _ (Store.wf_put regReset _ _ _ hs)

/-- A device whose cores are reset waits for its firmware again. -/
def State.awaitFirmware (s : State) : State := { s with pow := { s.pow with phase := min s.pow.phase 7 } }

/-- The end of a reset of all four cores: FW_READY falls, no application runs, no core is halted. -/
def State.restartCores (s : State) : State := ((s.clrReg pgCpctl 0x2000 0x300#32).clrReg pgHostif 0x2000 1#32).awaitFirmware.setHalted []

theorem State.awaitFirmware_regs (s : State) : s.awaitFirmware.regs = s.regs := rfl

section
variable (hs : Store.wf regReset s.regs = true)
include hs

theorem State.clrReg_regs (p o : Nat) (m : Word) : Store.wf regReset (s.clrReg p o m).regs = true := Store.wf_put regReset _ _ _ hs

theorem State.restartCores_regs : Store.wf regReset s.restartCores.regs = true := by
  refine State.setHalted_regs ?_ []
  rw [State.awaitFirmware_regs]
  exact State.clrReg_regs (State.clrReg_regs hs _ _ _) _ _ _

theorem State.reg_restartCores_clrReg {p o : Nat} (hp : p ≠ pgDebug) (ho : o < 0x10000) :
    s.restartCores.reg p o = ((s.clrReg pgCpctl 0x2000 0x300#32).clrReg pgHostif 0x2000 1#32).reg p o := by
  have quiet := State.clrReg_regs (State.clrReg_regs hs pgCpctl 0x2000 0x300#32) pgHostif 0x2000 1#32
  unfold State.restartCores
  generalize (s.clrReg pgCpctl 0x2000 0x300#32).clrReg pgHostif 0x2000 1#32 = u at quiet ⊢
  rw [State.reg_setHalted (by rwa [State.awaitFirmware_regs]) [] hp ho, State.reg_congr u.awaitFirmware_regs]

/-- The words that a restart of the cores leaves. -/
theorem State.reg_restartCores {p o : Nat} (hp : p ∉ [pgCpctl, pgHostif, pgDebug]) (ho : o < 0x10000) : s.restartCores.reg p o = s.reg p o := by
  simp only [List.mem_cons, List.not_mem_nil, or_false, not_or] at hp
  obtain ⟨cpctl, hostif, debug⟩ := hp
  have apart {q u : Nat} (hq : p ≠ q) (hu : u < 0x10000) : regKey p o ≠ regKey q u := fun e => hq (regKey_inj ho hu e).1
  rw [State.reg_restartCores_clrReg hs debug ho]
  exact (State.reg_setReg_other _ _ (State.clrReg_regs hs _ _ _) (apart hostif (by decide))).trans
    (State.reg_setReg_other _ _ hs (apart cpctl (by decide)))

theorem State.restartCores_hostif : bit (s.restartCores.reg pgHostif 0x2000) 0 = false := by
  rw [State.reg_restartCores_clrReg hs (by decide) (by decide), State.clrReg, State.updReg_eq,
    State.reg_setReg_self _ _ _ _ (State.clrReg_regs hs _ _ _), bit_and]
  exact (congrArg _ (by decide)).trans (Bool.and_false _)

theorem State.restartCores_cpctl : bit (s.restartCores.reg pgCpctl 0x2000) 10 = bit (s.reg pgCpctl 0x2000) 10 := by
  rw [State.reg_restartCores_clrReg hs (by decide) (by decide),
    show ((s.clrReg pgCpctl 0x2000 0x300#32).clrReg pgHostif 0x2000 1#32).reg pgCpctl 0x2000 = (s.clrReg pgCpctl 0x2000 0x300#32).reg pgCpctl 0x2000
      from State.reg_setReg_other _ _ (State.clrReg_regs hs _ _ _) (by decide),
    State.clrReg, State.updReg_eq, State.reg_setReg_self _ _ _ _ hs, bit_and]
  exact (congrArg _ (by decide)).trans (Bool.and_true _)

end

theorem State.restartCores_ops (s : State) : s.restartCores.ops = s.ops := by
  unfold State.restartCores
  exact (State.setHalted_ops _ []).trans rfl

theorem State.restartCores_halted (s : State) : s.restartCores.cp.halted = [] := State.setHalted_halted _ []

/-- The reset of all four cores, which leaves the bit of CPCTL that tells of the watchdog's end. -/
theorem State.coresReset_spec (hs : Store.wf regReset s.regs = true) :
    CoresReset s.coresReset ∧ Store.wf regReset s.coresReset.regs = true
      ∧ bit (s.coresReset.reg pgCpctl 0x2000) 10 = bit (s.reg pgCpctl 0x2000) 10 := by
  have reset : Served s (s.resetCores (List.range 4)) := (Served.refl hs).resetCores _
  have settled (j : Nat) : ((s.resetCores (List.range 4)).ops.recs.foldl State.endNamed (s.resetCores (List.range 4))).Settled j :=
    State.endNamed_foldl_settled _ _ (fun j => State.settled_of_unnamed) j
  have kept : Owned (s.resetCores (List.range 4)) ((s.resetCores (List.range 4)).ops.recs.foldl State.endNamed (s.resetCores (List.range 4))) :=
    Owned.foldl (.refl reset.regs) fun h => h.endNamed
  have served : Served s ((s.resetCores (List.range 4)).ops.recs.foldl State.endNamed (s.resetCores (List.range 4))) :=
    Served.foldl reset fun h => h.endNamed
  rw [show s.coresReset = State.restartCores ((s.resetCores (List.range 4)).ops.recs.foldl State.endNamed (s.resetCores (List.range 4))) from rfl]
  generalize List.foldl State.endNamed _ _ = ended at settled kept served ⊢
  refine ⟨⟨State.restartCores_hostif served.regs, fun k hk => ?_, fun slot r found => ?_, State.restartCores_halted _⟩,
    State.restartCores_regs served.regs, ?_⟩
  · obtain ⟨-, none⟩ := State.lockOwner_resetCores (List.range 4) (fun k => List.mem_range.mp) s hs hk
    have owner : ended.restartCores.lockOwner k = (s.resetCores (List.range 4)).lockOwner k := by
      rw [State.lockOwner, State.lockW, State.reg_restartCores served.regs (by decide) (by omega)]
      exact congrArg (fun w => fld w 3 0) (kept.locks k hk)
    rw [owner]
    by_contra held
    exact none ((s.resetCores (List.range 4)).lockOwner k - 4) (List.mem_range.mpr (by omega)) (by omega)
  · exact settled slot r ((State.opRec_congr (congrArg _ (State.restartCores_ops ended)) slot).symm.trans found)
  · rw [State.restartCores_cpctl served.regs, served.words pgCpctl 0x2000 (by decide) (by decide)]

end

end Sys2Proof.Machine

namespace Sys2Proof.Machine

/-! ### CORE_RESET, WDT_KICK and the watchdog's end (R67) -/

section
variable {s t : State} {a : Agent}

theorem Tended.updReg {base : State} (h : Tended base s) {p o : Nat} {f : Word → Word} (hp : p ∈ [pgPmu, pgPair] := by decide)
    (ho : o < 0x10000 := by omega) : Tended base (s.updReg p o f) := h.setReg hp ho

theorem Tended.pinsEval {base : State} (h : Tended base s) : Tended base s.pinsEval := by
  have fault : Tended base s.faultEval := .ite h.setReg h.setReg.orReg.raise
  exact .ite fault.updReg fault.updReg.updReg.raise

theorem cpctlRow : ∃ r, pageRow pgCpctl = some r ∧ r.kind = .cpctl := ⟨_, rfl, rfl⟩

/-- A whole-word write of a control word of CPCTL acts as `State.liveCpctl` says. -/
theorem State.wordWrite_cpctl {r : PageRow} (hr : r.kind = .cpctl) {o : Nat} (ho : o = 0x1000 ∨ o = 0x1004) (data : Word) :
    s.wordWrite a r pgCpctl o data = (.ok, (s.touchPage a pgCpctl).liveCpctl o 0xFFFFFFFF#32 data) := by
  have mirror : mirrorWord pgCpctl o = false := by rcases ho with rfl | rfl <;> decide
  have lo : ¬ o < 0x100 := by omega
  have mid : ¬ o < 0x1000 := by omega
  have live : o < 0x4000 := by omega
  unfold State.wordWrite
  generalize s.touchPage a pgCpctl = u
  unfold State.writeWord State.cfRefuses
  simp only [mirror, Bool.and_false, Bool.false_and, mid, decide_false, hr, lo, live, if_true, if_false, Bool.false_eq_true]
  rfl

theorem cpctlWord {r : PageRow} (hr : pageRow pgCpctl = some r) {o : Nat} (ho : o = 0x1000 ∨ o = 0x1004) : PageWord pgCpctl o r :=
  ⟨by decide, hr, by omega, by omega, fun e => by cases e⟩

theorem State.liveCpctl_all (s : State) : s.liveCpctl 0x1000 0xFFFFFFFF#32 1#32 = s.coresReset := by
  rw [State.liveCpctl, if_pos rfl, if_pos (by decide)]

/-- A write of one bit of CORE_RESET resets the core of that bit alone. -/
theorem State.liveCpctl_one (s : State) (k : Fin 3) : s.liveCpctl 0x1000 0xFFFFFFFF#32 (oneBit (k.val + 1)) = s.coreReset (k.val + 1) := by
  have none : ∀ k : Fin 3, bit (0xFFFFFFFF#32 &&& oneBit (k.val + 1)) 0 = false := by decide
  have only : ∀ k j : Fin 3, bit (0xFFFFFFFF#32 &&& oneBit (k.val + 1)) (j.val + 1) = decide (j = k) := by decide
  have one := only k 0
  have two := only k 1
  have three := only k 2
  unfold State.liveCpctl
  rw [if_pos rfl, none, if_neg (by decide)]
  simp only [List.foldl_cons, List.foldl_nil, Fin.val_zero, Fin.val_one, Fin.val_two, zero_add, Nat.reduceAdd] at one two three ⊢
  rw [one, two, three]
  match k with
  | 0 => rfl
  | 1 => rfl
  | 2 => rfl

theorem State.liveCpctl_kick (s : State) (mask data : Word) : s.liveCpctl 0x1004 mask data = s := by
  rw [State.liveCpctl, if_neg (by decide), if_pos rfl]

/-- A store of a control word of CPCTL that reaches it. -/
theorem State.regWrite_cpctl {o : Nat} (ho : o = 0x1000 ∨ o = 0x1004) {data : Word}
    (reaches : s.reaches a pgCpctl o data)
    (regs : Store.wf regReset ((s.touchPage a pgCpctl).liveCpctl o 0xFFFFFFFF#32 data).regs = true) :
    Tended ((s.touchPage a pgCpctl).liveCpctl o 0xFFFFFFFF#32 data) (s.regWrite a pgCpctl o data) := by
  obtain ⟨r, row, kind⟩ := cpctlRow
  obtain ⟨t, store, kept⟩ := State.store_wrote (cpctlWord row ho) (State.wordWrite_cpctl kind ho data) reaches regs
  rwa [State.regWrite, store]

/-- The page's latches are all that a write of CPCTL drops first. -/
theorem State.tended_touchPage (hs : Store.wf regReset s.regs = true) (a : Agent) (p : Nat) : Tended s (s.touchPage a p) := (Tended.refl hs).touchPage

theorem State.lockOwner_coreReset (hs : Store.wf regReset s.regs = true) {k : Nat} (hk : k < 4) {j : Nat} (hj : j < 64) :
    (s.coreReset k).lockOwner j = if s.lockOwner j = 4 + k then 0 else s.lockOwner j := by
  have reset : Served s (s.ownerReset (.core (Fin.ofNat 4 k))) := (Served.refl hs).ownerReset
  rw [← Agent.core_id k hk, ← State.lockOwner_ownerReset hs _ hj, State.coreReset, State.lockOwner, State.lockW,
    State.reg_setHalted reset.regs _ (by decide) (by omega)]

theorem State.coreReset_regs (hs : Store.wf regReset s.regs = true) (k : Nat) : Store.wf regReset (s.coreReset k).regs = true :=
  State.setHalted_regs (Served.refl hs).ownerReset.regs _

theorem Tended.lockOwner {base : State} (h : Tended base s) {j : Nat} (hj : j < 64) : s.lockOwner j = base.lockOwner j :=
  congrArg (fun w => fld w 3 0) (h.words pgLocks _ (by omega) (by decide))

/-- PAIR remembers that the watchdog has ended (R400). -/
def State.noteWdt (s : State) : State := { s with pair := { s.pair with wdtHit := true } }

theorem State.noteWdt_regs (s : State) : s.noteWdt.regs = s.regs := rfl

/-- The watchdog's end as CPCTL and PAIR record it. -/
def State.watchdogHit (s : State) : State := (((s.orReg pgCpctl 0x2000 0x400#32).raise pgCpctl 17).orReg pgPair 0x2008 4#32).noteWdt

theorem State.watchdogHit_regs (hs : Store.wf regReset s.regs = true) : Store.wf regReset s.watchdogHit.regs = true := by
  rw [State.watchdogHit, State.noteWdt_regs]
  exact Store.wf_put regReset _ _ _ (Store.wf_put regReset _ _ _ (Store.wf_put regReset _ _ _ hs))

theorem State.watchdogHit_expired (hs : Store.wf regReset s.regs = true) : bit (s.watchdogHit.reg pgCpctl 0x2000) 10 = true := by
  have marked : Store.wf regReset (s.orReg pgCpctl 0x2000 0x400#32).regs = true := Store.wf_put regReset _ _ _ hs
  have raised : Store.wf regReset ((s.orReg pgCpctl 0x2000 0x400#32).raise pgCpctl 17).regs = true := Store.wf_put regReset _ _ _ marked
  have word : (s.orReg pgCpctl 0x2000 0x400#32).reg pgCpctl 0x2000 = s.reg pgCpctl 0x2000 ||| 0x400#32 := State.reg_setReg_self _ _ _ _ hs
  rw [State.watchdogHit, State.reg_congr (State.noteWdt_regs _)]
  generalize s.orReg pgCpctl 0x2000 0x400#32 = u at marked raised word ⊢
  rw [State.orReg, State.updReg_eq, State.reg_setReg_other _ _ raised (by decide), State.raise_eq, State.reg_setReg_other _ _ marked (by decide), word,
    bit_or]
  exact (congrArg _ (by decide)).trans (Bool.or_true _)

/-- The watchdog's end, but while it is held (R67, R446). -/
theorem exec_wdtExpired (stands : s.stands = false) :
    exec .wdtExpired s = .next (if bit (s.reg pgCpctl 0x1008) 16 || !s.cp.halted.isEmpty then s else s.watchdogHit.coresReset.pinsEval) := by
  change execWdtExpired s = _
  rw [execWdtExpired, stands, if_neg (by decide)]
  dsimp only
  split <;> rfl

/-- What the reset of the cores at the watchdog's end leaves. -/
theorem State.watchdog_spec (hs : Store.wf regReset s.regs = true) :
    CoresReset s.watchdogHit.coresReset.pinsEval ∧ bit (s.watchdogHit.coresReset.pinsEval.reg pgCpctl 0x2000) 10 = true := by
  obtain ⟨reset, regs, expired⟩ := State.coresReset_spec (State.watchdogHit_regs hs)
  have pins := (Tended.refl regs).pinsEval
  refine ⟨reset.tended pins, ?_⟩
  rw [pins.words pgCpctl 0x2000 (by decide) (by decide), expired, State.watchdogHit_expired hs]

/-- The reset of all four cores as O17 states it. -/
theorem CoresReset.spec (h : CoresReset t) : bit (t.reg pgHostif 0x2000) 0 = false ∧ (∀ k, k < 64 → t.lockOwner k < 4 ∨ 7 < t.lockOwner k)
    ∧ (∀ slot r, t.opRec slot = some r → r.state.terminal = true ∨ r.kind = .epochCommit) ∧ t.cp.halted = [] :=
  ⟨h.notReady, h.locks, h.settled, h.halted⟩

end

/-- Settles O17: the stop of an application (`appTrap_trapped`), the reset of the cores (`coresReset_spec`), and stores of CPCTL that lead to it. -/
theorem coresAndApplications : Obligations.CoresAndApplications := by
  refine ⟨fun s k canonical keyed stands on => ?_, fun s canonical => ?_⟩
  · intro stopped trapped
    refine ⟨fun addr => ⟨?_, ?_, ?_⟩, fun limit => ?_⟩
    · refine ⟨_, exec_appFault_access stands on addr, ?_⟩
      obtain ⟨stop, regs⟩ := State.appTrap_trapped canonical keyed.1 (u := { s with freeCtr := s.freeCtr + 1 }) rfl 1 k.val _ addr
      exact ⟨stop.spec, regs⟩
    · refine ⟨_, exec_appFault_illegal stands on addr, ?_⟩
      obtain ⟨stop, regs⟩ := State.appTrap_trapped canonical keyed.1 (u := s) (n := s.freeCtr) rfl 2 k.val _ addr
      exact ⟨stop.spec, regs⟩
    · refine ⟨_, exec_appFault_misaligned stands on addr, ?_⟩
      obtain ⟨stop, regs⟩ := State.appTrap_trapped canonical keyed.1 (u := { s with freeCtr := s.freeCtr + 1 }) rfl 3 k.val _ addr
      exact ⟨stop.spec, regs⟩
    · refine ⟨_, exec_appCpuLimit stands on limit, (State.appStopped_stopped canonical.regs 4 k.val 0).spec, ?_⟩
      obtain ⟨l, frame⟩ := s.regsOnly_appStopped 4 k.val 0
      rw [frame]
  · intro all
    have touched (a : Agent) := State.tended_touchPage canonical.regs a pgCpctl
    refine ⟨fun a reaches => ⟨_, rfl, ?_⟩, fun a k reaches => ⟨_, rfl, fun j hj => ?_⟩, fun a data reaches => ⟨_, rfl, fun o ho => ?_⟩,
      fun stands => ?_⟩
    · obtain ⟨reset, regs, -⟩ := State.coresReset_spec (touched a).regs
      rw [← State.liveCpctl_all] at reset regs
      exact (reset.tended (State.regWrite_cpctl (.inl rfl) reaches regs)).spec
    · have regs := State.coreReset_regs (touched a).regs (k.val + 1)
      rw [← State.liveCpctl_one] at regs
      have kept := State.regWrite_cpctl (.inl rfl) reaches regs
      rw [show State.lockOwner _ j = _ from kept.lockOwner hj, State.liveCpctl_one, State.lockOwner_coreReset (touched a).regs (by omega) hj,
        (touched a).lockOwner hj, show 4 + (k.val + 1) = 5 + k.val by omega]
    · have kept := State.regWrite_cpctl (.inr rfl) reaches (by rw [State.liveCpctl_kick]; exact (touched a).regs)
      rw [State.liveCpctl_kick] at kept
      exact (kept.words pgCpctl o ho (by decide)).trans ((touched a).words pgCpctl o ho (by decide))
    · intro paused
      refine ⟨fun held => ⟨_, exec_wdtExpired stands, if_pos ?_⟩, fun runs => ⟨_, exec_wdtExpired stands, ?_⟩⟩
      · simpa [paused] using held
      · rw [if_neg (by simpa [paused] using runs)]
        obtain ⟨reset, expired⟩ := State.watchdog_spec canonical.regs
        exact ⟨reset.spec, expired⟩

end Sys2Proof.Machine

/-! # The roles and audit chapter (04_roles_and_audit.md)

Login and sessions, changes of the role keys, the audit log. -/
namespace Sys2Proof.Machine

/-! ## The login state under a command -/

/-- Of the state `base`, the state `s` has the sessions of the agents (R105, R120, R444). -/
structure SameSessions (base s : State) : Prop where
  i3c : s.reg pgRoles 0x200C = base.reg pgRoles 0x200C
  mgmt : s.reg pgRoles 0x2010 = base.reg pgRoles 0x2010
  dbgSession : s.host.dbgSession = base.host.dbgSession
  dbgRights : s.host.dbgRights = base.host.dbgRights

/-- The word at offset `o` of page `p` holds no session. -/
abbrev Sessionless (p o : Nat) : Prop := regKey p o ≠ regKey pgRoles 0x200C ∧ regKey p o ≠ regKey pgRoles 0x2010

namespace SameSessions

section
variable {base s : State}

theorem refl (s : State) : SameSessions s s := ⟨rfl, rfl, rfl, rfl⟩

variable (h : SameSessions base s)
include h

theorem trans {t : State} (k : SameSessions s t) : SameSessions base t :=
  ⟨k.i3c.trans h.i3c, k.mgmt.trans h.mgmt, k.dbgSession.trans h.dbgSession, k.dbgRights.trans h.dbgRights⟩

theorem setReg (hs : Store.wf regReset s.regs = true) {p o : Nat} (v : Word) (free : Sessionless p o) : SameSessions base (s.setReg p o v) :=
  ⟨(State.reg_setReg_other s v hs free.1.symm).trans h.i3c, (State.reg_setReg_other s v hs free.2.symm).trans h.mgmt,
    (congrArg HostSt.dbgSession (State.setReg_host s p o v)).trans h.dbgSession,
    (congrArg HostSt.dbgRights (State.setReg_host s p o v)).trans h.dbgRights⟩

theorem sessionOf (a : Agent) : s.sessionOf a = base.sessionOf a := by
  cases a with
  | i3c => exact congrArg (fun w => fld w 15 0) h.i3c
  | mgmt => exact congrArg (fun w => fld w 15 0) h.mgmt
  | debug => exact congrArg BitVec.toNat h.dbgSession
  | core k | app k | bellows => rfl

theorem sessionRights (a : Agent) : s.sessionRights a = base.sessionRights a := by
  cases a with
  | i3c => exact congrArg (fun w => fld w 18 16) h.i3c
  | mgmt => exact congrArg (fun w => fld w 18 16) h.mgmt
  | debug => exact congrArg BitVec.toNat h.dbgRights
  | core k | app k | bellows => rfl

end
end SameSessions

/-- Of the state `base`, the state `s` has the words of ROLES, the login state of the agents and the persistent store. -/
structure SameLogin (base s : State) : Prop where
  words : ∀ o, o < 0x10000 → s.reg pgRoles o = base.reg pgRoles o
  nvm : s.nvm = base.nvm
  challenges : s.host.challenges = base.host.challenges
  lockedOut : s.host.lockedOut = base.host.lockedOut
  dbgSession : s.host.dbgSession = base.host.dbgSession
  dbgRights : s.host.dbgRights = base.host.dbgRights

namespace SameLogin

section
variable {base s : State}

theorem refl (s : State) : SameLogin s s := ⟨fun _ _ => rfl, rfl, rfl, rfl, rfl, rfl⟩

theorem trans {r : State} (h : SameLogin r base) (k : SameLogin base s) : SameLogin r s :=
  ⟨fun o ho => (k.words o ho).trans (h.words o ho), k.nvm.trans h.nvm, k.challenges.trans h.challenges, k.lockedOut.trans h.lockedOut,
    k.dbgSession.trans h.dbgSession, k.dbgRights.trans h.dbgRights⟩

variable (h : SameLogin base s)
include h

/-- A counter of another page counts. -/
theorem incReg (hs : Store.wf regReset s.regs = true) {p o : Nat} (hp : p ≠ pgRoles) (ho : o < 0x10000) : SameLogin base (s.incReg p o) where
  words q hq := (State.reg_setReg_other s _ hs fun e => hp (regKey_inj hq ho e).1.symm).trans (h.words q hq)
  nvm := (State.incReg_nvm s p o).trans h.nvm
  challenges := (congrArg _ (State.incReg_host s p o)).trans h.challenges
  lockedOut := (congrArg _ (State.incReg_host s p o)).trans h.lockedOut
  dbgSession := (congrArg _ (State.incReg_host s p o)).trans h.dbgSession
  dbgRights := (congrArg _ (State.incReg_host s p o)).trans h.dbgRights

theorem safe : s.safe pgRoles = base.safe pgRoles := by rw [State.safe, State.safe, State.blk, State.blk, State.regFld, State.regFld, h.words _ (by decide)]

theorem keyBlank (role : Nat) : s.keyBlank role = base.keyBlank role := by rw [State.keyBlank, State.keyBlank, h.words _ (by decide)]

theorem roleKey (role : Nat) : s.roleKey role = base.roleKey role := by rw [State.roleKey, State.roleKey, h.nvm]

theorem sessions : SameSessions base s := ⟨h.words _ (by decide), h.words _ (by decide), h.dbgSession, h.dbgRights⟩

end
end SameLogin

section
variable {s v : State} {i : Instr} {op : Nat} {rq : Request} {env : CmdEnv} {st : Status} {l : List Word}

theorem State.sameLogin_arrived (hs : Store.wf regReset s.regs = true) (a : Agent) : SameLogin s (s.arrived a) := by
  cases a with
  | i3c =>
    have acked : SameLogin s { s with host := { s.host with reply := .ack } } := ⟨fun _ _ => rfl, rfl, rfl, rfl, rfl, rfl⟩
    exact acked.incReg hs (by decide) (by decide)
  | mgmt => exact (SameLogin.refl s).incReg hs (by decide) (by decide)
  | core k | app k | debug | bellows => exact .refl s

theorem State.sameLogin_sendOn (hs : Store.wf regReset s.regs = true) (route : Route) (r : Response) : SameLogin s (s.sendOn route r) := by
  cases route with
  | i3c =>
    unfold State.sendOn
    dsimp only
    split
    · exact ⟨fun _ _ => rfl, rfl, rfl, rfl, rfl, rfl⟩
    · exact ⟨fun _ _ => rfl, rfl, rfl, rfl, rfl, rfl⟩
  | mgmt mac vlan =>
    unfold State.sendOn
    dsimp only
    split
    · exact .refl s
    · have queued : SameLogin s { s with host := { s.host with mgmtOut := s.host.mgmtOut ++ [s.mgmtFrame mac vlan r] } } :=
        ⟨fun _ _ => rfl, rfl, rfl, rfl, rfl, rfl⟩
      exact queued.incReg hs (by decide) (by decide)
  | debug => exact ⟨fun _ _ => rfl, rfl, rfl, rfl, rfl, rfl⟩
  | nowhere => exact .refl s

/-- An accepted command that is no access and no fence is answered, and its answer leaves the login state as the command left it. -/
theorem State.command_leaves (canonical : s.Canonical) (command : commandOf i = some (op, rq, env)) (takes : s.takes op rq)
    (op_fence : op ≠ opFENCE) (op_words : [opREAD, opWRITE, opMASKED].contains op = false)
    (run : (s.arrived rq.agent).runCmd rq.agent op ((s.arrived rq.agent).cmdRights rq.agent rq.session.toNat) rq.session.toNat (reqWords rq) env
      = Reply.work (st, l, v)) (served : Served s v) :
    Leads i s (fun t => Answers s t rq st l ∧ SameLogin v t) := by
  obtain ⟨t, leads, answers, -⟩ := State.command_replies canonical command takes op_fence op_words run served
  obtain ⟨listens, checked, flags, clear⟩ := takes
  have quiet : bit (rq.flags.setWidth 32) 1 = false := by rw [flags]; decide
  have done : s.command op rq env = (if st = .busy then v.incReg pgHostif 0x2014 else v).sendOn (agentRoute rq.agent) ⟨rq.tag, st, l⟩ := by
    rw [State.command_checked canonical.regs listens checked, if_neg (by rw [flags, clear]; simp), State.execute, run]
    exact State.finish_work op_fence op_words _ _ _ quiet v st l
  refine ⟨t, leads, answers, ?_⟩
  obtain rfl : s.command op rq env = t := Host.Outcome.next.inj ((exec_command command s).symm.trans leads)
  rw [done]
  split
  · exact ((SameLogin.refl v).incReg served.regs (by decide) (by decide)).trans (State.sameLogin_sendOn served.incReg.regs _ _)
  · exact State.sameLogin_sendOn served.regs _ _

end
end Sys2Proof.Machine

namespace Sys2Proof.Machine

/-! ## Login and sessions (R103-R106) -/

section
variable {s : State} {a b : Agent}

theorem State.audit_regs (s : State) (r : AuditRec) : (s.audit r).regs = s.regs := by
  unfold State.audit
  split <;> rfl

theorem State.audit_host (s : State) (r : AuditRec) : (s.audit r).host = s.host := by
  unfold State.audit
  split <;> rfl

theorem State.sameSessions_audit (s : State) (r : AuditRec) : SameSessions s (s.audit r) :=
  ⟨State.reg_congr (s.audit_regs r) _ _, State.reg_congr (s.audit_regs r) _ _, congrArg HostSt.dbgSession (s.audit_host r),
    congrArg HostSt.dbgRights (s.audit_host r)⟩

theorem fld_sessionWord {n rights : Nat} (hn : n < 65536) (hr : rights < 8) :
    fld (word (n + rights * 0x10000)) 15 0 = n ∧ fld (word (n + rights * 0x10000)) 18 16 = rights := by
  simp only [fld, word, BitVec.toNat_ofNat]
  omega

/-- A session held reads back (R120, R444). -/
theorem State.setSession_self (hs : Store.wf regReset s.regs = true) (framed : a.framed = true) {n rights : Nat} (hn : n < 65536) (hr : rights < 8) :
    (s.setSession a n rights).sessionOf a = n ∧ (s.setSession a n rights).sessionRights a = rights := by
  have parts := fld_sessionWord hn hr
  cases a with
  | i3c | mgmt =>
    unfold State.setSession State.sessionOf State.sessionRights State.regFld
    dsimp only
    rwa [State.reg_setReg_self s _ _ _ hs]
  | debug => exact ⟨Nat.mod_eq_of_lt hn, Nat.mod_eq_of_lt hr⟩
  | core k | app k | bellows => exact absurd framed (by simp [Agent.framed])

theorem State.sessionRights_lt (s : State) (a : Agent) : s.sessionRights a < 8 := by
  cases a with
  | i3c | mgmt => exact fld_lt _ 18 16
  | debug => exact s.host.dbgRights.isLt
  | core k | app k | bellows => exact Nat.zero_lt_succ _

theorem State.sessionOf_lt (s : State) (a : Agent) : s.sessionOf a < 65536 := by
  cases a with
  | i3c | mgmt => exact fld_lt _ 15 0
  | debug => exact s.host.dbgSession.isLt
  | core k | app k | bellows => exact Nat.zero_lt_succ _

/-- The end of an agent's session (R105). -/
theorem State.sessionOf_endSession (hs : Store.wf regReset s.regs = true) (a : Agent) (cause : Nat) : (s.endSession a cause).sessionOf a = 0 := by
  unfold State.endSession
  dsimp only
  split
  case isTrue none => exact none
  case isFalse => exact ((State.sameSessions_audit _ _).sessionOf a).trans (State.sessionOf_setSession hs a)

/-- A failed login is counted; it leaves the challenges and the sessions (R106). -/
structure LoginFailed (s t : State) : Prop where
  counted : t.reg pgRoles 0x2014 = s.reg pgRoles 0x2014 + 1
  challenges : t.host.challenges = s.host.challenges
  sessions : SameSessions s t

theorem State.loginFail_failed (hs : Store.wf regReset s.regs = true) (a : Agent) (role cause : Nat) : LoginFailed s (s.loginFail a role cause) := by
  unfold State.loginFail
  extract_lets n _ noted raised recorded
  have countedRegs : Store.wf regReset (noted.incReg pgRoles 0x2014).regs = true := Store.wf_put regReset _ _ _ hs
  have word : raised.reg pgRoles 0x2014 = s.reg pgRoles 0x2014 + 1 :=
    (State.reg_setReg_other _ _ countedRegs (by decide)).trans (State.reg_setReg_self _ _ _ _ hs)
  have notedSessions : SameSessions s noted := ⟨rfl, rfl, rfl, rfl⟩
  have raisedSessions : SameSessions s raised := (notedSessions.setReg hs _ (by decide)).setReg countedRegs _ (by decide)
  have sessions : SameSessions s recorded := raisedSessions.trans (State.sameSessions_audit _ _)
  have counted : recorded.reg pgRoles 0x2014 = s.reg pgRoles 0x2014 + 1 := (State.reg_congr (State.audit_regs _ _) _ _).trans word
  have challenges : recorded.host.challenges = s.host.challenges := (congrArg HostSt.challenges (State.audit_host raised _)).trans rfl
  split
  · exact ⟨counted, challenges, sessions⟩
  · exact ⟨counted, challenges, sessions.i3c, sessions.mgmt, sessions.dbgSession, sessions.dbgRights⟩

theorem Served.loginFail {base : State} (h : Served base s) {a : Agent} {role cause : Nat} : Served base (s.loginFail a role cause) := by
  unfold State.loginFail
  extract_lets n _ noted raised recorded
  have noted : Served base noted := h.withHost
  have recorded : Served base recorded := noted.incReg.raise.audit
  exact .ite recorded recorded.withHost

theorem Served.endSession {base : State} (h : Served base s) {a : Agent} {cause : Nat} : Served base (s.endSession a cause) := .ite h h.setSession.audit

/-! ### LOGIN_CHALLENGE (R103) -/

/-- A challenge refused for a lockout or for a role without a key. -/
theorem loginChallenge_refused {ws : List Word}
    (refused : s.lockedOut a = true ∨ (s.safe pgRoles = false ∧ s.keyBlank (fld (ws.getD 0 0) 1 0) = true)) :
    ∃ cause, loginChallenge a ws s = (.denied, [], s.loginFail a (fld (ws.getD 0 0) 1 0) cause) := by
  unfold loginChallenge
  dsimp only
  by_cases locked : s.lockedOut a = true
  · exact ⟨5, if_pos locked⟩
  · obtain ⟨working, blank⟩ := refused.resolve_left locked
    rw [if_neg locked, working, if_neg (by decide), if_pos blank]
    exact ⟨4, rfl⟩

/-- A challenge issued: it is the agent's only one. -/
theorem loginChallenge_issued {ws : List Word} (open_ : s.lockedOut a = false) (working : s.safe pgRoles = false)
    (key : s.keyBlank (fld (ws.getD 0 0) 1 0) = false) :
    ∃ c : Challenge, c.role.toNat = fld (ws.getD 0 0) 1 0 ∧ loginChallenge a ws s = (.ok, word c.id.toNat :: toWords (beBytes 32 c.nonce.toNat),
      { s with freeCtr := s.freeCtr + 1, host := { s.host with challenges := Store.insert a.id c s.host.challenges } }) := by
  refine ⟨⟨Config.freeChallengeId s.freeCtr, Config.freeNonce s.freeCtr, BitVec.ofNat 2 (fld (ws.getD 0 0) 1 0)⟩, ?_, ?_⟩
  · exact Nat.mod_eq_of_lt (fld_lt _ 1 0)
  · unfold loginChallenge
    dsimp only
    rw [open_, if_neg (by decide), working, if_neg (by decide), key, if_neg (by decide)]
    rfl

/-! ### LOGIN_RESPONSE (R104, R105) -/

/-- The agent's challenge is consumed (R104). -/
def State.consumed (s : State) (a : Agent) : State := { s with host := { s.host with challenges := Store.erase a.id s.host.challenges } }

/-- A success also clears the agent's failures (R106), and takes a free value for the number of a session. -/
def State.admitted (s : State) (a : Agent) : State :=
  { s with freeCtr := s.freeCtr + 1, host := { (s.consumed a).host with fails := Store.erase a.id s.host.fails } }

theorem loginResponse_unasked {ws : List Word} (unasked : ∀ e ∈ s.host.challenges, e.1 ≠ a.id) :
    loginResponse a ws s = (.denied, [], (s.consumed a).loginFail a (fld (ws.getD 0 0) 17 16) 1) := by
  have none : s.host.challenges.find? (fun e => e.1 == a.id) = none := List.find?_eq_none.mpr fun e he => by simpa using unasked e he
  unfold loginResponse
  dsimp only
  rw [none]
  rfl

section
variable {ws : List Word} {c : Challenge} (working : s.safe pgRoles = false)
  (asked : s.host.challenges.find? (fun e => e.1 == a.id) = some (a.id, c))
  (id : c.id.toNat = fld (ws.getD 0 0) 15 0) (role : c.role.toNat = fld (ws.getD 0 0) 17 16)
include working asked id role

/-- A response that names the agent's challenge is judged by its code. -/
theorem loginResponse_judged :
    loginResponse a ws s = if (ws.drop 1).flatMap wordBytes ≠ hmac256 (s.roleKey c.role.toNat) (loginMessage c a) then
        (.denied, [], (s.consumed a).loginFail a c.role.toNat 3)
      else
        let n := if s.sessionOf a = 0 then orIfZero (Config.freeSession s.freeCtr).toNat 1 else s.sessionOf a
        let rights := (if s.sessionOf a = 0 then 0 else s.sessionRights a) ||| 2 ^ c.role.toNat
        let opened := (s.admitted a).setSession a n rights
        (.ok, [word (n + rights * 0x10000)], opened.audit (opened.auditRec a.id rights n 0x01 0 pgRoles 0 (word c.role.toNat) 0)) := by
  have still : (s.consumed a).safe pgRoles = false := working
  unfold loginResponse
  dsimp only
  rw [asked, ← id, ← role]
  dsimp only
  change (if (s.consumed a).safe pgRoles = true then _ else _) = _
  rw [still, if_neg (by decide), if_neg (by simp)]
  rfl

/-- A response with the right code: a session with the role's right, that which the agent had where it had one (R105). -/
theorem loginResponse_opens (hs : Store.wf regReset s.regs = true) (framed : a.framed = true) (real : c.role.toNat ≠ 3)
    (code : (ws.drop 1).flatMap wordBytes = hmac256 (s.roleKey c.role.toNat) (loginMessage c a)) :
    ∃ v : State, loginResponse a ws s = (.ok, [word (v.sessionOf a + v.sessionRights a * 0x10000)], v) ∧ Served s v ∧ v.sessionOf a ≠ 0
      ∧ v.sessionRights a = (if s.sessionOf a = 0 then 0 else s.sessionRights a) ||| 2 ^ c.role.toNat
      ∧ (s.sessionOf a ≠ 0 → v.sessionOf a = s.sessionOf a) := by
  have judged := loginResponse_judged working asked id role
  rw [if_neg (not_not_intro code)] at judged
  extract_lets n rights opened at judged
  have number : n ≠ 0 ∧ n < 65536 ∧ (s.sessionOf a ≠ 0 → n = s.sessionOf a) := by
    have old := s.sessionOf_lt a
    have free := (Config.freeSession s.freeCtr).isLt
    unfold n orIfZero
    split_ifs <;> omega
  have few : rights < 8 := by
    have held := s.sessionRights_lt a
    have small : c.role.toNat < 3 := by omega
    refine Nat.or_lt_two_pow (n := 3) ?_ (Nat.pow_lt_pow_right (by decide) small)
    split <;> omega
  obtain ⟨held, granted⟩ := State.setSession_self (s := s.admitted a) hs framed number.2.1 few
  have recorded := State.sameSessions_audit opened (opened.auditRec a.id rights n 0x01 0 pgRoles 0 (word c.role.toNat) 0)
  have session := (recorded.sessionOf a).trans held
  have rightsNow := (recorded.sessionRights a).trans granted
  obtain ⟨nonzero, -, kept⟩ := number
  refine ⟨_, ?_, ?_, ?_, rightsNow, fun open_ => session.trans (kept open_)⟩
  · rw [judged, session, rightsNow]
  · exact Served.audit (Served.setSession ((Served.refl hs).same (t := s.admitted a)))
  · rwa [session]

end

end

section
variable {s : State} {rq : Request} (canonical : s.Canonical)
include canonical

/-- A login that a command refuses and counts, once its arrival and what else it did before have left the sessions and the count (R106). -/
theorem State.leads_loginFail {i : Instr} {op : Nat} (command : commandOf i = some (op, rq, .none)) (takes : s.takes op rq)
    (login : op = opCHALLENGE ∨ op = opRESPONSE) {u : State} {role cause : Nat}
    (run : (s.arrived rq.agent).runCmd rq.agent op ((s.arrived rq.agent).cmdRights rq.agent rq.session.toNat) rq.session.toNat (reqWords rq) .none
      = Reply.work (.denied, [], u.loginFail rq.agent role cause))
    (served : Served s u) (count : u.reg pgRoles 0x2014 = s.reg pgRoles 0x2014) (sessions : SameSessions s u) :
    Leads i s (fun t => Answers s t rq .denied [] ∧ t.reg pgRoles 0x2014 = s.reg pgRoles 0x2014 + 1
      ∧ t.host.challenges = u.host.challenges ∧ t.sessionOf rq.agent = s.sessionOf rq.agent) := by
  have failed := State.loginFail_failed served.regs rq.agent role cause
  obtain ⟨t, leads, answers, left⟩ := State.command_leaves canonical command takes (by rcases login with rfl | rfl <;> decide)
    (by rcases login with rfl | rfl <;> decide) run served.loginFail
  refine ⟨t, leads, answers, ?_, left.challenges.trans failed.challenges, ((sessions.trans failed.sessions).trans left.sessions).sessionOf _⟩
  rw [left.words _ (by decide), failed.counted, count]

/-- A response that is refused and counted as the arrived command's challenge is consumed. -/
theorem State.leads_loginResponse_refused (takes : s.takes opRESPONSE rq) {role cause : Nat}
    (run : loginResponse rq.agent (reqWords rq) (s.arrived rq.agent) = (.denied, [], ((s.arrived rq.agent).consumed rq.agent).loginFail rq.agent role cause)) :
    Leads (.loginResponse rq) s (fun t => t.sessionOf rq.agent = s.sessionOf rq.agent ∧ Answers s t rq .denied []
      ∧ t.reg pgRoles 0x2014 = s.reg pgRoles 0x2014 + 1) := by
  have arrived := State.sameLogin_arrived canonical.regs rq.agent
  have sessions := arrived.sessions
  obtain ⟨t, leads, answers, count, -, session⟩ := State.leads_loginFail canonical (i := .loginResponse rq) rfl takes (.inr rfl)
    (congrArg Reply.work run) (State.served_arrived canonical.regs rq.agent).withHost (arrived.words _ (by decide))
    ⟨sessions.i3c, sessions.mgmt, sessions.dbgSession, sessions.dbgRights⟩
  exact ⟨t, leads, session, answers, count⟩

theorem State.leads_loginChallenge_issued (takes : s.takes opCHALLENGE rq) (open_ : s.lockedOut rq.agent = false) (working : s.safe pgRoles = false)
    (key : s.keyBlank (fld ((reqWords rq).getD 0 0) 1 0) = false) :
    Leads (.loginChallenge rq) s (fun t => ∃ c : Challenge, t.host.challenges.find? (fun e => e.1 == rq.agent.id) = some (rq.agent.id, c)
      ∧ c.role.toNat = fld ((reqWords rq).getD 0 0) 1 0 ∧ Answers s t rq .ok (word c.id.toNat :: toWords (beBytes 32 c.nonce.toNat))) := by
  have arrived := State.sameLogin_arrived canonical.regs rq.agent
  obtain ⟨c, role, run⟩ := loginChallenge_issued (s := s.arrived rq.agent) (a := rq.agent) (ws := reqWords rq)
    (by rwa [State.lockedOut, arrived.lockedOut]) (by rwa [arrived.safe]) (by rwa [arrived.keyBlank])
  obtain ⟨t, leads, answers, login⟩ := State.command_leaves (i := .loginChallenge rq) (env := .none) canonical rfl takes (by decide) (by decide)
    (congrArg Reply.work run) (State.served_arrived canonical.regs rq.agent).same
  refine ⟨t, leads, c, ?_, role, answers⟩
  rw [login.challenges]
  exact Store.find?_insert_self _ _

theorem State.leads_loginChallenge_refused (takes : s.takes opCHALLENGE rq)
    (refused : s.lockedOut rq.agent = true ∨ (s.safe pgRoles = false ∧ s.keyBlank (fld ((reqWords rq).getD 0 0) 1 0) = true)) :
    Leads (.loginChallenge rq) s (fun t => Answers s t rq .denied [] ∧ t.reg pgRoles 0x2014 = s.reg pgRoles 0x2014 + 1
      ∧ t.host.challenges = s.host.challenges) := by
  have arrived := State.sameLogin_arrived canonical.regs rq.agent
  obtain ⟨cause, run⟩ := loginChallenge_refused (s := s.arrived rq.agent) (a := rq.agent) (ws := reqWords rq)
    (by rwa [State.lockedOut, arrived.lockedOut, arrived.safe, arrived.keyBlank])
  obtain ⟨t, leads, answers, count, challenges, -⟩ := State.leads_loginFail canonical (i := .loginChallenge rq) rfl takes (.inl rfl)
    (congrArg Reply.work run) (State.served_arrived canonical.regs rq.agent) (arrived.words _ (by decide)) arrived.sessions
  exact ⟨t, leads, answers, count, challenges.trans arrived.challenges⟩

section
variable {c : Challenge} (takes : s.takes opRESPONSE rq) (working : s.safe pgRoles = false)
  (asked : s.host.challenges.find? (fun e => e.1 == rq.agent.id) = some (rq.agent.id, c))
  (id : c.id.toNat = fld ((reqWords rq).getD 0 0) 15 0) (role : c.role.toNat = fld ((reqWords rq).getD 0 0) 17 16)
include takes working asked id role

theorem State.leads_loginResponse_right (real : c.role.toNat ≠ 3)
    (code : ((reqWords rq).drop 1).flatMap wordBytes = hmac256 (s.roleKey c.role.toNat) (loginMessage c rq.agent)) :
    Leads (.loginResponse rq) s (fun t => t.sessionOf rq.agent ≠ 0
      ∧ t.sessionRights rq.agent = (if s.sessionOf rq.agent = 0 then 0 else s.sessionRights rq.agent) ||| 2 ^ c.role.toNat
      ∧ (s.sessionOf rq.agent ≠ 0 → t.sessionOf rq.agent = s.sessionOf rq.agent)
      ∧ Answers s t rq .ok [word (t.sessionOf rq.agent + t.sessionRights rq.agent * 0x10000)]) := by
  have arrived := State.sameLogin_arrived canonical.regs rq.agent
  have served := State.served_arrived canonical.regs rq.agent
  obtain ⟨-, framed, -⟩ := takes.1
  rw [← arrived.roleKey] at code
  rw [← arrived.sessions.sessionOf, ← arrived.sessions.sessionRights]
  obtain ⟨v, run, opened, nonzero, rights, kept⟩ := loginResponse_opens (s := s.arrived rq.agent) (by rwa [arrived.safe])
    (by rwa [arrived.challenges]) id role served.regs framed real code
  obtain ⟨t, leads, answers, login⟩ := State.command_leaves (i := .loginResponse rq) (env := .none) canonical rfl takes (by decide) (by decide)
    (congrArg Reply.work run) (served.trans opened)
  rw [← login.sessions.sessionOf] at answers nonzero kept
  rw [← login.sessions.sessionRights] at answers rights
  exact ⟨t, leads, nonzero, rights, kept, answers⟩

theorem State.leads_loginResponse_wrong
    (code : ((reqWords rq).drop 1).flatMap wordBytes ≠ hmac256 (s.roleKey c.role.toNat) (loginMessage c rq.agent)) :
    Leads (.loginResponse rq) s (fun t => t.sessionOf rq.agent = s.sessionOf rq.agent ∧ Answers s t rq .denied []
      ∧ t.reg pgRoles 0x2014 = s.reg pgRoles 0x2014 + 1) := by
  have arrived := State.sameLogin_arrived canonical.regs rq.agent
  rw [← arrived.roleKey] at code
  have judged := loginResponse_judged (s := s.arrived rq.agent) (by rwa [arrived.safe]) (by rwa [arrived.challenges]) id role
  exact State.leads_loginResponse_refused canonical takes (judged.trans (if_pos code))

end

theorem State.leads_loginResponse_unasked (takes : s.takes opRESPONSE rq) (unasked : ∀ e ∈ s.host.challenges, e.1 ≠ rq.agent.id) :
    Leads (.loginResponse rq) s (fun t => t.sessionOf rq.agent = s.sessionOf rq.agent ∧ Answers s t rq .denied []
      ∧ t.reg pgRoles 0x2014 = s.reg pgRoles 0x2014 + 1) := by
  have arrived := State.sameLogin_arrived canonical.regs rq.agent
  rw [← arrived.challenges] at unasked
  exact State.leads_loginResponse_refused canonical takes (loginResponse_unasked unasked)

theorem State.leads_logout (takes : s.takes opLOGOUT rq) (named : rq.session ≠ 0) :
    Leads (.logout rq) s (fun t => t.sessionOf rq.agent = 0 ∧ Answers s t rq .ok []) := by
  have served := State.served_arrived canonical.regs rq.agent
  have number : rq.session.toNat ≠ 0 := fun e => named (BitVec.eq_of_toNat_eq e)
  have run : logoutCmd rq.agent rq.session.toNat (s.arrived rq.agent) = (.ok, [], (s.arrived rq.agent).endSession rq.agent 1) := if_neg number
  obtain ⟨t, leads, answers, login⟩ := State.command_leaves (i := .logout rq) (env := .none) canonical rfl takes (by decide) (by decide)
    (congrArg Reply.work run) served.endSession
  exact ⟨t, leads, (login.sessions.sessionOf _).trans (State.sessionOf_endSession served.regs _ _), answers⟩

end

/-- The end of a session touches no failure count (R106). -/
theorem State.endSession_fails (s : State) (a : Agent) (cause : Nat) : (s.endSession a cause).host.fails = s.host.fails := by
  have held : (s.setSession a 0 0).host.fails = s.host.fails := by cases a <;> rfl
  unfold State.endSession
  dsimp only
  split
  · rfl
  · exact (congrArg HostSt.fails (State.audit_host _ _)).trans held

theorem exec_sessionIdleExpire {s : State} (clocked : s.stands = false) (h : HostAgent) :
    exec (.sessionIdleExpire h) s = .next (if s.cfgFld pgRoles 0x100 15 0 = 0 then s else s.endSession h.agent 3) :=
  if_neg (by simp [clocked])

/-- Settles O23: each command by the branch of its meaning that its hypotheses pick, and each clock's event by its own. -/
theorem loginSessions : Obligations.LoginSessions := by
  refine ⟨fun s rq canonical => ?_, fun s h canonical clocked => ?_⟩
  · exact ⟨State.leads_loginChallenge_issued canonical, State.leads_loginChallenge_refused canonical,
      fun c takes working asked id role real => ⟨State.leads_loginResponse_right canonical takes working asked id role real,
        State.leads_loginResponse_wrong canonical takes working asked id role⟩,
      State.leads_loginResponse_unasked canonical, State.leads_logout canonical⟩
  · have idle := exec_sessionIdleExpire clocked h
    refine ⟨⟨_, if_neg (by simp [clocked]), rfl⟩, fun limited => ?_, fun unlimited => ?_, ⟨_, if_neg (by simp [clocked]), rfl⟩⟩
    · rw [if_neg limited] at idle
      exact ⟨_, idle, State.sessionOf_endSession canonical.regs _ _, State.endSession_fails _ _ _⟩
    · rw [if_pos unlimited] at idle
      exact ⟨s, idle, rfl⟩

end Sys2Proof.Machine

namespace Sys2Proof.Machine

/-! ## The audit log (R111-R114) -/

section
variable {s t : State}

/-- The words of the records held in the `n` places of the ring that follow `first` (R114). -/
def State.recordWords (s : State) (first : Word) (n : Nat) : List Word :=
  ((List.range n).filterMap (fun i => (s.nvm.ring.find? (fun e => e.1 == (first.toNat + i) % 4096)).map (fun e => e.2.words))).flatten

theorem flatten_length_of_length {α : Type} {l : List (List α)} {n k : Nat} (each : ∀ x ∈ l, x.length = n) (few : l.length ≤ k) :
    l.flatten.length ≤ n * k ∧ l.flatten.length % n = 0 := by
  have total : l.flatten.length = n * l.length := by
    rw [List.length_flatten, List.map_congr_left each, List.map_const', List.sum_replicate, smul_eq_mul, Nat.mul_comm]
  rw [total]
  exact ⟨Nat.mul_le_mul_left n few, Nat.mul_mod_right n _⟩

/-- Records are answered whole, and no more of them than places are looked at. -/
theorem State.recordWords_length (s : State) (first : Word) (n : Nat) :
    (s.recordWords first n).length ≤ 8 * n ∧ (s.recordWords first n).length % 8 = 0 := by
  refine flatten_length_of_length (fun x found => ?_) ((List.length_filterMap_le _ _).trans (List.length_range).le)
  obtain ⟨i, -, record⟩ := List.mem_filterMap.mp found
  obtain ⟨e, -, rfl⟩ := Option.map_eq_some_iff.mp record
  rfl

theorem logReadCmd_denied {rights : Nat} (shut : rights &&& 6 = 0) (ws : List Word) (s : State) : logReadCmd rights ws s = (.denied, [], s.deny) :=
  if_pos shut

theorem logReadCmd_badLength {rights : Nat} {ws : List Word} (open_ : rights &&& 6 ≠ 0)
    (bad : fld (ws.getD 1 0) 5 0 = 0 ∨ 32 < fld (ws.getD 1 0) 5 0) (s : State) : logReadCmd rights ws s = (.badLength, [], s) :=
  (if_neg open_).trans (if_pos bad)

/-- A LOG_READ that is served answers the records of at most COUNT places. -/
theorem logReadCmd_served {rights : Nat} {ws : List Word} (open_ : rights &&& 6 ≠ 0) (positive : 0 < fld (ws.getD 1 0) 5 0)
    (few : fld (ws.getD 1 0) 5 0 ≤ 32) (s : State) :
    ∃ first : Word, ∃ n, n ≤ fld (ws.getD 1 0) 5 0 ∧ logReadCmd rights ws s = (.ok, s.recordWords first n, s) := by
  have asked : ¬ (fld (ws.getD 1 0) 5 0 = 0 ∨ fld (ws.getD 1 0) 5 0 > 32) := by omega
  have most (c : Prop) [Decidable c] (count held : Nat) : (if c then min count held else 0) ≤ count := by
    split
    · exact Nat.min_le_left _ _
    · exact Nat.zero_le _
  exact ⟨_, _, most _ _ _, (if_neg open_).trans (if_neg asked)⟩

/-- A register of a named page takes any value. -/
theorem RegsBut.setReg {l : List Nat} (h : RegsBut l s t) (ht : Store.wf regReset t.regs = true) {p o : Nat} (v : Word) (hp : p ∈ l) (ho : o < 0x10000) :
    RegsBut l s (t.setReg p o v) := fun q u hq hu away =>
  (State.reg_setReg_other t v ht fun e => away (by rwa [(regKey_inj hu ho e).1])).trans (h q u hq hu away)

/-- A record in the next place of the ring under the next SEQ (R111, R119). -/
def State.ringed (s : State) (r : AuditRec) : State :=
  { s with nvm := { s.nvm with
    ring := Store.insert ((s.reg pgRoles 0x201C).toNat % 4096) { r with seq := s.reg pgRoles 0x201C } s.nvm.ring
    wear := Store.upd 0 8 (· + 1) s.nvm.wear } }

/-- A record is stored: AUDIT_NEXT counts it, and no other page than ROLES and PSTORE, where AUDIT_OLDEST and the wear are shown, changes. -/
theorem State.storeAudit_spec (hs : Store.wf regReset s.regs = true) (r : AuditRec) :
    (s.storeAudit r).reg pgRoles 0x201C = s.reg pgRoles 0x201C + 1 ∧ RegsBut [pgRoles, pgPstore] s (s.storeAudit r)
      ∧ (s.storeAudit r).nvm = (s.ringed r).nvm := by
  unfold State.storeAudit
  extract_lets next rec _ ringed counted aged writes worn
  have countedRegs : Store.wf regReset counted.regs = true := Store.wf_put regReset _ _ _ hs
  have countedNext : counted.reg pgRoles 0x201C = next + 1 := State.reg_setReg_self _ _ _ _ hs
  have countedBut : RegsBut [pgRoles, pgPstore] s counted := RegsBut.setReg (t := ringed) (fun _ _ _ _ _ => rfl) hs _ (by decide) (by decide)
  have agedSpec : Store.wf regReset aged.regs = true ∧ aged.reg pgRoles 0x201C = next + 1 ∧ RegsBut [pgRoles, pgPstore] s aged
      ∧ aged.nvm = ringed.nvm := by
    unfold aged
    split
    · exact ⟨Store.wf_put regReset _ _ _ countedRegs, (State.reg_setReg_other _ _ countedRegs (by decide)).trans countedNext,
        countedBut.setReg countedRegs _ (by decide) (by decide), rfl⟩
    · exact ⟨countedRegs, countedNext, countedBut, rfl⟩
  obtain ⟨agedRegs, agedNext, agedBut, agedNvm⟩ := agedSpec
  have wornRegs : Store.wf regReset worn.regs = true := Store.wf_put regReset _ _ _ agedRegs
  have wornNext : worn.reg pgRoles 0x201C = next + 1 := (State.reg_setReg_other _ _ agedRegs (by decide)).trans agedNext
  have wornBut : RegsBut [pgRoles, pgPstore] s worn := agedBut.setReg agedRegs _ (by decide) (by decide)
  have wornNvm : worn.nvm = ringed.nvm := (State.setReg_nvm _ _ _ _).trans agedNvm
  split
  · exact ⟨(State.reg_setReg_other _ _ wornRegs (by decide)).trans wornNext, wornBut.setReg wornRegs _ (by decide) (by decide), wornNvm⟩
  · exact ⟨wornNext, wornBut, wornNvm⟩

end

theorem exec_auditRecordWrite {s : State} {r : AuditRec} {rest : List AuditRec} (clocked : s.stands = false) (working : s.safe pgPstore = false)
    (pending : s.nvm.auditPend = r :: rest) :
    exec .auditRecordWrite s = .next ({ s with nvm := { s.nvm with auditPend := rest } }.storeAudit r).auditOverrun := by
  change execAuditRecordWrite s = _
  rw [execAuditRecordWrite, clocked, working, pending]
  rfl

theorem State.auditOverrun_of_none_lost {s : State} (h : s.nvm.auditLost = 0) : s.auditOverrun = s := if_pos h

/-- Settles O25: the oldest record goes through `State.storeAudit`; LOG_READ is answered as `logReadCmd` says. -/
theorem auditLog : Obligations.AuditLog := by
  intro s canonical
  refine ⟨fun r rest clocked working pending lost => ?_, fun rq takes => ?_⟩
  · obtain ⟨next, but, nvm⟩ := State.storeAudit_spec (s := { s with nvm := { s.nvm with auditPend := rest } }) canonical.regs r
    have run := exec_auditRecordWrite clocked working pending
    rw [State.auditOverrun_of_none_lost ((congrArg NvmSt.auditLost nvm).trans lost)] at run
    refine ⟨_, run, next, ?_, ?_, but⟩
    · rw [nvm]
      rfl
    · rw [nvm]
      exact Store.find?_insert_self _ _
  · intro n rights
    have served := State.served_arrived canonical.regs rq.agent
    have replies {st : Status} {l : List Word} {v : State}
        (run : logReadCmd rights (reqWords rq) (s.arrived rq.agent) = (st, l, v)) (served : Served s v) :
        Leads (.logRead rq) s (fun t => Answers s t rq st l) := by
      obtain ⟨t, leads, answers, -⟩ :=
        State.command_replies (i := .logRead rq) (env := .none) canonical rfl takes (by decide) (by decide) (congrArg Reply.work run) served
      exact ⟨t, leads, answers⟩
    refine ⟨fun shut => replies (logReadCmd_denied shut _ _) served.deny, fun open_ bad => replies (logReadCmd_badLength open_ bad _) served,
      fun open_ positive few => ?_⟩
    obtain ⟨first, k, most, run⟩ := logReadCmd_served open_ positive few (s.arrived rq.agent)
    obtain ⟨t, leads, answers⟩ := replies run served
    obtain ⟨bound, whole⟩ := (s.arrived rq.agent).recordWords_length first k
    exact ⟨t, leads, _, bound.trans (Nat.mul_le_mul_left 8 most), whole, answers⟩

end Sys2Proof.Machine

namespace Sys2Proof.Machine

/-! ## Changes of the role keys (R107-R109)

### What the record of an access cannot change

`Unrecorded R`: what `R` says of a state rests on nothing that the record of an access changes: counters and events of PMU and PAIR, held reads,
samples, relays, journal records, audit records. Such an `R` holds on after each record. -/

structure Unrecorded (R : State → Prop) : Prop where
  counted : ∀ {s : State} {p o : Nat} {v : Word}, p ∈ [pgPmu, pgPair] → o < 0x10000 → R s → R (s.setReg p o v)
  held : ∀ {s : State} {win readLatch : List (Nat × Word)} {lastLow : List (Nat × Nat)} {freeCtr : Nat} {stat : StatSt} {sprue : SprueSt} {pair : PairSt},
    R s → R { s with win := win, readLatch := readLatch, lastLow := lastLow, freeCtr := freeCtr, stat := stat, sprue := sprue, pair := pair }
  audited : ∀ {s : State} {ring : List (Nat × AuditRec)} {pending : List AuditRec} {lost : Nat} {run : Option (Nat × Nat × Nat)},
    R s → R { s with nvm := { s.nvm with ring := ring, auditPend := pending, auditLost := lost, storeRun := run } }

namespace Unrecorded

theorem ite {R : State → Prop} {c : Prop} [Decidable c] {s t : State} (hs : R s) (ht : R t) : R (if c then s else t) := by
  split
  · exact hs
  · exact ht

theorem ite_snd {α : Type} {R : State → Prop} {c : Prop} [Decidable c] {x y : α × State} (hx : R x.2) (hy : R y.2) : R (if c then x else y).2 := by
  split
  · exact hx
  · exact hy

section
variable {R : State → Prop} (U : Unrecorded R) {s : State} (h : R s)
include U h

/-! #### The performance monitor (R424, R425, R429) -/

theorem raise {p b : Nat} (hp : p ∈ [pgPmu, pgPair] := by decide) : R (s.raise p b) := U.counted hp (by decide) h

theorem orReg {p o : Nat} {m : Word} (hp : p ∈ [pgPmu, pgPair] := by decide) (ho : o < 0x10000 := by omega) : R (s.orReg p o m) :=
  U.counted hp ho h

theorem incReg {p o : Nat} (hp : p ∈ [pgPmu, pgPair] := by decide) (ho : o < 0x10000 := by omega) : R (s.incReg p o) :=
  U.counted hp ho h

theorem pmuInc {n : Nat} (hn : n < 256) : R (s.pmuInc n) := by
  have low : pmuVal n < 0x10000 := by unfold pmuVal; omega
  have high : pmuVal n + 4 < 0x10000 := by unfold pmuVal; omega
  unfold State.pmuInc
  extract_lets _ _ _ counted stored flagged keys carried
  have stored : R stored := U.counted (by decide) high (U.counted (by decide) low h)
  have carried : R carried := U.held (U.orReg stored (ho := high))
  exact ite stored (ite (U.raise carried) carried)

theorem pmuTake {n : Nat} (hn : n < 256) : R (s.pmuTake n).2 := by
  unfold State.pmuTake
  extract_lets counted period left
  have counted : R counted := U.pmuInc h hn
  exact ite_snd counted (ite_snd (U.held counted) (U.held counted))

omit U in
/-- As `Tended.takesEvent`, and for its reason stated for any `take`. -/
theorem takesEvent (take : State → Nat → Bool × State) (ht : ∀ {s} n, n < 256 → R s → R (take s n).2) (l : List Nat)
    (hl : ∀ n ∈ l, n < 256) :
    R (l.foldl (fun (r : List Nat × State) n =>
      let (hit, s) := take r.2 n
      (if hit then r.1 ++ [n] else r.1, s)) ([], s)).2 :=
  List.foldlRecOn (motive := fun r : List Nat × State => R r.2) l _ h fun _ hr n found => ht n (hl n found) hr

theorem pmuEvent {e : PmuEvent} : R (s.pmuEvent e).2 := by
  unfold State.pmuEvent
  split
  · exact h
  · exact takesEvent h State.pmuTake (fun _ hn h => U.pmuTake h hn) _ fun n found => List.mem_range.mp (List.mem_filter.mp found).1

theorem sample {r : List Byte} : R (s.sample r) := ite h (ite (U.raise (U.incReg (U.held h))) (U.held h))

theorem accessEvent {code : Nat} {a : Agent} {space : Option (Nat × Nat)} {load : Nat} : R (s.accessEvent code a space load) := by
  unfold State.accessEvent
  extract_lets mode
  have event : R (s.pmuEvent ⟨code, mode, [agentMaster a], space, none⟩).2 := U.pmuEvent h
  generalize s.pmuEvent ⟨code, mode, [agentMaster a], space, none⟩ = x at event ⊢
  obtain ⟨ns, t⟩ := x
  cases a with
  | core k | app k => exact List.foldlRecOn (motive := R) ns _ event fun _ hu _ _ => U.sample (U.held (U.held hu))
  | i3c | mgmt | debug | bellows => exact event

theorem noteAccess {w : Who} {addr load : Nat} : R (s.noteAccess w addr load) := ite h (U.accessEvent h)

theorem retired {a : Agent} : R (s.retired a none) := ite h (U.accessEvent h)

/-! #### Journal, relays, audit records (R112, R389, R402) -/

theorem journalWrite {p o : Nat} {mask data : Word} : R (s.journalWrite p o mask data) := by
  have put {kind items : Nat} {body : List Word} : R (s.journalPut kind items body) := ite h (ite (U.orReg (U.held h)) (U.held h))
  exact ite (ite put h) h

theorem sendRelay {r : Relay} : R (s.sendRelay r) := by
  unfold State.sendRelay State.sendRelayCell State.sendControl
  split
  · exact h
  · exact U.held h

theorem putRelay {r : Relay} : R (s.putRelay r) :=
  List.foldlRecOn (motive := R) _ _ (U.held (U.held h)) fun _ hu _ _ => U.incReg (U.sendRelay hu)

theorem relayWords {agent : Nat} {mirror read fixed : Bool} {addr : Nat} {mask : Option Word} {data : List Word} :
    R (s.relayWords agent mirror read fixed addr mask data) :=
  List.foldlRecOn (motive := fun x : State × Nat => R x.1) _ _ h fun _ hx _ _ => U.putRelay hx

theorem mirrorWrite {agent addr : Nat} {mask data : Word} : R (s.mirrorWrite agent addr mask data) := by
  unfold State.mirrorWrite
  split
  · exact h
  · split
    · exact h
    · exact ite h (ite (U.relayWords h) (U.relayWords h))

theorem audit {r : AuditRec} : R (s.audit r) := ite (U.audited h) (U.audited h)

theorem auditWrite {a : Agent} {st : Status} {addr : Nat} {data : Word} {n : Nat} {hit : Bool} : R (s.auditWrite a st addr data n hit) := by
  unfold State.auditWrite
  cases a with
  | core k | bellows => exact h
  | i3c | mgmt | debug | app k => exact ite h (ite (U.audit h) (ite (U.audit h) h))

theorem countStore : R s.countStore := by
  unfold State.countStore
  extract_lets +onlyGivenNames more
  split
  · exact U.audited h
  · exact U.audited h

theorem auditStore {a : Agent} {st : Status} {addr : Nat} {data : Word} : R (s.auditStore a st addr data) := by
  unfold State.auditStore
  extract_lets +onlyGivenNames p own
  split
  · exact U.auditWrite h
  · extract_lets +onlyGivenNames joined room t
    have ht : R t := ite (U.countStore h) (U.auditWrite h)
    exact U.audited ht

theorem storeRecords {u : State} {a : Agent} {p o : Nat} {data : Word} : R (s.storeRecords u a p o data) :=
  U.mirrorWrite (U.auditStore (U.noteAccess (U.journalWrite h)))

end

theorem tended (v : State) : Unrecorded (Tended v) where
  counted hp ho h := h.setReg hp ho
  held h := h.same
  audited h := h.withNvm

/-- A key change in progress is nothing that a record changes. -/
theorem keyJob (job : Option (Agent × Nat × BitVec 2)) : Unrecorded (fun s => s.nvm.keyJob = job) where
  counted _ _ h := (congrArg NvmSt.keyJob (State.setReg_nvm _ _ _ _)).trans h
  held h := h
  audited h := h

end Unrecorded

/-! ### A store of a word of a page that is closed to applications -/

section
variable {p o : Nat} {r : PageRow} (hw : PageWord p o r) {s t v : State} {a : Agent} {data : Word} {st : Status}
include hw

/-- A write that is refused leaves no journal record. -/
theorem State.writeAt_refused (wrote : s.wordWrite a r p o data = (st, v)) (refused : st ≠ .ok)
    (rights : s.mayWrite (s.agentRights a p) p o 0xFFFFFFFF#32 data = true) : s.writeAt (s.ownWho a p) r p o 0xFFFFFFFF#32 data = (st, v) := by
  have high := hw.high
  have latched : (p == pgPmu && decide (0x2100 ≤ o) && decide (o < 0x2900)) = false := by simp [show ¬ 0x2100 ≤ o by omega]
  have direct : isStoreWin p o = false := by simp [isStoreWin, show ¬ 0x8000 ≤ o by omega]
  have own : (s.ownWho a p).rights = s.agentRights a p := rfl
  have agent : (s.ownWho a p).agent = a := rfl
  unfold State.wordWrite at wrote
  unfold State.writeAt
  simp only [latched, direct, own, agent, rights, Bool.not_true, Bool.and_false, Bool.false_eq_true, if_false, wrote]
  exact if_neg fun accepted => refused accepted.1

/-- The body of `State.writeBus` is unfolded through a variable, as in `State.writeBus_wrote`. -/
theorem State.storeWord_refused (wrote : s.wordWrite a r p o data = (st, v)) (refused : st ≠ .ok)
    (rights : s.mayWrite (s.agentRights a p) p o 0xFFFFFFFF#32 data = true) :
    s.storeWord a (regAddr p o) 0xFFFFFFFF#32 data = (st, v.auditStore a st (regAddr p o) data) := by
  have addr (w : Who) : s.writeAddr w (regAddr p o) 0xFFFFFFFF#32 data = s.writeBus w (regAddr p o) 0xFFFFFFFF#32 data :=
    if_pos (regAddr_inPages hw.page_lt hw.small)
  have answer := (s.busWrite_pageWord hw data (s.ownWho a p)).trans (State.writeAt_refused hw wrote refused rights)
  have write : s.writeBus (s.ownWho a p) (regAddr p o) 0xFFFFFFFF#32 data = (st, v) := by
    generalize hf : State.writeBus = writeBus
    delta State.writeBus at hf
    generalize State.busWrite = busWrite at answer hf
    subst hf
    beta_reduce
    rw [answer]
    exact congrArg (Prod.mk st) (if_neg refused)
  unfold State.storeWord
  rw [regAddr_page hw.small, addr]
  generalize State.auditStore = auditStore
  generalize State.mirrorWrite = mirrorWrite
  rw [write]
  exact congrArg (Prod.mk st) (if_neg refused)

/-- A write that is answered is recorded: after the records, what they cannot change holds on. -/
theorem State.storeWord_recorded (wrote : s.wordWrite a r p o data = (st, v))
    (rights : s.mayWrite (s.agentRights a p) p o 0xFFFFFFFF#32 data = true) :
    ∃ t, s.storeWord a (regAddr p o) 0xFFFFFFFF#32 data = (st, t) ∧ ∀ R : State → Prop, Unrecorded R → R v → R t := by
  by_cases accepted : st = .ok
  · subst accepted
    exact ⟨_, State.storeWord_wrote hw wrote rights, fun R U h => U.storeRecords h⟩
  · exact ⟨_, State.storeWord_refused hw wrote accepted rights, fun R U h => U.auditStore h⟩

/-- The body of `State.coreStore` is unfolded through a variable, as in `State.coreStore_wrote`. -/
theorem State.coreStore_of_storeWord {k : Fin 4} (runs : s.cp.halted.any (fun e => e.1 == k.val) = false)
    (store : s.storeWord (.core k) (regAddr p o) 0xFFFFFFFF#32 data = (st, t)) (quiet : st ≠ .accessFault) :
    s.coreStore k (regAddr p o) .word (data.setWidth 64) = (st, t) := by
  have page := regAddr_page (p := p) hw.small
  have inside := regAddr_inPages hw.page_lt hw.small
  have aligned : accAligned .word (regAddr p o) = true := decide_eq_true (regAddr_aligned hw.aligned)
  rw [← s.corePages_pageWord hw (.core k) data] at store
  generalize hf : State.coreStore = coreStore
  delta State.coreStore at hf
  subst hf
  beta_reduce
  generalize regAddr p o = addr at page inside aligned store ⊢
  simp only [runs, page, inside, aligned, hw.page, Bool.not_true, Bool.false_eq_true, if_false, if_true, Option.isNone_some, store, quiet]

/-- A store that reaches a word closed to applications (R64) is the write of the word with records of it. -/
theorem State.store_closed (wrote : s.wordWrite a r p o data = (st, v)) (reaches : s.reaches a p o data) (closed : appClosed p = true)
    (quiet : st ≠ .accessFault) :
    ∃ t, s.store a (regAddr p o) .word (data.setWidth 64) = (st, t) ∧ ∀ R : State → Prop, Unrecorded R → R v → R t := by
  obtain ⟨powered, clocked, core, app, debug, rights⟩ := reaches
  obtain ⟨t, write, kept⟩ := State.storeWord_recorded hw wrote rights
  have same : (data.setWidth 64).setWidth 32 = data := BitVec.setWidth_setWidth_of_le data (by omega)
  have other : (regAddr p o != 0x400D1008) = true := bne_iff_ne.mpr hw.regAddr_ne
  have free : ¬ (s.inReset || (s.stands && a != .bellows)) = true := by
    rcases clocked with h | h <;> simp [powered, h]
  unfold State.store
  rw [other, Bool.and_true, if_neg free]
  cases a with
  | core k =>
    dsimp only
    rw [State.coreStore_of_storeWord hw (core k rfl) write quiet]
    exact ⟨_, rfl, fun R U h => Unrecorded.ite (kept R U h) (U.retired (kept R U h))⟩
  | app k =>
    obtain ⟨-, may⟩ := app k rfl
    rw [State.appMayStore, regAddr_page hw.small] at may
    simp [closed] at may
  | debug =>
    dsimp only
    rw [if_pos (debug rfl), same]
    exact ⟨_, write, kept⟩
  | i3c | mgmt | bellows =>
    dsimp only
    rw [same]
    exact ⟨_, write, kept⟩

end

/-! ### A commit of a key (R108, R109) -/

section
variable {s : State} {a : Agent} {role : BitVec 2}

theorem rolesRow : ∃ r, pageRow pgRoles = some r ∧ r.kind = .roles := ⟨_, rfl, rfl⟩

theorem State.touchPage_roles (s : State) (a : Agent) :
    s.touchPage a pgRoles = { s with lastLow := Store.erase (latchKey a.id pgRoles) s.lastLow } := rfl

/-- A write of COMMIT is a commit of the role that it names. -/
theorem State.wordWrite_keyCtrl {r : PageRow} (hr : r.kind = .roles) {st : Status} {t : State}
    (commit : (s.touchPage a pgRoles).keyCommit a role.toNat = (st, t)) :
    s.wordWrite a r pgRoles 0x1020 (word (role.toNat + 0x100)) = (st, if st = .ok then t.setReg pgRoles 0x1020 (word role.toNat) else t) := by
  have named : ∀ role : BitVec 2, fld (word (role.toNat + 0x100)) 1 0 = role.toNat ∧ bit (0xFFFFFFFF#32 &&& word (role.toNat + 0x100)) 8 = true := by
    decide
  obtain ⟨field, commits⟩ := named role
  have mirror : mirrorWord pgRoles 0x1020 = false := by decide
  have agent : (s.ownWho a pgRoles).agent = a := rfl
  unfold State.wordWrite
  generalize s.touchPage a pgRoles = u at commit ⊢
  unfold State.writeWord State.cfRefuses
  simp only [mirror, Bool.and_false, Bool.false_and, hr, Nat.reduceLT, decide_false, if_true, if_false, Bool.false_eq_true]
  unfold State.writeLive State.liveRoles
  simp only [agent, Nat.reduceLT, if_false, commits, and_self, if_true, blend_ones, field, commit]
  cases st <;> rfl

/-- A commit that KEY_CTRL refuses: of an all-zero installer key, or over a running one. -/
theorem State.keyCommit_refused (h : bit (s.reg pgRoles 0x2000) 0 = true ∨ (role.toNat = 1 ∧ s.stagedKey = 0)) :
    s.keyCommit a role.toNat = (.denied, s.orReg pgRoles 0x2000 0x100#32) := if_pos (.inr h.symm)

theorem State.keyCommit_begins (small : role.toNat < 2) (h : ¬ (bit (s.reg pgRoles 0x2000) 0 = true ∨ (role.toNat = 1 ∧ s.stagedKey = 0))) :
    s.keyCommit a role.toNat =
      (.ok, { s.orReg pgRoles 0x2000 1#32 with nvm := { s.nvm with keyJob := some (a, s.sessionOf a, role) } }) := by
  have same : BitVec.ofNat 2 role.toNat = role := by simp
  refine (if_neg ?_).trans (by rw [same])
  rintro (large | refused)
  · omega
  · exact h refused.symm

theorem keyCtrlWord {r : PageRow} (hr : pageRow pgRoles = some r) : PageWord pgRoles 0x1020 r := ⟨by decide, hr, by decide, by decide, by decide⟩

/-- A commit that reaches KEY_CTRL leaves the answer of `State.keyCommit`, with records of it. -/
theorem exec_keyCommit (reaches : s.reaches a pgRoles 0x1020 (word (role.toNat + 0x100))) {st : Status} {t : State}
    (commit : (s.touchPage a pgRoles).keyCommit a role.toNat = (st, t)) (quiet : st ≠ .accessFault) :
    ∃ u, exec (.keyCommit a role) s = .next u ∧
      ∀ R : State → Prop, Unrecorded R → R (if st = .ok then t.setReg pgRoles 0x1020 (word role.toNat) else t) → R u := by
  obtain ⟨r, row, kind⟩ := rolesRow
  obtain ⟨u, store, kept⟩ := State.store_closed (keyCtrlWord row) (State.wordWrite_keyCtrl kind commit) reaches (by decide) quiet
  exact ⟨u, congrArg (fun x : Status × State => Host.Outcome.next x.2) store, kept⟩

theorem State.bit_orReg (hs : Store.wf regReset s.regs = true) (p o : Nat) (m : Word) (i : Nat) :
    bit ((s.orReg p o m).reg p o) i = (bit (s.reg p o) i || bit m i) := by
  rw [State.orReg, State.updReg_eq, State.reg_setReg_self s _ _ _ hs, bit_or]

theorem State.leads_keyCommit_refused (hs : Store.wf regReset s.regs = true) (reaches : s.reaches a pgRoles 0x1020 (word (role.toNat + 0x100)))
    (refused : bit (s.reg pgRoles 0x2000) 0 = true ∨ (role.toNat = 1 ∧ s.stagedKey = 0)) :
    Leads (.keyCommit a role) s (fun t => t.nvm.keyJob = s.nvm.keyJob ∧ bit (t.reg pgRoles 0x2000) 8 = true) := by
  obtain ⟨u, run, kept⟩ := exec_keyCommit reaches (State.keyCommit_refused (s := s.touchPage a pgRoles) refused) (by decide)
  rw [if_neg (by decide)] at kept
  have touched : Store.wf regReset (s.touchPage a pgRoles).regs = true := hs
  have marked : Store.wf regReset ((s.touchPage a pgRoles).orReg pgRoles 0x2000 0x100#32).regs = true := Store.wf_put regReset _ _ _ touched
  refine ⟨u, run, kept _ (.keyJob _) (congrArg NvmSt.keyJob (State.orReg_nvm (s.touchPage a pgRoles) _ _ _)), ?_⟩
  rw [(kept _ (.tended _) (.refl marked)).words pgRoles 0x2000 (by decide) (by decide), State.bit_orReg touched]
  exact Bool.or_true _

/-- ROLES is busy with a commit (R108). -/
def State.committing (s : State) (job : Agent × Nat × BitVec 2) : State :=
  { s.orReg pgRoles 0x2000 1#32 with nvm := { s.nvm with keyJob := some job } }

theorem State.leads_keyCommit_begins (hs : Store.wf regReset s.regs = true) (reaches : s.reaches a pgRoles 0x1020 (word (role.toNat + 0x100)))
    (small : role.toNat < 2) (free : ¬ (bit (s.reg pgRoles 0x2000) 0 = true ∨ (role.toNat = 1 ∧ s.stagedKey = 0))) :
    Leads (.keyCommit a role) s (fun t => t.nvm.keyJob = some (a, s.sessionOf a, role) ∧ bit (t.reg pgRoles 0x2000) 0 = true) := by
  have session : (s.touchPage a pgRoles).sessionOf a = s.sessionOf a := by cases a <;> rfl
  obtain ⟨u, run, kept⟩ := exec_keyCommit (t := (s.touchPage a pgRoles).committing (a, s.sessionOf a, role)) reaches
    ((State.keyCommit_begins (s := s.touchPage a pgRoles) small free).trans (by rw [session]; rfl)) (by decide)
  rw [if_pos rfl] at kept
  have touched : Store.wf regReset (s.touchPage a pgRoles).regs = true := hs
  generalize s.touchPage a pgRoles = v at touched kept
  have busy : Store.wf regReset (v.committing (a, s.sessionOf a, role)).regs = true := Store.wf_put regReset _ _ _ touched
  have set : Store.wf regReset ((v.committing (a, s.sessionOf a, role)).setReg pgRoles 0x1020 (word role.toNat)).regs = true :=
    Store.wf_put regReset _ _ _ busy
  refine ⟨u, run, kept _ (.keyJob _) (congrArg NvmSt.keyJob (State.setReg_nvm _ _ _ _)), ?_⟩
  rw [(kept _ (.tended _) (.refl set)).words pgRoles 0x2000 (by decide) (by decide), State.reg_setReg_other _ _ busy (by decide)]
  exact (State.bit_orReg touched pgRoles 0x2000 1#32 0).trans (Bool.or_true _)

end
end Sys2Proof.Machine

namespace Sys2Proof.Machine

/-! ### The copies of a key (R107, R108) -/

/-- The value of a key's current copy. -/
def KeyPair.current (k : KeyPair) : BitVec 256 := if k.curB then k.b else k.a

theorem KeyPair.current_commit (k : KeyPair) (v : BitVec 256) (gen : Nat) : (k.commit v gen).current = v := by
  unfold KeyPair.commit
  split <;> rfl

theorem State.roleKey_operator (s : State) : s.roleKey 0 = s.nvm.opKey.current := rfl

theorem State.roleKey_installer (s : State) : s.roleKey 1 = s.nvm.instKey.current := rfl

/-- Of the state `base`, the state `s` has the role keys and the key change in progress. -/
structure SameKeys (base s : State) : Prop where
  opKey : s.nvm.opKey = base.nvm.opKey
  instKey : s.nvm.instKey = base.nvm.instKey
  keyJob : s.nvm.keyJob = base.nvm.keyJob

theorem SameKeys.trans {r s t : State} (h : SameKeys r s) (k : SameKeys s t) : SameKeys r t :=
  ⟨k.opKey.trans h.opKey, k.instKey.trans h.instKey, k.keyJob.trans h.keyJob⟩

theorem SameKeys.roleKey {s t : State} (h : SameKeys s t) (role : Nat) : t.roleKey role = s.roleKey role := by
  rw [State.roleKey, State.roleKey, h.opKey, h.instKey]

theorem SameKeys.of_nvm {s t : State} (h : t.nvm = s.nvm) : SameKeys s t :=
  ⟨congrArg NvmSt.opKey h, congrArg NvmSt.instKey h, congrArg NvmSt.keyJob h⟩

theorem State.sameKeys_audit (s : State) (r : AuditRec) : SameKeys s (s.audit r) := by
  unfold State.audit
  split <;> exact ⟨rfl, rfl, rfl⟩

section
variable {s t : State} {a b : Agent} {role : BitVec 2}

/-! ### The sessions that lose a right (R105, R108) -/

/-- An operation on the sessions from `base` to `s`: it leaves the role keys and every word that holds no session. -/
structure SessionsOnly (base s : State) : Prop where
  regs : Store.wf regReset s.regs = true
  words : ∀ p o, Sessionless p o → s.reg p o = base.reg p o
  keys : SameKeys base s

theorem SessionsOnly.trans {r : State} (h : SessionsOnly r s) (k : SessionsOnly s t) : SessionsOnly r t :=
  ⟨k.regs, fun p o free => (k.words p o free).trans (h.words p o free), h.keys.trans k.keys⟩

theorem State.sessionsOnly_setSession (hs : Store.wf regReset s.regs = true) (a : Agent) (n rights : Nat) :
    SessionsOnly s (s.setSession a n rights) := by
  refine ⟨?_, fun p o free => State.reg_setSession hs a n rights free.1 free.2, .of_nvm ?_⟩
  · cases a with
    | i3c | mgmt => exact Store.wf_put regReset _ _ _ hs
    | core k | app k | debug | bellows => exact hs
  · cases a with
    | i3c | mgmt => exact State.setReg_nvm s _ _ _
    | core k | app k | debug | bellows => rfl

theorem State.sessionsOnly_audit (hs : Store.wf regReset s.regs = true) (r : AuditRec) : SessionsOnly s (s.audit r) :=
  ⟨(congrArg (Store.wf regReset) (s.audit_regs r)).trans hs, fun p o _ => State.reg_congr (s.audit_regs r) p o, s.sameKeys_audit r⟩

theorem State.sessionsOnly_dropRight (hs : Store.wf regReset s.regs = true) (keep : Agent × Nat) (role : Nat) (a : Agent) :
    SessionsOnly s (s.dropRight keep role a) := by
  have same : SessionsOnly s s := ⟨hs, fun _ _ _ => rfl, .of_nvm rfl⟩
  have closed := State.sessionsOnly_setSession hs a 0 0
  have ended : SessionsOnly s (s.endSession a 4) := by
    unfold State.endSession
    dsimp only
    split
    · exact same
    · exact closed.trans (State.sessionsOnly_audit closed.regs _)
  unfold State.dropRight
  dsimp only
  split
  · exact same
  · split
    · exact ended
    · exact State.sessionsOnly_setSession hs _ _ _

/-- An agent's session is none of another's. -/
theorem State.setSession_other (hs : Store.wf regReset s.regs = true) (h : b ≠ a) (n rights : Nat) :
    (s.setSession a n rights).sessionOf b = s.sessionOf b ∧ (s.setSession a n rights).sessionRights b = s.sessionRights b := by
  cases a with
  | i3c =>
    have kept := State.reg_setReg_other s (word (n + rights * 0x10000)) hs (show regKey pgRoles 0x2010 ≠ regKey pgRoles 0x200C by decide)
    cases b with
    | i3c => exact absurd rfl h
    | mgmt => exact ⟨congrArg (fld · 15 0) kept, congrArg (fld · 18 16) kept⟩
    | core k | app k | debug | bellows => exact ⟨rfl, rfl⟩
  | mgmt =>
    have kept := State.reg_setReg_other s (word (n + rights * 0x10000)) hs (show regKey pgRoles 0x200C ≠ regKey pgRoles 0x2010 by decide)
    cases b with
    | i3c => exact ⟨congrArg (fld · 15 0) kept, congrArg (fld · 18 16) kept⟩
    | mgmt => exact absurd rfl h
    | core k | app k | debug | bellows => exact ⟨rfl, rfl⟩
  | debug =>
    cases b with
    | debug => exact absurd rfl h
    | i3c | mgmt | core k | app k | bellows => exact ⟨rfl, rfl⟩
  | core k | app k | bellows => exact ⟨rfl, rfl⟩

theorem State.dropRight_other (hs : Store.wf regReset s.regs = true) (h : b ≠ a) (keep : Agent × Nat) (role : Nat) :
    (s.dropRight keep role a).sessionOf b = s.sessionOf b ∧ (s.dropRight keep role a).sessionRights b = s.sessionRights b := by
  have closed := State.setSession_other hs h 0 0
  unfold State.dropRight State.endSession
  dsimp only
  split_ifs
  · exact ⟨rfl, rfl⟩
  · exact ⟨rfl, rfl⟩
  · have recorded := State.sameSessions_audit (s.setSession a 0 0)
    exact ⟨((recorded _).sessionOf b).trans closed.1, ((recorded _).sessionRights b).trans closed.2⟩
  · exact State.setSession_other hs h _ _

/-- An agent has no session with the role's right. -/
def State.WithoutRight (s : State) (role : Nat) (b : Agent) : Prop := s.sessionOf b = 0 ∨ s.sessionRights b &&& 2 ^ role = 0

theorem State.withoutRight_dropRight (hs : Store.wf regReset s.regs = true) {keep : Agent × Nat} {role : Nat} (small : role < 2) (framed : b.framed = true)
    (foreign : (b, s.sessionOf b) ≠ keep) : (s.dropRight keep role b).WithoutRight role b := by
  have lessened : ∀ role < 2, ∀ r < 8, r &&& 2 ^ role ≠ 0 → (r - 2 ^ role) &&& 2 ^ role = 0 := by decide
  have few := s.sessionRights_lt b
  unfold State.dropRight
  dsimp only
  split
  case isTrue kept =>
    rcases kept with none | committing | without
    · exact .inl none
    · exact absurd committing foreign
    · exact .inr without
  case isFalse held =>
    split
    · exact .inl (State.sessionOf_endSession hs b 4)
    · obtain ⟨-, rights⟩ := State.setSession_self hs framed (s.sessionOf_lt b) 
        (rights := s.sessionRights b - 2 ^ role) ((Nat.sub_le _ _).trans_lt few)
      refine .inr ?_
      rw [rights]
      exact lessened role small _ few fun without => held (.inr (.inr without))

/-- The role's right is taken from the hosts' sessions and the debug port's, but for the committing one. -/
def State.dropRights (s : State) (keep : Agent × Nat) (role : Nat) : State :=
  ((s.dropRight keep role .i3c).dropRight keep role .mgmt).dropRight keep role .debug

theorem State.sessionsOnly_dropRights (hs : Store.wf regReset s.regs = true) (keep : Agent × Nat) (role : Nat) :
    SessionsOnly s (s.dropRights keep role) := by
  have i3c := State.sessionsOnly_dropRight hs keep role .i3c
  have mgmt := State.sessionsOnly_dropRight i3c.regs keep role .mgmt
  exact (i3c.trans mgmt).trans (State.sessionsOnly_dropRight mgmt.regs keep role .debug)

theorem State.withoutRight_dropRights (hs : Store.wf regReset s.regs = true) {keep : Agent × Nat} {role : Nat} (small : role < 2)
    (host : b ∈ [Agent.i3c, .mgmt, .debug]) (foreign : (b, s.sessionOf b) ≠ keep) : (s.dropRights keep role).WithoutRight role b := by
  have i3c := State.sessionsOnly_dropRight hs keep role .i3c
  have mgmt := State.sessionsOnly_dropRight i3c.regs keep role .mgmt
  have first (h : b ≠ .i3c) := State.dropRight_other hs h keep role
  have second (h : b ≠ .mgmt) := State.dropRight_other i3c.regs h keep role
  have third (h : b ≠ .debug) := State.dropRight_other mgmt.regs h keep role
  simp only [List.mem_cons, List.not_mem_nil, or_false] at host
  rcases host with rfl | rfl | rfl
  · have own := State.withoutRight_dropRight hs small rfl foreign
    unfold State.WithoutRight State.dropRights
    rw [(third nofun).1, (third nofun).2, (second nofun).1, (second nofun).2]
    exact own
  · rw [← (first nofun).1] at foreign
    have own := State.withoutRight_dropRight i3c.regs small rfl foreign
    unfold State.WithoutRight State.dropRights
    rw [(third nofun).1, (third nofun).2]
    exact own
  · rw [← (first nofun).1, ← (second nofun).1] at foreign
    exact State.withoutRight_dropRight mgmt.regs small rfl foreign

/-! ### A commit completes (R108) -/

/-- Zeroes in the staging words that a list names. -/
theorem State.foldl_clear_spec (l : List Nat) (hs : Store.wf regReset s.regs = true) :
    let t := l.foldl (fun s i => s.setReg pgRoles (0x1000 + 4 * i) 0) s
    Store.wf regReset t.regs = true ∧ t.nvm = s.nvm ∧ t.host = s.host
      ∧ ∀ o, t.reg pgRoles o = if o ∈ l.map (0x1000 + 4 * ·) then 0 else s.reg pgRoles o := by
  induction l generalizing s with
  | nil => exact ⟨hs, rfl, rfl, fun o => by simp⟩
  | cons i l ih =>
    obtain ⟨regs, nvm, host, words⟩ := ih (s := s.setReg pgRoles (0x1000 + 4 * i) 0) (Store.wf_put regReset _ _ _ hs)
    refine ⟨regs, nvm.trans (State.setReg_nvm _ _ _ _), host.trans (State.setReg_host _ _ _ _), fun o => (words o).trans ?_⟩
    by_cases same : o = 0x1000 + 4 * i
    · subst same
      rw [State.reg_setReg_self s _ _ _ hs]
      simp
    · rw [State.reg_setReg_other s 0 hs fun e => same (by unfold regKey at e; omega)]
      simp [same]

/-- The new key in the copy that was not current, and the wear of its place (R107, R119). -/
def State.keyStored (s : State) (role : BitVec 2) : State :=
  let gen := (s.regFld pgRoles 0x2000 31 16 + 1) % 0x10000
  let place := if role = 0#2 then (if s.nvm.opKey.curB then 5 else 6) else (if s.nvm.instKey.curB then 7 else 9)
  State.noteWear { s with nvm :=
    if role = 0#2 then { s.nvm with opKey := s.nvm.opKey.commit s.stagedKey gen, keyJob := none }
    else { s.nvm with instKey := s.nvm.instKey.commit s.stagedKey gen, keyJob := none } } place

/-- KEY_STATUS, the staging words and the event KEY_CHANGED as a change completes. -/
def State.keyShown (s : State) (role : BitVec 2) (gen : Nat) (blank : Bool) : State :=
  let s := (s.setRegFld pgRoles 0x2000 31 16 gen).clrReg pgRoles 0x2000 1#32
  let s := s.updReg pgRoles 0x2000 (fun w => putBit w (1 + role.toNat) blank)
  ((List.range 8).foldl (fun s i => s.setReg pgRoles (0x1000 + 4 * i) 0) s).raise pgRoles 17

/-- What a completed change has stored and shown, before the sessions lose the right. -/
def State.keyChanged (s : State) (role : BitVec 2) : State :=
  (s.keyStored role).keyShown role ((s.regFld pgRoles 0x2000 31 16 + 1) % 0x10000) (s.stagedKey == 0)

theorem exec_keyCommitDone {ses : Nat} (clocked : s.stands = false) (working : s.safe pgPstore = false) (job : s.nvm.keyJob = some (a, ses, role)) :
    ∃ r : AuditRec, exec .keyCommitDone s = .next (((s.keyChanged role).audit r).dropRights (a, ses) role.toNat) := by
  refine ⟨(s.keyChanged role).auditRec a.id ((s.keyChanged role).agentRights a pgRoles) ((s.keyChanged role).sessionOf a) 0x08 0 pgRoles 0
    (word (role.toNat + (s.regFld pgRoles 0x2000 31 16 + 1) % 0x10000 * 0x10000)) 0, ?_⟩
  change execKeyCommitDone s = _
  rw [execKeyCommitDone, clocked, if_neg (by decide), job]
  dsimp only
  rw [working, if_neg (by decide)]
  rfl

/-- A write to a place of the store is counted, in the store and in PSTORE (R119). -/
theorem State.noteWear_spec (hs : Store.wf regReset s.regs = true) (k : Nat) :
    Store.wf regReset (s.noteWear k).regs = true ∧ RegsBut [pgPstore] s (s.noteWear k) ∧ (s.noteWear k).host = s.host
      ∧ SameKeys s (s.noteWear k) := by
  unfold State.noteWear
  extract_lets n _ worn most shown
  have shownRegs : Store.wf regReset shown.regs = true := Store.wf_put regReset _ _ _ hs
  have shownBut : RegsBut [pgPstore] s shown := RegsBut.setReg (t := worn) (fun _ _ _ _ _ => rfl) hs _ (by decide) (by decide)
  have shownHost : shown.host = s.host := State.setReg_host worn _ _ _
  have wornKeys : SameKeys s worn := ⟨rfl, rfl, rfl⟩
  have shownKeys : SameKeys s shown := wornKeys.trans (.of_nvm (State.setReg_nvm worn _ _ _))
  split
  · exact ⟨Store.wf_put regReset _ _ _ shownRegs, shownBut.setReg shownRegs _ (by decide) (by decide), (State.raise_host shown _ _).trans shownHost,
      shownKeys.trans (.of_nvm (State.raise_nvm shown _ _))⟩
  · exact ⟨shownRegs, shownBut, shownHost, shownKeys⟩

theorem role_cases (small : role.toNat < 2) : role = 0#2 ∨ role = 1#2 := by
  have all : ∀ role : BitVec 2, role.toNat < 2 → role = 0#2 ∨ role = 1#2 := by decide
  exact all role small

/-- The stored key is the role's current one; the other role's stays, and no change is in progress. -/
theorem State.keyStored_keys (hs : Store.wf regReset s.regs = true) (small : role.toNat < 2) :
    (s.keyStored role).roleKey role.toNat = s.stagedKey ∧ (s.keyStored role).roleKey (1 - role.toNat) = s.roleKey (1 - role.toNat)
      ∧ (s.keyStored role).nvm.keyJob = none := by
  unfold State.keyStored
  extract_lets gen place
  obtain rfl | rfl := role_cases small
  · rw [if_pos rfl]
    obtain ⟨-, -, -, keys⟩ := State.noteWear_spec
      (s := { s with nvm := { s.nvm with opKey := s.nvm.opKey.commit s.stagedKey gen, keyJob := none } }) hs place
    exact ⟨(congrArg KeyPair.current keys.opKey).trans (KeyPair.current_commit _ _ _), congrArg KeyPair.current keys.instKey, keys.keyJob⟩
  · rw [if_neg (by decide)]
    obtain ⟨-, -, -, keys⟩ := State.noteWear_spec
      (s := { s with nvm := { s.nvm with instKey := s.nvm.instKey.commit s.stagedKey gen, keyJob := none } }) hs place
    exact ⟨(congrArg KeyPair.current keys.instKey).trans (KeyPair.current_commit _ _ _), congrArg KeyPair.current keys.opKey, keys.keyJob⟩

/-- Of the registers, storing a key changes PSTORE's alone. -/
theorem State.keyStored_frame (hs : Store.wf regReset s.regs = true) (role : BitVec 2) :
    Store.wf regReset (s.keyStored role).regs = true ∧ RegsBut [pgPstore] s (s.keyStored role) ∧ (s.keyStored role).host = s.host := by
  unfold State.keyStored
  extract_lets gen place
  generalize (if role = 0#2 then _ else _ : NvmSt) = n
  obtain ⟨regs, but, host, -⟩ := State.noteWear_spec (s := { s with nvm := n }) hs place
  exact ⟨regs, but, host⟩

/-- KEY_STATUS as a change that completes leaves it (R108). -/
def keyStatus (w : Word) (role : BitVec 2) (gen : Nat) (blank : Bool) : Word :=
  putBit (setFld w 31 16 gen &&& ~~~1#32) (1 + role.toNat) blank

theorem keyStatus_spec (w : Word) (small : role.toNat < 2) {gen : Nat} (few : gen < 65536) (blank : Bool) :
    bit (keyStatus w role gen blank) 0 = false ∧ bit (keyStatus w role gen blank) (1 + role.toNat) = blank
      ∧ fld (keyStatus w role gen blank) 31 16 = gen := by
  have cleared : setFld w 31 16 gen &&& ~~~1#32 = putBit (setFld w 31 16 gen) 0 false := rfl
  unfold keyStatus
  rw [cleared]
  refine ⟨?_, bit_putBit_self _ _ _ (by omega), ?_⟩
  · rw [bit_putBit_other _ _ (by omega), bit_putBit_self _ _ _ (by decide)]
  · rw [fld_putBit_other _ _ _ _ _ (.inl (by omega)), fld_putBit_other _ _ _ _ _ (.inl (by decide)), fld_setFld_self _ _ _ _ (by decide) few]

/-- A word of ROLES changed is the word as changed, and no other word. -/
theorem State.updReg_roles_spec (hs : Store.wf regReset s.regs = true) (o : Nat) (f : Word → Word) :
    Store.wf regReset (s.updReg pgRoles o f).regs = true ∧ (s.updReg pgRoles o f).reg pgRoles o = f (s.reg pgRoles o)
      ∧ ∀ q, q ≠ o → (s.updReg pgRoles o f).reg pgRoles q = s.reg pgRoles q :=
  ⟨Store.wf_put regReset _ _ _ hs, State.reg_setReg_self _ _ _ _ hs,
    fun q away => State.reg_setReg_other s _ hs fun e => away (by unfold regKey at e; omega)⟩

theorem State.keyShown_spec (hs : Store.wf regReset s.regs = true) (role : BitVec 2) (gen : Nat) (blank : Bool) :
    let t := s.keyShown role gen blank
    Store.wf regReset t.regs = true ∧ t.nvm = s.nvm ∧ t.host = s.host
      ∧ t.reg pgRoles 0x2000 = keyStatus (s.reg pgRoles 0x2000) role gen blank
      ∧ (∀ i, i < 8 → t.reg pgRoles (0x1000 + 4 * i) = 0)
      ∧ t.reg pgRoles 0x200C = s.reg pgRoles 0x200C ∧ t.reg pgRoles 0x2010 = s.reg pgRoles 0x2010 := by
  obtain ⟨numberedRegs, numbered, numberedOther⟩ := State.updReg_roles_spec hs 0x2000 (fun w => setFld w 31 16 gen)
  obtain ⟨endedRegs, ended, endedOther⟩ := State.updReg_roles_spec numberedRegs 0x2000 (· &&& ~~~1#32)
  obtain ⟨flaggedRegs, flagged, flaggedOther⟩ := State.updReg_roles_spec endedRegs 0x2000 (fun w => putBit w (1 + role.toNat) blank)
  obtain ⟨clearRegs, clearNvm, clearHost, clear⟩ := State.foldl_clear_spec (List.range 8) flaggedRegs
  obtain ⟨regs, -, other⟩ := State.updReg_roles_spec clearRegs 0x14 (· ||| oneBit 17)
  have kept (o : Nat) (ho : o ≠ 0x14) (hc : o ∉ (List.range 8).map (0x1000 + 4 * ·)) (hf : o ≠ 0x2000) :
      (s.keyShown role gen blank).reg pgRoles o = s.reg pgRoles o :=
    (other o ho).trans ((clear o).trans ((if_neg hc).trans ((flaggedOther o hf).trans ((endedOther o hf).trans (numberedOther o hf)))))
  refine ⟨regs, ?_, ?_, ?_, fun i hi => ?_, kept _ (by decide) (by decide) (by decide), kept _ (by decide) (by decide) (by decide)⟩
  · exact (State.raise_nvm _ _ _).trans (clearNvm.trans ((State.updReg_nvm _ _ _ _).trans ((State.updReg_nvm _ _ _ _).trans (State.updReg_nvm s _ _ _))))
  · exact (State.raise_host _ _ _).trans
      (clearHost.trans ((State.updReg_host _ _ _ _).trans ((State.updReg_host _ _ _ _).trans (State.updReg_host s _ _ _))))
  · refine (other _ (by decide)).trans ((clear _).trans ((if_neg (by decide)).trans ?_))
    rw [flagged, ended, numbered]
    rfl
  · exact (other _ (by omega)).trans ((clear _).trans (if_pos (List.mem_map_of_mem (List.mem_range.mpr hi))))

/-- A blank flag is the role's bit of KEY_STATUS. -/
theorem State.keyBlank_iff (small : role.toNat < 2) : s.keyBlank role.toNat = bit (s.reg pgRoles 0x2000) (1 + role.toNat) := by
  obtain rfl | rfl := role_cases small <;> simp [State.keyBlank]

end

theorem State.keyChanged_spec {s : State} (hs : Store.wf regReset s.regs = true) {role : BitVec 2} (small : role.toNat < 2) :
    let u := s.keyChanged role
    Store.wf regReset u.regs = true ∧ SameSessions s u
      ∧ u.reg pgRoles 0x2000 = keyStatus (s.reg pgRoles 0x2000) role ((s.regFld pgRoles 0x2000 31 16 + 1) % 0x10000) (s.stagedKey == 0)
      ∧ (∀ i, i < 8 → u.reg pgRoles (0x1000 + 4 * i) = 0) ∧ u.roleKey role.toNat = s.stagedKey
      ∧ u.roleKey (1 - role.toNat) = s.roleKey (1 - role.toNat) ∧ u.nvm.keyJob = none := by
  obtain ⟨regs, but, host⟩ := State.keyStored_frame hs role
  obtain ⟨key, otherKey, done⟩ := State.keyStored_keys hs small
  have word (o : Nat) (ho : o < 0x10000) : (s.keyStored role).reg pgRoles o = s.reg pgRoles o := but pgRoles o (by decide) ho (by decide)
  unfold State.keyChanged
  generalize s.keyStored role = v at regs host key otherKey done word ⊢
  obtain ⟨shownRegs, nvm, shownHost, status, staging, i3c, mgmt⟩ :=
    State.keyShown_spec regs role ((s.regFld pgRoles 0x2000 31 16 + 1) % 0x10000) (s.stagedKey == 0)
  rw [word _ (by decide)] at status i3c mgmt
  have keys := SameKeys.of_nvm nvm
  have host := shownHost.trans host
  exact ⟨shownRegs, ⟨i3c, mgmt, congrArg HostSt.dbgSession host, congrArg HostSt.dbgRights host⟩, status, staging,
    (keys.roleKey _).trans key, (keys.roleKey _).trans otherKey, keys.keyJob.trans done⟩

/-- Settles O24: a commit is a store of KEY_CTRL (`exec_keyCommit`); its completion stores the key, shows it and takes the right from the others. -/
theorem keyChange : Obligations.KeyChange := by
  intro s a role canonical small
  have hs := canonical.regs
  refine ⟨fun reaches => ⟨State.leads_keyCommit_begins hs reaches small, State.leads_keyCommit_refused hs reaches⟩,
    fun ses clocked working job => ?_⟩
  obtain ⟨r, run⟩ := exec_keyCommitDone clocked working job
  obtain ⟨regs, sessions, status, staging, key, otherKey, done⟩ := State.keyChanged_spec hs small
  have recorded := State.sessionsOnly_audit regs r
  have left := recorded.trans (State.sessionsOnly_dropRights recorded.regs (a, ses) role.toNat)
  have status := (left.words pgRoles 0x2000 (by decide)).trans status
  obtain ⟨idle, blank, gen⟩ := keyStatus_spec (s.reg pgRoles 0x2000) small
    (Nat.mod_lt _ (by decide) : (s.regFld pgRoles 0x2000 31 16 + 1) % 0x10000 < 65536) (s.stagedKey == 0)
  refine ⟨_, run, (left.keys.roleKey _).trans key, left.keys.keyJob.trans done, ?_, ?_, fun i hi => ?_, ?_, (left.keys.roleKey _).trans otherKey,
    fun b host foreign => ?_⟩
  · rw [status, idle]
  · rw [State.regFld, status, gen]
  · refine (left.words pgRoles _ ?_).trans (staging i hi)
    unfold Sessionless regKey
    omega
  · rw [State.keyBlank_iff small, status, blank, beq_iff_eq]
  · have same := (sessions.trans (State.sameSessions_audit _ r)).sessionOf b
    exact State.withoutRight_dropRights recorded.regs small host (by rwa [same])

end Sys2Proof.Machine
